-- ==== Sys2Proof/Word.lean ====
section
/-!
DEFINITION. The word types of the part and their plainest arithmetic: bytes, registers, lanes.
Nothing here carries a meaning of its own; every rule of the spec is coded in Machine/.
-/

namespace Sys2Proof

/-- One byte of DRAM, operand cache or scratch. -/
abbrev Byte := BitVec 8

/-- A 32-bit register or lane. -/
abbrev Lane := BitVec 32

/-- A 64-bit register, hoop value or descriptor word. -/
abbrev Word := BitVec 64

end Sys2Proof
end

