-- ==== Sys2Proof/Machine/CommandTypes.lean ====
section
/-!
DEFINITION. The operand types of the commands: who issues an instruction, the messages and flits of a Kwadan port, the status of
an affinage job, and the readings of sensors and of the boot interface.
-/

namespace Sys2Proof

/-- Who issues a Spaith instruction (R314): stream `s` (0 CTL, 1 PRS, 2 VEC, 3 DM0, 4 DM1) of tensor core `c` of vat `v`,
or the bank unit behind logical index `a` of die `d` of vat `v`. -/
inductive IssueUnit where
  | core (v c s : Nat)
  | bank (v d a : Nat)
deriving DecidableEq, Repr

end Sys2Proof

namespace Sys2Proof.Machine

/-- Table 8.20's STATUS codes. -/
inductive JobStatus where
  | done | stale | badTier | dataError | range
deriving DecidableEq, Repr

/-- One page as a MIRROR_FULL, SPILL_PUT or SPILL_RETURN carries it. -/
structure PageImage where
  layer  : Nat
  page   : Nat
  tier   : Nat
  opened : Bool
  data   : List Byte
  scales : List Byte
deriving DecidableEq, Repr

/-- The header fields of a message about a context (Tables 17.3 and 17.4). -/
structure CtxHdr where
  domain    : Nat
  model     : Nat
  handle    : Nat
  seq       : Nat
  tokens    : Nat
  tail      : Nat
  tailCount : Nat
  oldest    : Nat
deriving DecidableEq, Repr

/-- R506: a committed token's S8 keys and values of one layer with their scales, at its place. -/
structure TokenKv where
  layer  : Nat
  page   : Nat
  place  : Nat
  data   : List Byte
  scales : List Byte
deriving DecidableEq, Repr

/-- R506: a planned job as a MIRROR_REVIEW names it: its B-profile entry, its layer and its page. -/
structure ReviewJob where
  kind  : Nat
  layer : Nat
  page  : Nat
deriving DecidableEq, Repr

/-- What R772's exchange finds of the peer: whether its chain leads to the Isaolori root, the fingerprint of its owner slot, its
POOL_ID and PKG, and its fused SVN. -/
structure PeerCheck where
  chain  : Bool
  finger : List Byte
  pool   : Nat
  pkg    : Nat
  svn    : Nat
deriving DecidableEq, Repr

/-- A DATA flit as it arrives (R765, R766): its 256 content bytes as the codewords leave them, and the symbol errors met in the even and the odd
codeword. -/
structure DataFlit where
  content : List Byte
  errors  : Nat × Nat
deriving DecidableEq, Repr

/-- What a flit of any type brings (R765, R767): its ACKSEQ, and the symbol errors met in its even and odd codeword. -/
structure FlitHead where
  ackseq : BitVec 16
  errors : Nat × Nat
deriving DecidableEq, Repr

/-- A NAK (R768): the FSEQ it names. -/
structure NakFlit where
  seq  : BitVec 16
  head : FlitHead
deriving DecidableEq, Repr

/-- A CREDIT flit (R775): the credits it returns. -/
structure CreditFlit where
  n    : BitVec 9
  head : FlitHead
deriving DecidableEq, Repr

/-- R684: the key of an IDE stream: CXL.cachemem in skid or containment mode, or PCIe. -/
inductive IdeKey where
  | cxl (skid : Bool) (key : List Byte)
  | pcie (key : List Byte)
deriving DecidableEq, Repr

/-- R659, R808: what the boot ROM meets in a firmware slot: an image it can verify, or one whose signatures fail, of a security version;
or no image it can read. -/
inductive FwSlot where
  | verified (svn : Nat)
  | badSignature (svn : Nat)
  | unreadable
deriving DecidableEq, Repr

/-- R736 to R741: a vat's power as the arbiter measures it, in tenths of a watt: its draw, the 100 µs average of it, what one more step of its
limit would add, and what boost would add. -/
structure VatDraw where
  draw  : Nat
  avg   : Nat
  step  : Nat
  boost : Nat
deriving DecidableEq, Repr

/-- R736, R744: one reading of the current sensors, in tenths of a watt: the hub's draw, the package's 100 µs average and each vat's. -/
structure PowerReading where
  hub  : Nat
  pkg  : Nat
  vats : List VatDraw
deriving DecidableEq, Repr

/-- R747: one reading of the temperature sensors, in °C: the hub's four, and each vat's 36, those of its DRAM core dies first, two for each die,
then its base die's four. -/
structure HeatReading where
  hub  : List Int
  vats : List (List Int)
deriving DecidableEq, Repr

/-- A sideband write of the reset key (Table 18.5, R850): the four bytes written, and whether the write carries no Packet Error Code or a
right one. -/
structure SidebandWrite where
  key : BitVec 32
  pec : Bool
deriving DecidableEq, Repr

end Sys2Proof.Machine
end

