-- ==== Sys2Proof/Syntax.lean ====
section
/-!
DEFINITION. The commands: one constructor for each row of spec/opcode_table.json, in the table's order, with the row's operands. A Spaith
instruction carries the unit that issues it and the 56 bits of its word below the opcode (Table 7.3); a command of the host, of a session or of a
port carries its fields; an event carries the unit that it befalls, and what comes from outside the part: a verdict of the rind, a reading of a
sensor, what a peer found.
-/

namespace Sys2Proof

open Sys2Proof.Machine in
/-- A command (spec/opcode_table.json). -/
inductive Instr where
  /-- NOP (R331): Flow instruction that does nothing for one issue cycle. -/
  | nop (u : IssueUnit) (ops : BitVec 56)
  /-- HALT (R338): Ends the stream, or the bank-unit program, once earlier instructions have completed. -/
  | halt (u : IssueUnit) (ops : BitVec 56)
  /-- LOOP (R345): Latches an unsigned count from CNT and opens a loop level over the following body. -/
  | loop (u : IssueUnit) (ops : BitVec 56)
  /-- CALL_L (R358): Pushes a frame and transfers control to a program-store address. -/
  | callL (u : IssueUnit) (ops : BitVec 56)
  /-- CALL_R (R358): Pushes a frame and transfers control to a Hykaley routine through the entry table. -/
  | callR (u : IssueUnit) (ops : BitVec 56)
  /-- LJMP (R362): Discards open loop levels, folds AI values into their bases and transfers to a library routine without a frame. -/
  | ljmp (u : IssueUnit) (ops : BitVec 56)
  /-- RET (R361): Pops a frame and restores the caller's loops and AI registers, or ends the stream when the return stack is empty. -/
  | ret (u : IssueUnit) (ops : BitVec 56)
  /-- BAR (R365): Stream barrier: the stream arrives once its earlier instructions complete and waits for every stream named in MASK. -/
  | bar (u : IssueUnit) (ops : BitVec 56)
  /-- AISET (R354): Replaces the base of an AI register. -/
  | aiset (u : IssueUnit) (ops : BitVec 56)
  /-- AISTEP (R354): Replaces one loop-depth step of an AI register. -/
  | aistep (u : IssueUnit) (ops : BitVec 56)
  /-- SKIP_Z (R333): Library-only instruction that pops A and skips the next instruction when the value is zero. -/
  | skipZ (u : IssueUnit) (ops : BitVec 56)
  /-- MOV (R378): Scalar move of a source plus a sign-extended immediate. -/
  | mov (u : IssueUnit) (ops : BitVec 56)
  /-- LUI (R378): Adds the immediate shifted left by 24 to a source. -/
  | lui (u : IssueUnit) (ops : BitVec 56)
  /-- LUI2 (R378): T profile only: adds the immediate shifted left by 48 to a source. -/
  | lui2 (u : IssueUnit) (ops : BitVec 56)
  /-- ADD (R378): Wrapping scalar addition. -/
  | add (u : IssueUnit) (ops : BitVec 56)
  /-- SUB (R378): Wrapping scalar subtraction. -/
  | sub (u : IssueUnit) (ops : BitVec 56)
  /-- MUL (R378): Low w bits of a scalar product. -/
  | mul (u : IssueUnit) (ops : BitVec 56)
  /-- AND (R378): Scalar bitwise AND. -/
  | and (u : IssueUnit) (ops : BitVec 56)
  /-- OR (R378): Scalar bitwise OR. -/
  | or (u : IssueUnit) (ops : BitVec 56)
  /-- XOR (R378): Scalar bitwise XOR. -/
  | xor (u : IssueUnit) (ops : BitVec 56)
  /-- SHL (R378): Scalar left shift by B' mod w. -/
  | shl (u : IssueUnit) (ops : BitVec 56)
  /-- SHR (R378): Scalar logical right shift. -/
  | shr (u : IssueUnit) (ops : BitVec 56)
  /-- SAR (R378): Scalar arithmetic right shift. -/
  | sar (u : IssueUnit) (ops : BitVec 56)
  /-- MIN (R378): Signed scalar minimum. -/
  | min (u : IssueUnit) (ops : BitVec 56)
  /-- MAX (R378): Signed scalar maximum. -/
  | max (u : IssueUnit) (ops : BitVec 56)
  /-- SLT (R378): Signed scalar less-than test. -/
  | slt (u : IssueUnit) (ops : BitVec 56)
  /-- SEQ (R378): Scalar equality test. -/
  | seq (u : IssueUnit) (ops : BitVec 56)
  /-- LD (R379): Scalar load from the operand cache (T profile) or the bank-unit address space (B profile). -/
  | ld (u : IssueUnit) (ops : BitVec 56)
  /-- ST (R379): Scalar store to the operand cache or the bank-unit address space. -/
  | st (u : IssueUnit) (ops : BitVec 56)
  /-- BLOAD (R339): Control stream issues a bank-unit program-store load to a die. -/
  | bload (u : IssueUnit) (ops : BitVec 56)
  /-- BSTART (R177): Control stream issues a start command to the bank units named in a mask on one die. -/
  | bstart (u : IssueUnit) (ops : BitVec 56)
  /-- BSTOP (R182): Stops the named bank-unit programs and discards their pending starts. -/
  | bstop (u : IssueUnit) (ops : BitVec 56)
  /-- BCAST (R189): Broadcasts a payload into the scratch of every active bank unit of a die. -/
  | bcast (u : IssueUnit) (ops : BitVec 56)
  /-- SWRITE (R381): Directed write into one bank unit's scratch through its TSV port. -/
  | swrite (u : IssueUnit) (ops : BitVec 56)
  /-- SREAD (R381): Copies one bank unit's scratch bytes into the operand cache. -/
  | sread (u : IssueUnit) (ops : BitVec 56)
  /-- MERGE (R253): Issues a merge command to the merge lane of a die. -/
  | merge (u : IssueUnit) (ops : BitVec 56)
  /-- HBAR (R368): Control stream arrives at a hub layer barrier and waits for it to complete. -/
  | hbar (u : IssueUnit) (ops : BitVec 56)
  /-- PASS (R283): Issues one press pass that loads a weight tile and streams activation rows into an accumulator set. -/
  | pass (u : IssueUnit) (ops : BitVec 56)
  /-- PCLR (R382): Clears an accumulator set and latches a tile exponent after earlier passes into that set. -/
  | pclr (u : IssueUnit) (ops : BitVec 56)
  /-- VCHAIN (R298): Runs one vector chain from its sources through its stages to its sink. -/
  | vchain (u : IssueUnit) (ops : BitVec 56)
  /-- VSMAX (R301): Runs the soft maximum over rows, reading each row three times. -/
  | vsmax (u : IssueUnit) (ops : BitVec 56)
  /-- VSET (R295): Sets VL, or broadcasts a scalar into the lanes of a vector register. -/
  | vset (u : IssueUnit) (ops : BitVec 56)
  /-- VRSCLR (R383): Sets every byte of VRS to zero. -/
  | vrsclr (u : IssueUnit) (ops : BitVec 56)
  /-- XFER (R385): Starts one DMA transfer from a source descriptor and a destination descriptor. -/
  | xfer (u : IssueUnit) (ops : BitVec 56)
  /-- SIGNAL (R388): Adds an amount to a sync object, faulting on underflow or overflow. -/
  | signal (u : IssueUnit) (ops : BitVec 56)
  /-- SIGNAL_APPLIED (R438): The sync unit applies the cycle's signals and then evaluates the watches. -/
  | signalApplied (v c : Nat) (mask : BitVec 5)
  /-- WAIT (R389): Registers a watch and holds the stream until the object meets the condition. -/
  | wait (u : IssueUnit) (ops : BitVec 56)
  /-- POLL (R441): Pushes a sync object's value to a scalar or hoop end. -/
  | poll (u : IssueUnit) (ops : BitVec 56)
  /-- HMOV (R390): Moves one hoop entry whole, poison included, from one hoop to another. -/
  | hmov (u : IssueUnit) (ops : BitVec 56)
  /-- HPUSH (R321): Pushes a popped value to a hoop as one entry. -/
  | hpush (u : IssueUnit) (ops : BitVec 56)
  /-- HPOP (R321): Pops one entry from a hoop or CPL and pushes its bytes 0 to 7 to D. -/
  | hpop (u : IssueUnit) (ops : BitVec 56)
  /-- FENCE (R426): Pushes a fence packet once the stream's earlier pushes have arrived. -/
  | fence (u : IssueUnit) (ops : BitVec 56)
  /-- HFLUSH (R428): Requests a flush of a hoop at its next packet boundary. -/
  | hflush (u : IssueUnit) (ops : BitVec 56)
  /-- BRD (R394): Requests a read slot of a row into a latch. -/
  | brd (u : IssueUnit) (ops : BitVec 56)
  /-- BWR (R394): Requests a write slot of a latch's written column words to a row. -/
  | bwr (u : IssueUnit) (ops : BitVec 56)
  /-- BCPY (R391): Copies 1 to 32 column words within the bank-unit address space. -/
  | bcpy (u : IssueUnit) (ops : BitVec 56)
  /-- BDOT (R397): Block-pair accumulation into 32-bit lanes. -/
  | bdot (u : IssueUnit) (ops : BitVec 56)
  /-- BALU (R397): Lane operation on 8 lanes. -/
  | balu (u : IssueUnit) (ops : BitVec 56)
  /-- BEXP (R397): Exponent stage on 8 Q16.16 lanes. -/
  | bexp (u : IssueUnit) (ops : BitVec 56)
  /-- BRED (R863): Reduces 8 lanes and a scalar by MAX, MIN or SUM. -/
  | bred (u : IssueUnit) (ops : BitVec 56)
  /-- BQUANT (R397): Quantises 32 lanes into one block. -/
  | bquant (u : IssueUnit) (ops : BitVec 56)
  /-- BDEC (R397): Decodes a block into 32 lanes. -/
  | bdec (u : IssueUnit) (ops : BitVec 56)
  /-- BWSEND (R196): Places a whey transfer in the bank unit's send queue. -/
  | bwsend (u : IssueUnit) (ops : BitVec 56)
  /-- BWSTAT (R863): Pushes the whey receive count or the send queue depth. -/
  | bwstat (u : IssueUnit) (ops : BitVec 56)
  /-- HOOP_ENTRY_AT_HEAD (R416): An entry reaches the head of a hoop, and a waiting pop is made in the next cycle. -/
  | hoopEntryAtHead (v c : Nat) (h : BitVec 4)
  /-- HOOP_PUSH_LANDS (R415): A push waiting on a full hoop lands when room reaches the tail. -/
  | hoopPushLands (v c t : Nat)
  /-- HOOP_MIDDLE_GROUP (R412): A group of entries is written to, or read back from, the spill region by row slots. -/
  | hoopMiddleGroup (v c : Nat) (h : BitVec 4) (write : Bool)
  /-- HUB_BARRIER_COMPLETE (R40): Every enrolled core has arrived and the hub layer barrier completes. -/
  | hubBarrierComplete (b : BitVec 4)
  /-- STALL_REPORT (R451): A stall condition has held for 2^THRESHOLD cycles, so the monitor writes a report and a log entry. -/
  | stallReport (v c : Nat)
  /-- PRESS_PASS_COMPLETE (R289): The last row of a pass lands in the accumulator set. -/
  | pressPassComplete (v c : Nat)
  /-- DMA_TRANSFER_COMPLETE (R307): The last write of a transfer lands and becomes visible. -/
  | dmaTransferComplete (v c : Nat) (e : Bool)
  /-- DMA_UNIT_FAULT (R150): A unit of a running transfer faults and the transfer stops precisely at that unit. -/
  | dmaUnitFault (v c : Nat) (e : Bool)
  /-- CHAIN_COMPLETE (R383): The last result of a chain or soft maximum reaches its sink. -/
  | chainComplete (v c : Nat)
  /-- SCRATCH_READ_COMPLETE (R274): The last byte of an SREAD is written into the operand cache. -/
  | scratchReadComplete (v c : Nat)
  /-- BU_START_ARRIVAL (R177): A start command reaches the die and the named bank units start, or report NOT_STARTED. -/
  | buStartArrival (v d : Nat)
  /-- PENDING_START_BEGIN (R179): A pending start begins in the cycle after the running program ends. -/
  | pendingStartBegin (v d a : Nat)
  /-- BU_PROGRAM_END (R858): A bank-unit program ends, faults or stops once its requested slots have ended. -/
  | buProgramEnd (v d a : Nat)
  /-- BU_COMPLETION_POST (R434): The base die posts an EACH or GROUP completion entry to CPL. -/
  | buCompletionPost (v d : Nat)
  /-- BU_PSTORE_LOAD (R341): A held program-store load is broadcast once every named bank unit is free. -/
  | buPstoreLoad (v d : Nat)
  /-- TSV_WRITE_LAND (R190): The beats of a broadcast or directed write land in scratch once the TSV channel is free. -/
  | tsvWriteLand (v d : Nat)
  /-- MERGE_BEGIN (R255): A queued merge begins on its lane, reads its image and attaches to the starts. -/
  | mergeBegin (v d : Nat)
  /-- MERGE_COMPLETE (R264): The merge combines the records, writes its outputs and posts its completion entry. -/
  | mergeComplete (v d : Nat)
  /-- WHEY_GRANT (R195): The whey bus grants the next transfer in round-robin order. -/
  | wheyGrant (v d : Nat)
  /-- WHEY_LAND (R197): The last byte of a whey transfer lands and BU_WHEY_RX increases. -/
  | wheyLand (v d : Nat)
  /-- ROW_SLOT_GRANT (R165): The bank arbiter grants the next row slot by class. -/
  | rowSlotGrant (v d b : Nat)
  /-- ROW_SLOT_END (R164): A row slot completes, so read data is valid in its latch or the row holds its new contents. -/
  | rowSlotEnd (v d b : Nat)
  /-- REFRESH (R165): The refresh interval expires and a bank takes its three refresh slots. -/
  | refresh (v d b : Nat)
  /-- SCRUB_PROMOTION (R167): A scrub request that has waited 1 ms is promoted to the base-die class. -/
  | scrubPromotion (v d b : Nat)
  /-- FENCE_TIMEOUT (R175): A fence is held for DIE_FENCE_TIMEOUT and the hub releases it. -/
  | fenceTimeout (v d b : Nat)
  /-- ARM (R214): Legacy command-line write with the ARM key, held for a later FIRE. -/
  | arm (v d a : Nat) (body : BitVec 480)
  /-- FIRE (R213): Legacy command-line write with the FIRE key that checks the held ARM and starts a row operation. -/
  | fire (v d a : Nat) (body : BitVec 480)
  /-- LEGACY_BAD_KEY (R214): A command-line write whose key is neither key sets BAD_KEY and discards any ARM held. -/
  | legacyBadKey (v d a : Nat)
  /-- ARM_LAPSED (R215): An ARM held for 1 ms without a FIRE is discarded. -/
  | armLapsed (v d a : Nat)
  /-- ROW_OPERATION_DONE (R210): A row operation completes its last row and sets its result. -/
  | rowOperationDone (v d a : Nat)
  /-- TAKEOVER_START (R202): A queued takeover trigger starts the copy into the chosen spare. -/
  | takeoverStart (v d : Nat)
  /-- TAKEOVER_EXCHANGE (R205): The last row is copied and the die exchanges the bank-map entries. -/
  | takeoverExchange (v d : Nat)
  /-- SPARE_COPY_FAULT (R713): A spare faults during COPYING, is retired, and the takeover restarts on the next spare. -/
  | spareCopyFault (v d : Nat)
  /-- SPARE_ZEROED (R201): A spare's zeroing ends and the spare enters CALIBRATING. -/
  | spareZeroed (v d q : Nat)
  /-- BU_CHECKER_TRIP (R710): A bank unit's internal checker trips with BU_INTERNAL and may trigger a takeover. -/
  | buCheckerTrip (v d b : Nat)
  /-- CORE_CHECKER_TRIP (R718): A core's press, vector or control checker trips and the core may be retired. -/
  | coreCheckerTrip (v c stream engine : Nat)
  /-- CXL_MEM_READ (R635): Host read of a line through a committed decoder. -/
  | cxlMemRead (line : BitVec 36)
  /-- CXL_MEM_WRITE (R633): Full-line host write, completed once it enters the write queue. -/
  | cxlMemWrite (line : BitVec 36) (data : BitVec 512) (poison : Bool)
  /-- CXL_MEM_PARTIAL_WRITE (R636): Host write that covers part of a column word, merged by a read slot and a write slot. -/
  | cxlMemPartialWrite (line : BitVec 36) (data : BitVec 512) (enables : BitVec 64) (poison : Bool)
  /-- HDM_DECODER_COMMIT (R616): The host commits an HDM decoder, which is checked against the required layout. -/
  | hdmDecoderCommit (n base skip size ways : Nat) (bi : Option Nat)
  /-- BI_RESPONSE (R631): The host's BIRsp arrives and releases the pending write to a host-cached block. -/
  | biResponse (line : Nat)
  /-- BI_TIMEOUT (R631): No BIRsp arrives within 100 µs, so the hub logs the timeout and reissues the snoop. -/
  | biTimeout (c : Nat)
  /-- LINK_RESET (R806): Hot reset, link disable or link loss resets only the link state. -/
  | linkReset
  /-- CONFIG_REQUEST (R810): PCIe configuration request, answered with Request Retry Status before 40 ms. -/
  | configRequest (n : BitVec 10)
  /-- IDENTIFY (R613): Mailbox Identify command. -/
  | identify
  /-- IDENTIFY_MEMORY_DEVICE (R614): Mailbox command that reports the volatile capacity. -/
  | identifyMemoryDevice
  /-- GET_SUPPORTED_LOGS (R613): Mailbox command that lists the supported logs. -/
  | getSupportedLogs
  /-- GET_LOG (R613): Mailbox command that returns the Command Effects Log. -/
  | getLog (cel : Bool) (offset len : Nat)
  /-- GET_EVENT_RECORDS (R707): Mailbox command that returns CXL event records. -/
  | getEventRecords (log : Nat)
  /-- CLEAR_EVENT_RECORDS (R707): Mailbox command that clears CXL event records without touching the error log. -/
  | clearEventRecords (log : Nat) (all : Bool) (handles : List Nat)
  /-- GET_HEALTH_INFO (R613): Mailbox health query. -/
  | getHealthInfo
  /-- GET_POISON_LIST (R708): Mailbox command that returns the DPAs of words the walker marked. -/
  | getPoisonList
  /-- MAILBOX_UNSUPPORTED (R613): Any other mailbox command completes with Unsupported. -/
  | mailboxUnsupported
  /-- GET_VERSION (R665): SPDM version request. -/
  | getVersion
  /-- GET_CAPABILITIES (R665): SPDM capabilities request. -/
  | getCapabilities
  /-- NEGOTIATE_ALGORITHMS (R665): SPDM algorithm negotiation. -/
  | negotiateAlgorithms
  /-- GET_DIGESTS (R665): SPDM certificate digests request. -/
  | getDigests
  /-- GET_CERTIFICATE (R665): SPDM certificate chain request for slot 0. -/
  | getCertificate (slot offset len : Nat)
  /-- CHALLENGE (R665): SPDM challenge request. -/
  | challenge (nonce : BitVec 256)
  /-- GET_MEASUREMENTS (R666): Returns signed measurements within 5 ms. -/
  | getMeasurements (index : Nat)
  /-- KEY_EXCHANGE (R665): Opens a secured session, refused as Busy beyond four sessions. -/
  | keyExchange
  /-- FINISH (R665): SPDM FINISH of a session handshake. -/
  | finish (i : Nat) (good : Bool)
  /-- HEARTBEAT (R665): SPDM session heartbeat. -/
  | heartbeat (i : Nat)
  /-- KEY_UPDATE (R665): SPDM session key update. -/
  | keyUpdate (i : Nat)
  /-- END_SESSION (R665): Ends a secured session. -/
  | endSession (i : Nat)
  /-- DOMAIN_CHALLENGE (R668): Returns a 32-byte nonce for binding. -/
  | domainChallenge (sec : Option Nat)
  /-- DOMAIN_BIND (R668): Binds the session to a domain on a valid signature over the nonce. -/
  | domainBind (sec : Option Nat) (domain alg : Nat) (good : Bool)
  /-- DOMAIN_KEY_SET (R670): Delivers a tenant DSK, held while a transaction names the domain. -/
  | domainKeySet (sec : Option Nat) (key : List Byte)
  /-- DOMAIN_KEY_ERASE (R670): Erases the tenant's DSK. -/
  | domainKeyErase (sec : Option Nat)
  /-- DOMAIN_KEY_WRAP (R672): Returns the blob of the held DSK. -/
  | domainKeyWrap (sec : Option Nat)
  /-- DEBUG_UNLOCK (R681): Grants debug scopes to a domain. -/
  | debugUnlock (sec : Option Nat) (scopes : Nat)
  /-- DEBUG_LOCK (R681): Revokes a domain's debug grants. -/
  | debugLock (sec : Option Nat)
  /-- PQ_QUOTE (R667): Returns a DevID-Q signature over a nonce and the measurements. -/
  | pqQuote (nonce : BitVec 256)
  /-- PQ_CERT (R667): Returns part of the DevID-Q certificate chain. -/
  | pqCert (offset : Nat)
  /-- OWNER_CLAIM (R657): Programs the owner fingerprint into slot 0 of an unowned part. -/
  | ownerClaim (sec : Option Nat) (finger : BitVec 384)
  /-- OWNER_TRANSFER (R657): Revokes the owner slot in use and programs the next. -/
  | ownerTransfer (sec : Option Nat) (finger : BitVec 384)
  /-- IDE_KEY_PROGRAM (R684): The host's key management programs or refreshes CXL or PCIe IDE keys. -/
  | ideKeyProgram (sec : Option Nat) (key : IdeKey)
  /-- BEGIN (R578): CI_CTL operation that opens a transaction with a copy of the state in force. -/
  | begin
  /-- STAGE (R580): Reads an image, checks its format, part, sequence and signatures, and stages it. -/
  | stage (verdicts : List Bool) (patch : Bool)
  /-- COMMIT (R581): Runs validation and admission, then starts the drain. -/
  | commit (force : Bool)
  /-- ROLLBACK (R582): Ends an OPEN transaction, or a COMMIT that has not reached its quiet point. -/
  | rollback
  /-- QUIET_POINT (R599): Every switched core is quiet, so the hub begins the apply. -/
  | quietPoint
  /-- APPLY_CYCLE (R602): All LCK fields change together, CI_STATE becomes IDLE, and streams start. -/
  | applyCycle
  /-- QUIET_TIMEOUT (R600): The quiet point has not come within CI_QUIET_TIMEOUT, so the COMMIT is refused or forced. -/
  | quietTimeout
  /-- JOB_ABORT (R550): Register write that aborts the matching jobs of a ring at one abort point. -/
  | jobAbort (ring : Nat)
  /-- SUBQ_PI_WRITE (R558): Producer-index write that announces records, ignored when out of range. -/
  | subqPiWrite (r : Nat) (value : BitVec 16)
  /-- SUBQ_ENABLE (R515): Writing ENABLE from 0 to 1 zeroes both indices of a submission ring. -/
  | subqEnable (r : Nat)
  /-- VRING_ENABLE (R555): Enabling a verdict ring sets its index to 0 and its phase to 1. -/
  | vringEnable (c : Nat)
  /-- VRING_CI_WRITE (R557): Consumer-index write that frees verdict-ring room, ignored when out of range. -/
  | vringCiWrite (c : Nat) (value : BitVec 16)
  /-- TAKEOVER (R710): FAIL_REQ kind 1 requests a takeover of an active index. -/
  | takeover (v d a : Nat)
  /-- RETIRE_PAGE (R717): FAIL_REQ kind that retires a physical page. -/
  | retirePage (v ppn : Nat)
  /-- REQUALIFY (R715): FAIL_REQ kind that tests a RETIRED spare slot. -/
  | requalify (v d a : Nat)
  /-- REQUALIFY_DONE (R715): The requalification test ends and the slot becomes READY or stays RETIRED. -/
  | requalifyDone (v d : Nat) (passed : Bool)
  /-- RETIRE_CORE (R718): FAIL_REQ kind that retires a tensor core. -/
  | retireCore (v c : Nat)
  /-- KW_PROMOTE (R783): Turns every STANDBY copy from a source package into a LIVE context. -/
  | kwPromote (source : BitVec 2) (force : Bool)
  /-- PKG_RESET (R799): Writing the key to PKG_RESET triggers a package reset. -/
  | pkgReset (key : BitVec 32)
  /-- PWR_CAP_WRITE (R743): Sets the power cap, clamping at the maximum or flagging CAP_UNMET below the minimum. -/
  | pwrCapWrite (w : BitVec 16)
  /-- KW_PORT_ENABLE (R771): Enables or disables a Kwadan port. -/
  | kwPortEnable (p : Nat) (on : Bool)
  /-- DBG_HALT (R683): Debug write that holds or releases the streams of the target core. -/
  | dbgHalt (mask : BitVec 5)
  /-- DBG_BU_HALT (R683): Debug write that holds or releases the bank units of the target's dies. -/
  | dbgBuHalt (mask : BitVec 4)
  /-- REGISTER_WRITE (R825): BAR0 write to a register with no row of its own, by its access types. -/
  | registerWrite (o : BitVec 28) (size : Nat) (full : Bool) (value : Word)
  /-- BAR0_READ_REFUSED (R824): A malformed BAR0 read returns zeros and is recorded in HUB_BAD_ACCESS. -/
  | bar0ReadRefused (o : BitVec 28) (n : Nat)
  /-- BAR0_READ_WAKE (R828): A read of a sleeping vat's block wakes the vat before it completes. -/
  | bar0ReadWake (o : BitVec 28) (n : Nat)
  /-- RECORD_ACCEPT (R518): The hub reads a record from a ring, assigns a tag, parses it and tokenises it. -/
  | recordAccept (r : Nat)
  /-- DIRECTORY_WALK_DONE (R468): A hot-directory miss's bucket reads return and the context is found or created. -/
  | directoryWalkDone (t : Nat)
  /-- JOB_DISPATCH (R542): The scheduler dispatches a ready job in deadline order as a job entry. -/
  | jobDispatch (v c : Nat)
  /-- RESULT_ENTRY (R538): A core's result entry reaches the hub. -/
  | resultEntry (v c : Nat)
  /-- CONTEXT_CLOSE (R474): A close takes its turn and frees the context's pages, entries and index. -/
  | contextClose (i : Nat)
  /-- IDLE_CLOSE (R531): A context idle longer than IDLE_MS is closed. -/
  | idleClose (i : Nat)
  /-- COMPLETION_RECORD_WRITE (R554): Writes a completion record into its verdict ring once there is room and the back-invalidation is answered. -/
  | completionRecordWrite (c : Nat)
  /-- VERDICT_COALESCE_TIMER (R561): COAL_TIME expires and the ring's MSI-X message is sent. -/
  | verdictCoalesceTimer (c : Nat)
  /-- AFFINAGE_JOB_RESULT (R485): The hub acts on an affinage job's final status. -/
  | affinageJobResult (n : Nat) (status : JobStatus)
  /-- MIGRATION_START (R509): The hub begins copying a context to a new home die. -/
  | migrationStart (i : Nat)
  /-- MIGRATION_SWITCH (R510): After the copy, holds the next job, recopies and switches the home. -/
  | migrationSwitch (i : Nat)
  /-- CAL_COMPARISON (R501): A comparison record is counted and the controller may adjust A6, A4 or CULL_MASS. -/
  | calComparison (record : BitVec 512)
  /-- PORT_STATE_ADVANCE (R771): A port moves through DETECT, TRAIN and ALIGN. -/
  | portStateAdvance (p : Nat) (lanes : BitVec 4)
  /-- AUTH_EXCHANGE (R772): Key exchange and peer checks complete and the port becomes ACTIVE or returns to DETECT. -/
  | authExchange (p : Nat) (c : PeerCheck)
  /-- AUTH_RETRY (R772): 1 s after an AUTH failure the port retries. -/
  | authRetry (p : Nat)
  /-- DATA_FLIT (R766): A DATA flit is received, checked, decrypted and delivered in order. -/
  | dataFlit (p : Nat) (f : DataFlit)
  /-- ACK (R767): An ACK flit frees replay-buffer flits. -/
  | ack (p : Nat) (h : FlitHead)
  /-- NAK (R768): A NAK makes the sender resend from the named FSEQ. -/
  | nak (p : Nat) (f : NakFlit)
  /-- CREDIT (R775): A CREDIT flit returns channel credits. -/
  | credit (p channel : Nat) (f : CreditFlit)
  /-- FLIT_ERROR (R768): An uncorrectable flit or CRC mismatch discards flits and sends a NAK. -/
  | flitError (p : Nat)
  /-- KW_AUTH_FAIL (R769): A flit whose GCM tag fails takes the port down. -/
  | kwAuthFail (p : Nat)
  /-- RETRAIN (R770): Eight resends or a lost lane lock retrain the port, keeping the replay buffer. -/
  | retrain (p : Nat) (lanes : BitVec 4)
  /-- KEY_REPLACE (R773): After 2^40 flits a new key exchange replaces the direction's key. -/
  | keyReplace (p : Nat)
  /-- MANIFEST_EXCHANGE (R774): At ACTIVE and at each apply cycle the hubs exchange domain manifests. -/
  | manifestExchange (p : Nat) (manifest : List Byte)
  /-- PORT_FAILOVER (R777): A port leaves ACTIVE and traffic moves to the next ACTIVE port with resends. -/
  | portFailover (p : Nat)
  /-- MIRROR_FULL (R778): Receipt of a whole context copy that replaces the mirror. -/
  | mirrorFull (p : Nat) (h : CtxHdr) (key : List Byte) (pages : List PageImage)
  /-- MIRROR_UPDATE (R778): Receipt of a committed token update, applied in sequence. -/
  | mirrorUpdate (p : Nat) (h : CtxHdr) (kv : List TokenKv)
  /-- MIRROR_REVIEW (R507): Receipt of the primary's review jobs, which the mirror applies. -/
  | mirrorReview (p : Nat) (h : CtxHdr) (jobs : List ReviewJob)
  /-- MIRROR_CLOSE (R782): Receipt of a close, which frees the mirror copy. -/
  | mirrorClose (p : Nat) (h : CtxHdr)
  /-- MIRROR_ACK (R780): Receipt of the highest sequence numbers the mirror has applied. -/
  | mirrorAck (p : Nat) (pairs : List (Nat × Nat))
  /-- MIRROR_GAP_TIMEOUT (R778): A sequence gap unfilled for 1 ms makes the mirror ask for MIRROR_FULL. -/
  | mirrorGapTimeout (i : Nat)
  /-- BACKLOG_RESEND (R781): The backlog falls below half and diverged contexts are resent as MIRROR_FULL. -/
  | backlogResend
  /-- SPILL_PUT (R786): Receipt of a spilled context, held in STANDBY or refused NO_ROOM. -/
  | spillPut (p : Nat) (h : CtxHdr) (key : List Byte) (pages : List PageImage)
  /-- SPILL_RECALL (R786): Receipt of a recall, answered with SPILL_RETURN. -/
  | spillRecall (p : Nat) (h : CtxHdr)
  /-- SPILL_RETURN (R787): Receipt of a returned context, which is homed again and set LIVE. -/
  | spillReturn (p : Nat) (h : CtxHdr) (pages : List PageImage)
  /-- SPILL_ACK (R785): Receipt of the holder's answer, which sets SPILLED or leaves eviction to proceed. -/
  | spillAck (p : Nat) (h : CtxHdr) (result : BitVec 8)
  /-- SPILL_LOST (R788): A holder unreachable for LOST_MS closes its spilled contexts. -/
  | spillLost (i : Nat)
  /-- FWD_JOB (R790): Receipt of a forwarded record, accepted as a local job. -/
  | fwdJob (p seq budget cls : Nat) (record : List Byte)
  /-- FWD_RESULT (R791): Receipt of a forwarded job's completion, written as the local completion record. -/
  | fwdResult (p seq : Nat) (record : BitVec 256)
  /-- FWD_ABORT (R792): Receipt of an abort for forwarded jobs with a cookie. -/
  | fwdAbort (p : Nat) (cookie : BitVec 64)
  /-- FORWARD_LOST (R793): All ports to the peer down for 1 ms end outstanding forwarded jobs. -/
  | forwardLost (pkg : Nat)
  /-- ARBITER_TICK (R736): Once per microsecond the arbiter sets each vat's mode and issue limit. -/
  | arbiterTick (r : PowerReading)
  /-- THERMAL_SAMPLE (R747): Every sensor is sampled each microsecond, setting hot refresh where needed. -/
  | thermalSample (r : HeatReading)
  /-- VAT_SLEEP (R728): A vat idle for SLEEP_IDLE_US enters self-refresh. -/
  | vatSleep (v : Nat)
  /-- WAKE_REQUEST (R730): A request for a sleeping vat starts its wake. -/
  | wakeRequest (v : Nat)
  /-- VAT_AWAKE (R731): The wake ends and the waiting requests proceed. -/
  | vatAwake (v : Nat)
  /-- DROOP (R735): A supply droop at boost stretches the next core clock edge. -/
  | droop (v : Nat)
  /-- THERMAL_TRIP (R752): A sensor at 110 °C stops the package and asserts THERMTRIP#. -/
  | thermalTrip (hub : Bool) (v die index temp : Nat)
  /-- BRINE_VISIT (R693): The walker's interval expires and it reads a row, rewriting or marking words. -/
  | brineVisit (v : Nat)
  /-- LOG_ENTRY_WRITE (R703): The log writer takes a queued occurrence and coalesces it, writes it or counts an overflow. -/
  | logEntryWrite
  /-- LOG_IRQ (R706): IRQ_GAP_US has passed with a new entry at or above the minimum severity, so vector 16 is sent. -/
  | logIrq
  /-- VAT_HEARTBEAT_LOSS (R721): No heartbeat for 10 µs declares the vat lost. -/
  | vatHeartbeatLoss (v : Nat)
  /-- HUB_SRAM_UE (R709): An uncorrectable hub SRAM error invalidates a hot-directory set or stops the hub. -/
  | hubSramUe (hotdir : Bool) (n : Nat)
  /-- CAVE_RESET (R796): The standby supply returns within limits and every Cave field takes zero. -/
  | caveReset
  /-- POWER_ON_RESET (R797): PERST# is deasserted after the main supplies come up. -/
  | powerOnReset
  /-- SUPPLY_LOSS (R798): A main supply leaves its window and the part stops. -/
  | supplyLoss (group : BitVec 4)
  /-- PERST_ASSERT (R799): PERST# is asserted with the supplies up, starting a package reset. -/
  | perstAssert
  /-- FIRMWARE_VERIFY (R659): The boot ROM reads and verifies the rind firmware from slot 0, falling back to slot 1. -/
  | firmwareVerify (slot0 slot1 : FwSlot)
  /-- DIE_TRAINING (R809): TSV and DRAM training ends, and a die that fails twice loses its vat. -/
  | dieTraining (failed : List Nat)
  /-- BOOT_SCRUB (R677): Power-on scrub of every row when TENANT_SEEN is set. -/
  | bootScrub
  /-- DIRECTORY_CLEAR (R803): After a package reset the directory and context records are zeroed. -/
  | directoryClear
  /-- BOOT_READY (R807): Boot reaches READY and Memory_Active is set. -/
  | bootReady
  /-- TSV_CALIBRATION (R817): Period or temperature change triggers a lane-by-lane TSV recalibration. -/
  | tsvCalibration (v d : Nat) (temp : Int) (failed : List (BitVec 8))
  /-- TAMPER (R679): Mesh, supply, clock or cold tamper erases keys, stops work and zeroises memory. -/
  | tamper (causes : BitVec 4)
  /-- CAVE_STATUS (R821): Sideband read of the cave status byte. -/
  | caveStatus
  /-- TRIP (R821): Sideband read of PWR_TRIP. -/
  | trip
  /-- LOG (R821): Sideband read of the log indexes. -/
  | log
  /-- SIDEBAND_TAMPER (R821): Sideband read of RIND_TAMPER. -/
  | sidebandTamper
  /-- SIDEBAND_PKG_RESET (R821): Sideband write of the key, triggering a package reset. -/
  | sidebandPkgReset (w : SidebandWrite)
  /-- STANDBY_SUPPLY_LOSS (R796): The standby supply leaves its limits and the whole part stops, cave included. -/
  | standbySupplyLoss
  /-- PACKAGE_RESET_END (R799): A package reset ends at the deassertion of PERST#, or after 1 ms for a register or sideband trigger, and the package-reset boot begins. -/
  | packageResetEnd
  /-- HOST_LINK_TRAINED (R810): The host link completes training at a rate and width and HOST_LINK_STATUS reports it. -/
  | hostLinkTrained (rate width : Nat) (flit256 latopt : Bool)
  /-- RETRAIN_END (R770): A retraining Kwadan port returns to ACTIVE with new keys, or falls back to DETECT after 20 ms. -/
  | retrainEnd (p : Nat)
  /-- BASE_DIE_INTERNAL_ERROR (R721): A vat's base die reports an uncorrectable internal error and the hub declares the vat lost. -/
  | baseDieInternalError (v : Nat)
  /-- VAT_ASLEEP (R728): A vat's entry into self-refresh completes and VAT_PWR.STATE passes from ENTERING to ASLEEP. -/
  | vatAsleep (v : Nat)
deriving DecidableEq, Repr

end Sys2Proof
end

