-- ==== Sys2Proof/Decode.lean ====
section
/-!
DEFINITION. spec/opcode_table.json gives none of its rows any bits, so no word spells a command of the table's own numbering. What the spec does
give bits are the Spaith instructions (R329, Tables 7.3 to 8.16): the class and the opcode of a 64-bit word, and the command that it is.
-/

namespace Sys2Proof

/-- The command that a word of `nbits` bits spells by the table's bits: none, since no row has any. -/
def decodeTableWord (_nbits _w : Nat) : Option Instr := none

/-- R329, Table 7.3: the class of an instruction word, bits [63:61]. -/
def classOfWord (w : BitVec 64) : Nat := (w.extractLsb' 61 3).toNat

/-- R329, Table 7.4: the opcode of an instruction word, bits [63:56], and the other 56 bits, which its form lays out. -/
def opcodeOfWord (w : BitVec 64) : Nat := (w.extractLsb' 56 8).toNat
def operandsOfWord (w : BitVec 64) : BitVec 56 := w.extractLsb' 0 56

/-- R329: the word of an opcode and the other 56 bits. -/
def wordOf (op : Nat) (ops : BitVec 56) : BitVec 64 := BitVec.ofNat 64 (op * 2 ^ 56 + ops.toNat)

/-- R329, R331: the flow and index instructions (class 0). -/
def flowOfWord (u : IssueUnit) (op : Nat) (ops : BitVec 56) : Option Instr :=
  match op with
  | 0x01 => some (.nop u ops)
  | 0x02 => some (.halt u ops)
  | 0x03 => some (.loop u ops)
  | 0x04 => some (.callL u ops)
  | 0x05 => some (.callR u ops)
  | 0x06 => some (.ljmp u ops)
  | 0x07 => some (.ret u ops)
  | 0x08 => some (.bar u ops)
  | 0x09 => some (.aiset u ops)
  | 0x0A => some (.aistep u ops)
  | 0x0B => some (.skipZ u ops)
  | _ => none

/-- R329: the scalar instructions, moves, loads and stores (class 1). -/
def scalarOfWord (u : IssueUnit) (op : Nat) (ops : BitVec 56) : Option Instr :=
  match op with
  | 0x20 => some (.mov u ops)
  | 0x21 => some (.lui u ops)
  | 0x22 => some (.lui2 u ops)
  | 0x23 => some (.add u ops)
  | 0x24 => some (.sub u ops)
  | 0x25 => some (.mul u ops)
  | 0x26 => some (.and u ops)
  | 0x27 => some (.or u ops)
  | 0x28 => some (.xor u ops)
  | 0x29 => some (.shl u ops)
  | 0x2A => some (.shr u ops)
  | 0x2B => some (.sar u ops)
  | 0x2C => some (.min u ops)
  | 0x2D => some (.max u ops)
  | 0x2E => some (.slt u ops)
  | 0x2F => some (.seq u ops)
  | 0x30 => some (.ld u ops)
  | 0x31 => some (.st u ops)
  | _ => none

/-- R329: the base-die and hub commands (class 2). -/
def baseOfWord (u : IssueUnit) (op : Nat) (ops : BitVec 56) : Option Instr :=
  match op with
  | 0x40 => some (.bload u ops)
  | 0x41 => some (.bstart u ops)
  | 0x42 => some (.bstop u ops)
  | 0x43 => some (.bcast u ops)
  | 0x44 => some (.swrite u ops)
  | 0x45 => some (.sread u ops)
  | 0x46 => some (.merge u ops)
  | 0x47 => some (.hbar u ops)
  | _ => none

/-- R329: the press, vector and DMA instructions (classes 3 to 5). -/
def engineOfWord (u : IssueUnit) (op : Nat) (ops : BitVec 56) : Option Instr :=
  match op with
  | 0x60 => some (.pass u ops)
  | 0x61 => some (.pclr u ops)
  | 0x80 => some (.vchain u ops)
  | 0x81 => some (.vsmax u ops)
  | 0x82 => some (.vset u ops)
  | 0x83 => some (.vrsclr u ops)
  | 0xA0 => some (.xfer u ops)
  | _ => none

/-- R329: the sync, hoop and FENCE instructions (class 6). -/
def syncOfWord (u : IssueUnit) (op : Nat) (ops : BitVec 56) : Option Instr :=
  match op with
  | 0xC0 => some (.signal u ops)
  | 0xC1 => some (.wait u ops)
  | 0xC2 => some (.poll u ops)
  | 0xC3 => some (.hmov u ops)
  | 0xC4 => some (.hpush u ops)
  | 0xC5 => some (.hpop u ops)
  | 0xC6 => some (.fence u ops)
  | 0xC7 => some (.hflush u ops)
  | _ => none

/-- R329: the bank-unit instructions (class 7). -/
def bankOfWord (u : IssueUnit) (op : Nat) (ops : BitVec 56) : Option Instr :=
  match op with
  | 0xE0 => some (.brd u ops)
  | 0xE1 => some (.bwr u ops)
  | 0xE2 => some (.bcpy u ops)
  | 0xE3 => some (.bdot u ops)
  | 0xE4 => some (.balu u ops)
  | 0xE5 => some (.bexp u ops)
  | 0xE6 => some (.bred u ops)
  | 0xE7 => some (.bquant u ops)
  | 0xE8 => some (.bdec u ops)
  | 0xE9 => some (.bwsend u ops)
  | 0xEA => some (.bwstat u ops)
  | _ => none

/-- R329, Table 7.3: the command that an instruction word is, in unit `u`; `none` for a reserved opcode. -/
def instrOfWord (u : IssueUnit) (w : BitVec 64) : Option Instr :=
  match classOfWord w with
  | 0 => flowOfWord u (opcodeOfWord w) (operandsOfWord w)
  | 1 => scalarOfWord u (opcodeOfWord w) (operandsOfWord w)
  | 2 => baseOfWord u (opcodeOfWord w) (operandsOfWord w)
  | 3 | 4 | 5 => engineOfWord u (opcodeOfWord w) (operandsOfWord w)
  | 6 => syncOfWord u (opcodeOfWord w) (operandsOfWord w)
  | _ => bankOfWord u (opcodeOfWord w) (operandsOfWord w)

end Sys2Proof
end

