-- ==== Sys2Proof/Machine/Numbers.lean ====
section
/-!
DEFINITION. The arithmetic of spec/02_numbers_and_formats.md: rounding, element formats, SC16 scales, quantisation,
accumulation, vector lanes, the two lookup stages and the soft maximum. Every function is exact integer arithmetic,
narrowed once at its end, and depends on its operands alone (R53).
-/

namespace Sys2Proof.Machine

/-! ### Rounding and limits -/

/-- R54: the quotient `n / d` rounded to the nearest integer, ties to the even one. A zero divisor gives zero. -/
def roundDiv (n : Int) (d : Nat) : Int :=
  if d = 0 then 0 else
  let q := Int.fdiv n d
  let r := n - q * d
  if 2 * r < d then q
  else if 2 * r > d then q + 1
  else if q % 2 = 0 then q else q + 1

/-- R54: `n × 2^e`, exact for `e ≥ 0`, rounded to nearest even otherwise. -/
def roundScale (n : Int) (e : Int) : Int :=
  if 0 ≤ e then n * 2 ^ e.toNat else roundDiv n (2 ^ (-e).toNat)

/-- A value limited to `[lo, hi]`, with whether the limit acted. -/
def clampTo (lo hi x : Int) : Int × Bool :=
  if x < lo then (lo, true) else if hi < x then (hi, true) else (x, false)

/-- The least value of a signed format of `w` bits. -/
def minOf (w : Nat) : Int := -(2 ^ (w - 1))

/-- The greatest value of a signed format of `w` bits. -/
def maxOf (w : Nat) : Int := 2 ^ (w - 1) - 1

/-- R83: a value limited to the signed range of `w` bits, with whether it was clamped. -/
def clampBits (w : Nat) (x : Int) : Int × Bool := clampTo (minOf w) (maxOf w) x

/-- A natural number read as a signed value of `w` bits. -/
def signedOf (w : Nat) (n : Nat) : Int := (BitVec.ofNat w n).toInt

/-- The low `w` bits of an integer, as a natural number. -/
def bitsOf (w : Nat) (x : Int) : Nat := (BitVec.ofInt w x).toNat

/-- Little-endian value of a list of bytes (the first byte is the least significant). -/
def leNat : List Byte → Nat
  | [] => 0
  | b :: bs => b.toNat + 256 * leNat bs

/-- The `n` little-endian bytes of a value. -/
def leBytes : Nat → Nat → List Byte
  | 0, _ => []
  | n + 1, x => BitVec.ofNat 8 x :: leBytes n (x / 256)

/-- One byte of a packet. -/
def byteAt (bs : List Byte) (o : Nat) : Nat := (bs.getD o 0).toNat

/-- The little-endian field in bytes `[lo, hi)` of a record (R11). -/
def recField (bs : List Byte) (lo hi : Nat) : Nat := leNat ((bs.drop lo).take (hi - lo))

/-! ### Element formats (Table 2.1) -/

/-- The formats a descriptor or a block may name (Table 3.1). -/
inductive Fmt where
  | s8 | s6 | s4 | raw8 | i16 | i32 | a48
deriving DecidableEq, Repr

/-- A format of Table 2.1, whose elements share one SC16 scale per block of 32. -/
def Fmt.isBlock : Fmt → Bool
  | .s8 | .s6 | .s4 => true
  | _ => false

/-- Bits of one element. -/
def Fmt.bits : Fmt → Nat
  | .s8 => 8 | .s6 => 6 | .s4 => 4 | .raw8 => 8 | .i16 => 16 | .i32 => 32 | .a48 => 48

/-- R66: the qmax of a block format. -/
def Fmt.qmax : Fmt → Int
  | .s8 => 127 | .s6 => 31 | .s4 => 7 | _ => 0

/-- Table 3.1: bytes of one unit (a whole block for S8, S6 and S4, one element otherwise). -/
def Fmt.unitBytes : Fmt → Nat
  | .s8 => 32 | .s6 => 24 | .s4 => 16 | .raw8 => 1 | .i16 => 2 | .i32 => 4 | .a48 => 8

/-- Table 3.1: bytes of one row of 32 elements of a tile. -/
def Fmt.rowBytes : Fmt → Nat
  | .s8 => 32 | .s6 => 24 | .s4 => 16 | .raw8 => 32 | .i16 => 64 | .i32 => 128 | .a48 => 256

/-- Table 3.1: bytes of a 32 × 32 tile. -/
def Fmt.tileBytes (f : Fmt) : Nat := 32 * f.rowBytes

/-- Table 3.1's format codes; 0x7 to 0xF are reserved. -/
def Fmt.ofCode : Nat → Option Fmt
  | 0 => some .s8 | 1 => some .s6 | 2 => some .s4 | 3 => some .raw8
  | 4 => some .i16 | 5 => some .i32 | 6 => some .a48 | _ => none

/-- R56 to R58: element `i` of a block whose bytes, little-endian, are the number `n`. S8 elements are bytes, S6
elements are six-bit fields (four to a 24-bit group) and S4 elements are four-bit fields, all least significant
first, so each packing is a run of `bits`-wide fields of one little-endian number. -/
def elemAt (f : Fmt) (n i : Nat) : Int := signedOf f.bits (n >>> (f.bits * i))

/-- The 32 codes of a block held in `bytes`. -/
def unpackBlock (f : Fmt) (bytes : List Byte) : List Int :=
  (List.range 32).map (elemAt f (leNat bytes))

/-- The number whose little-endian bytes hold the codes given, first code least significant. -/
def packNat (f : Fmt) : List Int → Nat
  | [] => 0
  | c :: cs => bitsOf f.bits c + 2 ^ f.bits * packNat f cs

/-- R56 to R58: the bytes of a block of 32 codes. -/
def packBlock (f : Fmt) (codes : List Int) : List Byte := leBytes f.unitBytes (packNat f codes)

/-! ### SC16 scales (R62 to R65) -/

/-- R62: the exponent field of a scale. -/
def scaleExp (s : Nat) : Nat := (s / 256) % 256

/-- R62: the fraction field of a scale. -/
def scaleFrac (s : Nat) : Nat := s % 256

/-- R63: the codes a block holds as numbers: all zero when the scale's exponent is zero. -/
def effectiveCodes (s : Nat) (codes : List Int) : List Int :=
  if scaleExp s = 0 then codes.map (fun _ => 0) else codes

/-- R60: the exact value of a code under a scale is the result times `2^(e − 135)`, `e` the scale's exponent. -/
def codeMant (s : Nat) (c : Int) : Int := if scaleExp s = 0 then 0 else c * (256 + scaleFrac s)

/-! ### Quantisation (R66 to R68) -/

/-- Smallest exponent field from `e` on, trying `fuel` of them, with `511 × 2^(e−135) × qmax ≥ amax × 2^k`. -/
def findExp (qmax amax : Nat) (k : Int) : Nat → Nat → Option Nat
  | 0, _ => none
  | fuel + 1, e =>
    let d : Int := (e : Int) - 135 - k
    let big := if 0 ≤ d then decide (amax ≤ 511 * qmax * 2 ^ d.toNat) else decide (amax * 2 ^ (-d).toNat ≤ 511 * qmax)
    if big then some e else findExp qmax amax k fuel (e + 1)

/-- Ceiling of a quotient. -/
def ceilDiv (n d : Nat) : Nat := (n + d - 1) / d

/-- R66, R67: the scale for a block whose largest magnitude is `amax × 2^k` (`amax > 0`), and QSAT. -/
def chooseScale (qmax amax : Nat) (k : Int) : Nat × Bool :=
  match findExp qmax amax k 255 1 with
  | none => (0xFFFF, true)
  | some e =>
    let d : Int := (e : Int) - 135 - k
    let m := if 0 ≤ d then ceilDiv amax (qmax * 2 ^ d.toNat) else ceilDiv (amax * 2 ^ (-d).toNat) qmax
    (256 * e + (m - 256), false)

/-- R66: one code, `x × 2^k / s` rounded, and limited to the format's range (R67 clamps under 0xFFFF). -/
def quantCode (f : Fmt) (s : Nat) (k : Int) (x : Int) : Int :=
  let d : Int := k + 135 - (scaleExp s : Int)
  let m := 256 + scaleFrac s
  let q := if 0 ≤ d then roundDiv (x * 2 ^ d.toNat) m else roundDiv x (m * 2 ^ (-d).toNat)
  (clampBits f.bits q).1

/-- A quantised block: its scale, its codes and whether QSAT was set. -/
structure QBlock where
  scale : Nat
  codes : List Int
  qsat  : Bool
deriving DecidableEq, Repr

/-- R66 to R68: quantise 32 exact values `x × 2^k`; an all-zero block is written by R64. -/
def quantise (f : Fmt) (k : Int) (xs : List Int) : QBlock :=
  let amax := (xs.map Int.natAbs).foldl max 0
  if amax = 0 then { scale := 0, codes := xs.map (fun _ => 0), qsat := false }
  else
    let (s, sat) := chooseScale f.qmax.toNat amax k
    { scale := s, codes := xs.map (quantCode f s k), qsat := sat }

/-! ### Accumulation (R69 to R80) -/

/-- R69: the exact sum of the products of a block pair. -/
def dotCodes : List Int → List Int → Int
  | a :: as, b :: bs => a * b + dotCodes as bs
  | _, _ => 0

/-- R70: the aligned contribution of a block pair whose product sum is `p`. -/
def alignPair (p : Int) (sa sb : Nat) (t : Int) : Int :=
  roundScale (p * (256 + scaleFrac sa) * (256 + scaleFrac sb)) ((scaleExp sa : Int) + scaleExp sb - 270 - t)

/-- R72, R75, R76, R80: one contribution `a` met by a word of `w` bits: the new word, and whether ACC_SAT is set. -/
def accStep (w : Nat) (word a : Int) : Int × Bool :=
  if word = maxOf w ∨ word = minOf w then (word, false)
  else
    let c := clampBits w a
    if c.2 then (c.1, true) else clampBits w (word + a)

/-- R69 to R72: one block pair added to a word of `w` bits; R71: a zero exponent contributes exactly zero. -/
def accPair (w : Nat) (t : Int) (word : Int) (sa : Nat) (ca : List Int) (sb : Nat) (cb : List Int) : Int × Bool :=
  if scaleExp sa = 0 ∨ scaleExp sb = 0 then (word, false)
  else accStep w word (alignPair (dotCodes ca cb) sa sb t)

/-- R79: the 48-bit word of eight stored bytes: bits [63:48] are ignored. -/
def a48OfBytes (bs : List Byte) : Int := signedOf 48 (leNat bs)

/-- R79: the eight bytes of an A48 word, bits [63:48] equal to bit 47. -/
def a48Bytes (x : Int) : List Byte := leBytes 8 (bitsOf 64 x)

/-- R85: an A48 word of tile exponent `t` read into a lane of exponent `u`, and LANE_SAT. -/
def laneOfA48 (t u : Int) (x : Int) : Int × Bool :=
  if x = maxOf 48 then (maxOf 32, false)
  else if x = minOf 48 then (minOf 32, false)
  else clampBits 32 (roundScale x (t - u))

/-- R86: a lane of exponent `u` loaded into an A48 word of tile exponent `t`, and whether it was clamped. -/
def a48OfLane (u t : Int) (l : Int) : Int × Bool :=
  if l = maxOf 32 then (maxOf 48, false)
  else if l = minOf 32 then (minOf 48, false)
  else clampBits 48 (roundScale l (u - t))

/-! ### Vector lanes (R82 to R84, Table 2.4) -/

/-- R82: a lane read as Q1.15. -/
def q15Read (l : Int) : Int := signedOf 16 (bitsOf 32 l)

/-- R82: a result narrowed to Q1.15, with LANE_SAT where the operation sets it. -/
def q15Narrow (x : Int) : Int × Bool := clampBits 16 x

/-- Table 2.4: logical left shift. -/
def laneShl (l : Int) (n : Nat) : Int := if n < 32 then signedOf 32 (bitsOf 32 l <<< n) else 0

/-- Table 2.4: saturating left shift. -/
def laneSshl (l : Int) (n : Nat) : Int × Bool := clampBits 32 (l * 2 ^ n)

/-- Table 2.4: logical right shift. -/
def laneShr (l : Int) (n : Nat) : Int := signedOf 32 (bitsOf 32 l >>> n)

/-- Table 2.4: arithmetic right shift, rounding towards minus infinity. -/
def laneSar (l : Int) (n : Nat) : Int := Int.fdiv l (2 ^ n)

/-- Table 2.4: rounding right shift; 32 and above give zero. -/
def laneRsr (l : Int) (n : Nat) : Int := if n < 32 then roundDiv l (2 ^ n) else 0

/-- R84: fixed-point multiply by shift amount `n`. -/
def laneMul (a b : Int) (n : Nat) : Int × Bool := clampBits 32 (roundDiv (a * b) (2 ^ n))

/-! ### Lookup stages (R87 to R89) -/

/-- `n` lies at or below the rounded value of `2^(15 + x/65536)`, for `x ≤ 0`: `n = 0`, or
`n − 1/2 < 2^(15 + x/65536)`, with both sides doubled and raised to the power 65,536. The strict comparison gives the
even value at the one tie, `x = −16` (R54). -/
def exp2AtLeast (x : Int) (n : Nat) : Bool :=
  n = 0 || (0 ≤ 1048576 + x && decide ((2 * n - 1) ^ 65536 < 2 ^ (1048576 + x).toNat))

/-- Greatest `n` of `b` bits above `acc` that `exp2AtLeast` admits, one bit at a time. -/
def exp2Bits (x : Int) : Nat → Nat → Nat
  | 0, acc => acc
  | b + 1, acc => exp2Bits x b (if exp2AtLeast x (acc + 2 ^ b) then acc + 2 ^ b else acc)

/-- R87: the exponent stage: `2^x` in Q1.15 for Q16.16 `x`, any `x` above zero read as zero, rounded by R54 and
limited to 0x7FFF. -/
def exp2Q15 (x : Int) : Int := if 0 ≤ x then 0x7FFF else exp2Bits x 15 0

/-- R88: the reciprocal stage: `1/s` in Q1.15 for Q16.16 `s`, and DIV0. -/
def rcpQ15 (s : Int) : Int × Bool :=
  if s ≤ 0 then (0, true) else (min 0x7FFF (roundDiv (2 ^ 31) s.toNat), false)

/-! ### Soft maximum (R90 to R95) -/

/-- Table 2.5. -/
inductive ScoreClass where
  | mask | pinf | ninf | fin
deriving DecidableEq, Repr

/-- Table 2.5, for a score already read as a lane (R90: an A48 word at saturation reads as the lane saturation of its
sign, and no other A48 word of a chain row reads as class PINF or NINF unless the read clamps; see `classifyA48`). -/
def classifyLane (masked : Bool) (l : Int) : ScoreClass :=
  if masked then .mask
  else if l = maxOf 32 then .pinf
  else if l = minOf 32 then .ninf
  else .fin

/-- Table 2.5 for an A48 word: its own saturation decides the class, before any reading as Q16.16 (R90). -/
def classifyA48 (masked : Bool) (x : Int) : ScoreClass :=
  if masked then .mask
  else if x = maxOf 48 then .pinf
  else if x = minOf 48 then .ninf
  else .fin

/-- The outcome of a soft-maximum row: its weights, its status byte (Table 2.6) and the flags the row set. -/
structure SmaxRow where
  weights : List Int
  pinf    : Bool
  empty   : Bool
  laneSat : Bool
  div0    : Bool
deriving DecidableEq, Repr

/-- R91 to R93 over classified positions. -/
def softMaxRow (row : List (ScoreClass × Int)) : SmaxRow :=
  let k := (row.filter (fun p => p.1 = .pinf)).length
  if 0 < k then
    { weights := row.map (fun p => if p.1 = .pinf then min 0x7FFF (roundDiv 32768 k) else 0)
      pinf := true, empty := false, laneSat := false, div0 := false }
  else
    match row.filter (fun p => p.1 = .fin) with
    | [] => { weights := row.map (fun _ => 0), pinf := false, empty := true, laneSat := false, div0 := false }
    | f :: fs =>
      let m := fs.foldl (fun a p => max a p.2) f.2
      let es := row.map (fun p => if p.1 = .fin then exp2Q15 (clampBits 32 (p.2 - m)).1 else 0)
      let sat := row.any (fun p => p.1 = .fin && (clampBits 32 (p.2 - m)).2)
      let s := (es.map (fun e => 2 * e)).foldl (· + ·) 0
      let r := rcpQ15 s
      { weights := es.map (fun e => (laneMul e r.1 15).1)
        pinf := false, empty := false, laneSat := sat, div0 := r.2 }

/-- Table 2.6: the row-status byte. -/
def SmaxRow.status (r : SmaxRow) : Byte := BitVec.ofNat 8 ((if r.pinf then 2 else 0) + (if r.empty then 1 else 0))

/-- R94: the lengths the soft-maximum chain accepts. -/
def smaxLengthOk (n : Nat) : Bool := 1 ≤ n && n ≤ 32767

end Sys2Proof.Machine
end

