-- ==== Sys2Proof/Machine/Sha384.lean ====
section
/-!
DEFINITION. SHA-384, the digest of chapters 12, 14 and 18 of spec/ (FIPS 180-4), and the key derivation that R655 builds on it (RFC 5869).
-/

namespace Sys2Proof.Machine

/-- The greatest `r` below `acc + 2 ^ n` whose `e`-th power is at most `x`, found bit by bit from bit `n - 1` down. -/
def rootFrom (e x : Nat) : Nat → Nat → Nat
  | 0, acc => acc
  | n + 1, acc => rootFrom e x n (if (acc + 2 ^ n) ^ e ≤ x then acc + 2 ^ n else acc)

/-- The first 64 bits of the fraction of the `e`-th root of a number below 2 ^ 12. -/
def rootBits (e p : Nat) : Nat := rootFrom e (p * 2 ^ (64 * e)) 70 0 % 2 ^ 64

/-- The primes below a bound, in ascending order. -/
def primesBelow (n : Nat) : List Nat := (List.range n).filter (fun p => 2 ≤ p && (List.range p).all (fun d => d < 2 || p % d ≠ 0))

/-- FIPS 180-4: the eighty round constants are the fractions of the cube roots of the first eighty primes. -/
def shaKeys : List Nat := (primesBelow 410).map (rootBits 3)

/-- FIPS 180-4: SHA-384 starts from the fractions of the square roots of the ninth to the sixteenth prime. -/
def shaInit : List Word := ((primesBelow 54).drop 8).map (fun p => BitVec.ofNat 64 (rootBits 2 p))

/-- The four mixing functions. -/
def shaMix (a b c : Nat) (x : Word) : Word := x.rotateRight a ^^^ x.rotateRight b ^^^ x.rotateRight c
def shaSmall (a b c : Nat) (x : Word) : Word := x.rotateRight a ^^^ x.rotateRight b ^^^ (x >>> c)

/-- One word of the message schedule from the sixteen before it, oldest first. -/
def shaNext (w : List Word) : Word :=
  shaSmall 19 61 6 (w.getD 14 0) + w.getD 9 0 + shaSmall 1 8 7 (w.getD 1 0) + w.getD 0 0

/-- One round on the eight working words. -/
def shaRound (h : List Word) (w : Word) (k : Nat) : List Word :=
  match h with
  | [a, b, c, d, e, f, g, x] =>
    let t1 := x + shaMix 14 18 41 e + ((e &&& f) ^^^ (~~~e &&& g)) + BitVec.ofNat 64 k + w
    let t2 := shaMix 28 34 39 a + ((a &&& b) ^^^ (a &&& c) ^^^ (b &&& c))
    [t1 + t2, a, b, c, d + t1, e, f, g]
  | _ => h

/-- The rounds over the constants, with a window of sixteen schedule words. -/
def shaRounds : List Nat → List Word → List Word → List Word
  | [], _, h => h
  | k :: ks, w, h => shaRounds ks (w.drop 1 ++ [shaNext w]) (shaRound h (w.getD 0 0) k)

/-- The number that bytes spell, the first highest. -/
def beNat (bs : List Byte) : Nat := bs.foldl (fun n b => n * 256 + b.toNat) 0

/-- `n` bytes of a number, the highest first. -/
def beBytes (n x : Nat) : List Byte := (leBytes n x).reverse

/-- One block of 128 bytes. -/
def shaBlock (h : List Word) (bs : List Byte) : List Word :=
  let w := (List.range 16).map (fun i => BitVec.ofNat 64 (beNat ((bs.drop (8 * i)).take 8)))
  List.zipWith (· + ·) h (shaRounds shaKeys w h)

/-- Every block of a padded message. -/
def shaBlocks : Nat → List Word → List Byte → List Word
  | 0, h, _ => h
  | n + 1, h, bs => shaBlocks n (shaBlock h (bs.take 128)) (bs.drop 128)

/-- The 48-byte SHA-384 digest of a message. -/
def sha384 (bs : List Byte) : List Byte :=
  let pad := (128 - (bs.length + 17) % 128) % 128
  let m := bs ++ [0x80] ++ List.replicate pad 0 ++ beBytes 16 (8 * bs.length)
  ((shaBlocks (m.length / 128) shaInit m).take 6).flatMap (fun w => beBytes 8 w.toNat)

/-- HMAC with SHA-384 (RFC 2104): a key of at most 128 bytes. -/
def hmac384 (key msg : List Byte) : List Byte :=
  let block := key ++ List.replicate (128 - key.length) 0
  sha384 (block.map (fun b => b ^^^ 0x5C) ++ sha384 (block.map (fun b => b ^^^ 0x36) ++ msg))

/-- HKDF with SHA-384 (RFC 5869), without a salt: `n` bytes, at most 48, of a secret under an info string. -/
def hkdf384 (secret info : List Byte) (n : Nat) : List Byte :=
  (hmac384 (hmac384 (List.replicate 48 0) secret) (info ++ [1])).take n

end Sys2Proof.Machine
end

