-- ==== Sys2Proof/Machine/Aes.lean ====
section
/-!
DEFINITION. AES-256-GCM (FIPS 197, SP 800-38D), the sealing of weights and DSK blobs (R672, R673).
-/

namespace Sys2Proof.Machine

/-- Twice an element of the AES field. -/
def gfDouble (x : Byte) : Byte := (x <<< 1) ^^^ (if x.getLsbD 7 then 0x1B else 0)

/-- The product of two elements of the AES field, bit by bit of `b` from bit `8 - n` on. -/
def gfMulFrom : Nat → Byte → Byte → Byte
  | 0, _, _ => 0
  | n + 1, a, b => (if b.getLsbD (7 - n) then a else 0) ^^^ gfMulFrom n (gfDouble a) b

/-- The product of two elements of the AES field. -/
def gfMul (a b : Byte) : Byte := gfMulFrom 8 a b

/-- The inverse, zero of zero: the 254th power. -/
def gfInv (x : Byte) : Byte :=
  let x2 := gfMul x x
  let x3 := gfMul x2 x
  let x6 := gfMul x3 x3
  let x12 := gfMul x6 x6
  let x15 := gfMul x12 x3
  let x30 := gfMul x15 x15
  let x60 := gfMul x30 x30
  let x120 := gfMul x60 x60
  let x126 := gfMul x120 x6
  let x127 := gfMul x126 x
  gfMul x127 x127

/-- The S-box. -/
def sBox (x : Byte) : Byte :=
  let b := gfInv x
  b ^^^ b.rotateLeft 1 ^^^ b.rotateLeft 2 ^^^ b.rotateLeft 3 ^^^ b.rotateLeft 4 ^^^ 0x63

/-- Bytes added. -/
def xorBytes (a b : List Byte) : List Byte := List.zipWith (· ^^^ ·) a b

/-- The words of the key schedule after the first eight, word `i` next, the newest first. -/
def keyWords : Nat → Nat → Byte → List (List Byte) → List (List Byte)
  | 0, _, _, ws => ws
  | n + 1, i, rc, ws =>
    let last := ws.getD 0 []
    let back := ws.getD 7 []
    if i % 8 = 0 then
      let t := (last.drop 1 ++ last.take 1).map sBox
      keyWords n (i + 1) (gfDouble rc) (xorBytes back (xorBytes t [rc, 0, 0, 0]) :: ws)
    else if i % 8 = 4 then keyWords n (i + 1) rc (xorBytes back (last.map sBox) :: ws)
    else keyWords n (i + 1) rc (xorBytes back last :: ws)

/-- The fifteen round keys of a 256-bit key. -/
def roundKeys (key : List Byte) : List (List Byte) :=
  let ws := (keyWords 52 8 1 ((List.range 8).map (fun i => (key.drop (4 * i)).take 4)).reverse).reverse
  (List.range 15).map (fun r => ((ws.drop (4 * r)).take 4).flatten)

/-- ShiftRows on a state in column order. -/
def shiftRows (s : List Byte) : List Byte :=
  (List.range 16).map (fun i => s.getD ((i + 4 * (i % 4)) % 16) 0)

/-- MixColumns. -/
def mixColumns (s : List Byte) : List Byte :=
  (List.range 16).map (fun i =>
    let c := 4 * (i / 4)
    let at_ (j : Nat) : Byte := s.getD (c + (i + j) % 4) 0
    gfMul 2 (at_ 0) ^^^ gfMul 3 (at_ 1) ^^^ at_ 2 ^^^ at_ 3)

/-- AES-256 of one block. -/
def aesBlock (keys : List (List Byte)) (x : List Byte) : List Byte :=
  let s := (List.range 13).foldl (fun s r => xorBytes (mixColumns (shiftRows (s.map sBox))) (keys.getD (r + 1) [])) (xorBytes x (keys.getD 0 []))
  xorBytes (shiftRows (s.map sBox)) (keys.getD 14 [])

/-- The product in the GCM field, bit `i` of `x` in hand, the highest first. -/
def ghashMul : Nat → BitVec 128 → BitVec 128 → BitVec 128 → BitVec 128
  | 0, _, _, z => z
  | n + 1, x, v, z =>
    ghashMul n x ((v >>> 1) ^^^ (if v.getLsbD 0 then 0xE1000000000000000000000000000000 else 0)) (if x.getLsbD n then z ^^^ v else z)

/-- GHASH over blocks of 16 bytes. -/
def ghash (h : BitVec 128) : Nat → BitVec 128 → List Byte → BitVec 128
  | 0, y, _ => y
  | n + 1, y, bs =>
    let b := (bs.take 16 ++ List.replicate 16 0).take 16
    ghash h n (ghashMul 128 (y ^^^ BitVec.ofNat 128 (beNat b)) h 0) (bs.drop 16)

/-- Counter mode from a counter on. -/
def ctrMode (keys : List (List Byte)) (iv : List Byte) : Nat → Nat → List Byte → List Byte
  | 0, _, _ => []
  | n + 1, c, bs => xorBytes (bs.take 16) (aesBlock keys (iv ++ beBytes 4 c)) ++ ctrMode keys iv n (c + 1) (bs.drop 16)

/-- Bytes padded with zeros to whole blocks. -/
def padBlock (bs : List Byte) : List Byte := bs ++ List.replicate ((16 - bs.length % 16) % 16) 0

/-- The GCM tag of a ciphertext, with a 12-byte IV. -/
def gcmTag (keys : List (List Byte)) (iv aad ct : List Byte) : List Byte :=
  let h := BitVec.ofNat 128 (beNat (aesBlock keys (List.replicate 16 0)))
  let m := padBlock aad ++ padBlock ct ++ beBytes 8 (8 * aad.length) ++ beBytes 8 (8 * ct.length)
  xorBytes (beBytes 16 (ghash h (m.length / 16) 0 m).toNat) (aesBlock keys (iv ++ beBytes 4 1))

/-- AES-256-GCM encryption: the ciphertext and the tag. -/
def gcmSeal (key iv aad pt : List Byte) : List Byte × List Byte :=
  let keys := roundKeys key
  let ct := ctrMode keys iv ((pt.length + 15) / 16) 2 pt
  (ct, gcmTag keys iv aad ct)

/-- AES-256-GCM decryption, where the tag holds. -/
def gcmOpen (key iv aad ct tag : List Byte) : Option (List Byte) :=
  let keys := roundKeys key
  if gcmTag keys iv aad ct = tag then some (ctrMode keys iv ((ct.length + 15) / 16) 2 ct) else none

end Sys2Proof.Machine
end

