-- ==== Sys2Proof/Config.lean ====
section
/-!
DEFINITION. The free values: what the spec leaves open, as constants without a body. Nothing can be proved of their
values, so a claim holds whatever they are. Each is named in a row of notes/assumptions/.
-/

namespace Sys2Proof.Config

/-- R689: what the decoder takes an error pattern of three or more symbols for: nothing (UE), or a pattern of one or two
symbols that shares its syndrome (at most 1.2 percent of them). A pattern is a list of (symbol, XOR mask). -/
opaque aliasOf : List (Nat × Nat) → Option (List (Nat × Nat))

/-- R700: the stored check bytes of a column word at a physical DRAM address. The spec names the Reed-Solomon code but
neither its field polynomial nor its generator. -/
opaque checkBytes : Nat → List Byte → BitVec 32

/-- R357, R399: the address the ROM's entry table gives a valid entry; true for the B profile. The spec gives the entry
numbers and not the addresses. -/
opaque romEntry : Bool → Nat → Nat

/-- Table 7.1: the word of the library ROM at an address; true for the B profile. The spec gives the routines' contracts and not their
words. -/
opaque romWord : Bool → Nat → Word

/-- R357, R662: the words that a LIBPATCH body puts into the patch RAM (true for the B profile), by library address. The spec gives its body
no layout. -/
opaque patchWords : Bool → List Byte → List (Nat × Word)

/-- R279, R290, R291, R640, R652: what a counter of events that no command of the table shows has counted, by its BAR0 offset and the time:
cycles that rows waited or chains ran, corrected operand-cache errors, link-level retries. -/
opaque timedCount : Nat → Nat → Nat

/-- R321: the scalar that a pop of a whole vector register gives an instruction that takes a scalar, as a function of the
register's 128 lanes. The spec states no value for it. -/
opaque vectorWord : List Lane → Word

/-- Table 15.3: the SOURCE an error-log entry gives for a read by the middle of a hoop. The table lists none for it. -/
opaque middleSource : Nat

/-- Table 15.3: the SOURCE an error-log entry gives for CALSCHED's read of a page index. The table lists none for it. -/
opaque calSource : Nat

/-- R298, Table 8.11: the scale of block `n` of a chain's S8 or S4 operand-cache source, as a function of the record's
words, the source (0 A, 1 B) and the block. The record names no address for it. -/
opaque sourceScale : List Nat → Nat → Nat → BitVec 16

/-- R321, R297: what lane `n`, at or above VL, of a hoop entry pushed by a chain holds, as a function of the lanes below
VL. The spec states no value for it. -/
opaque hoopFill : List Int → Nat → Lane

/-- R400: what a library routine leaves in scalar register `i` of its working state: of the unit with a key, at a time. The
spec says that a routine may change its working state and not to what. -/
opaque workWord : Nat → Nat → Nat → Word

/-- R400, R236: what a library routine leaves in a byte store of its working state (0 and 1 the latches, 2 the working
area), and the record area of a wave that breaks R236 (3): of the unit with a key, at a time. -/
opaque workCells : Nat → Nat → Nat → List (Nat × Byte)

/-- R400: what a library routine leaves in the bits beside a byte store of its working state: a latch's column bytes written since its last read
slot (0 and 1), and its words marked uncorrectable (2 and 3): of the unit with a key, at a time. -/
opaque workBits : Nat → Nat → Nat → Nat

/-- R640: the latency at the pins, in nanoseconds above the least of Table 13.4, of a host read served at a time; it is taken
modulo the table's spread. -/
opaque readLatency : Nat → Nat

/-- R484: the scratch offset at which the hub has an affinage item's job list placed, as a function of the time and of the item's
place in its review. The spec names none. -/
opaque affOffset : Nat → Nat → Nat

/-- R537, Table 12.4: the place of a job's token buffer among those of its core, by its tag, in units of 64 bytes from TOKEN_BASE. The
spec gives the base and no layout. -/
opaque tokenSlot : Nat → Nat

/-- R465, R655: the 128-bit directory hash key that the rind's random source gives at its `n`-th draw. -/
opaque hashKey : Nat → Nat

/-- R655, R668, R672: what the rind's random source gives at its `n`-th draw: 256 bits. -/
opaque random : Nat → BitVec 256

/-- R655, Table 14.1: the UDS, fused at manufacture. -/
opaque uds : BitVec 256

/-- R655: how the inputs that Table 14.1 names for a derivation stand in HKDF's info string. The spec names the inputs and not their
encoding. -/
opaque kdfInfo : List (List Byte) → List Byte

/-- R660, Table 14.2: the digest of the boot ROM. -/
opaque romDigest : BitVec 384

/-- R660, Table 14.2: the digest of the rind firmware of a version. -/
opaque firmwareDigest : Nat → BitVec 384

/-- R660, Table 14.2: measurement 3, of the patch in force and both entry tables. The spec does not lay out what is digested. -/
opaque patchDigest : List Byte → List (Nat × Nat) → List (Nat × Nat) → BitVec 384

/-- R665, R666: the body of an SPDM response whose content SPDM 1.3 or a key of the part decides, as a function of the response code, the
alias key and what the response covers. -/
opaque spdmBody : Nat → List Byte → List Byte → List Byte

/-- Table 14.6: the signature over a digest under the DevID-Q key. -/
opaque pqSignature : List Byte → List Byte → List Byte

/-- Table 14.6: the DevID-Q certificate chain. -/
opaque pqChain : List Byte

/-- R662: the security version that a LIBPATCH body carries. The spec gives its body no layout. -/
opaque patchVersion : List Byte → Nat

/-- R357, R662: the entries that a LIBPATCH body gives (true for the B profile): entry numbers and addresses. The spec gives its body
no layout. -/
opaque patchEntries : Bool → List Byte → List (Nat × Nat)

/-- R368, R40: the hub layer barriers in which a core is enrolled, as a mask, by the COMMITs applied so far and the core (4v + c). The spec
says that the culture image enrols cores and gives no section or field that does. -/
opaque hubBarriers : Nat → Nat → BitVec 16

/-- R569, R662: whether the `i`-th signature of an image staged at a time is valid, where the command that stages it carries no verdict
of its own (a write of CI_CTL as a plain register write). -/
opaque verdict : Nat → Nat → Bool

/-- R612, R810: a doubleword of PCIe configuration space, by its number, where the spec gives it no value. -/
opaque configSpace : Nat → BitVec 32

/-- R613, R614: a byte of a mailbox command's answer, by its opcode, the time and its place, where the spec gives it no value. -/
opaque mailboxByte : Nat → Nat → Nat → Byte

/-- R613: the effect field of a mailbox command in the Command Effects Log, by its opcode. -/
opaque celEffect : Nat → BitVec 16

/-- Table 13.6: a byte of the CXL component and device registers, by its BAR0 offset and the time. Their contents are those of CXL 3.1, which
the spec does not give. -/
opaque cxlByte : Nat → Nat → Byte

/-- Table 13.6: where, in units of 16 bytes, the HDM Decoder and the BI Decoder capability lie in the component registers; taken modulo 2,000. The
spec gives the sub-block and not their places in it. -/
opaque hdmCapability : Nat
opaque biCapability : Nat

/-- Table 13.6: the same for the IDE capability, and for the device status, the mailbox and the memory device status in the device registers. -/
opaque ideCapability : Nat
opaque deviceStatus : Nat
opaque mailbox : Nat
opaque memoryStatus : Nat

/-- R807: how far beyond its minimum a stage of the boot that began at a time lasts, in nanoseconds; taken modulo what Table 18.3 leaves. -/
opaque bootNs : Nat → Nat → Nat

/-- R684: how CXL 3.1's IDE status codes a stream that is not keyed, or keyed in containment (false) or skid mode (true). -/
opaque ideCode : Option Bool → BitVec 4

/-- R800, R810: where, in doublewords of configuration space, the PCIe capability and the DVSEC for CXL devices lie; taken modulo 46 from 17 on
and modulo 900 from 64 on. -/
opaque pcieCapability : Nat
opaque cxlDvsec : Nat

/-- R766: what a DATA flit holds behind its payload bytes in use, by place. -/
opaque flitPad : Nat → Byte

/-- Table 17.3: a byte of a message's header that the spec gives no meaning in messages of a type, by type and place. -/
opaque msgByte : Nat → Nat → Byte

/-- R778, R774: the MTYPE of the message that asks for MIRROR_FULL, and of the one that carries a manifest. Table 17.4 has none. -/
opaque askType : Byte
opaque manifestType : Byte

/-- R767: the ACKSEQ of a flit sent before any DATA flit was received. -/
opaque noAckseq : BitVec 16

/-- R772, R773: the shared secret of the key exchange that the `n`-th draw of the rind's random source went into. -/
opaque sharedSecret : Nat → BitVec 384

/-- R772: what one side of the exchange sends: its share, made of a draw, the signature of the share under the alias key, and its certificate
chain. The spec names the parts and not their encoding. -/
opaque authBody : BitVec 256 → List Byte → List Byte

/-- R778, R783: the key under which a MIRROR_FULL's copy stands in the directory, by the source's package and handle, where the message
comes as flits. Table 17.4 lists no key in it. -/
opaque copyKey : Nat → Nat → List Byte

end Sys2Proof.Config
end

