-- ==== Sys2Proof/Machine/Descriptor.lean ====
section
/-!
DEFINITION. DMA descriptors of spec/03_tensor_layout.md: their fields (R103 to R108), the checks made before any access
(R121 to R125, R129, R140), the positions visited and the addresses formed (R109 to R120).
Translation, memory and the transfer itself are in Machine/Dma.lean.
-/

namespace Sys2Proof.Machine

/-- Table 3.3: one dimension. -/
structure Dim where
  stride : Int
  count  : Nat
  padb   : Nat
  pada   : Nat
  start  : Int
  extent : Nat
deriving DecidableEq, Repr

/-- Tables 3.2 and 3.3: a descriptor as the engine holds it, with the words it was read from. `base` is R104's sum;
`scaleBase` is moved with it by R356. -/
structure Desc where
  words      : List Nat
  base       : Int
  format     : Nat
  tiled      : Bool
  ndim       : Nat
  gather     : Nat
  accumulate : Bool
  padWrite   : Bool
  transpose  : Bool
  cache      : Bool
  scaleBase  : Int
  incr       : Int
  indexBase  : Nat
  padValue   : Nat
  dims       : List Dim
deriving DecidableEq, Repr

/-- Bits `[hi:lo]` of a number. -/
def bitsAt (n hi lo : Nat) : Nat := (n >>> lo) % 2 ^ (hi + 1 - lo)

/-- Split a byte list into the little-endian 64-bit words it holds. -/
def words64 (bs : List Byte) (n : Nat) : List Nat := (List.range n).map (fun i => leNat ((bs.drop (8 * i)).take 8))

/-- Table 3.3 for dimension `k`. -/
def dimOf (ws : List Nat) (k : Nat) : Dim :=
  let a := ws.getD (6 + 2 * k) 0
  let b := ws.getD (7 + 2 * k) 0
  { stride := signedOf 38 (bitsAt a 37 0), count := bitsAt a 53 38, padb := bitsAt a 58 54, pada := bitsAt a 63 59
    start := signedOf 32 (bitsAt b 31 0), extent := bitsAt b 63 32 }

/-- R356: how far an increment moves SCALE_BASE: 2 × value / unit bytes for a block format, nothing otherwise. -/
def scaleShift (format : Nat) (incr : Int) : Int :=
  match Fmt.ofCode format with
  | some f => if f.isBlock then 2 * incr / f.unitBytes else 0
  | none => 0

/-- R103 to R105: the descriptor held in 128 bytes, with the signed increment of R104. -/
def Desc.parse (bs : List Byte) (incr : Int) : Desc :=
  let ws := words64 bs 16
  let w0 := ws.getD 0 0
  { words := ws, base := (bitsAt w0 36 0 : Int) + incr, format := bitsAt w0 43 40, tiled := bitsAt w0 44 44 = 1
    ndim := bitsAt w0 47 45, gather := bitsAt w0 50 48, accumulate := bitsAt w0 51 51 = 1
    padWrite := bitsAt w0 52 52 = 1, transpose := bitsAt w0 53 53 = 1, cache := bitsAt w0 54 54 = 1
    scaleBase := (bitsAt (ws.getD 1 0) 36 0 : Int) + scaleShift (bitsAt w0 43 40) incr, incr := incr, indexBase := bitsAt (ws.getD 2 0) 36 0, padValue := ws.getD 3 0
    dims := (List.range 5).map (dimOf ws) }

/-- The format of a descriptor that has passed check 1. -/
def Desc.fmt (d : Desc) : Fmt := (Fmt.ofCode d.format).getD .raw8

/-- Dimension `k`. -/
def Desc.dim (d : Desc) (k : Nat) : Dim := d.dims.getD k { stride := 0, count := 1, padb := 0, pada := 0, start := 0, extent := 1 }

/-- Dimension `k` is the gather dimension. -/
def Desc.isGather (d : Desc) (k : Nat) : Bool := d.gather = k + 1

/-- Table 3.8: the DMA fault causes. -/
inductive DmaCause where
  | descReserved | descGeometry | descMismatch | descControl
  | align | addrRange | transInvalid | protDomain | protPerm | protAttr | indexUncorrectable
deriving DecidableEq, Repr

/-- Table 3.8: the code of a cause. -/
def DmaCause.code : DmaCause → Nat
  | .descReserved => 0x01 | .descGeometry => 0x02 | .descMismatch => 0x03 | .descControl => 0x04
  | .align => 0x10 | .addrRange => 0x11 | .transInvalid => 0x12 | .protDomain => 0x13
  | .protPerm => 0x14 | .protAttr => 0x15 | .indexUncorrectable => 0x16

/-! ### Validation (R121 to R125) -/

/-- Table 3.4: the number of PAD_VALUE bits a format uses. -/
def padBits : Fmt → Nat
  | .s8 | .s6 | .s4 => 24 | .raw8 => 8 | .i16 => 16 | .i32 => 32 | .a48 => 48

/-- R122 check 1. The words of the dimensions from NDIM on, which R106 asks the user to leave zero, are not among what the check names
(DEDUCED, log entry 34). -/
def Desc.reservedOk (d : Desc) : Bool :=
  let w k := d.words.getD k 0
  match Fmt.ofCode d.format with
  | none => false
  | some f =>
    bitsAt (w 0) 39 37 = 0 && bitsAt (w 0) 63 55 = 0 && bitsAt (w 1) 63 37 = 0 && bitsAt (w 2) 63 37 = 0
    && w 4 = 0 && w 5 = 0 && d.gather ≤ 5 && d.padValue >>> padBits f = 0
    && (f.isBlock || bitsAt (w 1) 36 0 = 0) && (d.gather ≠ 0 || d.indexBase = 0)

/-- R122 check 2, with R356's rule that a block format's increment is a multiple of its unit bytes. R120's rule on BASE and SCALE_BASE is for
block formats (DEDUCED, log entry 34). -/
def Desc.geometryOk (d : Desc) : Bool :=
  let f := d.fmt
  1 ≤ d.ndim && d.ndim ≤ 5 && (d.gather = 0 || d.gather ≤ d.ndim)
  && (List.range 5).all (fun k => d.ndim ≤ k ||
      (d.dim k).extent ≠ 0 && (d.dim k).padb + (d.dim k).pada ≤ (d.dim k).count
      && (!d.isGather k || ((d.dim k).padb = 0 && (d.dim k).pada = 0)))
  && (!f.isBlock ||
      (let c := signedOf 8 (bitsAt d.padValue 23 16)
       decide (minOf f.bits ≤ c) && decide (c ≤ maxOf f.bits)))
  && (d.gather = 0 || d.indexBase % 4 = 0)
  && (!f.isBlock ||
      ((d.dim 0).start % 32 = 0 && (d.dim 0).count % 32 = 0 && (d.dim 0).extent % 32 = 0
       && (d.dim 0).padb = 0 && (d.dim 0).pada = 0 && !d.isGather 0))
  && (!d.tiled || 2 ≤ d.ndim)
  && (!f.isBlock || d.incr % f.unitBytes = 0)
  && (!f.isBlock || (d.base % 8 = 0 && d.scaleBase % 2 = 0))

/-- R123: positions visited in dimension `k` (blocks in dimension 0 of a block format). -/
def Desc.visits (d : Desc) (k : Nat) : Nat :=
  if d.ndim ≤ k then 1 else if k = 0 ∧ d.fmt.isBlock then (d.dim 0).count / 32 else (d.dim k).count

/-- R123: the number of positions. -/
def Desc.positions (d : Desc) : Nat := d.visits 0 * d.visits 1 * d.visits 2 * d.visits 3 * d.visits 4

/-- A count, start or extent in dimension `k` that R140 requires to be a multiple of 32. -/
def Desc.tileAligned (d : Desc) (k : Nat) : Bool :=
  (d.dim k).start % 32 = 0 && (d.dim k).count % 32 = 0 && (d.dim k).extent % 32 = 0
  && (d.dim k).padb = 0 && (d.dim k).pada = 0 && !d.isGather k

/-- R140: the conditions under which TRANSPOSE is accepted. -/
def transposeOk (src dst : Desc) : Bool :=
  src.tiled && dst.tiled && !src.fmt.isBlock && !dst.fmt.isBlock
  && src.tileAligned 0 && src.tileAligned 1 && dst.tileAligned 0 && dst.tileAligned 1
  && (dst.dim 0).count = (src.dim 1).count && (dst.dim 1).count = (src.dim 0).count

/-- R122: the first failing check, with the SIDE it is reported with (R152). Where a field of the source breaks R140, SIDE and ADDR name the
destination, whose TRANSPOSE asks for it (DESIGN CHOICE, log entry 34). -/
def validateDescs (src dst : Desc) : Option (DmaCause × Bool) :=
  if !src.reservedOk then some (.descReserved, false)
  else if !dst.reservedOk then some (.descReserved, true)
  else if !src.geometryOk then some (.descGeometry, false)
  else if !dst.geometryOk then some (.descGeometry, true)
  else if src.format ≠ dst.format ∨ src.positions ≠ dst.positions then some (.descMismatch, true)
  else if src.accumulate || src.padWrite || src.transpose then some (.descControl, false)
  else if dst.accumulate && !(dst.fmt == .i16 || dst.fmt == .i32 || dst.fmt == .a48) then some (.descControl, true)
  else if dst.transpose && !transposeOk src dst then some (.descControl, true)
  else none

/-! ### Positions and addresses (R109 to R120) -/

/-- A position: the visit number in each dimension (blocks counted one by one in dimension 0 of a block format). -/
structure Pos where
  p0 : Nat
  p1 : Nat
  p2 : Nat
  p3 : Nat
  p4 : Nat
deriving DecidableEq, Repr

/-- R109: the `n`-th position in iteration order. -/
def Desc.pos (d : Desc) (n : Nat) : Pos :=
  let n1 := n / d.visits 0
  let n2 := n1 / d.visits 1
  let n3 := n2 / d.visits 2
  let n4 := n3 / d.visits 3
  { p0 := n % d.visits 0, p1 := n1 % d.visits 1, p2 := n2 % d.visits 2, p3 := n3 % d.visits 3, p4 := n4 % d.visits 4 }

/-- The number of a position in iteration order. -/
def Desc.posIndex (d : Desc) (p : Pos) : Nat :=
  p.p0 + d.visits 0 * (p.p1 + d.visits 1 * (p.p2 + d.visits 2 * (p.p3 + d.visits 3 * p.p4)))

/-- j_k of a position: in dimension 0 of a block format, the block's first element. -/
def Desc.j (d : Desc) (p : Pos) : Nat → Nat
  | 0 => if d.fmt.isBlock then 32 * p.p0 else p.p0
  | 1 => p.p1 | 2 => p.p2 | 3 => p.p3 | 4 => p.p4 | _ => 0

/-- R141: the source position that feeds destination position number `n`. R140 lets COUNT_2 to COUNT_4 differ: a position at or beyond the source's
count is padding of the source, and of a dimension from the source's NDIM on it is ignored (DESIGN CHOICE, log entry 34). -/
def sourceOf (src dst : Desc) (n : Nat) : Pos :=
  if dst.transpose then
    let p := dst.pos n
    { p with p0 := p.p1, p1 := p.p0 }
  else src.pos n

/-- R110: position `j` of a dimension that is not the gather dimension is padding. -/
def Dim.isPad (x : Dim) (j : Nat) : Bool := j < x.padb || x.count - x.pada ≤ j

/-- R113 for the dimensions other than the gather dimension. That one is never padding by its position: beyond COUNT, too, its index entry is fetched
(DESIGN CHOICE, log entry 82). -/
def Desc.padByDims (d : Desc) (p : Pos) : Bool :=
  (List.range d.ndim).any (fun k => !d.isGather k && (d.dim k).isPad (d.j p k))

/-- R111: the address of the index entry a position takes. -/
def Desc.indexAddr (d : Desc) (p : Pos) : Nat := d.indexBase + 4 * d.j p (d.gather - 1)

/-- R110, R111, R114: the index in dimension `k`, `entry` being the gather entry fetched. -/
def Desc.index (d : Desc) (p : Pos) (entry : Int) (k : Nat) : Int :=
  let x := d.dim k
  let j := d.j p k
  if d.isGather k then entry % x.extent
  else
    let raw := x.start + j - x.padb
    if x.isPad j then raw else raw % x.extent

/-- R116, R117: the byte offset of a unit. -/
def Desc.offset (d : Desc) (p : Pos) (entry : Int) : Int :=
  let i := d.index p entry
  let f := d.fmt
  let high k0 := ((List.range d.ndim).map (fun k => if k < k0 then 0 else i k * (d.dim k).stride)).foldl (· + ·) 0
  if d.tiled then
    let c := i 0
    let r := i 1
    (r / 256) * (d.dim 1).stride + (c / 256) * (d.dim 0).stride
      + (((r / 32) % 8) * 8 + (c / 32) % 8) * f.tileBytes + (r % 32) * f.rowBytes
      + (if f.isBlock then 0 else (c % 32) * f.unitBytes) + high 2
  else if f.isBlock then (i 0 / 32) * (d.dim 0).stride + high 1
  else high 0

/-- R118: the address of a unit. -/
def Desc.addr (d : Desc) (off : Int) : Int := d.base + off

/-- R119: the address of a block unit's scale. -/
def Desc.scaleAddr (d : Desc) (off : Int) : Int := d.scaleBase + 2 * (off / d.fmt.unitBytes)

/-- R118: every byte of `n` bytes at `a` lies in the descriptor's space. -/
def Desc.inSpace (d : Desc) (a : Int) (n : Nat) : Bool :=
  decide (0 ≤ a) && decide (a + n ≤ if d.cache then 2 ^ 22 else 2 ^ 37)

/-- R120: the unit's own alignment: an element's address, or a block's offset, is a multiple of its unit bytes. -/
def Desc.unitAligned (d : Desc) (off : Int) : Bool :=
  if d.fmt.isBlock then decide (off % d.fmt.unitBytes = 0) else decide (d.addr off % d.fmt.unitBytes = 0)

/-- Table 3.4: the padding unit's scale and bytes. -/
def Desc.padUnit (d : Desc) : Nat × List Byte :=
  let f := d.fmt
  if f.isBlock then
    let s := bitsAt d.padValue 15 0
    let c := signedOf 8 (bitsAt d.padValue 23 16)
    if scaleExp s = 0 then (0, packBlock f (List.replicate 32 0)) else (s, packBlock f (List.replicate 32 c))
  else if f = .a48 then (0, a48Bytes (signedOf 48 d.padValue))
  else (0, leBytes f.unitBytes d.padValue)

end Sys2Proof.Machine
end

