-- ==== Sys2Proof/Machine/Tables.lean ====
section
/-!
DEFINITION. Sparse tables: a list of (key, value) pairs in one canonical form, keys strictly rising and no entry equal
to the value an unlisted key reads as. Memory, register files, banks, cores and directories are held this way, so that
equal contents are equal data.
-/

namespace Sys2Proof.Machine

/-- The value at `key`; `dflt` where nothing is listed. -/
def lookup {α : Type} (dflt : α) : List (Nat × α) → Nat → α
  | [], _ => dflt
  | (k, v) :: rest, key => if key = k then v else lookup dflt rest key

/-- The table with `key` unlisted. -/
def erase {α : Type} : List (Nat × α) → Nat → List (Nat × α)
  | [], _ => []
  | (k, v) :: rest, key => if key = k then rest else (k, v) :: erase rest key

/-- The table with `key` listed as `v`, in key order. -/
def insert {α : Type} : List (Nat × α) → Nat → α → List (Nat × α)
  | [], key, x => [(key, x)]
  | (k, v) :: rest, key, x =>
    if key < k then (key, x) :: (k, v) :: rest
    else if key = k then (k, x) :: rest
    else (k, v) :: insert rest key x

/-- The table with `key` reading as `x`, in canonical form: writing the default unlists the key. -/
def store {α : Type} [DecidableEq α] (dflt : α) (t : List (Nat × α)) (key : Nat) (x : α) : List (Nat × α) :=
  if x = dflt then erase t key else insert t key x

/-- Every key is above `low`, and the keys rise strictly. -/
def risingFrom {α : Type} : Nat → List (Nat × α) → Bool
  | _, [] => true
  | low, (k, _) :: rest => low ≤ k && risingFrom (k + 1) rest

/-- The canonical form of a table with default `dflt`. -/
def canonical {α : Type} [DecidableEq α] (dflt : α) (t : List (Nat × α)) : Bool :=
  risingFrom 0 t && t.all (fun p => decide (p.2 ≠ dflt))

/-- Replace element `i` of a list; a list without that element is left as it is. -/
def setAt {α : Type} (l : List α) (i : Nat) (x : α) : List α := l.set i x

/-- Write consecutive values from `key` on. -/
def storeRun {α : Type} [DecidableEq α] (dflt : α) (t : List (Nat × α)) (key : Nat) : List α → List (Nat × α)
  | [] => t
  | x :: xs => storeRun dflt (store dflt t key x) (key + 1) xs

/-- The `n` values from `key` on. -/
def lookupRun {α : Type} (dflt : α) (t : List (Nat × α)) (key n : Nat) : List α :=
  (List.range n).map (fun i => lookup dflt t (key + i))

end Sys2Proof.Machine
end

