-- ==== Sys2Proof/Machine/CoreState.lean ====
section
/-!
DEFINITION. The state of the vat side of the part, as plain data: instruction sequencers, hoops, sync objects, tensor
cores, bank units and dies. Chapters 4 to 9 of spec/ name every piece. Registers whose value is a plain register value
live in the register file of Machine/State.lean; what is held here is the state behind the registers that show it.
-/

namespace Sys2Proof.Machine

/-! ### Sequencers (spec/07_spaith_isa.md) -/

/-- One AI register: its base and its four loop-depth steps (Table 7.1). -/
structure AiReg where
  base  : Word
  steps : List Lane
deriving DecidableEq, Repr

/-- R337, R343: an AI register at a start. -/
def AiReg.zero : AiReg := { base := 0, steps := [0, 0, 0, 0] }

/-- R345 to R351: one open loop level: its latched count, FOREVER, its iteration index and its body's addresses. -/
structure LoopLevel where
  count   : Nat
  forever : Bool
  li      : Nat
  first   : Nat
  last    : Nat
deriving DecidableEq, Repr

/-- R359: a return frame. -/
structure Frame where
  lib     : Bool
  pc      : Nat
  loops   : List LoopLevel
  ais     : List AiReg
  routine : Option Nat
deriving DecidableEq, Repr

/-- R316: the program counter, loop nest (outermost level first), return stack (top first) and AI registers of one
stream or bank-unit program. `routine` names the library routine entered by CALL.R or LJMP whose contract is still to
be performed at its RET (the model's own field). -/
structure Sequencer where
  lib     : Bool
  pc      : Nat
  loops   : List LoopLevel
  frames  : List Frame
  ais     : List AiReg
  routine : Option Nat
deriving DecidableEq, Repr

/-- R337, R343: a sequencer at the start of a program. -/
def Sequencer.start (pc : Nat) : Sequencer :=
  { lib := false, pc := pc, loops := [], frames := [], ais := List.replicate 8 AiReg.zero, routine := none }

/-! ### Hoops (spec/09_hoops_and_sync.md) -/

/-- One 64-byte hoop entry with its three sideband bits (R409). Byte `i` is bits `[8i+7:8i]`. `src` is the stream code
of its push (5 for the hub), which FENCE needs (R426); no pop returns it. -/
structure Entry where
  data   : BitVec 512
  last   : Bool
  fence  : Bool
  poison : Bool
  src    : Nat
deriving DecidableEq, Repr

/-- The sideband of an entry in the middle (R409): END, FENCE and POISON. -/
structure Sideband where
  last   : Bool
  fence  : Bool
  poison : Bool
deriving DecidableEq, Repr

/-- A group of entries written to the spill region (R412, R431): its unit in the region and its entries' sideband. -/
structure SpillGroup where
  slot : Nat
  ends : List Sideband
deriving DecidableEq, Repr

/-- One hoop slot of a core (R407 to R431): the tail window, the entries on their way into the middle, the groups in
DRAM, the entries read back, and the head window. Of a joined pair the OUT slot holds the tail and the IN slot the
rest; a hub-peered IN slot holds the hub's tail. `pushAt` and `popAt` are since when LAST_PUSH and LAST_POP have named the stream they name, and `openAt`
is when the packet open at the tail began, or the last one ended, which the stall monitor needs (R451). -/
structure Hoop where
  tail     : List Entry
  going    : List Entry
  groups   : List SpillGroup
  back     : List Entry
  head     : List Entry
  openBy   : Option Nat
  flushing : Bool
  lastPush : Nat
  lastPop  : Nat
  nextUnit : Nat
  pushAt   : Nat
  popAt    : Nat
  openAt   : Nat
deriving DecidableEq, Repr

/-- Table 9.7: a hoop slot at power-on reset. -/
def Hoop.empty : Hoop :=
  { tail := [], going := [], groups := [], back := [], head := [], openBy := none, flushing := false
    lastPush := 7, lastPop := 7, nextUnit := 0, pushAt := 0, popAt := 0, openAt := 0 }

/-- R457: the last SIGNAL that changed a sync object; `since` is since when its stream has been the last to do so, which the stall monitor
needs (R451). -/
structure SyncLast where
  stream : Nat
  lib    : Bool
  pc     : Nat
  since  : Nat
deriving DecidableEq, Repr

/-- R440: a registered watch. -/
structure Watch where
  obj       : Nat
  cond      : Nat
  threshold : Nat
deriving DecidableEq, Repr

/-! ### Tensor-core streams (spec/06_tensor_core.md, spec/07_spaith_isa.md) -/

/-- Table 8.9: a PASS record, with the tile's 22-bit fields. -/
structure PassRec where
  act        : Nat
  actStride  : Nat
  actSc      : Nat
  actScStride : Nat
  fmtA       : Nat
  m          : Nat
  row0       : Nat
  kb         : Nat
  w          : Nat
  wSc        : Nat
  fmtW       : Nat
  wreuse     : Bool
  set        : Nat
  clear      : Bool
  texp       : Int
deriving DecidableEq, Repr

/-- The weight tile the press holds: KB, the weight format, and each column's blocks as (scale, codes). -/
structure Tile where
  kb   : Nat
  fmtW : Nat
  cols : List (List (Nat × List Int))
deriving DecidableEq, Repr

/-- Table 8.11: a source of a vector chain. -/
structure ChainSrc where
  kind    : Nat
  present : Bool
  sclr    : Bool
  fmt     : Nat
  u       : Int
  loc     : Nat
  stride  : Int
deriving DecidableEq, Repr

/-- Table 8.11a: a stage word. -/
structure Stage where
  op   : Nat
  func : Nat
  opnd : Nat
  reg  : Nat
  rsvd : Nat
deriving DecidableEq, Repr

/-- Table 8.11: a vector chain. -/
structure ChainRec where
  words    : List Nat
  count    : Nat
  nst      : Nat
  srcA     : ChainSrc
  srcB     : ChainSrc
  kind     : Nat
  amode    : Nat
  fmt      : Nat
  u        : Int
  texp     : Int
  loc      : Nat
  stride   : Int
  cont     : Bool
  stages   : List Stage
  scaddr   : Nat
  scstride : Int
deriving DecidableEq, Repr

/-- Table 8.12: a soft-maximum instruction. -/
structure SmaxRec where
  l          : Nat
  rowsM1     : Nat
  vrsBase    : Nat
  kind       : Nat
  src        : Nat
  srcStride  : Nat
  mask       : Nat
  maskStride : Nat
  out        : Nat
  outStride  : Nat
deriving DecidableEq, Repr

/-- How far a chain has come: the scalar values its stages broadcast, its vectors done, the entries popped and not yet used, the
entries still to be pushed (R414, R421), and when it last moved on. -/
structure ChainRun where
  scalars : List Lane
  done    : Nat
  got     : List (BitVec 512)
  out     : List Entry
  since   : Nat
deriving DecidableEq, Repr

/-! ### Column words and transfers (Tables 15.1, 3.6) -/

/-- Table 15.1. -/
inductive EccResult where
  | clean | ce | misaddr | poisoned | ue
deriving DecidableEq, Repr

/-- Table 15.10: ECC_DIAG_RESULT's codes. -/
def EccResult.code : EccResult → Nat
  | .clean => 0 | .ce => 1 | .misaddr => 2 | .poisoned => 3 | .ue => 4

/-- The word is delivered marked uncorrectable. -/
def EccResult.bad : EccResult → Bool
  | .clean | .ce => false
  | .misaddr | .poisoned | .ue => true

/-- A column word as its decoder delivers it: the bytes, the result, and for a correction the symbols corrected. -/
structure WordRead where
  bytes : List Byte
  res   : EccResult
  syms  : List (Nat × Nat)
deriving DecidableEq, Repr

/-- A fault of a transfer: its cause, side, whether it fetched an index entry, and the address (R151). -/
structure DmaFault where
  cause : DmaCause
  side  : Bool
  fetch : Bool
  addr  : Int
deriving DecidableEq, Repr

/-- What a transfer has still to do once everything it reads is read (R150, R305 to R307): the bytes to be written to DRAM and to the operand
cache, each with its uncorrectable mark; whether a sum was clamped; the bytes counted; the fault met, with its position; and the DRAM rows
whose write slots are still to be asked for. -/
structure DmaPlan where
  dram    : List (Nat × (Byte × Bool))
  oc      : List (Nat × (Byte × Bool))
  clamped : Bool
  bytes   : Nat
  fault   : Option (Nat × DmaFault)
  left    : List Nat
deriving DecidableEq, Repr

/-- How far a transfer has come at the banks of its vat (R163, R304): the column words read, by address divided by 32; the rows, by address
divided by 1,024, whose slots it has asked for and which have not ended; and what it has to do once everything is read. -/
structure DmaRows where
  words : List (Nat × WordRead)
  asked : List Nat
  plan  : Option DmaPlan
deriving DecidableEq, Repr

/-- A transfer that has read nothing. -/
def DmaRows.none : DmaRows := { words := [], asked := [], plan := Option.none }

/-- An instruction that has issued and not completed (R309, R315). Each stream completes them in order. `sq` is the sequencer as it
stood at the instruction, to which a fault at its completion goes back (R311); `put` and `store` are a push to a register end and a
scalar store that wait for the stream's earlier instructions (R324). -/
inductive InFlight where
  | pass (r : PassRec) (sq : Sequencer)
  | pclr (set : Nat) (texp : BitVec 8)
  | chain (r : ChainRec) (run : ChainRun) (sq : Sequencer)
  | smax (r : SmaxRec) (sq : Sequencer)
  | xfer (src dst : Desc) (dstAt : Nat) (sq : Sequencer) (rows : DmaRows)
  | sread (die logical offset len ocAddr : Nat)
  | signal (obj : Nat) (amount : Int) (sq : Sequencer)
  | push (hoop : Nat) (entry : Entry) (since : Nat)
  | fence (hoop : Nat) (since : Nat)
  | flush (hoop : Nat)
  | put (e : Nat) (w : Word)
  | store (a : Nat) (bytes : List Byte)
deriving DecidableEq, Repr

/-- The running state of a stream or bank unit: Table 6.7's and Table 4.11's codes 0, 1 and 3 or 2. `ending` is a
stream whose HALT waits for earlier instructions (R338), still shown as RUN. -/
inductive RunState where
  | idle | run | ending | fault
deriving DecidableEq, Repr

/-- What a stream is held by. -/
inductive Hold where
  | watch (w : Watch)
  | bar (id : Nat) (mask : Nat)
  | hbar (b : Nat)
deriving DecidableEq, Repr

/-- R450: a stall as the monitor notes it: Table 9.5's kind and index, and when it began. -/
structure Stall where
  kind  : Nat
  index : Nat
  since : Nat
deriving DecidableEq, Repr

/-- One of the five streams of a tensor core (R314 to R316). `stoppedAt` is when it last became IDLE or faulted, `freedAt` when a debug write
last let it go (R683), and `reported` says that a stall report has named it since it last issued (R453). -/
structure Stream where
  run      : RunState
  seq      : Sequencer
  hold     : Option Hold
  stall    : Option Stall
  inflight : List InFlight
  reported : Bool
  stoppedAt : Nat
  freedAt  : Nat
deriving DecidableEq, Repr

/-- A stream after power-on reset: IDLE. -/
def Stream.idle : Stream :=
  { run := .idle, seq := Sequencer.start 0, hold := none, stall := none, inflight := [], reported := false, stoppedAt := 0, freedAt := 0 }

/-- How far a library routine of the control stream has come (R401 to R403): the item it is on, its phase there, the start
it waits for, the entries to be retried, and the completions it has popped for the item. The model's own. -/
structure Routine where
  item  : Nat
  phase : Nat
  seq   : Nat
  lost  : Nat
  taken : List Entry
deriving DecidableEq, Repr

/-- A routine that has done nothing. -/
def Routine.fresh : Routine := { item := 0, phase := 0, seq := 0, lost := 0, taken := [] }

/-- A tensor core (R268, Table 6.1): every piece of state behind its registers. `held` is the mask of the streams that a debug
write holds (R683). -/
structure Core where
  domain   : Nat
  streams  : List Stream
  sregs    : List Word
  vl       : Nat
  vregs    : List (Nat × Lane)
  vrs      : List (Nat × Byte)
  acc      : List (Nat × BitVec 48)
  accT     : List (Bool × BitVec 8)
  tile     : Option Tile
  oc       : List Host.Cell
  ocMarks  : List (Nat × Nat)
  pstore   : List (Nat × Word)
  pstoreBad : List (Nat × Bool)
  hoops    : List Hoop
  cpl      : List Entry
  sync     : List (Nat × Nat)
  syncLast : List (Nat × Option SyncLast)
  baseline : List (Nat × Nat)
  enrolled : Nat
  routine  : Routine
  held     : Nat
deriving DecidableEq, Repr

/-- A tensor core after power-on reset (R336, R448): every store zero, every stream IDLE. -/
def Core.reset : Core :=
  { domain := 0, streams := List.replicate 5 Stream.idle, sregs := List.replicate 32 0
    vl := 128, vregs := [], vrs := [], acc := [], accT := List.replicate 4 (false, 0), tile := none, oc := [], ocMarks := []
    pstore := [], pstoreBad := [], hoops := List.replicate 16 Hoop.empty, cpl := [], sync := [], syncLast := []
    baseline := [], enrolled := 0, routine := Routine.fresh, held := 0 }

/-! ### Bank units (spec/04_bank_units.md) -/

/-- A row latch (R156, R171, R859): its bytes, those written since its last read slot, as one bit for each byte, and the column words still
marked uncorrectable, as one bit for each word. -/
structure Latch where
  bytes   : List Host.Cell
  written : Nat
  marked  : Nat
deriving DecidableEq, Repr

/-- A latch that nothing has filled. -/
def Latch.empty : Latch := { bytes := [], written := 0, marked := 0 }

/-- Table 4.4: a start command as the bank unit keeps it; `seq` is the START_SEQ of the start. -/
structure StartCmd where
  seq        : Nat
  entry      : Nat
  args       : List Lane
  group      : Bool
  fenceFirst : Nat
  fenceRows  : Nat
  domain     : Nat
deriving DecidableEq, Repr

/-- R193: a whey transfer waiting in a send queue; `sent` is when it reached the head of the queue, or was sent. -/
structure WheySend where
  src   : Nat
  dst   : Nat
  dstAt : Nat
  len   : Nat
  sent  : Nat
deriving DecidableEq, Repr

/-- A host access of one line of DRAM (R173, R633), by its DPA and its address in the vat: a read, or a write with its byte enables
and poison; `ahead` are the slots that base-die requests ahead of it take at its bank when it joins them (R640). -/
structure HostReq where
  write   : Bool
  dpa     : Nat
  pa      : Nat
  bytes   : List Byte
  enables : List Bool
  poison  : Bool
  ahead   : Nat
deriving DecidableEq, Repr

/-- Who a row slot serves: the bank unit's own slots, a host access that waits for its turn, the storing of a host write already completed, a row that
the hub reads or writes (bytes from offset `o` of logical index `a`; none for a read), column words of a row that engine `e` of core `c` reads or the
row it writes, by address divided by 1,024, a legacy row operation's slot, the two slots of a takeover copy's row, the walker's reading of a row in a
walk that began at a time (R695), its rewrite of words of a row (R693), refresh, and a slot that runs to its end for nobody (R163). -/
inductive SlotUse where
  | buRead (latch row : Nat)
  | buWrite (latch row : Nat)
  | host (r : HostReq)
  | hostStore
  | hubStore (a o : Nat) (bytes : List Byte)
  | dmaRead (c e row : Nat) (words : List Nat)
  | dmaWrite (c e row : Nat)
  | rowOp (logical : Nat)
  | copyRead
  | copyWrite
  | scrub (row began : Nat)
  | rescrub (row : Nat) (words : List Nat)
  | refresh
  | spent
deriving DecidableEq, Repr

/-- Table 4.2: the classes of row slots, highest first. -/
inductive SlotClass where
  | refresh | base | bank | scrub
deriving DecidableEq, Repr

/-- A row-slot request waiting at a bank arbiter (R165): its use, class, row where it names one, arrival, and the slots it takes one after the
other: one, two for a pair (R166), three for refresh (Table 4.2). -/
structure SlotReq where
  use     : SlotUse
  cls     : SlotClass
  row     : Option Nat
  arrived : Nat
  slots   : Nat := 1
deriving DecidableEq, Repr

/-- Table 9.4's completion statuses. -/
inductive EndStatus where
  | done | fault | stopped | notStarted
deriving DecidableEq, Repr

/-- A bank unit and its bank's arbiter. The scalar registers hold 32 bits. `ending` is the status a program will report
once its requested slots have ended (R858), and `dropped` the starts that stops have discarded and that are still to be
reported (R183). -/
structure Bu where
  run        : RunState
  cause      : Nat
  completions : Nat
  start      : Option StartCmd
  waiting    : Option StartCmd
  dropped    : List StartCmd
  ending     : Option EndStatus
  fenceHeld  : Bool
  fenceValid : Bool
  fenceFirst : Nat
  fenceRows  : Nat
  fenceSince : Nat
  fenceLimit : Nat
  seq        : Sequencer
  faultLib   : Bool
  faultPc    : Nat
  sregs      : List Lane
  latches    : List Latch
  scratch    : List Host.Cell
  pstore     : List (Nat × Word)
  pstoreBad  : List (Nat × Bool)
  wheyRx     : Nat
  wheyTx     : Nat
  wheyQ      : List WheySend
  slotQ      : List SlotReq
  active     : Option SlotReq
  baseRun    : Nat
  lastDone   : Option (Nat × EndStatus)
deriving DecidableEq, Repr

/-- A bank unit after power-on reset. -/
def Bu.reset : Bu :=
  { run := .idle, cause := 0, completions := 0, start := none, waiting := none, dropped := [], ending := none
    fenceHeld := false, fenceValid := false, fenceFirst := 0, fenceRows := 0, fenceSince := 0, fenceLimit := 0
    seq := Sequencer.start 0, faultLib := false, faultPc := 0, sregs := List.replicate 16 0
    latches := [Latch.empty, Latch.empty], scratch := [], pstore := [], pstoreBad := [], wheyRx := 0, wheyTx := 0, wheyQ := []
    slotQ := [], active := none, baseRun := 0, lastDone := none }

/-! ### Dies -/

/-- Table 8.7 and Table 5.10: a merge command; `entries` is the mask of the query entries it serves, all of them but for
a retry of STEP (R263). -/
structure MergeCmd where
  core    : Nat
  image   : Nat
  out     : Nat
  status  : Nat
  mass    : Nat
  waveSeq : Nat
  massEn  : Bool
  entries : Nat
deriving DecidableEq, Repr

/-- R255: a start that a merge is attached to on one bank, and how it completed. -/
structure Attach where
  bank : Nat
  seq  : Nat
  done : Option EndStatus
deriving DecidableEq, Repr

/-- A merge that has begun (R254, R255): its command, the wave image read, and the starts attached to. -/
structure MergeRun where
  cmd    : MergeCmd
  image  : List Byte
  attach : List Attach
deriving DecidableEq, Repr

/-- A command of the control stream that a die has accepted and not yet performed (R180, R860). -/
inductive DieCmd where
  | load (mask : Nat) (offset : Nat) (words : List Word)
  | start (mask : Nat) (group : Bool) (cmd : StartCmd)
  | write (targets : Option Nat) (offset : Nat) (bytes : List Byte)
deriving DecidableEq, Repr

/-- A start whose completions are still outstanding (R184, R434): the banks not yet completed and the results so far. -/
structure StartRec where
  seq     : Nat
  group   : Bool
  mask    : Nat
  left    : List Nat
  results : List (Nat × EndStatus)
deriving DecidableEq, Repr

/-- R200: the states of a spare slot (Table 4.6). -/
inductive SpareState where
  | ready | calibrating | copying | retired
deriving DecidableEq, Repr

/-- Table 4.6's codes. -/
def SpareState.code : SpareState → Nat
  | .ready => 1 | .calibrating => 2 | .copying => 3 | .retired => 4

/-- R202 to R205: a takeover copy in progress, its trigger (Table 15.6) and the rows copied with a UE result. -/
structure Takeover where
  logical : Nat
  slot    : Nat
  nextRow : Nat
  trigger : Nat
  ueRows  : Nat
deriving DecidableEq, Repr

/-- Tables 4.7 to 4.10: a legacy command line: the ARM held and when it came, and the operation running: its slot within
the row, and the operation latch (R211) with the column words that could not be corrected. -/
structure LegacyLine where
  arm      : Option (List Byte)
  armAt    : Nat
  busy     : Bool
  command  : List Byte
  result   : Nat
  rowsDone : Nat
  lastSeq  : Nat
  dataError : Bool
  phase    : Nat
  latch    : List Byte
  bad      : Nat
deriving DecidableEq, Repr

/-- A command line after power-on reset. -/
def LegacyLine.reset : LegacyLine :=
  { arm := none, armAt := 0, busy := false, command := [], result := 0, rowsDone := 0, lastSeq := 0, dataError := false, phase := 0, latch := [], bad := 0 }

/-- A whey transfer the bus is carrying (R194, R197). -/
structure WheyGo where
  src   : Nat
  dst   : Nat
  dstAt : Nat
  bytes : List Byte
deriving DecidableEq, Repr

/-- One DRAM core die. `bankMap` gives the physical bank behind each logical index (R157). `spareDomain` is the domain each spare last served (R201),
`zeroing` the spares being zeroed, each with the domain it will serve. `lastStart` gives, by logical index, the latest start issued to it and how that
completed (R255). `takeoverQ` holds the triggers waiting (R711): active index and code of Table 15.6. `calAt` and `calTemp` are when, and at which
temperature, its TSV drivers were last calibrated (R817), `requal` the spare slot under test and since when (R715), `lanesOut` the TSV lanes retired
(R818), and `held` the hold of all its bank units that a debug write leaves (R683). -/
structure Die where
  bankMap     : List Nat
  spares      : List SpareState
  spareDomain : List Nat
  zeroing     : List (Nat × Nat)
  takeover    : Option Takeover
  takeoverQ   : List (Nat × Nat)
  startSeq    : Nat
  cmds        : List DieCmd
  writes      : List DieCmd
  starts      : List StartRec
  posts       : List (BitVec 512)
  lastStart   : List (Nat × Nat × Option EndStatus)
  merge       : Option MergeRun
  mergeQ      : List (MergeCmd × List Attach)
  mergeSeq    : Nat
  wheyLast    : Nat
  wheyBus     : Option WheyGo
  legacy      : List (Nat × LegacyLine)
  calAt       : Nat
  calTemp     : Int
  requal      : Option (Nat × Nat)
  lanesOut    : List Nat
  held        : Bool
deriving DecidableEq, Repr

/-- A die after power-on reset (R158, R436). -/
def Die.reset : Die :=
  { bankMap := List.range 100, spares := List.replicate 4 .ready, spareDomain := [0, 0, 0, 0], zeroing := []
    takeover := none, takeoverQ := [], startSeq := 0, cmds := [], writes := [], starts := [], posts := [], lastStart := []
    merge := none, mergeQ := [], mergeSeq := 0, wheyLast := 99, wheyBus := none, legacy := []
    calAt := 0, calTemp := 0, requal := none, lanesOut := [], held := false }

end Sys2Proof.Machine
end

