-- ==== Sys2Proof/Machine/HubState.lean ====
section
/-!
DEFINITION. The state of the hub die and of each vat's base die, as plain data (chapters 10 to 18 of spec/). Registers
whose value is a plain register value live in the register file of Machine/State.lean; what is held here is the state
behind the registers that show it.
-/

namespace Sys2Proof.Machine

/-! ### The error log (spec/15_reliability.md) -/

/-- Table 15.3: one occurrence as the log would write it. For the host classes `dpa` replaces bytes 8 to 15. -/
structure LogOcc where
  cls     : Nat
  sev     : Nat
  vat     : Nat
  die     : Nat
  logical : Nat
  phys    : Nat
  core    : Nat
  stream  : Nat
  row     : Nat
  word    : Nat
  source  : Nat
  sym     : Nat
  detail  : Nat
  dpa     : Option Nat
  time    : Nat
deriving DecidableEq, Repr

/-- Tables 15.4, 16.x, 17.x and 18.x: the severity of an error-log class. -/
def logSeverity (cls : Nat) : Nat :=
  match cls with
  | 0x01 => 1 | 0x02 => 3 | 0x03 => 3 | 0x04 => 2 | 0x05 => 3 | 0x06 => 3 | 0x07 => 3 | 0x08 => 1
  | 0x10 => 0 | 0x11 => 2 | 0x12 => 2 | 0x13 => 2 | 0x14 => 2 | 0x15 => 2 | 0x16 => 0 | 0x17 => 2 | 0x18 => 2
  | 0x20 => 3 | 0x21 => 3 | 0x22 => 2 | 0x23 => 2 | 0x24 => 3 | 0x25 => 2 | 0x26 => 3 | 0x27 => 3 | 0x28 => 2
  | 0x29 => 1 | 0x2A => 1 | 0x2B => 3
  | 0x30 => 2 | 0x31 => 0 | 0x32 => 1 | 0x33 => 3 | 0x34 => 1
  | 0x50 => 2 | 0x51 => 1 | 0x52 => 3 | 0x53 => 2 | 0x54 => 2 | 0x55 => 2 | 0x56 => 2
  | 0x60 => 0 | 0x61 => 2 | 0x62 => 3 | 0x63 => 1 | 0x64 => 3 | 0x65 => 1 | 0x66 => 3
  | _ => 0

/-- R707: the CXL event records that the part makes. -/
inductive EventKind where
  | dram | memoryModule
deriving DecidableEq, Repr

/-- R707: a CXL event record: its handle, its type and the error-log entry it was made of. -/
structure EventRec where
  handle : Nat
  kind   : EventKind
  occ    : LogOcc
deriving DecidableEq, Repr

/-- R707: the overflow of a CXL event log: the records dropped since it was last cleared, and when the first and the last of them came. -/
structure Overflow where
  count : Nat
  first : Nat
  last  : Nat
deriving DecidableEq, Repr

/-! ### Vats -/

/-- R728 to R731, Table 16.11: a vat's states. -/
inductive VatPower where
  | awake | entering | asleep | waking
deriving DecidableEq, Repr

/-- R633, R836: a host write completed and not yet stored: its row, and the access itself. -/
structure WqEntry where
  die     : Nat
  logical : Nat
  row     : Nat
  req     : HostReq
deriving DecidableEq, Repr

/-- R40, R368, R755 to R757: a hub layer barrier: the cores that have arrived, with their times; the slack of each enrolled
vat in each of the last 64 episodes, newest first; the episodes since the last pacing change; when it last completed;
the power its pacing has added to a vat's share, or taken from it, in tenths of a watt; and the steps by which it has asked a vat to be lowered. -/
structure Barrier where
  arrived  : List (Nat × Nat)
  episodes : List (List (Nat × Nat))
  since    : Nat
  lastAt   : Nat
  added    : List (Nat × Int)
  asked    : List (Nat × Nat)
deriving DecidableEq, Repr

/-- A barrier that no core has reached. -/
def Barrier.reset : Barrier := { arrived := [], episodes := [], since := 0, lastAt := 0, added := [], asked := [] }

/-! ### What a culture image carries beside registers (spec/12_culture_image.md, Tables 12.4 to 12.6) -/

/-- Table 12.4: the row layout of one die. -/
structure DieLayout where
  pidx       : Nat
  pageFirst  : Nat
  pageLast   : Nat
  scaleFirst : Nat
  scaleLast  : Nat
  calSpares  : Nat
deriving DecidableEq, Repr

/-- Table 12.4: a core record; `core` is 4v + c. -/
structure PoolCore where
  core        : Nat
  jobHoop     : Nat
  resultHoop  : Nat
  affHoop     : Nat
  weightPages : Nat
  weightVa    : Nat
  ledger      : Nat
  token       : Nat
  dies        : List DieLayout
deriving DecidableEq, Repr

/-- Table 12.4: a pool; `signer` signed its section and `at_` is the image offset of its body. -/
structure Pool where
  domain    : Nat
  spillGbps : Nat
  cores     : List PoolCore
  at_       : Nat
deriving DecidableEq, Repr

/-- Table 12.5: a model. -/
structure Model where
  signer      : Nat
  pool        : Nat
  layers      : Nat
  spill       : Bool
  flush       : Bool
  hkv         : Nat
  g           : Nat
  dsel        : Nat
  window      : Nat
  pagesPerBank : Nat
  waves       : Nat
  batch       : Nat
  tps         : Nat
  pipe        : Nat
  press       : Nat
  vec64       : Nat
  vec128      : Nat
  wbLayer     : Nat
  spillLayer  : Nat
  attnToken   : Nat
  weightBytes : Nat
  at_         : Nat
deriving DecidableEq, Repr

/-- Table 12.6: the load a class declares. -/
structure ClassLoad where
  signer  : Nat
  migrate : Bool
  nMax    : Nat
  rate    : Nat
  skew    : Nat
  depth   : Nat
deriving DecidableEq, Repr

/-! ### Contexts (spec/10_contexts_and_affinage.md) -/

/-- R475, R229: the hub's view of one page: where its data and scale granules lie, and which page-index entry names it. -/
structure PageRec where
  layer  : Nat
  page   : Nat
  tier   : Nat
  opened : Bool
  bank   : Nat
  row    : Nat
  gran   : Nat
  entry  : Nat
deriving DecidableEq, Repr

/-- Table 10.3. -/
inductive CtxState where
  | free | live | migrating | closing | spilled | standby
deriving DecidableEq, Repr

/-- R509, R510: a migration: when it began, the new home, slot and rotation, the pages copied there and the bytes copied. -/
structure Migration where
  since : Nat
  vat   : Nat
  die   : Nat
  slot  : Nat
  rot   : Nat
  pages : List PageRec
  bytes : Nat
deriving DecidableEq, Repr

/-! ### Kwadan messages (spec/17_kwadan_link.md, Table 17.4) -/

/-- Table 17.4; a SPILL_PUT carries the context's key. `mirrorAsk` asks for MIRROR_FULL (R778) and `manifest` carries R663's manifest (R774). -/
inductive KwMsg where
  | mirrorFull (h : CtxHdr) (pages : List PageImage)
  | mirrorUpdate (h : CtxHdr) (kv : List TokenKv)
  | mirrorReview (h : CtxHdr) (jobs : List ReviewJob)
  | mirrorClose (h : CtxHdr)
  | mirrorAsk (handle : Nat)
  | mirrorAck (pairs : List (Nat × Nat))
  | spillPut (h : CtxHdr) (key : List Byte) (pages : List PageImage)
  | spillRecall (h : CtxHdr)
  | spillReturn (h : CtxHdr) (pages : List PageImage)
  | spillAck (h : CtxHdr) (result : Nat)
  | fwdJob (domain seq budget cookie cls : Nat) (record : List Byte)
  | fwdResult (domain seq : Nat) (record : List Byte)
  | fwdAbort (domain cookie : Nat)
  | manifest (bytes : List Byte)
deriving DecidableEq, Repr

/-- Where a STANDBY copy comes from (R778, R786): the package, the handle there, the highest sequence number applied, the one whose review has been
applied (R506), whether it is a spilled context, the messages held for a gap with when each came, and whether MIRROR_FULL has been asked for. -/
structure Standby where
  pkg    : Nat
  handle : Nat
  seq    : Nat
  reviewed : Option Nat
  spill  : Bool
  held   : List (Nat × KwMsg)
  asked  : Bool
deriving DecidableEq, Repr

/-- R785 to R787: how far a spill of a context has come. -/
inductive SpillPhase where
  | home | offered | refused | away | recalled
deriving DecidableEq, Repr

/-- R478: a tail that can take tokens; one that R476 could not move, whose next job ends PAGE_SPACE; and one whose later jobs retry. -/
inductive TailRoom where
  | fits | full | retry
deriving DecidableEq, Repr

/-- Tables 10.1 and 10.2: a context that is not FREE, with the hub's own view of its pages and of its shadow on spare `spare`. `place` is its
directory entry's bucket and way; `holder` the package that it has been offered or spilled to (R785); `owed` are the pages given up whose entries R480
does not let the hub clear yet. -/
structure Ctx where
  gen         : Nat
  state       : CtxState
  sampled     : Bool
  shadowOk    : Bool
  mirrored    : Bool
  vat         : Nat
  die         : Nat
  slot        : Nat
  rot         : Nat
  model       : Nat
  cls         : Nat
  domain      : Nat
  tailCount   : Nat
  oldest      : Nat
  tail        : Nat
  shadowFirst : Nat
  tokens      : Nat
  lastActive  : Nat
  mirrorSeq   : Nat
  key         : List Byte
  hash        : Nat
  place       : Nat × Nat
  pages       : List PageRec
  shadow      : List PageRec
  spare       : Option Nat
  room        : TailRoom
  owed        : List PageRec
  sample      : Option (Nat × Nat)
  migration   : Option Migration
  standby     : Option Standby
  spill       : SpillPhase
  holder      : Nat
  diverged    : Bool
deriving DecidableEq, Repr

/-- R481 to R487: an affinage job delivered and not ended: its context, its B-profile entry (2 SEAL, 3 RIPEN, 4 COMPACT,
5 CULL), the page, and where its new rows and granules lie. -/
structure AffJob where
  ctx   : Nat
  kind  : Nat
  page  : PageRec
  row   : Nat
  gran  : Nat
deriving DecidableEq, Repr

/-- R501, R502: the calibration counts of one class of one model. -/
structure CalCount where
  n : Nat
  e : Nat
deriving DecidableEq, Repr

/-! ### The host's side of the link (spec/13_host_link_and_memory_map.md) -/

/-- The answer to the latest request of the host, the sideband or a session; what a request that asks for nothing leaves. -/
inductive Response where
  | none
  | line (data : BitVec 512) (poison : Bool)
  | written
  | retry
  | word (w : BitVec 64)
  | code (n : Nat)
  | bytes (code : Nat) (data : List Byte)
  | events (records : List EventRec) (dropped : Option Overflow)
  | poisoned (dpas : List Nat) (overflow : Bool)
deriving DecidableEq, Repr

/-- R766, Table 17.1: what a flit on a port holds: a DATA flit its 256 content bytes, a NAK the FSEQ expected, a CREDIT the credits returned,
a CONTROL flit its part of R772's exchange. -/
inductive FlitOut where
  | data (content : List Byte)
  | ack
  | nak (seq : Nat)
  | credit (channel n : Nat)
  | control (body : List Byte)
deriving DecidableEq, Repr

/-- What the part sends of its own accord: an MSI-X message, a BISnpInv for a line, a Kwadan message given to a port, or a flit that leaves a port
with the ACKSEQ it carries. Newest first in `Hub.out`. -/
inductive OutMsg where
  | msix (vector : Nat)
  | biSnp (id line : Nat)
  | kwadan (port : Nat) (m : KwMsg)
  | flit (port ackseq : Nat) (f : FlitOut)
deriving DecidableEq, Repr

/-! ### Jobs (spec/11_jobs_and_verdicts.md) -/

/-- Where a record came from: a submission ring, or a FWD_JOB of a port with its sequence number (R790). -/
inductive Origin where
  | ring (r : Nat)
  | port (p seq : Nat)
deriving DecidableEq, Repr

/-- How far a job has come: its directory walk is outstanding (R468); its context is found, and an earlier job of it is still looking it
up (R50); it is in the scheduler; it is dispatched to a core (4v + c); it is forwarded to a package (R789); its outcome is fixed. -/
inductive JobPhase where
  | walking | found (handle : Nat) | waiting | sent (core : Nat) | forwarded (pkg seq : Nat) | ended
deriving DecidableEq, Repr

/-- R562: the outcome of a job: its status, VERDICT and TOKENS, and whether its context closes after it. -/
structure Outcome where
  status  : Nat
  verdict : Nat
  tokens  : Nat
  closed  : Bool
deriving DecidableEq, Repr

/-- A job (R518 to R552). `order` is its place in acceptance order; `summary` is R535's DIR, F and Z of a packet; `payload` the
bytes that may become byte tokens; `source` the record, kept for a forwarded job; `budget`, `byteMax` and `drop` the settings of its
class when it was accepted (R604); `decided` says that its decision point is past (R549); `written` says that its completion record
waits in its verdict ring's queue; `raw` is the completion record that a peer returned (R791). `evicts` is the handle of the context that
makes room for the one it creates (R472); `doom` the status in which it ends at its result entry, its context having gone (R549). -/
structure Job where
  origin    : Origin
  order     : Nat
  kind      : Nat
  cls       : Nat
  cookie    : Nat
  accept    : Nat
  deadline  : Nat
  domain    : Nat
  model     : Nat
  key       : List Byte
  mayCreate : Bool
  handle    : Nat
  isNew     : Bool
  summary   : Option (Nat × Nat × Nat)
  payload   : List Byte
  tokens    : List Nat
  closes    : Bool
  phase     : JobPhase
  ahead     : List PageRec
  outcome   : Option Outcome
  budget    : Nat
  byteMax   : Nat
  drop      : Bool
  decided   : Bool
  aborted   : Bool
  late      : Bool
  written   : Bool
  source    : List Byte
  raw       : List Byte
  evicts    : Option Nat
  doom      : Option Nat
deriving DecidableEq, Repr

/-- R473: a close that has taken its place: its context's handle, its place in acceptance order and the tag of its CLOSE job. -/
structure Close where
  handle : Nat
  order  : Nat
  tag    : Option Nat
deriving DecidableEq, Repr

/-- A verdict ring's side of the hub: the tags whose records wait, in order; the records written since the last MSI-X message
and when the first of them was; and the back-invalidation in hand: its line, when sent, and whether it is answered. -/
structure VRing where
  waiting : List Nat
  since   : Nat
  firstAt : Nat
  snoop   : Option (Nat × Nat × Bool)
deriving DecidableEq, Repr

/-- A verdict ring with nothing waiting. -/
def VRing.empty : VRing := { waiting := [], since := 0, firstAt := 0, snoop := none }

/-! ### Kwadan ports (spec/17_kwadan_link.md) -/

/-- R766, R776: a DATA flit of a message: its channel, whether the message begins and ends with it, and its payload bytes in use. -/
structure DataOut where
  channel : Nat
  som     : Bool
  eom     : Bool
  payload : List Byte
deriving DecidableEq, Repr

/-- A port: when it entered its state and the lanes it trained on (R763); its DATA flits: the next FSEQ to send, the replay buffer, oldest
first, those waiting for a credit or for room, its credits by channel, the last FSEQ received in order, the flits received on each channel
since it last returned credits, and each channel's message in assembly; how often one FSEQ was resent; the keys in use, the flits sent
under one, and the count that the next FSEQ has under the other once a flit has come under it (R773); the forward sequence numbers, with the
results sent (R790); and whether a failed check waits for its retry. -/
structure Port where
  since     : Nat
  lanes     : Nat
  txSeq     : Nat
  replay    : List DataOut
  txWait    : List DataOut
  credits   : List Nat
  rxLast    : Option Nat
  rxCount   : List Nat
  rxMsg     : List (List Byte)
  lastResent : Nat
  resends   : Nat
  txKey     : List Byte
  rxKey     : List Byte
  txKeyed   : Nat
  rxKeyed   : Option Nat
  fwdSeq    : Nat
  fwdSeen   : Nat
  answers   : List (Nat × List Byte)
  failed    : Bool
deriving DecidableEq, Repr

/-- R775, R767: a port that has exchanged nothing. -/
def Port.reset : Port :=
  { since := 0, lanes := 0, txSeq := 0, replay := [], txWait := [], credits := [256, 256, 256, 256], rxLast := none, rxCount := [0, 0, 0, 0]
    rxMsg := [[], [], [], []], lastResent := 0, resends := 0, txKey := [], rxKey := [], txKeyed := 0, rxKeyed := none, fwdSeq := 0, fwdSeen := 0
    answers := [], failed := false }

/-- R781: a mirror message unsent or not yet acknowledged. -/
structure MirrorOut where
  pkg    : Nat
  handle : Nat
  seq    : Nat
  bytes  : Nat
  msg    : KwMsg
deriving DecidableEq, Repr

/-! ### Domains (spec/14_rind.md) -/

/-- A declared domain (R656, R663, R664, R670, R681): its public keys as its DOMAIN section carries them (Table 14.1), their fingerprint and
algorithms, its CHAIN, its DSK where one is held, and the debug scopes granted. -/
structure Domain where
  keys   : List Byte
  finger : List Byte
  algs   : Nat
  chain  : List Byte
  dsk    : Option (List Byte)
  grants : Nat
deriving DecidableEq, Repr

/-! ### The culture-image transaction (spec/12_culture_image.md) -/

/-- A section of a staged image (Table 12.2), with the image byte offset of its body. -/
structure Section where
  type   : Nat
  signer : Nat
  vat    : Nat
  core   : Nat
  index  : Nat
  at_    : Nat
  body   : List Byte
deriving DecidableEq, Repr

/-- R570 to R572: a staged register value and the domain whose authority it has. -/
structure StagedReg where
  value  : Word
  signer : Nat
deriving DecidableEq, Repr

/-- R568, R664, R678: an image staged: its IMAGE_SEQ, the digest that each signer's SIGNATURE covers, and where it declares a domain that it
also tears down. -/
structure StagedImage where
  seq    : Nat
  signed : List (Nat × List Byte)
  clash  : Option Nat
deriving DecidableEq, Repr

/-- R570: the staged state, as what it changes of the state in force: the sections, in staging order, the register values by
BAR0 offset, domain 0's direct writes in order, and the images staged. Of a COMMIT: FORCE, when its drain began, the cores it
switches, and the failures of the part as admission found them (R603). -/
structure Txn where
  sections : List Section
  regs     : List (Nat × StagedReg)
  writes   : List (Nat × Word)
  images   : List StagedImage
  force    : Bool
  since    : Nat
  switched : List Nat
  shape    : List Nat
deriving DecidableEq, Repr

/-- R570: a transaction that has staged nothing. -/
def Txn.fresh : Txn :=
  { sections := [], regs := [], writes := [], images := [], force := false, since := 0, switched := [], shape := [] }

/-! ### Secured sessions (spec/14_rind.md) -/

/-- R665, R668: a secured session: whether FINISH has ended its handshake, the domain it is bound to, and the nonce of its last
DOMAIN_CHALLENGE while that is unused. -/
structure Session where
  finished : Bool
  bound    : Option Nat
  nonce    : Option (List Byte)
deriving DecidableEq, Repr

/-- R670: the requests that a COMMITTING or APPLYING transaction holds. -/
inductive RindReq where
  | keySet (key : List Byte)
  | keyErase
  | unlock (scopes : Nat)
deriving DecidableEq, Repr

/-- R670: a held request: its session, its domain and what it asks. -/
structure HeldReq where
  session : Nat
  domain  : Nat
  req     : RindReq
deriving DecidableEq, Repr

/-! ### The log's own state, power and boot (spec/15_reliability.md, spec/16_power_clocks_thermal.md, spec/18_reset_boot_calibration.md) -/

/-- Table 15.3: an entry of the error log: its first occurrence, its COUNT and LAST_TIME. -/
structure LogEntry where
  first : LogOcc
  count : Nat
  last  : Nat
deriving DecidableEq, Repr

/-- R702 to R707: the entries by index; the indexes of the 64 most recently written, newest first; by bank, when its CE entries of the
last millisecond were written; whether a message is owed and when the last was sent; the CXL event logs (0 Informational, 1 Warning,
2 Failure), the overflow of each that has dropped one, and the last handle given. -/
structure LogState where
  ring    : List (Nat × LogEntry)
  recent  : List Nat
  ceTimes : List (Nat × List Nat)
  owed    : Bool
  sentAt  : Option Nat
  events  : List (Nat × List EventRec)
  dropped : List (Nat × Overflow)
  handle  : Nat
deriving DecidableEq, Repr

/-- A log that holds nothing. -/
def LogState.empty : LogState :=
  { ring := [], recent := [], ceTimes := [], owed := false, sentAt := none, events := [], dropped := [], handle := 0 }

/-- R728, R736 to R750: what the arbiter keeps: cause CAP; the vats with cause THERMAL; the ticks in a row with the 100 µs average above
the cap at the floor, and at or below it; when each vat was last lowered for heat; since when each has stood at the floor 5 °C above
THROTTLE_TEMP; the vats throttled and whether the hub is; the hub's hottest reading; the dies in hot refresh; since when each vat has been
idle; the energy not yet counted, in tenths of a microjoule; and when it last ran and last sampled the sensors. -/
structure PowerCtl where
  capCause  : Bool
  thermal   : List Nat
  above     : Nat
  below     : Nat
  loweredAt : List (Nat × Nat)
  hotSince  : List (Nat × Nat)
  throttled : List Nat
  hubHot    : Bool
  hubTemp   : Int
  hotDies   : List Nat
  idleSince : List (Nat × Nat)
  energy    : Nat
  tickAt    : Option Nat
  sampleAt  : Option Nat
deriving DecidableEq, Repr

/-- An arbiter that has met nothing. -/
def PowerCtl.fresh : PowerCtl :=
  { capCause := false, thermal := [], above := 0, below := 0, loweredAt := [], hotSince := [], throttled := [], hubHot := false
    hubTemp := 0, hotDies := [], idleSince := [], energy := 0, tickAt := none, sampleAt := none }

/-- Table 18.4: how the part stands: without standby supply; with the cave alone, its main supplies off; held in reset; booting; READY;
FAILED; stopped by a thermal trip or a supply loss; its hub stopped. -/
inductive Condition where
  | off | cave | held | booting | ready | failed | tripped | hubStopped
deriving DecidableEq, Repr

/-- R799, R802, R807: the condition; when the last reset ended, when it began, and when the stage of the boot that runs began; a package reset that an
apply defers, with its kind and its trigger's time; whether the dies are trained, DRAM is scrubbed and the directory is cleared; the outputs THERMTRIP#
and FAULT# asserted until the next power-on reset (R851); and the first apply cycle since a package reset still to come (R816). -/
structure BootState where
  cond      : Condition
  endAt     : Nat
  heldAt    : Nat
  stageAt   : Nat
  deferred  : Option (Nat × Nat)
  trained   : Bool
  scrubbed  : Bool
  cleared   : Bool
  thermTrip : Bool
  faultPin  : Bool
  firstApply : Bool
deriving DecidableEq, Repr

/-- A part whose power-on reset has just ended. -/
def BootState.start : BootState :=
  { cond := .booting, endAt := 0, heldAt := 0, stageAt := 0, deferred := none, trained := false, scrubbed := false, cleared := false, thermTrip := false
    faultPin := false, firstApply := false }

/-- R684: what a CXL IDE stream was keyed with, containment or skid mode with its key, and the key of the PCIe IDE stream. -/
structure IdeState where
  cxl  : Option (Bool × List Byte)
  pcie : Option (List Byte)
deriving DecidableEq, Repr

/-- No IDE stream is keyed. -/
def IdeState.off : IdeState := { cxl := none, pcie := none }

/-- R730, R828: a BAR0 access that waits for its vat to wake: a read of `size` bytes, or a write with its byte enables all set or not and its value. -/
structure BarReq where
  vat    : Nat
  offset : Nat
  size   : Nat
  write  : Bool
  full   : Bool
  value  : Word
deriving DecidableEq, Repr

/-- R484: an entry of an affinage packet on its way into a core's AFF_HOOP: the core and slot, whether the packet begins with it, and the jobs
of the packet, which its first entry names. -/
structure FeedEntry where
  core  : Nat
  hoop  : Nat
  first : Bool
  jobs  : List AffJob
  entry : Entry
deriving DecidableEq, Repr

/-- The hub. `libT` and `libB` are the entries that the patch in force gives the two entry tables (R357), `patchT` and `patchB` the words of the two
patch RAMs by library address, and `libBadT` and `libBadB` the library words whose check bits fail (R335). `decoders` are the HDM decoders committed,
with their HPA bases, `uncommitted` those whose last commit set Error Not Committed (R616), `biOn` says that BI is enabled for decoder 0 and `biId` is
the BI-ID that the host or switch has assigned (R611); `untold` are the closes that a package out of reach has not been told of (R788); `badRings` are
the submission rings that an error has stopped (R516), `drain` the cores whose dispatch a COMMIT holds, `programmed` the cores that a PROGRAM section
has reached since the last reset (R804), `owners` the fingerprints in the owner fuse slots, the last in use (R657), `txn` the open transaction,
`scalars` the starting scalars of the PROGRAM in force of each core, `patch` the LIBPATCH in force, `zeroBlocks` the blocks under zeroisation (R677),
`tenantSeen` the cave's TENANT_SEEN, `caveShut` the dies that a core's retirement keeps degraded for the lifetime of the cave (R718), `aliasKey` the
alias key (R655, R661), empty while none is derived, `draws` how often the rind's random source has been drawn from, `ide` the keys of the IDE streams
(R684), `counted` what software last wrote to a counter of events that no command shows, and when (R15), `barQ` the BAR0 accesses that wait for a vat
to wake (R730), and `straps` SMB_ADDR as the last cave reset sampled it (R850). -/
structure Hub where
  time    : Nat
  logQ    : List LogOcc
  bars    : List (Nat × Barrier)
  libT    : List (Nat × Nat)
  libB    : List (Nat × Nat)
  patchT  : List (Nat × Word)
  patchB  : List (Nat × Word)
  libBadT : List (Nat × Bool)
  libBadB : List (Nat × Bool)
  stopped : Bool
  pools   : List (Nat × Pool)
  models  : List (Nat × Model)
  classes : List (Nat × ClassLoad)
  ctxs    : List (Nat × Ctx)
  nextIdx : Nat
  freed   : List Nat
  gens    : List (Nat × Nat)
  hashKey : Nat
  hot     : List (Nat × List Nat)
  affs    : List AffJob
  cal     : List (Nat × CalCount)
  resp    : Response
  out     : List OutMsg
  decoders : List (Nat × Nat)
  uncommitted : List Nat
  biOn     : Bool
  biId     : Nat
  poison  : List Nat
  poisonOvf : Bool
  feed     : List FeedEntry
  jobs     : List (Nat × Job)
  nextTag  : Nat
  freeTags : List Nat
  accepted : Nat
  lastRing : Nat
  closes   : List Close
  vrings   : List (Nat × VRing)
  ports    : List (Nat × Port)
  peers    : List (Nat × List (Nat × List Byte))
  peerDown : List (Nat × Nat)
  untold   : List (Nat × CtxHdr)
  mirrors  : List MirrorOut
  domains  : List (Nat × Domain)
  badRings : List Nat
  drain    : List Nat
  programmed : List Nat
  owners   : List (List Byte)
  txn      : Option Txn
  scalars  : List (Nat × List Word)
  patch    : List Byte
  zeroBlocks : List Nat
  tenantSeen : Bool
  caveShut : List Nat
  sessions : List (Nat × Session)
  heldReqs : List HeldReq
  aliasKey : List Byte
  draws    : Nat
  ide      : IdeState
  counted  : List (Nat × (Nat × Nat))
  barQ     : List BarReq
  straps   : BitVec 2
  log      : LogState
  pwr      : PowerCtl
  boot     : BootState
deriving DecidableEq, Repr

/-- A vat's base die: host writes not yet stored, its power state, and the brine walker's times: when the walk began and
when its last pass was made (R692, R695). -/
structure Vat where
  wq      : List WqEntry
  power   : VatPower
  lost    : Bool
  walkAt  : Nat
  passAt  : Option Nat
deriving DecidableEq, Repr

/-- The hub after power-on reset. -/
def Hub.reset : Hub :=
  { time := 0, logQ := [], bars := [], libT := [], libB := [], patchT := [], patchB := [], libBadT := [], libBadB := [], stopped := false, pools := []
    models := [], classes := [], ctxs := [], nextIdx := 0, freed := [], gens := [], hashKey := 0, hot := [], affs := [], cal := [], resp := .none
    out := [], decoders := [], uncommitted := [], biOn := false, biId := 0, poison := [], poisonOvf := false, feed := [], jobs := [], nextTag := 0
    freeTags := [], accepted := 0, lastRing := 15, closes := [], vrings := [], ports := [], peers := [], peerDown := [], untold := [], mirrors := []
    domains := [], badRings := [], drain := [], programmed := [], owners := [], txn := none, scalars := [], patch := [], zeroBlocks := []
    tenantSeen := false, caveShut := [], sessions := [], heldReqs := [], aliasKey := [], draws := 0, ide := IdeState.off, counted := [], barQ := [], straps := 0
    log := LogState.empty, pwr := PowerCtl.fresh, boot := BootState.start }

/-- A base die after power-on reset. -/
def Vat.reset : Vat := { wq := [], power := .awake, lost := false, walkAt := 0, passAt := none }

end Sys2Proof.Machine
end

