-- ==== Sys2Proof/Machine/Registers.lean ====
section
/-!
DEFINITION. Every register of BAR0, as the field maps of spec/ lay them out: its offset, its repetition, its width, and
each field's bits, access type and reset value (Table 0.3, R12, R15, R19). One table for each kind of block of Table 13.5,
and an offset by name for each register. Register values themselves are in the state, keyed by BAR0 offset.
-/

namespace Sys2Proof.Machine

/-- Table 0.3: the access types. -/
inductive Access where
  | ro | rw | w1c | wo | sticky | lck
deriving DecidableEq, Repr

/-- One field: its bits, access type and reset value; `cave` where the Reset column reads Cave (R17). -/
structure RegField where
  hi    : Nat
  lo    : Nat
  acc   : Access
  reset : Nat
  cave  : Bool
deriving DecidableEq, Repr

/-- A register, or a family of registers repeated at `step` `count` times (and again at `step2` `count2` times). -/
structure RegRow where
  name   : String
  off    : Nat
  step   : Nat
  count  : Nat
  step2  : Nat
  count2 : Nat
  wide   : Bool
  fields : List RegField
deriving DecidableEq, Repr

/-- A field whose reset value is given. -/
def fd (hi lo : Nat) (acc : Access) (reset : Nat) : RegField := { hi := hi, lo := lo, acc := acc, reset := reset, cave := false }

/-- A field whose Reset column reads Cave. -/
def fc (hi lo : Nat) (acc : Access) (reset : Nat) : RegField := { hi := hi, lo := lo, acc := acc, reset := reset, cave := true }

/-- A single register. -/
def reg1 (name : String) (off : Nat) (wide : Bool) (fields : List RegField) : RegRow :=
  { name := name, off := off, step := 8, count := 1, step2 := 8, count2 := 1, wide := wide, fields := fields }

/-- A family of registers. -/
def regN (name : String) (off step count : Nat) (wide : Bool) (fields : List RegField) : RegRow :=
  { name := name, off := off, step := step, count := count, step2 := 8, count2 := 1, wide := wide, fields := fields }

/-- A family of families. -/
def regNN (name : String) (off step count step2 count2 : Nat) (wide : Bool) (fields : List RegField) : RegRow :=
  { name := name, off := off, step := step, count := count, step2 := step2, count2 := count2, wide := wide, fields := fields }

/-- The form of the 48-bit counters of the part: WRAP and COUNT. -/
def count48 : List RegField := [fd 63 63 .sticky 0, fd 47 0 .ro 0]

/-- Registers of the tensor-core block (Table 2.7, Table 3.7, Table 3.9, Table 6.7, Table 7.10). -/
def coreRegsA : List RegRow :=
  [ reg1 "CORE_NUMFLAGS" 0xc00 false [fd 6 6 .sticky 0, fd 5 5 .sticky 0, fd 4 4 .sticky 0, fd 3 3 .sticky 0, fd 2 2 .sticky 0, fd 1 1 .sticky 0, fd 0 0 .sticky 0]
  , regN "TRANS" 0x80000 8 65536 true [fd 47 40 .lck 0, fd 35 20 .lck 0, fd 5 4 .lck 0, fd 2 2 .lck 0, fd 1 1 .lck 0, fd 0 0 .lck 0]
  , regN "DMA_FAULT_STATUS" 0xd00 64 2 false [fd 31 31 .w1c 0, fd 30 30 .w1c 0, fd 9 9 .ro 0, fd 8 8 .ro 0, fd 7 0 .ro 0]
  , regN "DMA_FAULT_ADDR" 0xd08 64 2 true [fd 36 0 .ro 0]
  , regN "DMA_FAULT_POS" 0xd10 64 2 true [fd 63 48 .ro 0, fd 47 32 .ro 0, fd 31 16 .ro 0, fd 15 0 .ro 0]
  , regN "DMA_FAULT_POS4" 0xd18 64 2 false [fd 15 0 .ro 0]
  , regN "DMA_FAULT_DESC" 0xd1c 64 2 false [fd 21 0 .ro 0]
  , reg1 "CORE_ID" 0x0 false [fd 8 8 .ro 0, fd 6 4 .ro 0, fd 1 0 .ro 0]
  , reg1 "CORE_STATUS" 0x4 false [fd 31 24 .ro 0, fd 23 23 .ro 0, fd 9 8 .ro 0, fd 7 6 .ro 0, fd 5 4 .ro 0, fd 3 2 .ro 0, fd 1 0 .ro 0]
  , reg1 "CORE_CLOCK" 0x8 false [fd 1 0 .ro 0]
  , reg1 "CORE_PRESS_ISSUE" 0x10 false [fd 4 0 .ro 16]
  , reg1 "CORE_PRESS_ROWS" 0x18 true count48
  , reg1 "CORE_PRESS_LIMITED" 0x20 true count48
  , reg1 "CORE_PRESS_STALL" 0x28 true count48
  , reg1 "CORE_VEC_BUSY" 0x30 true count48
  , regN "CORE_ACC_T" 0x40 4 4 false [fd 8 8 .ro 0, fd 7 0 .ro 0]
  , reg1 "CORE_OC_ECC" 0x60 false [fd 31 31 .sticky 0, fd 15 0 .rw 0]
  , reg1 "CORE_OC_UE_ADDR" 0x64 false [fd 21 0 .ro 0]
  , reg1 "CORE_FAULT" 0x80 false [fd 31 31 .w1c 0, fd 30 30 .w1c 0, fd 10 8 .ro 0, fd 7 0 .ro 0]
  , reg1 "CORE_FAULT_PC" 0x84 false [fd 13 13 .ro 0, fd 12 0 .ro 0]
  , regN "DMA_STATUS" 0x100 32 2 false [fd 23 16 .ro 0, fd 0 0 .ro 0]
  , regN "DMA_BYTES" 0x108 32 2 true count48
  , regN "STREAM_ENTRY" 0x400 64 5 false [fd 31 31 .lck 0, fd 12 0 .lck 0]
  , regN "STREAM_PC" 0x404 64 5 false [fd 13 13 .ro 0, fd 12 0 .ro 0] ]

/-- Registers of the tensor-core block (Table 7.10, Table 9.7, Table 9.8, Table 9.9). -/
def coreRegsB : List RegRow :=
  [ regN "STREAM_NEST" 0x408 64 5 false [fd 15 12 .ro 0, fd 7 4 .ro 0, fd 2 0 .ro 0]
  , regNN "STREAM_ITER" 0x410 64 5 4 4 false [fd 31 0 .ro 0]
  , regNN "STREAM_COUNT" 0x420 64 5 4 4 false [fd 31 0 .ro 0]
  , regN "HOOP_CFG" 0x800 32 16 false [fd 31 30 .lck 0, fd 29 29 .lck 0, fd 28 26 .lck 0, fd 25 24 .lck 0, fd 23 20 .lck 0, fd 10 0 .lck 0]
  , regN "HOOP_STATUS" 0x804 32 16 false [fd 31 31 .ro 0, fd 30 30 .ro 0, fd 29 29 .sticky 0, fd 28 26 .ro 7, fd 25 23 .ro 7, fd 14 0 .ro 0]
  , regN "HOOP_SPILL_BASE" 0x808 32 16 true [fd 36 0 .lck 0]
  , regN "HOOP_PUSHES" 0x810 32 16 true count48
  , regN "HOOP_DEPTH_MAX" 0x818 32 16 false [fd 14 0 .rw 0]
  , reg1 "CPL_STATUS" 0xa00 false [fd 31 31 .sticky 0, fd 10 0 .ro 0]
  , reg1 "CPL_POSTED" 0xa08 true count48
  , regN "SYNC_VALUE" 0x600 8 48 false [fd 20 16 .ro 0, fd 15 0 .ro 0]
  , regN "SYNC_LAST" 0x604 8 48 false [fd 31 31 .ro 0, fd 26 24 .ro 0, fd 13 13 .ro 0, fd 12 0 .ro 0]
  , reg1 "SYNC_CTL" 0xa40 false [fd 0 0 .lck 1]
  , reg1 "SYNC_LEAK_MASK" 0xa48 true [fd 47 0 .w1c 0]
  , reg1 "STALL_REPORT" 0xa80 false [fd 31 31 .w1c 0, fd 30 30 .w1c 0, fd 25 24 .ro 0, fd 20 16 .ro 0, fd 10 8 .ro 0, fd 2 0 .ro 0]
  , reg1 "STALL_REPORT_RES" 0xa84 false [fd 24 16 .ro 0, fd 8 0 .ro 0]
  , reg1 "STALL_REPORT_TIME" 0xa88 true [fd 63 0 .ro 0]
  , regN "STALL_WAIT" 0xa90 8 5 false [fd 11 9 .ro 0, fd 8 0 .ro 0]
  , regN "STALL_CYCLES" 0xa94 8 5 false [fd 31 0 .ro 0]
  , reg1 "STALL_CTL" 0xac0 false [fd 4 0 .lck 20] ]

/-- Every register of the tensor-core block. -/
def coreRegs : List RegRow := coreRegsA ++ coreRegsB

/-- Registers of the bank-unit block (Table 15.10, Table 2.8, Table 4.11, Table 7.11). -/
def buRegs : List RegRow :=
  [ reg1 "BU_NUMFLAGS" 0x40 false [fd 3 3 .sticky 0, fd 2 2 .sticky 0, fd 1 1 .sticky 0, fd 0 0 .sticky 0]
  , reg1 "BU_ID" 0x0 false [fd 18 16 .ro 0, fd 14 8 .ro 0, fd 6 0 .ro 0]
  , reg1 "BU_STATUS" 0x4 false [fd 31 16 .ro 0, fd 15 8 .ro 0, fd 4 4 .ro 0, fd 3 3 .ro 0, fd 2 2 .ro 0, fd 1 0 .ro 0]
  , reg1 "BU_PC" 0x8 false [fd 12 12 .ro 0, fd 11 0 .ro 0]
  , reg1 "BU_FAULT_PC" 0xc false [fd 12 12 .ro 0, fd 11 0 .ro 0]
  , reg1 "BU_FENCE" 0x10 false [fd 31 31 .ro 0, fd 15 0 .ro 0]
  , reg1 "BU_FENCE_ROWS" 0x14 false [fd 16 0 .ro 0]
  , reg1 "BU_WHEY_RX" 0x18 false [fd 15 0 .ro 0]
  , reg1 "BU_WHEY_TX" 0x1c false [fd 18 16 .ro 0, fd 15 0 .ro 0]
  , reg1 "BU_SLOTS_BU" 0x20 true count48
  , reg1 "BU_SLOTS_BASE" 0x28 true count48
  , reg1 "BU_WAIT_MAX" 0x30 false [fd 15 0 .rw 0]
  , regN "BU_S" 0x80 4 16 false [fd 31 0 .ro 0]
  , regN "BU_PAGE" 0x100 4 32 false [fd 15 8 .lck 0, fd 5 4 .lck 0, fd 2 2 .lck 0, fd 1 1 .lck 0, fd 0 0 .lck 0]
  , reg1 "BU_NEST" 0x34 false [fd 11 8 .ro 0, fd 5 4 .ro 0, fd 2 0 .ro 0]
  , regN "BU_ITER" 0x180 4 4 false [fd 31 0 .ro 0]
  , regN "BU_COUNT" 0x190 4 4 false [fd 31 0 .ro 0]
  , reg1 "BU_ECC_STATE" 0x44 false [fd 1 1 .ro 0, fd 0 0 .w1c 0]
  , reg1 "BU_ECC_CE" 0x48 false [fd 31 0 .rw 0]
  , reg1 "BU_ECC_UE" 0x4c false [fd 31 0 .rw 0] ]

/-- Registers of the die common block (Table 18.8, Table 19.6, Table 4.12). -/
def dieRegs : List RegRow :=
  [ reg1 "DIE_ID" 0x0 false [fd 5 4 .ro 0, fd 3 0 .ro 0]
  , reg1 "DIE_SPARE_STATE" 0x4 false [fd 11 9 .ro 1, fd 8 6 .ro 1, fd 5 3 .ro 1, fd 2 0 .ro 1]
  , reg1 "DIE_TAKEOVER" 0x8 false [fd 31 31 .ro 0, fd 30 24 .ro 0, fd 17 16 .ro 0, fd 15 0 .ro 0]
  , reg1 "DIE_FENCE_TIMEOUT" 0x10 false [fd 9 0 .lck 50]
  , reg1 "DIE_WHEY_BYTES" 0x20 true count48
  , reg1 "DIE_WHEY_WAIT_MAX" 0x28 false [fd 15 0 .rw 0]
  , regN "DIE_BANKMAP" 0x100 4 100 false [fd 6 0 .ro 0]
  , reg1 "DIE_TSV" 0x30 false [fd 31 16 .ro 0, fd 9 8 .ro 0, fd 7 0 .ro 0]
  , reg1 "DIE_SEQ" 0x34 false [fd 15 0 .ro 0]
  , reg1 "DIE_TEMP" 0x38 false [fd 16 16 .ro 0, fd 15 8 .ro 0, fd 7 0 .ro 0] ]

/-- Registers of the base-die common block (Table 15.10, Table 19.3, Table 5.13). -/
def vatRegsA : List RegRow :=
  [ regN "MERGE_STATUS" 0x3000 16 16 false [fd 31 31 .ro 0, fd 25 24 .ro 0, fd 15 0 .ro 0]
  , regN "MERGE_LOST" 0x3004 16 16 false [fd 15 0 .rw 0]
  , regN "MERGE_LAST_LOST" 0x3008 16 16 false [fd 31 31 .w1c 0, fd 23 16 .ro 0, fd 11 8 .ro 0, fd 6 0 .ro 0]
  , regN "MERGE_LAST_CAUSE" 0x300c 16 16 false [fd 1 0 .ro 0]
  , reg1 "BRINE_CTL" 0x4000 false [fd 31 31 .rw 0, fd 19 0 .lck 86400]
  , reg1 "BRINE_POS" 0x4004 false [fd 15 0 .ro 0]
  , reg1 "BRINE_WALKS" 0x4008 true count48
  , reg1 "BRINE_CORRECTED" 0x4010 true count48
  , reg1 "BRINE_MARKED" 0x4018 true count48
  , reg1 "BRINE_LAG_MAX" 0x4020 false [fd 15 0 .rw 0]
  , reg1 "ECC_DIAG_CTL" 0x4100 false [fd 31 31 .rw 0, fd 11 11 .rw 0, fd 10 4 .rw 0, fd 3 0 .rw 0]
  , reg1 "ECC_DIAG_ROWS" 0x4104 false [fd 31 16 .rw 0, fd 15 0 .rw 0]
  , reg1 "ECC_DIAG_SYM" 0x4108 false [fd 31 24 .rw 0, fd 21 16 .rw 0, fd 15 8 .rw 0, fd 5 0 .rw 0]
  , reg1 "ECC_DIAG_RESULT" 0x410c false [fd 2 0 .ro 0]
  , reg1 "ECC_DIAG_CHECK" 0x4110 false [fd 31 0 .ro 0]
  , regN "RETIRED_PAGES" 0x8000 4 1536 false [fc 31 0 .ro 0]
  , reg1 "VAT_ID" 0x0 false [fd 8 8 .ro 0, fd 6 4 .ro 0]
  , reg1 "VAT_STATUS" 0x4 false [fd 15 0 .ro 0]
  , reg1 "VMC_READS" 0x100 true count48
  , reg1 "VMC_WRITES" 0x108 true count48
  , reg1 "VMC_MERGES" 0x110 true count48
  , reg1 "VMC_FENCED" 0x118 true count48
  , reg1 "VMC_WQ" 0x120 false [fd 24 16 .rw 0, fd 8 0 .ro 0]
  , reg1 "TSV_DOWN_BYTES" 0x200 true count48 ]

/-- Registers of the base-die common block (Table 19.3). -/
def vatRegsB : List RegRow :=
  [ reg1 "TSV_UP_BYTES" 0x208 true count48
  , reg1 "XBAR_TX" 0x300 true count48
  , reg1 "XBAR_RX" 0x308 true count48 ]

/-- Every register of the base-die common block. -/
def vatRegs : List RegRow := vatRegsA ++ vatRegsB

/-- Registers of the hub block (Table 10.9, Table 11.9). -/
def hubRegsA : List RegRow :=
  [ reg1 "CTX_STATUS" 0x200000 false [fd 20 0 .ro 0]
  , reg1 "CTX_CFG" 0x200004 false [fd 31 16 .lck 1000, fd 5 5 .lck 1, fd 4 4 .lck 0, fd 3 0 .lck 8]
  , reg1 "CTX_CREATED" 0x200008 true count48
  , reg1 "CTX_CLOSED" 0x200010 true count48
  , reg1 "CTX_EVICTED" 0x200018 true count48
  , reg1 "CTX_REFUSED" 0x200020 true count48
  , reg1 "HOTDIR_HIT" 0x200028 true count48
  , reg1 "HOTDIR_MISS" 0x200030 true count48
  , regN "DIR_BASE" 0x200040 8 8 true [fd 36 0 .lck 0]
  , regN "CTX_TABLE_BASE" 0x200080 8 8 true [fd 36 0 .lck 0]
  , regN "AFF_START" 0x200100 64 16 false [fd 31 16 .lck 16, fd 15 8 .lck 24, fd 7 0 .lck 8]
  , regN "AFF_AGE" 0x200104 64 16 false [fd 31 16 .ro 16, fd 15 8 .ro 24, fd 7 0 .ro 8]
  , regN "AFF_BOUNDS" 0x200108 64 16 false [fd 31 24 .lck 1, fd 23 16 .lck 2, fd 15 8 .lck 64, fd 7 0 .lck 2]
  , regN "CULL_BOUNDS" 0x20010c 64 16 false [fd 31 16 .lck 256, fd 15 0 .lck 0]
  , regN "AFF_CULL" 0x200110 64 16 false [fd 31 24 .lck 5, fd 23 16 .lck 1, fd 15 8 .lck 8, fd 7 0 .lck 16]
  , regN "CAL_CFG" 0x200114 64 16 false [fd 31 28 .lck 6, fd 27 24 .lck 4, fd 23 16 .lck 16, fd 15 0 .lck 328]
  , regN "CAL_STATE" 0x200118 64 16 false [fd 25 24 .ro 0, fd 23 16 .ro 0, fd 1 0 .ro 0]
  , regN "CAL_RECORDS" 0x200120 64 16 true count48
  , regN "COMPACT_CFG" 0x200128 64 16 false [fd 7 0 .lck 16]
  , reg1 "JOB_STATUS" 0x300000 false [fd 16 0 .ro 0]
  , reg1 "JOB_ACCEPTED" 0x300008 true count48
  , reg1 "JOB_ABORT_COOKIE" 0x300010 true [fd 63 0 .rw 0]
  , reg1 "JOB_ABORT" 0x300018 false [fd 3 0 .wo 0]
  , reg1 "JOB_ABORT_MISS" 0x300020 true count48 ]

/-- Registers of the hub block (Table 11.9, Table 12.15). -/
def hubRegsB : List RegRow :=
  [ regN "SUBQ_BASE" 0x301000 64 16 true [fd 36 0 .lck 0]
  , regN "SUBQ_CFG" 0x301008 64 16 false [fd 31 31 .rw 0, fd 4 0 .lck 8]
  , regN "SUBQ_PI" 0x30100c 64 16 false [fd 15 0 .rw 0]
  , regN "SUBQ_CI" 0x301010 64 16 false [fd 15 0 .ro 0]
  , regN "SUBQ_STATUS" 0x301014 64 16 false [fd 31 31 .w1c 0, fd 1 0 .ro 0]
  , regN "VRING_BASE" 0x302000 64 16 true [fd 36 0 .lck 0]
  , regN "VRING_CFG" 0x302008 64 16 false [fd 31 31 .rw 0, fd 27 16 .rw 0, fd 15 8 .rw 0, fd 4 0 .lck 6]
  , regN "VRING_WI" 0x30200c 64 16 false [fd 16 16 .ro 1, fd 15 0 .ro 0]
  , regN "VRING_CI" 0x302010 64 16 false [fd 15 0 .rw 0]
  , regN "VRING_STATUS" 0x302014 64 16 false [fd 31 31 .w1c 0, fd 15 0 .ro 0]
  , regN "CLASS_CFG" 0x303000 64 16 false [fd 31 31 .lck 0, fd 29 29 .lck 0, fd 26 0 .lck 0]
  , regN "CLASS_PARSE" 0x303004 64 16 false [fd 31 28 .lck 0, fd 27 26 .lck 0, fd 25 24 .lck 0, fd 23 23 .lck 0, fd 19 16 .lck 15]
  , regN "CLASS_TOKENS" 0x303008 64 16 false [fd 31 16 .lck 0, fd 11 0 .lck 0]
  , regN "CLASS_IDLE" 0x30300c 64 16 false [fd 31 0 .lck 0]
  , regN "CLASS_JOBS" 0x303010 64 16 true count48
  , regN "CLASS_LATE" 0x303018 64 16 true count48
  , regN "CLASS_DROPPED" 0x303020 64 16 true count48
  , regN "CLASS_LAT_MAX" 0x303028 64 16 false [fd 31 0 .rw 0]
  , reg1 "CI_CTL" 0x100000 false [fd 8 8 .wo 0, fd 2 0 .wo 0]
  , reg1 "CI_STATE" 0x100004 false [fd 8 8 .w1c 0, fd 5 4 .ro 0, fd 1 0 .ro 0]
  , reg1 "CI_RESULT" 0x100008 false [fd 31 31 .w1c 0, fd 23 16 .ro 0, fd 15 8 .ro 0, fd 7 0 .ro 0]
  , reg1 "CI_OFFSET" 0x100010 true [fd 63 0 .ro 0]
  , reg1 "CI_NEED" 0x100018 true [fd 63 0 .ro 0]
  , reg1 "CI_HAVE" 0x100020 true [fd 63 0 .ro 0] ]

/-- Registers of the hub block (Table 12.15, Table 13.3, Table 13.8, Table 14.9). -/
def hubRegsC : List RegRow :=
  [ reg1 "CI_SHORT_NS" 0x100028 false [fd 31 0 .ro 0]
  , reg1 "CI_STAGE_ADDR" 0x100030 true [fd 36 0 .rw 0]
  , reg1 "CI_STAGE_LEN" 0x100038 false [fd 31 0 .rw 0]
  , reg1 "CI_SEQ" 0x10003c false [fd 31 0 .ro 0]
  , reg1 "CI_QUIET_TIMEOUT" 0x100040 false [fd 15 0 .rw 1000]
  , reg1 "CI_COMMITS" 0x100048 true count48
  , reg1 "CI_REFUSED" 0x100050 true count48
  , reg1 "CI_CLOSED" 0x100058 true count48
  , regN "HOST_BLOCK" 0x400000 4 49152 false [fd 5 4 .lck 1, fd 2 2 .lck 1, fd 1 1 .lck 1, fd 0 0 .lck 1]
  , reg1 "HOST_LINK_STATUS" 0x20000 false [fd 9 9 .ro 0, fd 8 8 .ro 0, fd 7 7 .ro 0, fd 6 6 .ro 0, fd 5 4 .ro 0, fd 2 0 .ro 0]
  , reg1 "HOST_WINDOW_CFG" 0x20004 false [fd 1 1 .lck 1, fd 0 0 .lck 1]
  , reg1 "HOST_DENIED" 0x20008 true count48
  , reg1 "HOST_DENIED_LAST" 0x20010 true [fd 63 63 .w1c 0, fd 62 62 .ro 0, fd 41 0 .ro 0]
  , reg1 "HOST_POISON_READS" 0x20018 true count48
  , reg1 "HOST_BI_SENT" 0x20020 true count48
  , reg1 "HOST_READ_LAT_MAX" 0x20028 false [fd 15 0 .rw 0]
  , reg1 "HOST_RETRY" 0x2002c false [fd 15 0 .rw 0]
  , reg1 "RIND_STATUS" 0x500000 false [fd 18 16 .ro 0, fd 8 8 .ro 0, fd 5 5 .ro 0, fd 4 4 .ro 0, fd 1 0 .ro 0]
  , reg1 "RIND_OWNER" 0x500004 false [fd 7 4 .ro 0, fd 1 0 .ro 0]
  , reg1 "RIND_SVN" 0x500008 false [fd 31 16 .ro 0, fd 15 0 .ro 0]
  , reg1 "RIND_TAMPER" 0x50000c false [fc 15 8 .ro 0, fd 3 3 .sticky 0, fd 2 2 .sticky 0, fd 1 1 .sticky 0, fd 0 0 .sticky 0]
  , reg1 "RIND_CFG" 0x500010 false [fd 0 0 .lck 0]
  , reg1 "RIND_ZERO" 0x500014 false [fd 31 31 .ro 0, fd 15 0 .ro 0]
  , regN "RIND_DOMAIN" 0x500400 4 256 false [fd 31 31 .ro 0, fd 30 30 .ro 0, fd 9 8 .ro 0, fd 2 0 .ro 0] ]

/-- Registers of the hub block (Table 14.9, Table 15.10, Table 15.9, Table 16.7). -/
def hubRegsD : List RegRow :=
  [ reg1 "DBG_TARGET" 0x500800 false [fd 6 4 .rw 0, fd 1 0 .rw 0]
  , reg1 "DBG_HALT" 0x500804 false [fd 4 0 .rw 0]
  , reg1 "DBG_BU_HALT" 0x500808 false [fd 3 0 .rw 0]
  , reg1 "DBG_OC_ADDR" 0x500810 false [fd 21 3 .rw 0]
  , reg1 "DBG_OC_DATA" 0x500818 true [fd 63 0 .ro 0]
  , reg1 "LOG_WI" 0x600000 false [fc 11 0 .ro 0]
  , reg1 "LOG_RI" 0x600004 false [fc 11 0 .rw 0]
  , reg1 "LOG_STATUS" 0x600008 false [fd 31 31 .w1c 0, fd 11 0 .ro 0]
  , reg1 "LOG_CFG" 0x60000c false [fd 31 16 .rw 100, fd 15 8 .rw 64, fd 1 0 .rw 1]
  , reg1 "LOG_SUPPRESSED" 0x600010 false [fd 13 0 .ro 0]
  , reg1 "FAIL_POLICY" 0x600040 false [fd 11 8 .lck 8, fd 3 3 .lck 1, fd 2 2 .lck 0, fd 1 1 .lck 1, fd 0 0 .lck 1]
  , reg1 "FAIL_REQ" 0x600048 true [fd 35 20 .wo 0, fd 19 18 .wo 0, fd 17 11 .wo 0, fd 10 7 .wo 0, fd 6 4 .wo 0, fd 3 0 .wo 0]
  , reg1 "FAIL_RESULT" 0x600050 false [fd 31 31 .w1c 0, fd 30 30 .ro 0, fd 3 0 .ro 0]
  , reg1 "FAIL_STATE" 0x600058 true [fd 39 32 .ro 0, fd 31 0 .ro 0]
  , regN "LOG_OVF" 0x600200 4 128 false [fc 15 0 .rw 0]
  , reg1 "CTX_REPLICA" 0x200038 false [fd 0 0 .lck 0]
  , regN "CLASS_DEGRADED_NS" 0x303030 64 16 false [fd 26 0 .lck 0]
  , regN "CLASS_STATE" 0x303034 64 16 false [fd 1 0 .ro 0]
  , reg1 "PWR_STATUS" 0x700000 false [fd 31 31 .ro 0, fd 30 29 .ro 0, fd 15 0 .ro 0]
  , reg1 "PWR_CAP" 0x700004 false [fd 15 0 .rw 0]
  , reg1 "PWR_POLICY" 0x700008 false [fd 31 16 .lck 100, fd 12 12 .lck 1, fd 11 11 .lck 1, fd 10 10 .lck 0, fd 4 0 .lck 8]
  , reg1 "PWR_WARM" 0x70000c false [fd 7 0 .lck 0]
  , reg1 "PWR_TEMP_CFG" 0x700010 false [fd 15 8 .lck 85, fd 7 0 .lck 100]
  , reg1 "PWR_PACE_CFG" 0x700014 false [fd 23 16 .lck 8, fd 15 0 .lck 500] ]

/-- Registers of the hub block (Table 16.7, Table 17.7). -/
def hubRegsE : List RegRow :=
  [ reg1 "PWR_WEIGHT" 0x700018 true [fd 63 56 .lck 1, fd 55 48 .lck 1, fd 47 40 .lck 1, fd 39 32 .lck 1, fd 31 24 .lck 1, fd 23 16 .lck 1, fd 15 8 .lck 1, fd 7 0 .lck 1]
  , reg1 "PWR_PKG_MAX" 0x700020 false [fd 15 0 .rw 0]
  , reg1 "PWR_ENERGY" 0x700028 true count48
  , reg1 "PWR_CAP_UNMET_N" 0x700030 true count48
  , reg1 "PWR_TRIP" 0x700038 false [fc 31 31 .sticky 0, fc 23 16 .ro 0, fc 15 15 .ro 0, fc 14 12 .ro 0, fc 11 7 .ro 0, fc 1 0 .ro 0]
  , regN "VAT_PWR" 0x700100 32 8 false [fd 31 30 .ro 0, fd 29 28 .ro 0, fd 27 27 .ro 0, fd 26 26 .ro 0, fd 20 16 .ro 16, fd 15 0 .ro 0]
  , regN "VAT_TEMP" 0x700104 32 8 false [fd 15 8 .rw 0, fd 7 0 .ro 0]
  , regN "VAT_WAKES" 0x700108 32 8 true count48
  , regN "VAT_STRETCH" 0x700110 32 8 true count48
  , regN "HBAR_SKEW" 0x700400 16 16 false [fd 31 0 .ro 0]
  , regN "HBAR_PACE" 0x700404 16 16 false [fd 15 8 .ro 0, fd 7 0 .ro 0]
  , regN "HBAR_EPISODES" 0x700408 16 16 false [fd 31 0 .ro 0]
  , reg1 "KW_CFG" 0x800000 false [fd 9 2 .lck 0, fd 1 0 .lck 0]
  , reg1 "KW_MIRROR" 0x800004 false [fd 31 16 .lck 0, fd 15 14 .lck 0, fd 11 0 .lck 256]
  , reg1 "KW_SPILL" 0x800008 false [fd 31 31 .lck 0, fd 30 29 .lck 0, fd 15 0 .lck 1000]
  , reg1 "KW_FWD" 0x80000c false [fd 31 16 .lck 0, fd 15 14 .lck 0]
  , reg1 "KW_PROMOTE" 0x800010 false [fd 8 8 .wo 0, fd 1 0 .wo 0]
  , reg1 "KW_PROMOTE_RESULT" 0x800014 false [fd 31 31 .w1c 0, fd 30 28 .ro 0, fd 20 0 .ro 0]
  , reg1 "KW_STANDBY" 0x800018 false [fd 20 0 .ro 0]
  , reg1 "KW_DIVERGED" 0x800020 true count48
  , reg1 "KW_REFUSED" 0x800028 true count48
  , regN "KW_PORT_CTL" 0x800100 64 4 false [fd 0 0 .rw 0]
  , regN "KW_PORT_STATUS" 0x800104 64 4 false [fd 11 10 .ro 0, fd 9 8 .ro 0, fd 2 0 .ro 0]
  , regN "KW_PORT_FLITS" 0x800108 64 4 true count48 ]

/-- Registers of the hub block (PCIe 6.0 (PRESUMED, log entry 9), R608, Table 17.7, Table 18.8, Table 19.1). -/
def hubRegsF : List RegRow :=
  [ regN "KW_PORT_FEC" 0x800110 64 4 true count48
  , regN "KW_PORT_REPLAYS" 0x800118 64 4 false [fd 15 0 .rw 0]
  , regN "KW_PORT_RETRAINS" 0x80011c 64 4 false [fd 15 0 .rw 0]
  , regN "KW_PORT_BACKLOG" 0x800120 64 4 false [fd 31 0 .ro 0]
  , reg1 "BOOT_STATUS" 0x900000 false [fd 31 31 .ro 0, fd 11 8 .ro 0, fd 4 4 .ro 0, fd 2 0 .ro 0]
  , reg1 "BOOT_TIME" 0x900004 false [fd 31 0 .ro 0]
  , reg1 "PKG_RESET" 0x900008 false [fd 31 0 .wo 0]
  , reg1 "BOOT_CFG" 0x90000c false [fd 1 1 .lck 1, fd 0 0 .lck 1]
  , reg1 "TSV_CAL_CFG" 0x900010 false [fd 23 16 .lck 4, fd 15 0 .lck 100]
  , reg1 "HUB_ID" 0x0 false [fd 23 16 .ro 160, fd 8 8 .ro 0, fd 3 0 .ro 0]
  , reg1 "HUB_CAP" 0x4 false [fd 31 24 .ro 0, fd 20 0 .ro 0]
  , reg1 "HUB_MEM" 0x8 true [fd 39 0 .ro 0]
  , reg1 "HUB_SERIAL" 0x10 true [fd 63 0 .ro 0]
  , reg1 "HUB_TIME" 0x18 true [fd 63 0 .ro 0]
  , reg1 "HUB_SCRATCH" 0x20 false [fd 31 0 .rw 0]
  , reg1 "HUB_EVENT" 0x28 false [fd 21 16 .w1c 0, fd 15 0 .w1c 0]
  , reg1 "HUB_BAD_ACCESS" 0x30 false [fd 31 31 .w1c 0, fd 30 30 .ro 0, fd 29 29 .w1c 0, fd 27 0 .ro 0]
  , regN "CLASS_BOUND" 0x30302c 64 16 false [fd 31 0 .ro 0]
  , regN "MSIX_ADDR_LO" 0x30000 16 32 false [fd 31 2 .rw 0]
  , regN "MSIX_ADDR_HI" 0x30004 16 32 false [fd 31 0 .rw 0]
  , regN "MSIX_DATA" 0x30008 16 32 false [fd 31 0 .rw 0]
  , regN "MSIX_CTL" 0x3000c 16 32 false [fd 0 0 .rw 1]
  , reg1 "MSIX_PBA" 0x38000 true [fd 31 0 .ro 0] ]

/-- Every register of the hub block. -/
def hubRegs : List RegRow := hubRegsA ++ hubRegsB ++ hubRegsC ++ hubRegsD ++ hubRegsE ++ hubRegsF

/-! ### Block bases (Table 13.5) and offsets by name -/

/-- BAR0 offset of the base-die common block of vat `v`. -/
def vatBase (v : Nat) : Nat := 0x1000000 + v * 0x1000000

/-- BAR0 offset of the block of tensor core `c` of vat `v`. -/
def coreBase (v c : Nat) : Nat := vatBase v + 0x100000 * (1 + c)

/-- BAR0 offset of the block of die `d` of vat `v`. -/
def dieBase (v d : Nat) : Nat := vatBase v + 0x800000 + d * 0x20000

/-- BAR0 offset of the die common block. -/
def dieCommon (v d : Nat) : Nat := dieBase v d + 0x1C000

/-- BAR0 offset of the block of physical bank `b`. -/
def buBase (v d b : Nat) : Nat := dieBase v d + b * 0x400

namespace Reg

/-- CORE_NUMFLAGS (Table 2.7). -/
def coreNumflags (v c : Nat) : Nat := coreBase v c + 0xc00
/-- BU_NUMFLAGS (Table 2.8). -/
def buNumflags (v d b : Nat) : Nat := buBase v d b + 0x40
/-- TRANS (Table 3.7). -/
def trans (v c i : Nat) : Nat := coreBase v c + 0x80000 + 8 * i
/-- DMA_FAULT_STATUS (Table 3.9). -/
def dmaFaultStatus (v c i : Nat) : Nat := coreBase v c + 0xd00 + 64 * i
/-- DMA_FAULT_ADDR (Table 3.9). -/
def dmaFaultAddr (v c i : Nat) : Nat := coreBase v c + 0xd08 + 64 * i
/-- DMA_FAULT_POS (Table 3.9). -/
def dmaFaultPos (v c i : Nat) : Nat := coreBase v c + 0xd10 + 64 * i
/-- DMA_FAULT_POS4 (Table 3.9). -/
def dmaFaultPos4 (v c i : Nat) : Nat := coreBase v c + 0xd18 + 64 * i
/-- DMA_FAULT_DESC (Table 3.9). -/
def dmaFaultDesc (v c i : Nat) : Nat := coreBase v c + 0xd1c + 64 * i
/-- BU_ID (Table 4.11). -/
def buId (v d b : Nat) : Nat := buBase v d b + 0x0
/-- BU_STATUS (Table 4.11). -/
def buStatus (v d b : Nat) : Nat := buBase v d b + 0x4
/-- BU_PC (Table 4.11). -/
def buPc (v d b : Nat) : Nat := buBase v d b + 0x8
/-- BU_FAULT_PC (Table 4.11). -/
def buFaultPc (v d b : Nat) : Nat := buBase v d b + 0xc
/-- BU_FENCE (Table 4.11). -/
def buFence (v d b : Nat) : Nat := buBase v d b + 0x10
/-- BU_FENCE_ROWS (Table 4.11). -/
def buFenceRows (v d b : Nat) : Nat := buBase v d b + 0x14
/-- BU_WHEY_RX (Table 4.11). -/
def buWheyRx (v d b : Nat) : Nat := buBase v d b + 0x18
/-- BU_WHEY_TX (Table 4.11). -/
def buWheyTx (v d b : Nat) : Nat := buBase v d b + 0x1c
/-- BU_SLOTS_BU (Table 4.11). -/
def buSlotsBu (v d b : Nat) : Nat := buBase v d b + 0x20
/-- BU_SLOTS_BASE (Table 4.11). -/
def buSlotsBase (v d b : Nat) : Nat := buBase v d b + 0x28
/-- BU_WAIT_MAX (Table 4.11). -/
def buWaitMax (v d b : Nat) : Nat := buBase v d b + 0x30
/-- BU_S (Table 4.11). -/
def buS (v d b i : Nat) : Nat := buBase v d b + 0x80 + 4 * i
/-- BU_PAGE (Table 4.11). -/
def buPage (v d b i : Nat) : Nat := buBase v d b + 0x100 + 4 * i
/-- DIE_ID (Table 4.12). -/
def dieId (v d : Nat) : Nat := dieCommon v d + 0x0
/-- DIE_SPARE_STATE (Table 4.12). -/
def dieSpareState (v d : Nat) : Nat := dieCommon v d + 0x4
/-- DIE_TAKEOVER (Table 4.12). -/
def dieTakeover (v d : Nat) : Nat := dieCommon v d + 0x8
/-- DIE_FENCE_TIMEOUT (Table 4.12). -/
def dieFenceTimeout (v d : Nat) : Nat := dieCommon v d + 0x10
/-- DIE_WHEY_BYTES (Table 4.12). -/
def dieWheyBytes (v d : Nat) : Nat := dieCommon v d + 0x20
/-- DIE_WHEY_WAIT_MAX (Table 4.12). -/
def dieWheyWaitMax (v d : Nat) : Nat := dieCommon v d + 0x28
/-- DIE_BANKMAP (Table 4.12). -/
def dieBankmap (v d i : Nat) : Nat := dieCommon v d + 0x100 + 4 * i
/-- MERGE_STATUS (Table 5.13). -/
def mergeStatus (v i : Nat) : Nat := vatBase v + 0x3000 + 16 * i
/-- MERGE_LOST (Table 5.13). -/
def mergeLost (v i : Nat) : Nat := vatBase v + 0x3004 + 16 * i
/-- MERGE_LAST_LOST (Table 5.13). -/
def mergeLastLost (v i : Nat) : Nat := vatBase v + 0x3008 + 16 * i
/-- MERGE_LAST_CAUSE (Table 5.13). -/
def mergeLastCause (v i : Nat) : Nat := vatBase v + 0x300c + 16 * i
/-- CORE_ID (Table 6.7). -/
def coreId (v c : Nat) : Nat := coreBase v c + 0x0
/-- CORE_STATUS (Table 6.7). -/
def coreStatus (v c : Nat) : Nat := coreBase v c + 0x4
/-- CORE_CLOCK (Table 6.7). -/
def coreClock (v c : Nat) : Nat := coreBase v c + 0x8
/-- CORE_PRESS_ISSUE (Table 6.7). -/
def corePressIssue (v c : Nat) : Nat := coreBase v c + 0x10
/-- CORE_PRESS_ROWS (Table 6.7). -/
def corePressRows (v c : Nat) : Nat := coreBase v c + 0x18
/-- CORE_PRESS_LIMITED (Table 6.7). -/
def corePressLimited (v c : Nat) : Nat := coreBase v c + 0x20
/-- CORE_PRESS_STALL (Table 6.7). -/
def corePressStall (v c : Nat) : Nat := coreBase v c + 0x28
/-- CORE_VEC_BUSY (Table 6.7). -/
def coreVecBusy (v c : Nat) : Nat := coreBase v c + 0x30
/-- CORE_ACC_T (Table 6.7). -/
def coreAccT (v c i : Nat) : Nat := coreBase v c + 0x40 + 4 * i
/-- CORE_OC_ECC (Table 6.7). -/
def coreOcEcc (v c : Nat) : Nat := coreBase v c + 0x60
/-- CORE_OC_UE_ADDR (Table 6.7). -/
def coreOcUeAddr (v c : Nat) : Nat := coreBase v c + 0x64
/-- CORE_FAULT (Table 6.7). -/
def coreFault (v c : Nat) : Nat := coreBase v c + 0x80
/-- CORE_FAULT_PC (Table 6.7). -/
def coreFaultPc (v c : Nat) : Nat := coreBase v c + 0x84
/-- DMA_STATUS (Table 6.7). -/
def dmaStatus (v c i : Nat) : Nat := coreBase v c + 0x100 + 32 * i
/-- DMA_BYTES (Table 6.7). -/
def dmaBytes (v c i : Nat) : Nat := coreBase v c + 0x108 + 32 * i
/-- STREAM_ENTRY (Table 7.10). -/
def streamEntry (v c i : Nat) : Nat := coreBase v c + 0x400 + 64 * i
/-- STREAM_PC (Table 7.10). -/
def streamPc (v c i : Nat) : Nat := coreBase v c + 0x404 + 64 * i
/-- STREAM_NEST (Table 7.10). -/
def streamNest (v c i : Nat) : Nat := coreBase v c + 0x408 + 64 * i
/-- STREAM_ITER (Table 7.10). -/
def streamIter (v c i j : Nat) : Nat := coreBase v c + 0x410 + 64 * i + 4 * j
/-- STREAM_COUNT (Table 7.10). -/
def streamCount (v c i j : Nat) : Nat := coreBase v c + 0x420 + 64 * i + 4 * j
/-- BU_NEST (Table 7.11). -/
def buNest (v d b : Nat) : Nat := buBase v d b + 0x34
/-- BU_ITER (Table 7.11). -/
def buIter (v d b i : Nat) : Nat := buBase v d b + 0x180 + 4 * i
/-- BU_COUNT (Table 7.11). -/
def buCount (v d b i : Nat) : Nat := buBase v d b + 0x190 + 4 * i
/-- HOOP_CFG (Table 9.7). -/
def hoopCfg (v c i : Nat) : Nat := coreBase v c + 0x800 + 32 * i
/-- HOOP_STATUS (Table 9.7). -/
def hoopStatus (v c i : Nat) : Nat := coreBase v c + 0x804 + 32 * i
/-- HOOP_SPILL_BASE (Table 9.7). -/
def hoopSpillBase (v c i : Nat) : Nat := coreBase v c + 0x808 + 32 * i
/-- HOOP_PUSHES (Table 9.7). -/
def hoopPushes (v c i : Nat) : Nat := coreBase v c + 0x810 + 32 * i
/-- HOOP_DEPTH_MAX (Table 9.7). -/
def hoopDepthMax (v c i : Nat) : Nat := coreBase v c + 0x818 + 32 * i
/-- CPL_STATUS (Table 9.7). -/
def cplStatus (v c : Nat) : Nat := coreBase v c + 0xa00
/-- CPL_POSTED (Table 9.7). -/
def cplPosted (v c : Nat) : Nat := coreBase v c + 0xa08
/-- SYNC_VALUE (Table 9.8). -/
def syncValue (v c i : Nat) : Nat := coreBase v c + 0x600 + 8 * i
/-- SYNC_LAST (Table 9.8). -/
def syncLast (v c i : Nat) : Nat := coreBase v c + 0x604 + 8 * i
/-- SYNC_CTL (Table 9.9). -/
def syncCtl (v c : Nat) : Nat := coreBase v c + 0xa40
/-- SYNC_LEAK_MASK (Table 9.9). -/
def syncLeakMask (v c : Nat) : Nat := coreBase v c + 0xa48
/-- STALL_REPORT (Table 9.9). -/
def stallReport (v c : Nat) : Nat := coreBase v c + 0xa80
/-- STALL_REPORT_RES (Table 9.9). -/
def stallReportRes (v c : Nat) : Nat := coreBase v c + 0xa84
/-- STALL_REPORT_TIME (Table 9.9). -/
def stallReportTime (v c : Nat) : Nat := coreBase v c + 0xa88
/-- STALL_WAIT (Table 9.9). -/
def stallWait (v c i : Nat) : Nat := coreBase v c + 0xa90 + 8 * i
/-- STALL_CYCLES (Table 9.9). -/
def stallCycles (v c i : Nat) : Nat := coreBase v c + 0xa94 + 8 * i
/-- STALL_CTL (Table 9.9). -/
def stallCtl (v c : Nat) : Nat := coreBase v c + 0xac0
/-- CTX_STATUS (Table 10.9). -/
def ctxStatus : Nat := 0x200000
/-- CTX_CFG (Table 10.9). -/
def ctxCfg : Nat := 0x200004
/-- CTX_CREATED (Table 10.9). -/
def ctxCreated : Nat := 0x200008
/-- CTX_CLOSED (Table 10.9). -/
def ctxClosed : Nat := 0x200010
/-- CTX_EVICTED (Table 10.9). -/
def ctxEvicted : Nat := 0x200018
/-- CTX_REFUSED (Table 10.9). -/
def ctxRefused : Nat := 0x200020
/-- HOTDIR_HIT (Table 10.9). -/
def hotdirHit : Nat := 0x200028
/-- HOTDIR_MISS (Table 10.9). -/
def hotdirMiss : Nat := 0x200030
/-- DIR_BASE (Table 10.9). -/
def dirBase (i : Nat) : Nat := 0x200040 + 8 * i
/-- CTX_TABLE_BASE (Table 10.9). -/
def ctxTableBase (i : Nat) : Nat := 0x200080 + 8 * i
/-- AFF_START (Table 10.9). -/
def affStart (i : Nat) : Nat := 0x200100 + 64 * i
/-- AFF_AGE (Table 10.9). -/
def affAge (i : Nat) : Nat := 0x200104 + 64 * i
/-- AFF_BOUNDS (Table 10.9). -/
def affBounds (i : Nat) : Nat := 0x200108 + 64 * i
/-- CULL_BOUNDS (Table 10.9). -/
def cullBounds (i : Nat) : Nat := 0x20010c + 64 * i
/-- AFF_CULL (Table 10.9). -/
def affCull (i : Nat) : Nat := 0x200110 + 64 * i
/-- CAL_CFG (Table 10.9). -/
def calCfg (i : Nat) : Nat := 0x200114 + 64 * i
/-- CAL_STATE (Table 10.9). -/
def calState (i : Nat) : Nat := 0x200118 + 64 * i
/-- CAL_RECORDS (Table 10.9). -/
def calRecords (i : Nat) : Nat := 0x200120 + 64 * i
/-- COMPACT_CFG (Table 10.9). -/
def compactCfg (i : Nat) : Nat := 0x200128 + 64 * i
/-- JOB_STATUS (Table 11.9). -/
def jobStatus : Nat := 0x300000
/-- JOB_ACCEPTED (Table 11.9). -/
def jobAccepted : Nat := 0x300008
/-- JOB_ABORT_COOKIE (Table 11.9). -/
def jobAbortCookie : Nat := 0x300010
/-- JOB_ABORT (Table 11.9). -/
def jobAbort : Nat := 0x300018
/-- JOB_ABORT_MISS (Table 11.9). -/
def jobAbortMiss : Nat := 0x300020
/-- SUBQ_BASE (Table 11.9). -/
def subqBase (i : Nat) : Nat := 0x301000 + 64 * i
/-- SUBQ_CFG (Table 11.9). -/
def subqCfg (i : Nat) : Nat := 0x301008 + 64 * i
/-- SUBQ_PI (Table 11.9). -/
def subqPi (i : Nat) : Nat := 0x30100c + 64 * i
/-- SUBQ_CI (Table 11.9). -/
def subqCi (i : Nat) : Nat := 0x301010 + 64 * i
/-- SUBQ_STATUS (Table 11.9). -/
def subqStatus (i : Nat) : Nat := 0x301014 + 64 * i
/-- VRING_BASE (Table 11.9). -/
def vringBase (i : Nat) : Nat := 0x302000 + 64 * i
/-- VRING_CFG (Table 11.9). -/
def vringCfg (i : Nat) : Nat := 0x302008 + 64 * i
/-- VRING_WI (Table 11.9). -/
def vringWi (i : Nat) : Nat := 0x30200c + 64 * i
/-- VRING_CI (Table 11.9). -/
def vringCi (i : Nat) : Nat := 0x302010 + 64 * i
/-- VRING_STATUS (Table 11.9). -/
def vringStatus (i : Nat) : Nat := 0x302014 + 64 * i
/-- CLASS_CFG (Table 11.9). -/
def classCfg (i : Nat) : Nat := 0x303000 + 64 * i
/-- CLASS_PARSE (Table 11.9). -/
def classParse (i : Nat) : Nat := 0x303004 + 64 * i
/-- CLASS_TOKENS (Table 11.9). -/
def classTokens (i : Nat) : Nat := 0x303008 + 64 * i
/-- CLASS_IDLE (Table 11.9). -/
def classIdle (i : Nat) : Nat := 0x30300c + 64 * i
/-- CLASS_JOBS (Table 11.9). -/
def classJobs (i : Nat) : Nat := 0x303010 + 64 * i
/-- CLASS_LATE (Table 11.9). -/
def classLate (i : Nat) : Nat := 0x303018 + 64 * i
/-- CLASS_DROPPED (Table 11.9). -/
def classDropped (i : Nat) : Nat := 0x303020 + 64 * i
/-- CLASS_LAT_MAX (Table 11.9). -/
def classLatMax (i : Nat) : Nat := 0x303028 + 64 * i
/-- CI_CTL (Table 12.15). -/
def ciCtl : Nat := 0x100000
/-- CI_STATE (Table 12.15). -/
def ciState : Nat := 0x100004
/-- CI_RESULT (Table 12.15). -/
def ciResult : Nat := 0x100008
/-- CI_OFFSET (Table 12.15). -/
def ciOffset : Nat := 0x100010
/-- CI_NEED (Table 12.15). -/
def ciNeed : Nat := 0x100018
/-- CI_HAVE (Table 12.15). -/
def ciHave : Nat := 0x100020
/-- CI_SHORT_NS (Table 12.15). -/
def ciShortNs : Nat := 0x100028
/-- CI_STAGE_ADDR (Table 12.15). -/
def ciStageAddr : Nat := 0x100030
/-- CI_STAGE_LEN (Table 12.15). -/
def ciStageLen : Nat := 0x100038
/-- CI_SEQ (Table 12.15). -/
def ciSeq : Nat := 0x10003c
/-- CI_QUIET_TIMEOUT (Table 12.15). -/
def ciQuietTimeout : Nat := 0x100040
/-- CI_COMMITS (Table 12.15). -/
def ciCommits : Nat := 0x100048
/-- CI_REFUSED (Table 12.15). -/
def ciRefused : Nat := 0x100050
/-- CI_CLOSED (Table 12.15). -/
def ciClosed : Nat := 0x100058
/-- HOST_BLOCK (Table 13.3). -/
def hostBlock (i : Nat) : Nat := 0x400000 + 4 * i
/-- HOST_LINK_STATUS (Table 13.8). -/
def hostLinkStatus : Nat := 0x20000
/-- HOST_WINDOW_CFG (Table 13.8). -/
def hostWindowCfg : Nat := 0x20004
/-- HOST_DENIED (Table 13.8). -/
def hostDenied : Nat := 0x20008
/-- HOST_DENIED_LAST (Table 13.8). -/
def hostDeniedLast : Nat := 0x20010
/-- HOST_POISON_READS (Table 13.8). -/
def hostPoisonReads : Nat := 0x20018
/-- HOST_BI_SENT (Table 13.8). -/
def hostBiSent : Nat := 0x20020
/-- HOST_READ_LAT_MAX (Table 13.8). -/
def hostReadLatMax : Nat := 0x20028
/-- HOST_RETRY (Table 13.8). -/
def hostRetry : Nat := 0x2002c
/-- RIND_STATUS (Table 14.9). -/
def rindStatus : Nat := 0x500000
/-- RIND_OWNER (Table 14.9). -/
def rindOwner : Nat := 0x500004
/-- RIND_SVN (Table 14.9). -/
def rindSvn : Nat := 0x500008
/-- RIND_TAMPER (Table 14.9). -/
def rindTamper : Nat := 0x50000c
/-- RIND_CFG (Table 14.9). -/
def rindCfg : Nat := 0x500010
/-- RIND_ZERO (Table 14.9). -/
def rindZero : Nat := 0x500014
/-- RIND_DOMAIN (Table 14.9). -/
def rindDomain (i : Nat) : Nat := 0x500400 + 4 * i
/-- DBG_TARGET (Table 14.9). -/
def dbgTarget : Nat := 0x500800
/-- DBG_HALT (Table 14.9). -/
def dbgHalt : Nat := 0x500804
/-- DBG_BU_HALT (Table 14.9). -/
def dbgBuHalt : Nat := 0x500808
/-- DBG_OC_ADDR (Table 14.9). -/
def dbgOcAddr : Nat := 0x500810
/-- DBG_OC_DATA (Table 14.9). -/
def dbgOcData : Nat := 0x500818
/-- LOG_WI (Table 15.9). -/
def logWi : Nat := 0x600000
/-- LOG_RI (Table 15.9). -/
def logRi : Nat := 0x600004
/-- LOG_STATUS (Table 15.9). -/
def logStatus : Nat := 0x600008
/-- LOG_CFG (Table 15.9). -/
def logCfg : Nat := 0x60000c
/-- LOG_SUPPRESSED (Table 15.9). -/
def logSuppressed : Nat := 0x600010
/-- FAIL_POLICY (Table 15.9). -/
def failPolicy : Nat := 0x600040
/-- FAIL_REQ (Table 15.9). -/
def failReq : Nat := 0x600048
/-- FAIL_RESULT (Table 15.9). -/
def failResult : Nat := 0x600050
/-- FAIL_STATE (Table 15.9). -/
def failState : Nat := 0x600058
/-- LOG_OVF (Table 15.9). -/
def logOvf (i : Nat) : Nat := 0x600200 + 4 * i
/-- CTX_REPLICA (Table 15.9). -/
def ctxReplica : Nat := 0x200038
/-- BRINE_CTL (Table 15.10). -/
def brineCtl (v : Nat) : Nat := vatBase v + 0x4000
/-- BRINE_POS (Table 15.10). -/
def brinePos (v : Nat) : Nat := vatBase v + 0x4004
/-- BRINE_WALKS (Table 15.10). -/
def brineWalks (v : Nat) : Nat := vatBase v + 0x4008
/-- BRINE_CORRECTED (Table 15.10). -/
def brineCorrected (v : Nat) : Nat := vatBase v + 0x4010
/-- BRINE_MARKED (Table 15.10). -/
def brineMarked (v : Nat) : Nat := vatBase v + 0x4018
/-- BRINE_LAG_MAX (Table 15.10). -/
def brineLagMax (v : Nat) : Nat := vatBase v + 0x4020
/-- ECC_DIAG_CTL (Table 15.10). -/
def eccDiagCtl (v : Nat) : Nat := vatBase v + 0x4100
/-- ECC_DIAG_ROWS (Table 15.10). -/
def eccDiagRows (v : Nat) : Nat := vatBase v + 0x4104
/-- ECC_DIAG_SYM (Table 15.10). -/
def eccDiagSym (v : Nat) : Nat := vatBase v + 0x4108
/-- ECC_DIAG_RESULT (Table 15.10). -/
def eccDiagResult (v : Nat) : Nat := vatBase v + 0x410c
/-- ECC_DIAG_CHECK (Table 15.10). -/
def eccDiagCheck (v : Nat) : Nat := vatBase v + 0x4110
/-- RETIRED_PAGES (Table 15.10). -/
def retiredPages (v i : Nat) : Nat := vatBase v + 0x8000 + 4 * i
/-- BU_ECC_STATE (Table 15.10). -/
def buEccState (v d b : Nat) : Nat := buBase v d b + 0x44
/-- BU_ECC_CE (Table 15.10). -/
def buEccCe (v d b : Nat) : Nat := buBase v d b + 0x48
/-- BU_ECC_UE (Table 15.10). -/
def buEccUe (v d b : Nat) : Nat := buBase v d b + 0x4c
/-- CLASS_DEGRADED_NS (Table 15.10). -/
def classDegradedNs (i : Nat) : Nat := 0x303030 + 64 * i
/-- CLASS_STATE (Table 15.10). -/
def classState (i : Nat) : Nat := 0x303034 + 64 * i
/-- PWR_STATUS (Table 16.7). -/
def pwrStatus : Nat := 0x700000
/-- PWR_CAP (Table 16.7). -/
def pwrCap : Nat := 0x700004
/-- PWR_POLICY (Table 16.7). -/
def pwrPolicy : Nat := 0x700008
/-- PWR_WARM (Table 16.7). -/
def pwrWarm : Nat := 0x70000c
/-- PWR_TEMP_CFG (Table 16.7). -/
def pwrTempCfg : Nat := 0x700010
/-- PWR_PACE_CFG (Table 16.7). -/
def pwrPaceCfg : Nat := 0x700014
/-- PWR_WEIGHT (Table 16.7). -/
def pwrWeight : Nat := 0x700018
/-- PWR_PKG_MAX (Table 16.7). -/
def pwrPkgMax : Nat := 0x700020
/-- PWR_ENERGY (Table 16.7). -/
def pwrEnergy : Nat := 0x700028
/-- PWR_CAP_UNMET_N (Table 16.7). -/
def pwrCapUnmetN : Nat := 0x700030
/-- PWR_TRIP (Table 16.7). -/
def pwrTrip : Nat := 0x700038
/-- VAT_PWR (Table 16.7). -/
def vatPwr (i : Nat) : Nat := 0x700100 + 32 * i
/-- VAT_TEMP (Table 16.7). -/
def vatTemp (i : Nat) : Nat := 0x700104 + 32 * i
/-- VAT_WAKES (Table 16.7). -/
def vatWakes (i : Nat) : Nat := 0x700108 + 32 * i
/-- VAT_STRETCH (Table 16.7). -/
def vatStretch (i : Nat) : Nat := 0x700110 + 32 * i
/-- HBAR_SKEW (Table 16.7). -/
def hbarSkew (i : Nat) : Nat := 0x700400 + 16 * i
/-- HBAR_PACE (Table 16.7). -/
def hbarPace (i : Nat) : Nat := 0x700404 + 16 * i
/-- HBAR_EPISODES (Table 16.7). -/
def hbarEpisodes (i : Nat) : Nat := 0x700408 + 16 * i
/-- KW_CFG (Table 17.7). -/
def kwCfg : Nat := 0x800000
/-- KW_MIRROR (Table 17.7). -/
def kwMirror : Nat := 0x800004
/-- KW_SPILL (Table 17.7). -/
def kwSpill : Nat := 0x800008
/-- KW_FWD (Table 17.7). -/
def kwFwd : Nat := 0x80000c
/-- KW_PROMOTE (Table 17.7). -/
def kwPromote : Nat := 0x800010
/-- KW_PROMOTE_RESULT (Table 17.7). -/
def kwPromoteResult : Nat := 0x800014
/-- KW_STANDBY (Table 17.7). -/
def kwStandby : Nat := 0x800018
/-- KW_DIVERGED (Table 17.7). -/
def kwDiverged : Nat := 0x800020
/-- KW_REFUSED (Table 17.7). -/
def kwRefused : Nat := 0x800028
/-- KW_PORT_CTL (Table 17.7). -/
def kwPortCtl (i : Nat) : Nat := 0x800100 + 64 * i
/-- KW_PORT_STATUS (Table 17.7). -/
def kwPortStatus (i : Nat) : Nat := 0x800104 + 64 * i
/-- KW_PORT_FLITS (Table 17.7). -/
def kwPortFlits (i : Nat) : Nat := 0x800108 + 64 * i
/-- KW_PORT_FEC (Table 17.7). -/
def kwPortFec (i : Nat) : Nat := 0x800110 + 64 * i
/-- KW_PORT_REPLAYS (Table 17.7). -/
def kwPortReplays (i : Nat) : Nat := 0x800118 + 64 * i
/-- KW_PORT_RETRAINS (Table 17.7). -/
def kwPortRetrains (i : Nat) : Nat := 0x80011c + 64 * i
/-- KW_PORT_BACKLOG (Table 17.7). -/
def kwPortBacklog (i : Nat) : Nat := 0x800120 + 64 * i
/-- BOOT_STATUS (Table 18.8). -/
def bootStatus : Nat := 0x900000
/-- BOOT_TIME (Table 18.8). -/
def bootTime : Nat := 0x900004
/-- PKG_RESET (Table 18.8). -/
def pkgReset : Nat := 0x900008
/-- BOOT_CFG (Table 18.8). -/
def bootCfg : Nat := 0x90000c
/-- TSV_CAL_CFG (Table 18.8). -/
def tsvCalCfg : Nat := 0x900010
/-- DIE_TSV (Table 18.8). -/
def dieTsv (v d : Nat) : Nat := dieCommon v d + 0x30
/-- HUB_ID (Table 19.1). -/
def hubId : Nat := 0x0
/-- HUB_CAP (Table 19.1). -/
def hubCap : Nat := 0x4
/-- HUB_MEM (Table 19.1). -/
def hubMem : Nat := 0x8
/-- HUB_SERIAL (Table 19.1). -/
def hubSerial : Nat := 0x10
/-- HUB_TIME (Table 19.1). -/
def hubTime : Nat := 0x18
/-- HUB_SCRATCH (Table 19.1). -/
def hubScratch : Nat := 0x20
/-- HUB_EVENT (Table 19.1). -/
def hubEvent : Nat := 0x28
/-- HUB_BAD_ACCESS (Table 19.1). -/
def hubBadAccess : Nat := 0x30
/-- VAT_ID (Table 19.3). -/
def vatId (v : Nat) : Nat := vatBase v + 0x0
/-- VAT_STATUS (Table 19.3). -/
def vatStatus (v : Nat) : Nat := vatBase v + 0x4
/-- VMC_READS (Table 19.3). -/
def vmcReads (v : Nat) : Nat := vatBase v + 0x100
/-- VMC_WRITES (Table 19.3). -/
def vmcWrites (v : Nat) : Nat := vatBase v + 0x108
/-- VMC_MERGES (Table 19.3). -/
def vmcMerges (v : Nat) : Nat := vatBase v + 0x110
/-- VMC_FENCED (Table 19.3). -/
def vmcFenced (v : Nat) : Nat := vatBase v + 0x118
/-- VMC_WQ (Table 19.3). -/
def vmcWq (v : Nat) : Nat := vatBase v + 0x120
/-- TSV_DOWN_BYTES (Table 19.3). -/
def tsvDownBytes (v : Nat) : Nat := vatBase v + 0x200
/-- TSV_UP_BYTES (Table 19.3). -/
def tsvUpBytes (v : Nat) : Nat := vatBase v + 0x208
/-- XBAR_TX (Table 19.3). -/
def xbarTx (v : Nat) : Nat := vatBase v + 0x300
/-- XBAR_RX (Table 19.3). -/
def xbarRx (v : Nat) : Nat := vatBase v + 0x308
/-- DIE_SEQ (Table 19.6). -/
def dieSeq (v d : Nat) : Nat := dieCommon v d + 0x34
/-- DIE_TEMP (Table 19.6). -/
def dieTemp (v d : Nat) : Nat := dieCommon v d + 0x38
/-- CLASS_BOUND (R608). -/
def classBound (i : Nat) : Nat := 0x30302c + 64 * i
/-- MSIX_ADDR_LO (PCIe 6.0 (PRESUMED, log entry 9)). -/
def msixAddrLo (i : Nat) : Nat := 0x30000 + 16 * i
/-- MSIX_ADDR_HI (PCIe 6.0 (PRESUMED, log entry 9)). -/
def msixAddrHi (i : Nat) : Nat := 0x30004 + 16 * i
/-- MSIX_DATA (PCIe 6.0 (PRESUMED, log entry 9)). -/
def msixData (i : Nat) : Nat := 0x30008 + 16 * i
/-- MSIX_CTL (PCIe 6.0 (PRESUMED, log entry 9)). -/
def msixCtl (i : Nat) : Nat := 0x3000c + 16 * i
/-- MSIX_PBA (PCIe 6.0 (PRESUMED, log entry 9)). -/
def msixPba : Nat := 0x38000

end Reg

end Sys2Proof.Machine
end

