-- ==== Sys2Proof/Machine/State.lean ====
section
/-!
DEFINITION. The state of the part as plain data, its fault and refusal reasons, and the state after power-on reset.
-/

namespace Sys2Proof.Machine

/-- R2 to R4, R850: which part of the series it is (BM-2, BM-4 or BM-8 by its vats, with 64 or 128 vector lanes), and the levels at which the
board holds its address straps SMB_ADDR. Nothing changes it. -/
structure Part where
  vats     : Nat
  lanes128 : Bool
  straps   : BitVec 2
deriving DecidableEq, Repr

/-- The DRAM of every vat: its bytes, by physical bank (`bankByte`), and the error patterns of the column words whose stored symbols differ from
a codeword of their data (R687), by column word. Both hold the canonical form of `Memory.wf`. -/
structure Dram where
  cells : List Host.Cell
  marks : List (Nat × List (Nat × Nat))
deriving DecidableEq, Repr

/-- Everything else of the part: the register file by BAR0 offset (a register that is not listed holds its reset value), and the state behind
the bank units, tensor cores, dies, base dies and the hub, each listed once it differs from its reset. -/
structure Chip where
  regs  : List (Nat × Word)
  bus   : List (Nat × Bu)
  cores : List (Nat × Core)
  dies  : List (Nat × Die)
  vats  : List (Nat × Vat)
  hub   : Hub
deriving DecidableEq, Repr

/-- The state of the model: the part, the commands that wait, first in, first out, its DRAM and its chip. -/
structure State where
  part    : Part
  pending : List Instr
  dram    : Dram
  k       : Chip
deriving DecidableEq, Repr

/-- Why a step can stop. -/
inductive Fault where
  /-- Raised by a command that names a vat, core, die, bank, ring, port or other unit that the part does not have (R13). Safe: the part has
  nothing there that could act, so no behaviour of it is left out. -/
  | noSuchUnit
deriving DecidableEq, Repr

/-- Why a command can have no meaning. -/
inductive Refusal where
  /-- Raised by no command: every command has its meaning. Safe. -/
  | notModelled (mnemonic : String)
deriving DecidableEq, Repr

/-- The part of the state after reset: a BM-8 with 64 lanes (DESIGN CHOICE, log entry 1), its address straps low (DESIGN CHOICE, log entry 4). -/
def Part.reset : Part := { vats := 8, lanes128 := false, straps := 0 }

/-- The chip after power-on reset: every register at its reset value, PWR_CAP at the part's maximum (Table 16.7) and BOOT_STATUS.RESET at 1,
power-on (Table 18.8), which the part and the cause decide. -/
def Chip.reset : Chip :=
  { regs := [(Reg.pwrCap, 750), (Reg.bootStatus, 1)], bus := [], cores := [], dies := [], vats := [], hub := Hub.reset }

/-- The machine right after a power-on reset (Table 18.2): no command waits, and no byte of DRAM has been written. -/
def State.reset : State := { part := Part.reset, pending := [], dram := { cells := [], marks := [] }, k := Chip.reset }

end Sys2Proof.Machine
end

