-- ==== Sys2Proof/Machine/Ops.lean ====
section
/-!
DEFINITION. The named operations that every meaning goes through: registers by offset and field, the units of the part,
time, the error log, DRAM with its column-word code, the bank map, translation and protection.
-/

namespace Sys2Proof.Machine

/-! ### Words and fields -/

/-- Field `[hi:lo]` of a register value. -/
def fld (w : Word) (hi lo : Nat) : Nat := bitsAt w.toNat hi lo

/-- A register value with field `[hi:lo]` replaced. -/
def putFld (w : Word) (hi lo n : Nat) : Word :=
  let m : Nat := (2 ^ (hi + 1 - lo) - 1) * 2 ^ lo
  (w &&& ~~~(BitVec.ofNat 64 m)) ||| BitVec.ofNat 64 ((n % 2 ^ (hi + 1 - lo)) * 2 ^ lo)

/-! ### Finding a register (R12, R20, Tables 13.5, 19.2 to 19.8) -/

/-- Where, in a block, the register of this row begins that holds byte `o` of the block. -/
def RegRow.startOf (r : RegRow) (o : Nat) : Option Nat :=
  if o < r.off then none else
  let d := o - r.off
  let i := d / r.step
  let e := d % r.step
  let j := e / r.step2
  let f := e % r.step2
  if i < r.count ∧ j < r.count2 ∧ f < (if r.wide then 8 else 4) then some (r.off + i * r.step + j * r.step2) else none

/-- The first row of a block's table with a register over byte `o`, with where that register begins. -/
def findReg : List RegRow → Nat → Option (Nat × RegRow)
  | [], _ => none
  | r :: rs, o =>
    match r.startOf o with
    | some s => some (s, r)
    | none => findReg rs o

/-- Table 13.5: the register table that governs a BAR0 offset, with the offset at which its block begins. -/
def regTableAt (o : Nat) : List RegRow × Nat :=
  if o < 0x1000000 then (hubRegs, 0) else
  let v := o / 0x1000000 - 1
  let b := vatBase v
  let e := o - b
  if e < 0x100000 then (vatRegs, b)
  else if e < 0x500000 then (coreRegs, b + e / 0x100000 * 0x100000)
  else if e < 0x800000 then ([], b)
  else if e < 0xA00000 then
    let db := b + 0x800000 + (e - 0x800000) / 0x20000 * 0x20000
    let f := o - db
    if f < 0x19000 then (buRegs, db + f / 0x400 * 0x400)
    else if 0x1C000 ≤ f then (dieRegs, db + 0x1C000)
    else ([], db)
  else ([], b)

/-- The register over byte `o` of BAR0: its own offset and its row. -/
def regOver (o : Nat) : Option (Nat × RegRow) :=
  let (rows, base) := regTableAt o
  match findReg rows (o - base) with
  | some (s, r) => some (base + s, r)
  | none => none

/-- The Reset column of a register. -/
def RegRow.resetWord (r : RegRow) : Word :=
  BitVec.ofNat 64 ((r.fields.map (fun f => f.reset * 2 ^ f.lo)).foldl (· + ·) 0)

/-- The value of a register that nothing has written since power-on reset. -/
def resetAt (o : Nat) : Word :=
  match regOver o with
  | some (s, r) => if s = o then r.resetWord else 0
  | none => 0

/-! ### Registers by offset -/

/-- The value of the register at a BAR0 offset. -/
def Chip.reg (k : Chip) (o : Nat) : Word := lookup (resetAt o) k.regs o

/-- The chip with the register at a BAR0 offset holding `w`. -/
def Chip.setReg (k : Chip) (o : Nat) (w : Word) : Chip := { k with regs := insert k.regs o w }

/-- A field of a register. -/
def Chip.getF (k : Chip) (o hi lo : Nat) : Nat := fld (k.reg o) hi lo

/-- A single-bit field. -/
def Chip.flag (k : Chip) (o i : Nat) : Bool := k.getF o i i = 1

/-- The chip with a field of a register set. -/
def Chip.setF (k : Chip) (o hi lo n : Nat) : Chip := k.setReg o (putFld (k.reg o) hi lo n)

/-- The chip with bit `i` of a register set to 1. -/
def Chip.raise (k : Chip) (o i : Nat) : Chip := k.setF o i i 1

/-- The 48-bit counters of the part: COUNT advances, and WRAP is set when it passes 2^48. -/
def Chip.count (k : Chip) (o n : Nat) : Chip :=
  let c := k.getF o 47 0 + n
  let k := k.setF o 47 0 c
  if c < 2 ^ 48 then k else k.raise o 63

/-- A saturating counter field. -/
def Chip.satAdd (k : Chip) (o hi lo n : Nat) : Chip :=
  k.setF o hi lo (min (2 ^ (hi + 1 - lo) - 1) (k.getF o hi lo + n))

/-- A greatest-value field, saturating. -/
def Chip.satMax (k : Chip) (o hi lo n : Nat) : Chip :=
  k.setF o hi lo (max (k.getF o hi lo) (min (2 ^ (hi + 1 - lo) - 1) n))

/-- A wrapping counter field. -/
def Chip.wrapAdd (k : Chip) (o hi lo n : Nat) : Chip := k.setF o hi lo (k.getF o hi lo + n)

/-! ### Units -/

/-- The key of die `d` of vat `v`. -/
def dieKey (v d : Nat) : Nat := v * 16 + d

/-- The key of physical bank `b`. -/
def bankKey (v d b : Nat) : Nat := dieKey v d * 100 + b

/-- The key of a tensor core. -/
def coreKey (v c : Nat) : Nat := v * 4 + c

def Chip.core (k : Chip) (v c : Nat) : Core := lookup Core.reset k.cores (coreKey v c)
def Chip.setCore (k : Chip) (v c : Nat) (x : Core) : Chip := { k with cores := insert k.cores (coreKey v c) x }
def Chip.die (k : Chip) (v d : Nat) : Die := lookup Die.reset k.dies (dieKey v d)
def Chip.setDie (k : Chip) (v d : Nat) (x : Die) : Chip := { k with dies := insert k.dies (dieKey v d) x }
def Chip.vat (k : Chip) (v : Nat) : Vat := lookup Vat.reset k.vats v
def Chip.setVat (k : Chip) (v : Nat) (x : Vat) : Chip := { k with vats := insert k.vats v x }

/-- R725, R729, R709, R721: the clocks of a vat run, and the hub and the vat have not failed. -/
def Chip.vatRuns (k : Chip) (v : Nat) : Bool := (k.vat v).power = .awake && !(k.vat v).lost && !k.hub.stopped

/-- The bank unit of a physical bank. -/
def Chip.bu (k : Chip) (v d b : Nat) : Bu := lookup Bu.reset k.bus (bankKey v d b)
def Chip.setBu (k : Chip) (v d b : Nat) (x : Bu) : Chip := { k with bus := insert k.bus (bankKey v d b) x }

/-- R157: the physical bank behind a logical index. -/
def Die.phys (x : Die) (a : Nat) : Nat := x.bankMap.getD a a

/-- The logical index that a physical bank serves (R159, BU_ID). -/
def Die.logicalOf (x : Die) (b : Nat) : Nat := x.bankMap.idxOf b

/-- The physical bank behind logical index `a`. -/
def Chip.phys (k : Chip) (v d a : Nat) : Nat := (k.die v d).phys a

/-- The state of a spare slot. -/
def Die.spare (x : Die) (q : Nat) : SpareState := x.spares.getD q .retired

/-- R181: a logical index whose bank unit can be started, as its die's map stands: an active index not under takeover, or
a spare slot in state CALIBRATING (and not being zeroed for it, R201). -/
def Die.startable (x : Die) (a : Nat) : Bool :=
  if a < 96 then !(x.takeover.any (fun t => t.logical = a)) else x.spare (a - 96) = .calibrating

/-- R181, R714: and its bank unit is not held failed. -/
def Chip.startable (k : Chip) (v d a : Nat) : Bool :=
  (k.die v d).startable a && !k.flag (Reg.buEccState v d (k.phys v d a)) 1

/-- R40, R32: the tensor core that owns die `d`. -/
def ownerOf (d : Nat) : Nat := d / 4

/-! ### Outcomes -/

/-- Table 18.4: the hub runs, so commands reach it: the part boots, is READY, or has refused its firmware. -/
def Chip.alive (k : Chip) : Bool :=
  match k.hub.boot.cond with
  | .booting | .ready | .failed => true
  | .off | .cave | .held | .tripped | .hubStopped => false

/-- A command that reaches the chip alone: its effect where the units it names exist on the part and the hub runs. -/
def State.onChip (s : State) (ok : Bool) (f : Chip → Chip) : Host.Outcome State Fault Refusal :=
  if ok then .next (if s.k.alive then { s with k := f s.k } else s) else .fault .noSuchUnit

/-- A command that may also write DRAM. -/
def State.onBoth (s : State) (ok : Bool) (f : Dram → Chip → Dram × Chip) : Host.Outcome State Fault Refusal :=
  if ok then
    .next (if s.k.alive then let r := f s.dram s.k; { s with dram := r.1, k := r.2 } else s)
  else .fault .noSuchUnit

/-- R725: what the core and bank clocks of vat `v` do: nothing while they stand still. -/
def State.onVat (s : State) (ok : Bool) (v : Nat) (f : Chip → Chip) : Host.Outcome State Fault Refusal :=
  s.onChip ok (fun k => if k.vatRuns v then f k else k)

/-- The same where DRAM may be written. -/
def State.onVatBoth (s : State) (ok : Bool) (v : Nat) (f : Dram → Chip → Dram × Chip) : Host.Outcome State Fault Refusal :=
  s.onBoth ok (fun dr k => if k.vatRuns v then f dr k else (dr, k))

/-- What happens to the part's supplies, reset inputs and cave, whatever the hub does (Tables 18.1 and 18.4). -/
def State.onPart (s : State) (f : Dram → Chip → Dram × Chip) : Host.Outcome State Fault Refusal :=
  let r := f s.dram s.k
  .next { s with dram := r.1, k := r.2 }

/-- R13: vat `v` exists on the part. -/
def State.hasVat (s : State) (v : Nat) : Bool := v < s.part.vats

/-- R13: tensor core `c` of vat `v` exists. -/
def State.hasCore (s : State) (v c : Nat) : Bool := s.hasVat v && c < 4

/-- R13: die `d` of vat `v` exists. -/
def State.hasDie (s : State) (v d : Nat) : Bool := s.hasVat v && d < 16

/-- R157: logical index `a` of die `d` of vat `v` exists. -/
def State.hasLogical (s : State) (v d a : Nat) : Bool := s.hasDie v d && a < 100

/-! ### Time and the error log -/

/-- R564: the 1 GHz hub timestamp. -/
def Chip.now (k : Chip) : Nat := k.hub.time

/-- Tables 15.4, 16.x, 17.x, 18.x: the severity of an error-log class. -/
def sevOf (cls : Nat) : Nat := logSeverity cls

/-- An occurrence of a class, with no location. -/
def occ (cls : Nat) (time : Nat) : LogOcc :=
  { cls := cls, sev := sevOf cls, vat := 0, die := 0, logical := 0, phys := 0, core := 0, stream := 0, row := 0, word := 0
    source := 0, sym := 0, detail := 0, dpa := none, time := time }

/-- R702, R705: an occurrence joins the log writer's queue of 256; with the queue full it counts in LOG_OVF of its class. -/
def Chip.log (k : Chip) (o : LogOcc) : Chip :=
  if k.hub.logQ.length < 256 then { k with hub := { k.hub with logQ := k.hub.logQ ++ [o] } }
  else k.satAdd (Reg.logOvf o.cls) 15 0 1

/-- Table 15.4: an occurrence that names a core. -/
def Chip.logCore (k : Chip) (cls v c : Nat) (detail : Nat) : Chip :=
  k.log { occ cls k.now with vat := v, core := c, detail := detail }

/-- Table 15.4: an occurrence that names a core and a stream. -/
def Chip.logStream (k : Chip) (cls v c s : Nat) (detail : Nat) : Chip :=
  k.log { occ cls k.now with vat := v, core := c, stream := s, detail := detail }

/-- Table 15.4: an occurrence that names a bank. -/
def Chip.logBank (k : Chip) (cls v d a : Nat) (detail : Nat) : Chip :=
  k.log { occ cls k.now with
    vat := v, die := d, logical := a, phys := k.phys v d a, core := ownerOf d, detail := detail }

/-- An occurrence with only a DETAIL. -/
def Chip.logPlain (k : Chip) (cls detail : Nat) : Chip := k.log { occ cls k.now with detail := detail }

/-- R711: a takeover trigger of Table 15.6 reaches its die: ignored for an index under takeover or waiting, queued, or
dropped as SPARE_EXHAUSTED beyond the four that wait. -/
def Chip.trigger (k : Chip) (v d a code : Nat) : Chip :=
  let x := k.die v d
  if x.takeover.any (fun t => t.logical = a) || x.takeoverQ.any (fun t => t.1 = a) then k
  else if x.takeoverQ.length < (if x.takeover.isSome then 4 else 5) then
    k.setDie v d { x with takeoverQ := x.takeoverQ ++ [(a, code)] }
  else k.logBank 0x24 v d a code

/-- R710: a trigger under its FAIL_POLICY bit (Table 15.6). -/
def Chip.autoTrigger (k : Chip) (v d a code : Nat) : Chip :=
  if a < 96 ∧ k.flag Reg.failPolicy (code - 1) then k.trigger v d a code else k

/-! ### DRAM and the column-word code (R160, R687 to R691) -/

/-- The place of a byte of a physical bank in the model's DRAM. -/
def bankByte (v d b : Nat) (byte : Nat) : Nat := bankKey v d b * 2 ^ 26 + byte

/-- R690: the pattern a marked word holds: its check bytes XORed with 0xC53A_960F, byte 0 with 0x0F. -/
def poisonMark : List (Nat × Nat) := [(32, 0x0F), (33, 0x96), (34, 0x3A), (35, 0xC5)]

/-- Table 15.1 for a pattern of at most two symbols. -/
def classOf (p : List (Nat × Nat)) : EccResult :=
  if p = [] then .clean else if p.all (fun e => e.1 < 36) then .ce else .misaddr

/-- R688, R689: the decoder's result for the stored error pattern, and the pattern it corrects. -/
def decodePattern (p : List (Nat × Nat)) : EccResult × List (Nat × Nat) :=
  if p.length ≤ 2 then (classOf p, p)
  else if p = poisonMark then (.poisoned, [])
  else match Config.aliasOf p with
    | some q => if 0 < q.length ∧ q.length ≤ 2 then (classOf q, q) else (.ue, [])
    | none => (.ue, [])

/-- Bytes with a pattern's data symbols XORed. -/
def xorPattern (bs : List Byte) (p : List (Nat × Nat)) : List Byte :=
  p.foldl (fun acc e => if e.1 < 32 then acc.set e.1 (acc.getD e.1 0 ^^^ BitVec.ofNat 8 e.2) else acc) bs

/-- The canonical form of the model's DRAM: addresses strictly rising and no entry equal to what an unlisted address reads as. -/
def Memory.wf (dr : Dram) : Bool := canonical 0 dr.cells && canonical [] dr.marks

/-- What one byte of DRAM holds, errors included; a byte nothing has written reads as zero (R697). -/
def Dram.byte (dr : Dram) (a : Nat) : Byte := lookup 0 dr.cells a

/-- The `n` bytes from `a` on, as stored. -/
def Dram.bytes (dr : Dram) (a n : Nat) : List Byte := lookupRun 0 dr.cells a n

/-- R688: the 32-byte column word at `a`. -/
def Dram.word (dr : Dram) (a : Nat) : WordRead :=
  let raw := dr.bytes a 32
  let r := decodePattern (lookup [] dr.marks (a / 32))
  { bytes := if r.1 = .ce then xorPattern raw r.2 else raw, res := r.1, syms := if r.1 = .ce then r.2 else [] }

/-- R172: a column word stored with fresh check bytes. -/
def Dram.putWord (dr : Dram) (a : Nat) (bs : List Byte) : Dram :=
  { cells := storeRun 0 dr.cells a (bs.take 32), marks := store [] dr.marks (a / 32) [] }

/-- R690: a column word stored marked uncorrectable. -/
def Dram.putMarked (dr : Dram) (a : Nat) (bs : List Byte) : Dram :=
  { cells := storeRun 0 dr.cells a (bs.take 32), marks := store [] dr.marks (a / 32) poisonMark }

/-- A column word stored with its errors: `bs` is the data, `p` the pattern (R699). -/
def Dram.putPattern (dr : Dram) (a : Nat) (bs : List Byte) (p : List (Nat × Nat)) : Dram :=
  { cells := storeRun 0 dr.cells a (xorPattern (bs.take 32) p), marks := store [] dr.marks (a / 32) p }

/-- A column word stored whole, marked where `bad`. -/
def Dram.putEither (dr : Dram) (a : Nat) (bs : List Byte) (bad : Bool) : Dram :=
  if bad then dr.putMarked a bs else dr.putWord a bs

/-- Every word of `[lo, hi)` stored as zero with fresh check bytes. -/
def Dram.clear (dr : Dram) (lo hi : Nat) : Dram :=
  { cells := dr.cells.filter (fun c => c.1 < lo || hi ≤ c.1)
    marks := dr.marks.filter (fun m => m.1 < lo / 32 || hi / 32 ≤ m.1) }

/-- The place of a vat physical address (R160): its die, active index and byte in the bank. -/
structure BankAddr where
  die  : Nat
  idx  : Nat
  byte : Nat
deriving DecidableEq, Repr

/-- R160. -/
def bankAddr (p : Nat) : BankAddr := { die := p / 2 ^ 26 / 96, idx := p / 2 ^ 26 % 96, byte := p % 2 ^ 26 }

/-- R160 the other way. -/
def physAddr (d a byte : Nat) : Nat := (96 * d + a) * 2 ^ 26 + byte

/-- The place in DRAM of a vat physical address, through the bank map (R205). -/
def Chip.dramAt (k : Chip) (v p : Nat) : Nat :=
  let b := bankAddr p
  bankByte v b.die (k.phys v b.die b.idx) b.byte

/-- R688, R703, R704, R710: what a read of a column word counts and logs. `src` is Table 15.3's SOURCE. -/
def Chip.noteRead (k : Chip) (v d b row word src : Nat) (r : WordRead) : Chip :=
  let a := (k.die v d).logicalOf b
  let o : LogOcc := { occ 0 k.now with
    vat := v, die := d, logical := a, phys := b, core := ownerOf d, row := row, word := word, source := src }
  match r.res with
  | .clean | .poisoned => k
  | .ce =>
    let k := k.satAdd (Reg.buEccCe v d b) 31 0 1
    if k.flag (Reg.buEccState v d b) 0 then k
    else k.log { o with cls := 0x01, sev := 1, sym := r.syms.length, detail := (r.syms.map (·.1)).foldl min 39 }
  | .misaddr => (k.satAdd (Reg.buEccUe v d b) 31 0 1).log { o with cls := 0x03, sev := 3 }
  | .ue => ((k.satAdd (Reg.buEccUe v d b) 31 0 1).log { o with cls := 0x02, sev := 3 }).autoTrigger v d a 3

/-- A row of a physical bank, read whole by a slot: its 32 column words, counted and logged as `src`. -/
def Chip.readRow (k : Chip) (dr : Dram) (v d b row src : Nat) : List WordRead × Chip :=
  let ws := (List.range 32).map (fun i => dr.word (bankByte v d b (1024 * row + 32 * i)))
  (ws, (List.range 32).foldl (fun k i => k.noteRead v d b row i src (ws.getD i ⟨[], .clean, []⟩)) k)

/-- A column word read at a vat physical address by the base die: the word, and the chip with the read counted and logged
and its bytes counted upwards. -/
def Chip.readAt (k : Chip) (dr : Dram) (v p src : Nat) : WordRead × Chip :=
  let b := bankAddr p
  let ph := k.phys v b.die b.idx
  let r := dr.word (bankByte v b.die ph (b.byte / 32 * 32))
  (r, (k.noteRead v b.die ph (b.byte / 1024) (b.byte / 32 % 32) src r).count (Reg.tsvUpBytes v) 32)

/-- R204: where a write to active index `a` lands: its bank, and the spare as well while a takeover has copied the row. -/
def Chip.writePlaces (k : Chip) (v d a row : Nat) : List Nat :=
  let x := k.die v d
  match x.takeover with
  | some t => if t.logical = a ∧ row < t.nextRow then [x.phys a, x.phys (96 + t.slot)] else [x.phys a]
  | none => [x.phys a]

/-- A column word stored at a vat physical address by a base-die writer (R172, R204). -/
def Chip.storeAt (k : Chip) (dr : Dram) (v p : Nat) (bs : List Byte) (bad : Bool) : Dram :=
  let b := bankAddr p
  (k.writePlaces v b.die b.idx (b.byte / 1024)).foldl
    (fun dr ph => dr.putEither (bankByte v b.die ph (b.byte / 32 * 32)) bs bad) dr

/-- Bytes of `old` replaced by those of `new` from offset `o` on, where `en` holds. -/
def patchBytes (old new : List Byte) (o : Nat) (en : Nat → Bool) : List Byte :=
  old.mapIdx (fun i b => if o ≤ i ∧ i < o + new.length ∧ en (i - o) then new.getD (i - o) b else b)

/-- R166: the run of base-die slots after `n` more are granted, while a bank-unit request waits. -/
def Bu.runWith (u : Bu) (n : Nat) : Nat := if u.slotQ.any (fun q => q.cls = .bank) then u.baseRun + n else 0

/-- R165, R166: `n` base-die slots of a physical bank taken at once: counted, and joined to the run, which ends at 8. -/
def Chip.takeSlots (k : Chip) (v d b n : Nat) : Chip :=
  let k := k.count (Reg.buSlotsBase v d b) n
  let u := k.bu v d b
  let r := min 8 (u.runWith n)
  if u.baseRun = r then k else k.setBu v d b { u with baseRun := r }

/-- A write of `bs` at a vat physical address inside one column word (R305, R636): whole words are stored afresh; a
partial write merges, and leaves an uncorrectable word as it stood. The Bool is true where nothing was stored. -/
def Chip.mergeAt (k : Chip) (dr : Dram) (v p src : Nat) (bs : List Byte) (en : Nat → Bool) (bad : Bool) :
    Dram × Chip × Bool :=
  if p % 32 = 0 ∧ bs.length = 32 ∧ (List.range 32).all en then
    (k.storeAt dr v p bs bad, k.count (Reg.tsvDownBytes v) 32, false)
  else
    let (r, k) := k.readAt dr v p src
    if r.res.bad then (dr, k, true)
    else (k.storeAt dr v p (patchBytes r.bytes bs (p % 32) en) bad, k.count (Reg.tsvDownBytes v) 32, false)

/-- Table 4.2: the base-die class slots of an access to `[p, p+n)`: one for each row touched. -/
def Chip.baseSlots (k : Chip) (v p n : Nat) : Chip :=
  (List.range ((p % 1024 + n + 1023) / 1024)).foldl (fun k i =>
    let b := bankAddr (p / 1024 * 1024 + 1024 * i)
    k.takeSlots v b.die (k.phys v b.die b.idx) 1) k

/-- The bytes at `[p, p+n)` of a vat, read word by word: the bytes and whether any word was uncorrectable. -/
def Chip.readRun (dr : Dram) (v src : Nat) : Nat → Chip → Nat → Nat → List Byte × Bool × Chip
  | 0, k, _, _ => ([], false, k)
  | fuel + 1, k, p, n =>
    if n = 0 then ([], false, k)
    else
      let (r, k) := k.readAt dr v p src
      let m := min n (32 - p % 32)
      let (rest, bad, k) := Chip.readRun dr v src fuel k (p + m) (n - m)
      ((r.bytes.drop (p % 32)).take m ++ rest, r.res.bad || bad, k)

/-- `n` bytes at a vat physical address, by a reader that logs as `src`. -/
def Chip.readBytes (k : Chip) (dr : Dram) (v p n src : Nat) : List Byte × Bool × Chip :=
  Chip.readRun dr v src (n / 32 + 2) (k.baseSlots v p n) p n

/-- Bytes written at a vat physical address, word by word. -/
def Chip.writeRun (v src : Nat) : Nat → Dram → Chip → Nat → List Byte → Dram × Chip
  | 0, dr, k, _, _ => (dr, k)
  | fuel + 1, dr, k, p, bs =>
    if bs = [] then (dr, k)
    else
      let m := min bs.length (32 - p % 32)
      let (dr, k, _) := k.mergeAt dr v p src (bs.take m) (fun _ => true) false
      Chip.writeRun v src fuel dr k (p + m) (bs.drop m)

/-- `bs` written at a vat physical address, partial words merged. -/
def Chip.writeBytes (k : Chip) (dr : Dram) (v p src : Nat) (bs : List Byte) : Dram × Chip :=
  Chip.writeRun v src (bs.length / 32 + 2) dr (k.baseSlots v p bs.length) p bs

/-! ### Translation and protection (R144 to R149, R162, R717) -/

/-- Table 3.7: an entry's fields. -/
structure PageEntry where
  valid  : Bool
  read   : Bool
  write  : Bool
  attr   : Nat
  domain : Nat
  ppn    : Nat
deriving DecidableEq, Repr

/-- The translation entry of VPN `n` of a core. -/
def Chip.trans (k : Chip) (v c n : Nat) : PageEntry :=
  let w := k.reg (Reg.trans v c n)
  { valid := fld w 0 0 = 1, read := fld w 1 1 = 1, write := fld w 2 2 = 1, attr := fld w 5 4
    domain := fld w 47 40, ppn := fld w 35 20 }

/-- The page entry of page `p` of a physical bank (R161); `idx` gives the PPN it stands for. -/
def Chip.page (k : Chip) (v d b p : Nat) : PageEntry :=
  let w := k.reg (Reg.buPage v d b p)
  { valid := fld w 0 0 = 1, read := fld w 1 1 = 1, write := fld w 2 2 = 1, attr := fld w 5 4
    domain := fld w 15 8, ppn := 32 * (96 * d + (k.die v d).logicalOf b) + p }

/-- R717: a retired page of a vat. -/
def Chip.retired (k : Chip) (v ppn : Nat) : Bool := k.flag (Reg.retiredPages v (ppn / 32)) (ppn % 32)

/-- R148: the checks of one access, in order. -/
def Chip.protect (k : Chip) (v : Nat) (e : PageEntry) (domain : Nat) (wr : Bool) : Option DmaCause :=
  if !e.valid || k.retired v e.ppn then some .transInvalid
  else if e.domain ≠ domain then some .protDomain
  else if (if wr then !e.write else !e.read) then some .protPerm
  else if wr && e.attr = 0 then some .protAttr
  else none

/-- R147: the physical address of a translated byte. -/
def physOf (e : PageEntry) (va : Nat) : Nat := e.ppn * 2 ^ 21 + va % 2 ^ 21

/-- R148, R149: the checks of the `n` bytes at `va`, in both pages they touch; the address of the first failing byte. Where both pages fail, the
first page's cause is reported (DESIGN CHOICE, log entry 34). -/
def Chip.checkRange (k : Chip) (v c : Nat) (va n : Nat) (wr : Bool) : Option (DmaCause × Nat) :=
  let dom := (k.core v c).domain
  match k.protect v (k.trans v c (va / 2 ^ 21)) dom wr with
  | some e => some (e, va)
  | none =>
    let last := va + n - 1
    if last / 2 ^ 21 = va / 2 ^ 21 then none
    else match k.protect v (k.trans v c (last / 2 ^ 21)) dom wr with
      | some e => some (e, last / 2 ^ 21 * 2 ^ 21)
      | none => none

/-- R147: where a core's virtual byte lies in its vat. -/
def Chip.vaToPa (k : Chip) (v c va : Nat) : Nat := physOf (k.trans v c (va / 2 ^ 21)) va

end Sys2Proof.Machine
end

