-- ==== Sys2Proof/Machine/Flits.lean ====
section
/-!
DEFINITION. The flits and messages of the Kwadan link as bytes (R765, R766, R773, R776, Tables 17.1, 17.3 and 17.4), and the domain manifest
(R663, R774).
-/

namespace Sys2Proof.Machine

/-! ### Flits (R766, R773, Table 17.1) -/

/-- One bit through the ECMA-182 polynomial (log entry 83). -/
def crcBit (c : BitVec 64) : BitVec 64 := (c <<< 1) ^^^ (if c.getLsbD 63 then 0x42F0E1EBA9EA3693 else 0)

/-- `n` bits through it. -/
def crcBits : Nat → BitVec 64 → BitVec 64
  | 0, c => c
  | n + 1, c => crcBits n (crcBit c)

/-- R766: the CRC-64 of bytes. -/
def crc64 (bs : List Byte) : BitVec 64 :=
  bs.foldl (fun (c : BitVec 64) (b : Byte) => crcBits 8 (c ^^^ ((b.setWidth 64 : BitVec 64) <<< (56 : Nat)))) 0

/-- Table 17.1: the header of a DATA flit. -/
def DataOut.header (f : DataOut) (fseq ackseq : Nat) : List Byte :=
  leBytes 1 (1 + f.channel % 4 * 8 + (if f.som then 32 else 0) + (if f.eom then 64 else 0)) ++ [0] ++ leBytes 2 f.payload.length
    ++ leBytes 2 fseq ++ leBytes 2 ackseq

/-- R773: the nonce of the flit with a count under its key. -/
def flitNonce (count : Nat) : List Byte := leBytes 12 count

/-- R766: the 256 content bytes of a DATA flit. What lies behind the payload bytes in use the spec does not say (`Config.flitPad`). -/
def DataOut.content (f : DataOut) (key : List Byte) (count fseq ackseq : Nat) : List Byte :=
  let head := f.header fseq ackseq
  let sealed := gcmSeal key (flitNonce count) head (f.payload ++ (List.range (224 - f.payload.length)).map Config.flitPad)
  let body := head ++ sealed.1 ++ sealed.2
  body ++ leBytes 8 (crc64 body).toNat

/-- R766: the CRC of a flit's content holds. -/
def crcHolds (content : List Byte) : Bool := recField content 248 256 = (crc64 (content.take 248)).toNat

/-- Table 17.1: the fields of a flit's header. -/
def flitType (content : List Byte) : Nat := byteAt content 0 % 8
def flitChannel (content : List Byte) : Nat := byteAt content 0 / 8 % 4
def flitFseq (content : List Byte) : Nat := recField content 4 6
def flitAckseq (content : List Byte) : Nat := recField content 6 8

/-- R766, R773: the payload of a DATA flit under a key at a count, where its tag holds. -/
def openFlit (key : List Byte) (count : Nat) (content : List Byte) : Option (List Byte) :=
  (gcmOpen key (flitNonce count) (content.take 8) ((content.drop 8).take 224) ((content.drop 232).take 16)).map
    (·.take (recField content 2 4))

/-- R765: the symbol errors of a flit's two codewords are more than they correct. -/
def uncorrectable (errors : Nat × Nat) : Bool := 4 < errors.1 || 4 < errors.2

/-! ### The domain manifest (R663, R774) -/

/-- Table 14.3. -/
def Domain.manifest (x : Domain) (d : Nat) : List Byte :=
  let key := if d ≠ 0 ∧ x.dsk.isSome then 1 else 0
  [BitVec.ofNat 8 d, BitVec.ofNat 8 (key + 2 * (x.grants % 8) + 16 * (x.algs % 4))] ++ List.replicate 6 0 ++ x.finger ++ x.chain

/-- R663: the domain manifest. -/
def Chip.manifest (k : Chip) : List Byte :=
  leBytes 4 (k.getF Reg.ciSeq 31 0) ++ [BitVec.ofNat 8 k.hub.domains.length, 0, 0, 0] ++ k.hub.domains.flatMap (fun x => x.2.manifest x.1)

/-- R774: the domains of a manifest with their fingerprints. -/
def manifestDomains (bs : List Byte) : List (Nat × List Byte) :=
  (List.range (byteAt bs 4)).map (fun i => (byteAt bs (8 + 104 * i), (bs.drop (16 + 104 * i)).take 48))

/-! ### Messages (R776, Tables 17.3 and 17.4) -/

/-- The channel of a message: 0 MIRROR, 1 SPILL, 2 FORWARD, 3 SERVICE. -/
def KwMsg.channel : KwMsg → Nat
  | .mirrorFull .. | .mirrorUpdate .. | .mirrorReview .. | .mirrorClose .. => 0
  | .spillPut .. | .spillRecall .. | .spillReturn .. => 1
  | .fwdJob .. | .fwdResult .. | .fwdAbort .. => 2
  | .mirrorAsk .. | .mirrorAck .. | .spillAck .. | .manifest .. => 3

/-- The header of a message about a context. -/
def KwMsg.about : KwMsg → Option CtxHdr
  | .mirrorFull h _ | .mirrorUpdate h _ | .mirrorReview h _ | .mirrorClose h | .spillPut h _ _ | .spillRecall h | .spillReturn h _ | .spillAck h _ =>
    some h
  | .mirrorAsk _ | .mirrorAck _ | .fwdJob .. | .fwdResult .. | .fwdAbort .. | .manifest _ => none

/-- Table 17.3: a message's header: bytes 0 to 11, the length of the body, and bytes 16 to 31. -/
def msgHead (front rest body : List Byte) : List Byte := front ++ leBytes 4 body.length ++ (rest ++ List.replicate 16 0).take 16 ++ body

/-- Table 17.3: bytes 0 to 11 of a message about a context. -/
def CtxHdr.front (h : CtxHdr) (mtype : Nat) : List Byte :=
  leBytes 1 mtype ++ leBytes 1 h.domain ++ leBytes 1 (h.model % 16) ++ [0] ++ leBytes 4 h.handle ++ leBytes 4 h.seq

/-- Table 17.3: bytes 0 to 11 of a message whose MODEL or SRC_HANDLE, or whose DOMAIN and SEQ, the spec gives no meaning (`Config.msgByte`). -/
def openFront (mtype : Byte) (domain : Option Nat) (handle seq : Option Nat) : List Byte :=
  let free (i n : Nat) : List Byte := (List.range n).map (fun j => Config.msgByte mtype.toNat (i + j))
  let give (i n : Nat) (x : Option Nat) : List Byte := match x with | some y => leBytes n y | none => free i n
  [mtype] ++ give 1 1 domain ++ free 2 1 ++ [0] ++ give 4 4 handle ++ give 8 4 seq

/-- Table 17.4: bytes 16 to 31 of MIRROR_FULL and of the messages like it. -/
def CtxHdr.counters (h : CtxHdr) : List Byte :=
  leBytes 8 h.tokens ++ leBytes 3 h.tail ++ leBytes 1 h.tailCount ++ leBytes 3 h.oldest ++ [0]

/-- R778: a page in a body: its layer, its number, its tier and whether it is open, its rows and its scales (log entry 84). -/
def PageImage.bytes (p : PageImage) : List Byte :=
  leBytes 2 p.layer ++ leBytes 3 p.page ++ leBytes 1 (p.tier % 4 + if p.opened then 4 else 0) ++ p.data ++ p.scales

/-- Table 17.4: the 8 bytes of a planned job (log entry 84). -/
def ReviewJob.bytes (j : ReviewJob) : List Byte := leBytes 1 j.kind ++ leBytes 2 j.layer ++ leBytes 3 j.page ++ [0, 0]

/-- A key in a body: its length and its bytes (log entry 84). -/
def keyBytes (key : List Byte) : List Byte := leBytes 1 key.length ++ key

/-- R776, Table 17.4: a message as bytes. -/
def KwMsg.encode : KwMsg → List Byte
  | .mirrorFull h ps => msgHead (h.front 0x01) h.counters (ps.flatMap PageImage.bytes)
  | .mirrorUpdate h kv => msgHead (h.front 0x02) h.counters (kv.flatMap (·.data) ++ kv.flatMap (·.scales))
  | .mirrorReview h js => msgHead (h.front 0x03) [] (js.flatMap ReviewJob.bytes)
  | .mirrorClose h => msgHead (h.front 0x04) [] []
  | .mirrorAck ps => msgHead (openFront 0x05 none none none) (leBytes 4 ps.length) (ps.flatMap (fun p => leBytes 4 p.1 ++ leBytes 4 p.2))
  | .mirrorAsk handle => msgHead (openFront Config.askType none (some handle) none) [] []
  | .spillPut h key ps => msgHead (h.front 0x10) h.counters (keyBytes key ++ ps.flatMap PageImage.bytes)
  | .spillRecall h => msgHead (h.front 0x11) [] []
  | .spillReturn h ps => msgHead (h.front 0x12) h.counters (ps.flatMap PageImage.bytes)
  | .spillAck h result => msgHead (h.front 0x13) (leBytes 1 result) []
  | .fwdJob domain seq budget cookie cls record =>
    msgHead (openFront 0x20 (some domain) none (some seq)) (leBytes 4 budget ++ leBytes 8 cookie ++ leBytes 1 cls) record
  | .fwdResult domain seq record => msgHead (openFront 0x21 (some domain) none (some seq)) (record.take 16) (record.drop 16)
  | .fwdAbort domain cookie => msgHead (openFront 0x22 (some domain) none none) (leBytes 8 cookie) []
  | .manifest bs => msgHead (openFront Config.manifestType none none none) [] bs

/-- R776: the bytes of a message. -/
def KwMsg.bytes (m : KwMsg) : Nat := m.encode.length

/-- The slices of 224 bytes of a message, `first` where it begins. -/
def flitsFrom (channel : Nat) : Nat → Bool → List Byte → List DataOut
  | 0, _, _ => []
  | n + 1, first, bs =>
    { channel := channel, som := first, eom := bs.length ≤ 224, payload := bs.take 224 }
      :: (if bs.length ≤ 224 then [] else flitsFrom channel n false (bs.drop 224))

/-- R766, R776: the DATA flits of a message. -/
def KwMsg.flits (m : KwMsg) : List DataOut := flitsFrom m.channel ((m.encode.length + 223) / 224) true m.encode

end Sys2Proof.Machine
end

