-- ==== Sys2Proof/Machine/Peers.lean ====
section
/-!
DEFINITION. What the hub sends on the Kwadan link (R767, R774 to R777, R781): ports by peer, messages, credits and the mirror
backlog.
-/

namespace Sys2Proof.Machine

/-- The chip with its hub changed. -/
def Chip.onHub (k : Chip) (f : Hub → Hub) : Chip := { k with hub := f k.hub }

/-- A message leaves the part. -/
def Chip.send (k : Chip) (m : OutMsg) : Chip := k.onHub (fun h => { h with out := m :: h.out })

/-- The answer to the request in hand. -/
def Chip.answer (k : Chip) (r : Response) : Chip := k.onHub (fun h => { h with resp := r })

/-- R833: HUB_EVENT sets its bit whenever an event of Table 13.7 occurs: RING for vectors 0 to 15, EVT for 16 to 21. -/
def Chip.event (k : Chip) (n : Nat) : Chip := k.raise Reg.hubEvent n

/-- R651, R685: an MSI-X message on a vector: held in the pending array while the vector is masked, and withheld while IDE
is required and not active. -/
def Chip.msixSend (k : Chip) (n : Nat) : Chip :=
  if k.flag Reg.rindCfg 0 && !k.flag Reg.hostLinkStatus 9 then k
  else if k.flag (Reg.msixCtl n) 0 then k.raise Reg.msixPba n
  else k.send (.msix n)

/-- R651, R833: an event that nothing but the mask holds back. -/
def Chip.msix (k : Chip) (n : Nat) : Chip := (k.event n).msixSend n

/-! ### Ports -/

def Chip.port (k : Chip) (p : Nat) : Port := lookup Port.reset k.hub.ports p
def Chip.setPort (k : Chip) (p : Nat) (x : Port) : Chip := k.onHub (fun h => { h with ports := insert h.ports p x })

/-- Table 17.2: a port's state. -/
def Chip.portState (k : Chip) (p : Nat) : Nat := k.getF (Reg.kwPortStatus p) 2 0

/-- R771: port `p` is ACTIVE and joins package `pkg`. -/
def Chip.portActive (k : Chip) (p pkg : Nat) : Bool := k.portState p = 5 && k.getF (Reg.kwPortStatus p) 11 10 = pkg

/-- R777: the lowest-numbered ACTIVE port to a package. -/
def Chip.portTo (k : Chip) (pkg : Nat) : Option Nat := (List.range 4).find? (fun p => k.portActive p pkg)

/-- R684, R709, R752, Table 18.4: the host link goes down, which ends the IDE streams, and every Kwadan port falls back to DETECT. -/
def Chip.linksDown (k : Chip) : Chip :=
  let k := ((k.setF Reg.hostLinkStatus 2 0 0).setF Reg.hostLinkStatus 9 9 0).onHub (fun h => { h with ide := IdeState.off })
  (List.range 4).foldl (fun k p => if k.portState p = 0 then k else k.setF (Reg.kwPortStatus p) 2 0 1) k

/-- R774: a package declares domain `d` with the FINGERPRINT that this part holds for it. -/
def Chip.peerTakes (k : Chip) (pkg d : Nat) : Bool :=
  match k.hub.domains.find? (fun x => x.1 = d) with
  | none => false
  | some own => (lookup [] k.hub.peers pkg).any (fun x => x.1 = d && x.2 = own.2.finger)

/-- R774: the peer's manifest is known: one has come since its ports were last all down. -/
def Chip.peerKnown (k : Chip) (pkg : Nat) : Bool := k.hub.peers.any (fun x => x.1 = pkg)

/-- R774, R794: a peer that has exchanged manifests refuses domain `d`: KW_PEER_REFUSED is due. -/
def Chip.peerRefuses (k : Chip) (pkg d : Nat) : Bool := (k.portTo pkg).isSome && k.peerKnown pkg && !k.peerTakes pkg d

/-- The package at the other end of a port. -/
def Chip.peerOfPort (k : Chip) (p : Nat) : Nat := k.getF (Reg.kwPortStatus p) 11 10

/-- R777: the port whose sequence a job to a package takes: its ACTIVE one, or the last that joined it. -/
def Chip.wayTo (k : Chip) (pkg : Nat) : Nat :=
  (k.portTo pkg).getD (((List.range 4).find? (fun p => k.peerOfPort p = pkg)).getD 0)

/-- R788, R793: since when no port to a package has been ACTIVE; since the hub began where none ever was. -/
def Chip.downSince (k : Chip) (pkg : Nat) : Option Nat :=
  if (k.portTo pkg).isSome then none else some (lookup 0 k.hub.peerDown pkg)

/-! ### Flits that leave a port (R766, R767, R773, R775) -/

/-- R767: the FSEQ expected. -/
def Port.rxSeq (x : Port) : Nat := match x.rxLast with
  | some s => (s + 1) % 2 ^ 16
  | none => 0

/-- Table 17.1: the ACKSEQ that every flit carries. -/
def Port.ackseq (x : Port) : Nat := x.rxLast.getD Config.noAckseq.toNat

/-- R767: the FSEQ of the oldest flit in the replay buffer; the next to be sent where it is empty. -/
def Port.txOldest (x : Port) : Nat := (x.txSeq + 2 ^ 16 - x.replay.length) % 2 ^ 16

/-- R767, R773, R775: a waiting flit may leave: its channel has a credit, the replay buffer room, and the key flits left. -/
def Port.mayLeave (x : Port) (f : DataOut) : Bool :=
  decide (0 < x.credits.getD f.channel 0) && decide (x.replay.length < 1024) && decide (x.txKeyed < 2 ^ 40)

/-- The port once a flit has left. -/
def Port.leave (x : Port) (f : DataOut) : Port :=
  { x with txSeq := (x.txSeq + 1) % 2 ^ 16, replay := x.replay ++ [f], credits := setAt x.credits f.channel (x.credits.getD f.channel 0 - 1)
           txKeyed := x.txKeyed + 1 }

/-- R767, R775: the waiting flits of a port that may leave, in order, and how many do. -/
def Port.pump : List DataOut → Port → Nat → Port × Nat
  | [], x, n => (x, n)
  | f :: rest, x, n =>
    if x.mayLeave f then Port.pump rest (x.leave f) (n + 1)
    else
      let r := Port.pump rest x n
      ({ r.1 with txWait := f :: r.1.txWait }, r.2)

/-- R773: the content of the `i`-th flit of the replay buffer: the last sent has the last count under the key. -/
def Port.resent (x : Port) (i : Nat) : Option (List Byte) :=
  (x.replay[i]?).map (fun f =>
    f.content x.txKey (x.txKeyed + i - x.replay.length) ((x.txOldest + i) % 2 ^ 16) x.ackseq)

/-- A flit leaves port `p`. -/
def Chip.sendFlit (k : Chip) (p : Nat) (f : FlitOut) : Chip := k.send (.flit p (k.port p).ackseq f)

/-- R767: the flits of port `p`'s replay buffer from the `i`-th on leave, each counted in KW_PORT_FLITS. -/
def Chip.sendReplay (k : Chip) (p i : Nat) : Chip :=
  let x := k.port p
  ((List.range (x.replay.length - i)).foldl (fun k j => match x.resent (i + j) with
    | some c => k.sendFlit p (.data c)
    | none => k) k).count (Reg.kwPortFlits p) (x.replay.length - i)

/-- The flits of port `p` that can leave do. -/
def Chip.pumpPort (k : Chip) (p : Nat) : Chip :=
  if k.portState p ≠ 5 then k else
  let x := k.port p
  let r := Port.pump x.txWait { x with txWait := [] } 0
  (k.setPort p r.1).sendReplay p (r.1.replay.length - r.2)

/-- A message on a port, as its flits (R766, R776). -/
def Chip.sendOn (k : Chip) (p : Nat) (m : KwMsg) : Chip :=
  let x := k.port p
  ((k.send (.kwadan p m)).setPort p { x with txWait := x.txWait ++ m.flits }).pumpPort p

/-- R774: the domain that a peer must declare to be sent a message: one that mirrors, spills or forwards. -/
def KwMsg.needs : KwMsg → Option Nat
  | .mirrorFull h _ | .mirrorUpdate h _ | .mirrorReview h _ | .spillPut h _ _ => some h.domain
  | .fwdJob d _ _ _ _ _ => some d
  | _ => none

/-- R774: a package may be sent a message. -/
def Chip.maySend (k : Chip) (pkg : Nat) (m : KwMsg) : Bool := match m.needs with
  | some d => k.peerTakes pkg d
  | none => true

/-- A message to a package, where a port to it is ACTIVE (R777) and R774 lets it go. -/
def Chip.sendTo (k : Chip) (pkg : Nat) (m : KwMsg) : Chip :=
  match k.portTo pkg with
  | some p => if k.maySend pkg m then k.sendOn p m else k
  | none => k

/-- R781: the bytes of mirror messages unsent or unacknowledged to a package. -/
def Chip.backlog (k : Chip) (pkg : Nat) : Nat :=
  ((k.hub.mirrors.filter (fun m => m.pkg = pkg)).map (·.bytes)).sum

/-- R781: the limit of the backlog, in bytes. -/
def Chip.backlogLimit (k : Chip) : Nat := k.getF Reg.kwMirror 11 0 * 2 ^ 20

/-- R780, R781: a mirror message queued and sent; false where the backlog has no room. -/
def Chip.sendMirror (k : Chip) (pkg handle seq : Nat) (m : KwMsg) : Chip × Bool :=
  if k.backlogLimit < k.backlog pkg + m.bytes then (k, false)
  else
    let k := k.onHub (fun h =>
      { h with mirrors := h.mirrors ++ [{ pkg := pkg, handle := handle, seq := seq, bytes := m.bytes, msg := m }] })
    (k.sendTo pkg m, true)

/-- R794: an occurrence of a Kwadan class. -/
def Chip.logKw (k : Chip) (cls detail : Nat) : Chip := k.logPlain cls detail

/-- R563: sequence number `b` is newer than `a`. -/
def newer (a b : Nat) : Bool := let d := (b + 2 ^ 32 - a) % 2 ^ 32; 0 < d && d < 2 ^ 31

end Sys2Proof.Machine
end

