-- ==== Sys2Proof/Machine/Arbiter.lean ====
section
/-!
DEFINITION. The bank arbiter (R163 to R168, R173, R174): which requests a fence window holds, which one is granted next, and whether an access that
comes now would be; and the waking of a vat, which a request for it asks for (R730, R731).
-/

namespace Sys2Proof.Machine

/-- An element placed in a list in the order of a key, after its equals. -/
def placeBy {α : Type} (key : α → Nat) (x : α) : List α → List α
  | [] => [x]
  | y :: ys => if key x < key y then x :: y :: ys else y :: placeBy key x ys

/-- A list in the order of a key. -/
def orderBy {α : Type} (key : α → Nat) (l : List α) : List α := l.foldl (fun a x => placeBy key x a) []

/-- R173: a row that a running program's fence window holds against base-die and scrub slots. -/
def Bu.fences (u : Bu) (row : Nat) : Bool := u.fenceHeld && u.fenceFirst ≤ row && row < u.fenceFirst + u.fenceRows

/-- R173: the row of a vat physical address lies in a fence window. -/
def Chip.fencedAt (k : Chip) (v p : Nat) : Bool :=
  let b := bankAddr p
  (k.bu v b.die (k.phys v b.die b.idx)).fences (b.byte / 1024)

/-- R173, R174: the request is one a fence window may hold, and one holds it. -/
def Bu.holds (u : Bu) (r : SlotReq) : Bool :=
  (r.cls = .base || r.cls = .scrub) && (match r.row with | some row => u.fences row | none => false)

/-- The request of a class that arrived first, among those no fence holds. -/
def Bu.firstOf (u : Bu) (c : SlotClass) : Option SlotReq :=
  (orderBy (·.arrived) (u.slotQ.filter (fun r => r.cls = c && !u.holds r))).head?

/-- R166: the run of base-die slots has no room for a request's slots. -/
def Bu.runFull (u : Bu) (r : SlotReq) : Bool := 8 < u.baseRun + r.slots

/-- R165, R166: the request the arbiter grants next. -/
def Bu.nextSlot (u : Bu) : Option SlotReq :=
  let bank := u.firstOf .bank
  match u.firstOf .refresh, u.firstOf .base with
  | some r, _ => some r
  | none, some r => if u.runFull r && bank.isSome then bank else some r
  | none, none => if bank.isSome then bank else u.firstOf .scrub

/-- R166: the run of base-die slots granted while a bank-unit request waited. -/
def Bu.runAfter (u : Bu) (r : SlotReq) : Nat :=
  match r.cls with
  | .refresh => u.baseRun
  | .base => u.runWith r.slots
  | .bank => 0
  | .scrub => 0

/-- R165: a request of the base-die class at the arbiter of the bank behind a vat physical address. -/
def Chip.baseReq (k : Chip) (pa : Nat) (use : SlotUse) (slots : Nat) : SlotReq :=
  { use := use, cls := .base, row := some ((bankAddr pa).byte / 1024), arrived := k.now, slots := slots }

/-- R165: the request joins those of the bank. -/
def Chip.askSlot (k : Chip) (v pa : Nat) (use : SlotUse) (slots : Nat) : Chip :=
  let b := bankAddr pa
  let ph := k.phys v b.die b.idx
  let u := k.bu v b.die ph
  k.setBu v b.die ph { u with slotQ := u.slotQ ++ [k.baseReq pa use slots] }

/-- R163, R165: the bank is idle, its vat runs, and its arbiter would grant a request that arrives now before all that waits. -/
def Chip.turnAt (k : Chip) (v d b : Nat) (q : SlotReq) : Bool :=
  let u := k.bu v d b
  k.vatRuns v && u.active.isNone && decide (({ u with slotQ := u.slotQ ++ [q] } : Bu).nextSlot = some q)

/-- The same for an access to a vat physical address. -/
def Chip.turnOf (k : Chip) (v pa : Nat) (use : SlotUse) (slots : Nat) : Bool :=
  let b := bankAddr pa
  k.turnAt v b.die (k.phys v b.die b.idx) (k.baseReq pa use slots)

/-- R165, R173, R721: the hub's access to a row of a vat is granted now; a lost vat has none to wait for. -/
def Chip.hubTurn (k : Chip) (v p : Nat) : Bool := (k.vat v).lost || k.turnOf v p .spent 1

/-- R165, R173: a row of `[p, p+n)` of a vat is not the hub's to access now. -/
def Chip.hubHeld (k : Chip) (v p n : Nat) : Bool :=
  (List.range ((p % 1024 + n + 1023) / 1024)).any (fun i => !k.hubTurn v (p / 1024 * 1024 + 1024 * i))

/-- VAT_PWR.STATE's codes. -/
def VatPower.code : VatPower → Nat
  | .awake => 0 | .entering => 1 | .asleep => 2 | .waking => 3

/-- A vat's power state, and VAT_PWR.STATE with it. -/
def Chip.setPower (k : Chip) (v : Nat) (st : VatPower) : Chip :=
  (k.setVat v { k.vat v with power := st }).setF (Reg.vatPwr v) 31 30 st.code

/-- R730, R731: a wake request reaches the hub. -/
def Chip.wake (k : Chip) (v : Nat) : Chip :=
  match (k.vat v).power with
  | .asleep | .entering => (k.setPower v .waking).count (Reg.vatWakes v) 1
  | .awake | .waking => k

end Sys2Proof.Machine
end

