-- ==== Sys2Proof/Machine/Flags.lean ====
section
/-!
DEFINITION. Numeric flags (Tables 2.7 and 2.8) and the lane functions that set them (Tables 2.4 and 8.15).
-/

namespace Sys2Proof.Machine

/-- Table 2.7's bits. -/
inductive CoreFlag where
  | accSat | laneSat | qsat | div0 | emptySeen | pinfSeen | permOor
deriving DecidableEq, Repr

/-- The bit of CORE_NUMFLAGS. -/
def CoreFlag.bit : CoreFlag → Nat
  | .accSat => 0 | .laneSat => 1 | .qsat => 2 | .div0 => 3 | .emptySeen => 4 | .pinfSeen => 5 | .permOor => 6

/-- R96: a sticky flag of a core set when its event occurred. -/
def Chip.coreFlag (k : Chip) (v c : Nat) (f : CoreFlag) (b : Bool) : Chip :=
  if b then k.raise (Reg.coreNumflags v c) f.bit else k

/-- Table 2.8's bits. -/
inductive BuFlag where
  | accSat | laneSat | qsat | pinfSeen
deriving DecidableEq, Repr

/-- The bit of BU_NUMFLAGS. -/
def BuFlag.bit : BuFlag → Nat
  | .accSat => 0 | .laneSat => 1 | .qsat => 2 | .pinfSeen => 3

/-- A sticky flag of a physical bank's bank unit set when its event occurred. -/
def Chip.buFlag (k : Chip) (v d b : Nat) (f : BuFlag) (x : Bool) : Chip :=
  if x then k.raise (Reg.buNumflags v d b) f.bit else k

/-- What a run of lane work set: LANE_SAT, QSAT, DIV0, ACC_SAT, PERM_OOR, PINF_SEEN and EMPTY_SEEN. -/
structure NumSet where
  laneSat : Bool := false
  qsat    : Bool := false
  div0    : Bool := false
  accSat  : Bool := false
  permOor : Bool := false
  pinf    : Bool := false
  empty   : Bool := false
deriving DecidableEq, Repr

/-- The flags of two runs together. -/
def NumSet.or (a b : NumSet) : NumSet :=
  { laneSat := a.laneSat || b.laneSat, qsat := a.qsat || b.qsat, div0 := a.div0 || b.div0, accSat := a.accSat || b.accSat
    permOor := a.permOor || b.permOor, pinf := a.pinf || b.pinf, empty := a.empty || b.empty }

/-- CORE_NUMFLAGS with a run's flags set. -/
def Chip.setNum (k : Chip) (v c : Nat) (n : NumSet) : Chip :=
  let k := k.coreFlag v c .accSat n.accSat
  let k := k.coreFlag v c .laneSat n.laneSat
  let k := k.coreFlag v c .qsat n.qsat
  let k := k.coreFlag v c .div0 n.div0
  let k := k.coreFlag v c .emptySeen n.empty
  let k := k.coreFlag v c .pinfSeen n.pinf
  k.coreFlag v c .permOor n.permOor

/-- BU_NUMFLAGS with a run's flags set. -/
def Chip.setBuNum (k : Chip) (v d b : Nat) (n : NumSet) : Chip :=
  let k := k.buFlag v d b .accSat n.accSat
  let k := k.buFlag v d b .laneSat n.laneSat
  let k := k.buFlag v d b .qsat n.qsat
  k.buFlag v d b .pinfSeen n.pinf

/-! ### Lane functions (Table 8.15) -/

/-- Table 8.15: code 0x00 to 0x15 is defined; FMUL (0x15) in the B profile only. -/
def laneCodeOk (bank : Bool) (code : Nat) : Bool := code ≤ 0x14 || (bank && code = 0x15)

/-- Table 8.15: the function takes a second operand. -/
def laneNeedsB (code : Nat) : Bool :=
  !(code = 0x08 || code = 0x10 || code = 0x11 || code = 0x12 || code = 0x13)

/-- A logic operation on all 32 bits (R83). -/
def bitwise (f : Nat → Nat → Nat) (a b : Int) : Int := signedOf 32 (f (bitsOf 32 a) (bitsOf 32 b))

/-- Table 8.15: one lane, with LANE_SAT. `n` is the shift of FMUL. A shift takes its amount from bits [5:0] of its operand (Table 2.4). -/
def laneFn (code : Nat) (n : Nat) (a b : Int) : Int × Bool :=
  let s := bitsOf 32 b % 64
  match code with
  | 0x00 => clampBits 32 (a + b)
  | 0x01 => clampBits 32 (a - b)
  | 0x02 => clampBits 32 (a * b)
  | 0x03 => (min a b, false)
  | 0x04 => (max a b, false)
  | 0x05 => (bitwise Nat.land a b, false)
  | 0x06 => (bitwise Nat.lor a b, false)
  | 0x07 => (bitwise Nat.xor a b, false)
  | 0x08 => (-a - 1, false)
  | 0x09 => (laneShl a s, false)
  | 0x0A => laneSshl a s
  | 0x0B => (if s < 32 then laneShr a s else 0, false)
  | 0x0C => (laneSar a s, false)
  | 0x0D => (laneRsr a s, false)
  | 0x0E => (if a < b then -1 else 0, false)
  | 0x0F => (if a = b then -1 else 0, false)
  | 0x10 => clampBits 16 (roundScale a (-1))
  | 0x11 => (q15Read a * 2, false)
  | 0x12 => clampBits 32 (a * 65536)
  | 0x13 => (roundScale a (-16), false)
  | 0x14 => (if b = 0 then a else minOf 32, false)
  | 0x15 => laneMul a b n
  | _ => (a, false)

end Sys2Proof.Machine
end

