-- ==== Sys2Proof/Machine/Streams.lean ====
section
/-!
DEFINITION. The streams of a tensor core: their incomplete instructions, which complete in program order (R309, R315, R324, R338), and the stores
that a completion writes: the operand cache (R275 to R279), the scalar and the vector registers.
-/

namespace Sys2Proof.Machine

/-! ### Streams -/

/-- Stream `s` of a core. -/
def Core.stream (x : Core) (s : Nat) : Stream := x.streams.getD s Stream.idle

/-- The core with stream `s` replaced. -/
def Core.setStream (x : Core) (s : Nat) (t : Stream) : Core := { x with streams := setAt x.streams s t }

/-- The stream of a core of the chip. -/
def Chip.stream (k : Chip) (v c s : Nat) : Stream := (k.core v c).stream s

/-- The chip with a stream replaced. -/
def Chip.setStream (k : Chip) (v c s : Nat) (t : Stream) : Chip := k.setCore v c ((k.core v c).setStream s t)

/-- R338: a stream whose HALT waited is IDLE once nothing it issued is incomplete. -/
def Stream.settle (t : Stream) (now : Nat) : Stream :=
  if t.run = .ending ∧ t.inflight = [] then { t with run := .idle, stoppedAt := now } else t

/-- The oldest incomplete instruction of a stream, the one that may complete next (R315). -/
def Stream.oldest (t : Stream) : Option InFlight := t.inflight.head?

/-- A stream goes on: nothing holds it. -/
def Stream.release (t : Stream) : Stream := { t with hold := none, stall := none }

/-! ### The operand cache (R275 to R279) -/

/-- A byte of the operand cache. -/
def Core.ocByte (x : Core) (a : Nat) : Byte := lookup 0 x.oc a

/-- Bytes of the operand cache. -/
def Core.ocBytes (x : Core) (a n : Nat) : List Byte := lookupRun 0 x.oc a n

/-- R279: the first 8-byte word in `[a, a+n)` that is uncorrectable. -/
def Core.ocBad (x : Core) (a n : Nat) : Option Nat :=
  ((List.range ((n + a % 8 + 7) / 8)).map (fun i => a / 8 + i)).find? (fun w => lookup 0 x.ocMarks w = 1)

/-- Bytes written into the operand cache; every word wholly or partly written loses its mark when it is written whole. -/
def Core.ocWrite (x : Core) (a : Nat) (bs : List Byte) (bad : Bool) : Core :=
  let ws := (List.range ((bs.length + a % 8 + 7) / 8)).map (fun i => a / 8 + i)
  let full (w : Nat) : Bool := a ≤ 8 * w && 8 * w + 8 ≤ a + bs.length
  { x with
    oc := storeRun 0 x.oc a bs
    ocMarks := ws.foldl (fun m w => if bad then store 0 m w 1 else if full w then store 0 m w 0 else m) x.ocMarks }

/-! ### Completion -/

/-- R272, R295, R297, R320: a push to a register end of a stream: S0 to S31, V0 to V15 in the lanes below VL, or VL. Others discard it. -/
def Core.putReg (x : Core) (e : Nat) (w : Word) : Core :=
  if e < 0x20 then { x with sregs := setAt x.sregs e w }
  else if e < 0x30 then { x with vregs := storeRun 0 x.vregs (128 * (e - 0x20)) (List.replicate x.vl (w.setWidth 32)) }
  else if e = 0x3D then { x with vl := w.toNat }
  else x

/-- R315, R324: with `s` a stream whose oldest instructions are register pushes and scalar stores, those take effect in order; a HALT that
waited for the last of its instructions ends the stream. -/
def Core.complete (now : Nat) : Nat → Core → Nat → Core
  | 0, x, s => x.setStream s ((x.stream s).settle now)
  | fuel + 1, x, s =>
    match (x.stream s).inflight with
    | .put e w :: rest => Core.complete now fuel ((x.setStream s { x.stream s with inflight := rest }).putReg e w) s
    | .store a bs :: rest => Core.complete now fuel ((x.setStream s { x.stream s with inflight := rest }).ocWrite a bs false) s
    | _ => x.setStream s ((x.stream s).settle now)

/-- An incomplete instruction of a stream completes, and with it those behind it that waited for nothing else. -/
def Core.finish (x : Core) (now s : Nat) (f : InFlight) : Core :=
  let t := x.stream s
  Core.complete now t.inflight.length (x.setStream s { t with inflight := t.inflight.erase f }) s

/-- The same on the chip. -/
def Chip.finish (k : Chip) (v c s : Nat) (f : InFlight) : Chip := k.setCore v c ((k.core v c).finish k.now s f)

/-- R309: nothing the stream issued is incomplete. -/
def Chip.quiet (k : Chip) (v c s : Nat) : Bool := (k.stream v c s).inflight.isEmpty

/-- An instruction of stream `s` joins the stream's incomplete ones. -/
def Chip.inflight (k : Chip) (v c s : Nat) (f : InFlight) : Chip :=
  let t := k.stream v c s
  k.setStream v c s { t with inflight := t.inflight ++ [f] }

/-- R324: an effect on the core's own registers or operand cache: at once where every earlier instruction of the stream has completed, else
when they have. -/
def Chip.inOrder (k : Chip) (v c s : Nat) (f : InFlight) : Chip :=
  let x := k.core v c
  if k.quiet v c s then
    match f with
    | .put e w => k.setCore v c (x.putReg e w)
    | .store a bs => k.setCore v c (x.ocWrite a bs false)
    | _ => k
  else k.inflight v c s f

/-- R373: an incomplete instruction of the stream pushes the register end `e`. -/
def Chip.putPending (k : Chip) (v c s e : Nat) : Bool :=
  (k.stream v c s).inflight.any (fun f => match f with
    | .put e' _ => e' = e
    | .chain r .. => r.kind = 0 && 0x20 + r.loc = e
    | _ => false)

/-- R315: a scalar store of the stream is incomplete. -/
def Chip.storePending (k : Chip) (v c s : Nat) : Bool :=
  (k.stream v c s).inflight.any (fun f => match f with | .store .. => true | _ => false)

end Sys2Proof.Machine
end

