-- ==== Sys2Proof/Machine/Hoops.lean ====
section
/-!
DEFINITION. Hoops and the completion hoop (spec/09_hoops_and_sync.md, R407 to R436): routes, depth and capacity, an entry
landing at a tail, moving to a head, and being popped; packets, poison, flush, and the pushes that wait for room.
-/

namespace Sys2Proof.Machine

/-! ### Entries as bytes -/

/-- The little-endian value of up to 64 bytes. -/
def entryOfBytes (bs : List Byte) : BitVec 512 := BitVec.ofNat 512 (leNat bs)

/-- The 64 bytes of an entry. -/
def entryBytes (d : BitVec 512) : List Byte := leBytes 64 d.toNat

/-- R321: bytes 0 to 7 of an entry. -/
def entryWord (d : BitVec 512) : Word := BitVec.ofNat 64 d.toNat

/-- R321: an entry holding a scalar. -/
def wordEntry (w : Word) : BitVec 512 := BitVec.ofNat 512 w.toNat

/-! ### What a chain pops (R421) -/

/-- The sources a chain reads. -/
def ChainRec.sources (r : ChainRec) : List ChainSrc := r.srcA :: if r.srcB.present then [r.srcB] else []

/-- The slots whose entries one vector pops, A's before B's. -/
def ChainRec.needs (r : ChainRec) (vl : Nat) : List Nat :=
  r.sources.flatMap (fun x => if x.kind = 3 then List.replicate ((vl + 15) / 16) x.loc else [])

/-- The slot that a chain pops next, `n` entries being popped and not used. -/
def ChainRec.popsNext (r : ChainRec) (vl n : Nat) : Option Nat :=
  ((r.needs vl).drop (n % max 1 (r.needs vl).length)).head?

/-! ### Slots and routes (Table 9.1) -/

/-- HOOP_CFG of a slot. -/
structure HoopCfg where
  route : Nat
  hub   : Bool
  vat   : Nat
  core  : Nat
  slot  : Nat
  spill : Nat
deriving DecidableEq, Repr

/-- Table 9.7: HOOP_CFG. -/
def Chip.hoopCfg (k : Chip) (v c h : Nat) : HoopCfg :=
  let o := Reg.hoopCfg v c h
  { route := k.getF o 31 30, hub := k.getF o 29 29 = 1, vat := k.getF o 28 26, core := k.getF o 25 24, slot := k.getF o 23 20
    spill := k.getF o 10 0 }

/-- A slot of a core. -/
def Core.hoop (x : Core) (h : Nat) : Hoop := x.hoops.getD h Hoop.empty

/-- The core with a slot replaced. -/
def Core.setHoop (x : Core) (h : Nat) (q : Hoop) : Core := { x with hoops := setAt x.hoops h q }

def Chip.hoop (k : Chip) (v c h : Nat) : Hoop := (k.core v c).hoop h
def Chip.setHoop (k : Chip) (v c h : Nat) (q : Hoop) : Chip := k.setCore v c ((k.core v c).setHoop h q)

/-- R409: the slot's route has a tail in the core. -/
def HoopCfg.hasTail (g : HoopCfg) : Bool := g.route = 1 || g.route = 2

/-- R409: the slot's route has a head in the core. -/
def HoopCfg.hasHead (g : HoopCfg) : Bool := g.route = 1 || g.route = 3

/-- The entries a slot itself holds. -/
def Hoop.held (q : Hoop) : Nat :=
  q.tail.length + q.going.length + (q.groups.map (fun g => g.ends.length)).sum + q.back.length + q.head.length

/-- The slot with the other end of a joined pair, where there is one. -/
def Chip.peerOf (k : Chip) (v c h : Nat) : Option (Nat × Nat × Nat) :=
  let g := k.hoopCfg v c h
  if (g.route = 2 ∨ g.route = 3) ∧ !g.hub then some (g.vat, g.core, g.slot) else none

/-- R411: the depth of the hoop that a slot belongs to. -/
def Chip.hoopDepth (k : Chip) (v c h : Nat) : Nat :=
  (k.hoop v c h).held + match k.peerOf v c h with
    | some (pv, pc, ph) => (k.hoop pv pc ph).held
    | none => 0

/-- R410: its capacity; SPILL_UNITS is the field of the slot that holds the head. -/
def Chip.hoopCapacity (k : Chip) (v c h : Nat) : Nat :=
  let g := k.hoopCfg v c h
  16 + 16 * match k.peerOf v c h with
    | some (pv, pc, ph) => if g.route = 2 then (k.hoopCfg pv pc ph).spill else g.spill
    | none => g.spill

/-- R411: HOOP_DEPTH_MAX of both slots of a hoop. -/
def Chip.noteDepth (k : Chip) (v c h : Nat) : Chip :=
  let d := k.hoopDepth v c h
  let k := k.satMax (Reg.hoopDepthMax v c h) 14 0 d
  match k.peerOf v c h with
  | some (pv, pc, ph) => k.satMax (Reg.hoopDepthMax pv pc ph) 14 0 d
  | none => k

/-- R429: the hoop that a slot belongs to is FLUSHING. -/
def Chip.hoopFlushing (k : Chip) (v c h : Nat) : Bool :=
  (k.hoop v c h).flushing || match k.peerOf v c h with
    | some (pv, pc, ph) => (k.hoop pv pc ph).flushing
    | none => false

/-! ### Moving through a hoop -/

/-- R412: what the middle has read back moves on to a head window with room. -/
def Hoop.readBack (q : Hoop) : Option Hoop :=
  match q.back with
  | e :: rest => if q.head.length < 8 then some { q with head := q.head ++ [e], back := rest } else none
  | [] => none

/-- R412: the oldest tail entry leaves the tail window: for the head window while the middle holds nothing, else for the middle. -/
def Hoop.leaveTail (q : Hoop) (spill : Nat) : Option Hoop :=
  match q.tail with
  | [] => none
  | e :: rest =>
    if q.going = [] ∧ q.groups = [] ∧ q.back = [] ∧ q.head.length < 8 then some { q with head := q.head ++ [e], tail := rest }
    else if 0 < spill ∧ q.going.length < 16 then some { q with going := q.going ++ [e], tail := rest }
    else none

/-- R412, R864: one entry moves towards the head inside a slot: what the middle has read back first; then, for a slot
whose tail is here (`own`), the oldest tail entry. -/
def Hoop.advance (q : Hoop) (own : Bool) (spill : Nat) : Option Hoop :=
  q.readBack.orElse (fun _ => if own then q.leaveTail spill else none)

/-- As many such moves as can be made. -/
def Hoop.settle (own : Bool) (spill : Nat) : Nat → Hoop → Hoop
  | 0, q => q
  | fuel + 1, q =>
    match q.advance own spill with
    | some q' => Hoop.settle own spill fuel q'
    | none => q

/-- The settling of a slot after a push or a pop. -/
def Chip.settleHoop (k : Chip) (v c h : Nat) : Chip :=
  let g := k.hoopCfg v c h
  k.setHoop v c h ((k.hoop v c h).settle (g.route = 1) g.spill 64)

/-- R413, R430: a slot emptied by a flush, its packet closed and its middle at the region's first unit again. -/
def Hoop.flushed (q : Hoop) : Hoop :=
  { q with tail := [], going := [], groups := [], back := [], head := [], openBy := none, flushing := false, nextUnit := 0 }

/-- R430: stream `s`'s HFLUSH of slot `h` completes, where one is pending. -/
def Core.flushDone (x : Core) (now h s : Nat) : Core :=
  let t := x.stream s
  if t.inflight.contains (.flush h) then
    Core.complete now t.inflight.length (x.setStream s { t with inflight := t.inflight.filter (fun f => f ≠ .flush h) }) s
  else x

/-- R430: the flush of the hoop of a slot takes effect at both its ends, and every HFLUSH pending on it completes. -/
def Chip.flushSlot (k : Chip) (v c h : Nat) : Chip :=
  let x := k.core v c
  k.setCore v c ((List.range 5).foldl (fun x s => x.flushDone k.now h s) (x.setHoop h (x.hoop h).flushed))

/-- R430 for the whole hoop. -/
def Chip.flushHoop (k : Chip) (v c h : Nat) : Chip :=
  let k' := k.flushSlot v c h
  match k.peerOf v c h with
  | some (pv, pc, ph) => k'.flushSlot pv pc ph
  | none => k'

/-- R456: the slot's last push is stream `s`'s. -/
def Hoop.pushedBy (q : Hoop) (now s : Nat) : Hoop := { q with lastPush := s, pushAt := if q.lastPush = s then q.pushAt else now }

/-- R456: the slot's last pop is stream `s`'s. -/
def Hoop.poppedBy (q : Hoop) (now s : Nat) : Hoop := { q with lastPop := s, popAt := if q.lastPop = s then q.popAt else now }

/-- A slot's tail once an entry has landed there: LAST_PUSH, and the packet open or ended (R422). -/
def Hoop.landed (q : Hoop) (now : Nat) (e : Entry) : Hoop :=
  let open' := if e.last then none else some e.src
  { q.pushedBy now e.src with openBy := open', openAt := if open' = q.openBy then q.openAt else now }

/-- R456, R450: the other slot of a joined pair, where another core acted, is changed; its stream code for that core is 5, REMOTE. -/
def Chip.onPeer (k : Chip) (v c h : Nat) (f : Hoop → Hoop) : Chip :=
  match k.peerOf v c h with
  | some (pv, pc, ph) => k.setHoop pv pc ph (f (k.hoop pv pc ph))
  | none => k

/-- R456: HOOP_PUSHES of both slots of a hoop, and LAST_PUSH of the slot whose tail is another core's. -/
def Chip.notePush (k : Chip) (v c h : Nat) : Chip :=
  let k' := (k.count (Reg.hoopPushes v c h) 1).onPeer v c h (·.pushedBy k.now 5)
  match k.peerOf v c h with
  | some (pv, pc, ph) => k'.count (Reg.hoopPushes pv pc ph) 1
  | none => k'

/-- An entry lands at the tail of a slot (R411, R415, R422, R428, R429): LAST_PUSH, HOOP_PUSHES and the greatest depth are
noted; while a flush is pending the entry is discarded, and the packet's last entry lets the flush take effect. -/
def Chip.landOne (k : Chip) (v c h : Nat) (e : Entry) : Chip :=
  let q := (k.hoop v c h).landed k.now e
  let k := k.notePush v c h
  if k.hoopFlushing v c h then
    let k := k.setHoop v c h q
    if e.last then k.flushHoop v c h else k
  else ((k.setHoop v c h { q with tail := q.tail ++ [e] }).noteDepth v c h).settleHoop v c h

/-! ### Pushes that wait (R415, R418, R423, R429) -/

/-- R427, Table 9.3: a fence entry landing now. -/
def Chip.fenceEntry (k : Chip) (v c s : Nat) : Entry :=
  { data := entryOfBytes ([0x46, 0x45, 0x4E, 0x43, BitVec.ofNat 8 s, BitVec.ofNat 8 (c + 4 * v), 0, 0] ++ leBytes 8 k.now)
    last := true, fence := true, poison := false, src := s }

/-- R426: every entry that stream `s` pushed has left the tail of its hoop. -/
def Core.pushesArrived (x : Core) (s : Nat) : Bool := x.hoops.all (fun q => q.tail.all (fun e => e.src ≠ s))

/-- Stream `s`'s oldest incomplete instruction waits to push to slot `h`: a push, a FENCE that waits for nothing else (R426), or a chain with
entries for it (R421). -/
def Chip.waitsPush (k : Chip) (v c s h : Nat) : Bool :=
  match (k.stream v c s).oldest with
  | some (.push h' ..) => h' = h
  | some (.fence h' _) => h' = h && (k.core v c).pushesArrived s
  | some (.chain r run _) => r.kind = 3 && r.loc = h && run.out ≠ []
  | _ => false

/-- R429: an HFLUSH of stream `s` that waits for the packet `s` itself holds open. It does not hold the pushes of that packet, which land at
once (DEDUCED: by R309 alone the packet could never end). -/
def Chip.ownFlush (k : Chip) (v c s : Nat) (f : InFlight) : Bool :=
  match f with
  | .flush h => (k.hoop v c h).openBy = some s
  | _ => false

/-- R309, R429: a push of stream `s` to slot `h` may take effect. -/
def Chip.pushQuiet (k : Chip) (v c s h : Nat) : Bool :=
  (k.stream v c s).inflight.all (fun f => f = .flush h && k.ownFlush v c s f)

/-- R326, R418: the waiting pushes of other streams that take the room of slot `h` before a push of stream `s`: all of them, or those of lower
streams where `s` waits itself; none while `s` holds the packet open. -/
def Chip.pushAhead (k : Chip) (v c s h : Nat) : Nat :=
  if (k.hoop v c h).openBy = some s then 0
  else ((List.range 5).filter (fun o => o ≠ s && k.waitsPush v c o h && (o < s || !k.waitsPush v c s h))).length

/-- R415, R423, R429: what holds a push by stream `s` to slot `h`, by Table 9.5; `none` when it lands. -/
def Chip.pushHold (k : Chip) (v c s h : Nat) : Option (Nat × Nat) :=
  let room : Bool := k.hoopDepth v c h + k.pushAhead v c s h < k.hoopCapacity v c h
  match (k.hoop v c h).openBy with
  | some o => if o ≠ s then some (4, h) else if k.hoopFlushing v c h || room then none else some (3, h)
  | none => if !k.hoopFlushing v c h && room then none else some (3, h)

/-- R426, R415: what a fence of stream `s` needs to land at slot `h`. -/
def Chip.fenceReady (k : Chip) (v c s h : Nat) : Bool :=
  (k.core v c).pushesArrived s && (k.pushHold v c s h).isNone

/-- The chain of stream `s` with its next entry pushed: what is left waits. -/
def Chip.chainPushed (k : Chip) (v c s : Nat) (r : ChainRec) (run : ChainRun) (sq : Sequencer) : Chip :=
  let t := k.stream v c s
  k.setStream v c s { t with inflight := .chain r { run with out := run.out.tail, since := k.now } sq :: t.inflight.tail }

/-- The next entry that stream `s` waits to push to slot `h`, with the chip that no longer waits for it, where it can land now. -/
def Chip.pushOf (k : Chip) (v c s h : Nat) : Option (Entry × Chip) :=
  if !k.waitsPush v c s h || (k.pushHold v c s h).isSome then none else
  match (k.stream v c s).oldest with
  | some (.push h' e n) => some (e, k.finish v c s (.push h' e n))
  | some (.fence h' n) => some (k.fenceEntry v c s, k.finish v c s (.fence h' n))
  | some (.chain r run sq) => run.out.head?.map (fun e => (e, k.chainPushed v c s r run sq))
  | _ => none

/-- R326: the waiting push to slot `h` that lands next, of the lowest stream but `but`. -/
def Chip.nextPush (k : Chip) (v c h but : Nat) : Option (Entry × Chip) :=
  (List.range 5).findSome? (fun s => if s = but then none else k.pushOf v c s h)

/-- R418, R423, R429: the pushes waiting at slot `h` land, as long as one can. -/
def Chip.landWaiting : Nat → Chip → Nat → Nat → Nat → Nat → Chip
  | 0, k, _, _, _, _ => k
  | fuel + 1, k, v, c, h, but =>
    match k.nextPush v c h but with
    | some (e, k') => Chip.landWaiting fuel (k'.landOne v c h e) v c h but
    | none => k

/-- An entry lands, and where it ends its packet the pushes of other streams that waited for that land too. -/
def Chip.landEntry (k : Chip) (v c h : Nat) (e : Entry) : Chip :=
  if e.last then Chip.landWaiting 20 (k.landOne v c h e) v c h e.src else k.landOne v c h e

/-- R430: a flush with no packet open takes effect at once, and pushes that waited for room land. -/
def Chip.flushNow (k : Chip) (v c h : Nat) : Chip := Chip.landWaiting 20 (k.flushHoop v c h) v c h 5

/-- R425, R412, R864: the oldest tail entry of a joined pair, or of a hub-peered IN slot, reaches the IN slot `(v, c, h)`:
its head window while the middle is empty and has room, else its middle. The head window of a hub-peered OUT slot is the
hub's. -/
def Chip.deliverEntry (k : Chip) (v c h : Nat) : Chip :=
  let g := k.hoopCfg v c h
  let q := k.hoop v c h
  let room : Bool := q.going = [] && q.groups = [] && q.back = [] && q.head.length < 8
  let staged : Bool := 0 < g.spill && q.going.length < 16
  let put (e : Entry) (q : Hoop) : Hoop :=
    if room then { q with head := q.head ++ [e] } else { q with going := q.going ++ [e] }
  if g.route = 2 ∧ g.hub then
    match q.tail with
    | [] => k
    | e :: rest =>
      if q.head.length < 8 then (k.setHoop v c h { q with head := q.head ++ [e], tail := rest }).count (Reg.xbarTx v) 1 else k
  else if g.route ≠ 3 ∨ !(room || staged) then k
  else if g.hub then
    match q.tail with
    | [] => k
    | e :: rest => ((k.setHoop v c h (put e { q with tail := rest })).count (Reg.xbarRx v) 1)
  else
    let t := k.hoop g.vat g.core g.slot
    match t.tail with
    | [] => k
    | e :: rest =>
      let k := k.setHoop g.vat g.core g.slot { t with tail := rest }
      let k := k.setHoop v c h (put e (k.hoop v c h))
      if g.vat = v then k else (k.count (Reg.xbarTx g.vat) 1).count (Reg.xbarRx v) 1

/-- R415, R419: a push of the hub's into a hub-peered IN hoop waits: its tail, or the hoop, is full. -/
def Chip.hubFull (k : Chip) (v c h : Nat) : Bool :=
  !k.hoopFlushing v c h && (8 ≤ (k.hoop v c h).tail.length || k.hoopCapacity v c h ≤ k.hoopDepth v c h)

/-! ### Pops -/

/-- The entries at the head of a source end: a slot's head window, or CPL (code 16). -/
def Chip.headOf (k : Chip) (v c h : Nat) : List Entry :=
  if h = 16 then (k.core v c).cpl else if k.hoopFlushing v c h then [] else (k.hoop v c h).head

/-- Stream `s` waits for an entry at the head of a slot, or of CPL. -/
def Chip.waitsPop (k : Chip) (v c s h : Nat) : Bool :=
  let t := k.stream v c s
  (t.run = .run || t.run = .ending) && !(k.core v c).held.testBit s &&
    (t.stall.any (fun st => st.kind = 2 && st.index = h) || match t.oldest with
      | some (.chain r run _) => run.out = [] && run.done < r.count && r.popsNext (k.core v c).vl run.got.length = some h
      | _ => false)

/-- R326, R424: the entries at the head of a slot, or of CPL, that stream `s` may pop: none while a stream is served before it: one that waits
there while `s` does not, or a lower one that waits as well. -/
def Chip.headFor (k : Chip) (v c s h : Nat) : List Entry :=
  if (List.range 5).any (fun o => o ≠ s && k.waitsPop v c o h && (o < s || !k.waitsPop v c s h)) then [] else k.headOf v c h

/-- R456: LAST_POP of the slot popped by stream `s`, and of the slot whose head is another core's. -/
def Chip.notePop (k : Chip) (v c s h : Nat) : Chip :=
  (k.setHoop v c h ((k.hoop v c h).poppedBy k.now s)).onPeer v c h (·.poppedBy k.now 5)

/-- A pop by stream `s` of the head of a slot, or of CPL. In a LOCAL hoop a waiting push takes the place freed (R418); elsewhere the
room reaches the tail later (R419). -/
def Chip.popEntry (k : Chip) (v c s h : Nat) : Chip :=
  if h = 16 then
    let x := k.core v c
    k.setCore v c { x with cpl := x.cpl.tail }
  else
    let k := k.notePop v c s h
    let q := k.hoop v c h
    let k := (k.setHoop v c h { q with head := q.head.tail }).settleHoop v c h
    if (k.hoopCfg v c h).route = 1 then Chip.landWaiting 20 k v c h s else k

/-- R432 to R435: a completion entry lands in CPL when it has room; otherwise it waits, and CPL_STATUS.WAITED is set. The
Bool is true where it landed. -/
def Chip.postCpl (k : Chip) (v c : Nat) (data : BitVec 512) : Chip × Bool :=
  let x := k.core v c
  if x.cpl.length < 1024 then
    let e : Entry := { data := data, last := true, fence := false, poison := false, src := 6 }
    ((k.setCore v c { x with cpl := x.cpl ++ [e] }).count (Reg.cplPosted v c) 1, true)
  else (k.raise (Reg.cplStatus v c) 31, false)

end Sys2Proof.Machine
end

