-- ==== Sys2Proof/Machine/Operands.lean ====
section
/-!
DEFINITION. Instruction forms (Table 7.4) and operand ends (Table 7.2): the fields of a word, address-increment values,
pops and pushes of the tensor-core profile, reads and writes of the bank-unit profile, and parameter records.
-/

namespace Sys2Proof.Machine

/-! ### Forms -/

/-- Form Q of Table 7.4. -/
structure QForm where
  d    : Nat
  a    : Nat
  b    : Nat
  aixe : Bool
  aix  : Nat
  aiye : Bool
  aiy  : Nat
  imm  : Nat
deriving DecidableEq, Repr

/-- The fields of form Q. -/
def qForm (ops : BitVec 56) : QForm :=
  let n := ops.toNat
  { d := bitsAt n 55 48, a := bitsAt n 47 40, b := bitsAt n 39 32, aixe := bitsAt n 31 31 = 1, aix := bitsAt n 30 28
    aiye := bitsAt n 27 27 = 1, aiy := bitsAt n 26 24, imm := bitsAt n 23 0 }

/-- sext(IMM): the 24-bit immediate sign-extended. -/
def QForm.simm (q : QForm) : Int := signedOf 24 q.imm

/-- Field D of form Q. -/
def useD : Nat := 0xFF * 2 ^ 48
/-- Field A of form Q. -/
def useA : Nat := 0xFF * 2 ^ 40
/-- Field B of form Q. -/
def useB : Nat := 0xFF * 2 ^ 32
/-- Fields AIXE and AIX of form Q. -/
def useX : Nat := 0xF * 2 ^ 28
/-- Fields AIYE and AIY of form Q. -/
def useY : Nat := 0xF * 2 ^ 24
/-- Field IMM of form Q. -/
def useI : Nat := 0xFFFFFF

/-- R330: every bit of the word outside the fields its opcode mentions is zero. -/
def reservedZero (ops : BitVec 56) (used : Nat) : Bool := Nat.land ops.toNat used = ops.toNat

/-- Code of the end ZERO. -/
def endZero : Nat := 0x3C

/-! ### Address increments (R353 to R356) -/

/-- The iteration index of depth `n`; zero while the depth is not open (R351). -/
def Sequencer.li (q : Sequencer) (n : Nat) : Nat := match q.loops[n]? with | some l => l.li | none => 0

/-- R353: the effective value of AIn, modulo 2^w. -/
def Sequencer.ai (q : Sequencer) (w n : Nat) : Nat :=
  let r := q.ais.getD n AiReg.zero
  let s := (List.range q.loops.length).map (fun l => (q.li l : Int) * (r.steps.getD l 0).toInt)
  bitsOf w ((r.base.toNat : Int) + s.sum)

/-- R355: the value AIX adds. -/
def QForm.aixVal (q : QForm) (sq : Sequencer) (w : Nat) : Nat := if q.aixe then sq.ai w q.aix else 0

/-- R355: the value AIY adds. -/
def QForm.aiyVal (q : QForm) (sq : Sequencer) (w : Nat) : Nat := if q.aiye then sq.ai w q.aiy else 0

/-! ### Tensor-core ends (Table 7.2, T profile) -/

/-- R327: the end may be popped by stream `s`. -/
def Chip.popOk (k : Chip) (v c s e : Nat) : Bool :=
  e < 0x20 || (e < 0x30 && s = 2) || (0x30 ≤ e && e ≤ 0x3C) || (e = 0x3D && s = 2)
  || (0x40 ≤ e && e < 0x50 && (k.hoopCfg v c (e - 0x40)).hasHead) || e = 0x50

/-- R327: the end may be pushed by stream `s`. -/
def Chip.pushOk (k : Chip) (v c s e : Nat) : Bool :=
  (e < 0x20 && s = 0) || (0x20 ≤ e && e < 0x30 && s = 2) || e = 0x3C || (e = 0x3D && s = 2)
  || (0x40 ≤ e && e < 0x50 && (k.hoopCfg v c (e - 0x40)).hasTail)

/-- A scalar end: a register whose pop is one value (S, AI, LI, ZERO). -/
def scalarEnd (e : Nat) : Bool := e < 0x20 || (0x30 ≤ e && e ≤ 0x3C)

/-- A hoop end or CPL. -/
def hoopEnd (e : Nat) : Bool := 0x40 ≤ e && e ≤ 0x50

/-- The slot of a hoop end; 16 for CPL. -/
def slotOf (e : Nat) : Nat := e - 0x40

/-- The value a register end holds for stream `s` (R320). The scalar a vector end gives is the spec's silence: a free value. -/
def Chip.endValue (k : Chip) (v c s e : Nat) : Word :=
  let x := k.core v c
  let q := (x.stream s).seq
  if e < 0x20 then x.sregs.getD e 0
  else if 0x30 ≤ e ∧ e < 0x38 then BitVec.ofNat 64 (q.ai 64 (e - 0x30))
  else if 0x38 ≤ e ∧ e < 0x3C then BitVec.ofNat 64 (q.li (e - 0x38))
  else if e = 0x3D then BitVec.ofNat 64 x.vl
  else if 0x20 ≤ e ∧ e < 0x30 then Config.vectorWord (lookupRun 0 x.vregs (128 * (e - 0x20)) 128)
  else 0

/-- What a pop meets. -/
inductive PopRes where
  | stall (kind index : Nat)
  | poison (k : Chip)
  | done (data : BitVec 512) (k : Chip)

/-- Table 9.5 kind 2: a pop from an empty or FLUSHING head: the party waited on. -/
def Chip.popParty (k : Chip) (v c h : Nat) : Nat :=
  if h = 16 then 6 else if (k.hoopCfg v c h).route = 1 then (k.hoop v c h).lastPush else 5

/-- R431: the record of a poisoned entry met at a head. -/
def Chip.notePoison (k : Chip) (v c h : Nat) : Chip := (k.raise (Reg.hoopStatus v c h) 29).logCore 0x07 v c h

/-- One pop of an end by stream `s` (R320 to R322, R431). -/
def Chip.popEnd (k : Chip) (v c s : Nat) (e : Nat) : PopRes :=
  if hoopEnd e then
    match k.headFor v c s (slotOf e) with
    | [] => .stall 2 (slotOf e)
    | x :: _ =>
      if x.poison then .poison (k.notePoison v c (slotOf e))
      else .done x.data (k.popEntry v c s (slotOf e))
  else .done (wordEntry (k.endValue v c s e)) k

/-- The end can supply stream `s` with `n` entries, or is a register, which never empties (R320). -/
def Chip.supplies (k : Chip) (v c s e n : Nat) : Bool := !hoopEnd e || n ≤ (k.headFor v c s (slotOf e)).length

/-- R322, R323: two pops, A before B, made together once both ends can supply them. A stream that needs a second entry of a hoop whose head holds
one waits, and the head is not empty (Table 9.5): kind 0. -/
def Chip.popTwo (k : Chip) (v c s a b : Nat) (f : Word → Word → Chip → PopRes) : PopRes :=
  if !k.supplies v c s a 1 then .stall 2 (slotOf a)
  else if !k.supplies v c s b 1 then .stall 2 (slotOf b)
  else if a = b ∧ !k.supplies v c s b 2 then .stall 0 0
  else
    match k.popEnd v c s a with
    | .done x k1 =>
      match k1.popEnd v c s b with
      | .done y k2 => f (entryWord x) (entryWord y) k2
      | .poison _ => .poison (k.notePoison v c (slotOf b))
      | r => r
    | r => r

/-- R324, R415: a push of an entry to slot `h`: it lands, or waits as the stream's incomplete instruction. -/
def Chip.pushHoop (k : Chip) (v c s h : Nat) (e : Entry) : Chip :=
  match k.pushHold v c s h with
  | none => k.landEntry v c h e
  | some _ => k.inflight v c s (.push h e k.now)

/-- A push of a scalar value to a destination end (Table 7.2, R321, R324, R390). -/
def Chip.pushEnd (k : Chip) (v c s e : Nat) (w : Word) : Chip :=
  if hoopEnd e then
    k.pushHoop v c s (slotOf e) { data := wordEntry w, last := true, fence := false, poison := false, src := s }
  else if e = endZero then k
  else k.inOrder v c s (.put e w)

/-! ### Accesses to the operand cache (R278, R279) -/

/-- The fault codes of Tables 6.8, 7.9 and 8.17, and R431's. -/
inductive CoreCause where
  | texpMismatch | formatUnsupported | smaxLength | ocRange | ocAlign | ocUncorrectable | pressGeometry | vlRange
  | chainInvalid | syncUnderflow | syncOverflow | cmdInvalid | hoopDataError
  | illegal | pstoreCheck | pcRange | loopDepth | loopRange | loopCount | callDepth | callEntry | barMismatch | bloadRange
deriving DecidableEq, Repr

/-- CORE_FAULT.CAUSE. -/
def CoreCause.code : CoreCause → Nat
  | .texpMismatch => 0x40 | .formatUnsupported => 0x41 | .smaxLength => 0x42 | .ocRange => 0x43 | .ocAlign => 0x44
  | .ocUncorrectable => 0x45 | .pressGeometry => 0x46 | .vlRange => 0x47 | .chainInvalid => 0x48
  | .syncUnderflow => 0x60 | .syncOverflow => 0x61 | .cmdInvalid => 0x62 | .hoopDataError => 0x63
  | .illegal => 0x50 | .pstoreCheck => 0x51 | .pcRange => 0x52 | .loopDepth => 0x53 | .loopRange => 0x54
  | .loopCount => 0x55 | .callDepth => 0x56 | .callEntry => 0x57 | .barMismatch => 0x58 | .bloadRange => 0x59

/-- R278, R279: the check of one operand-cache access: range, alignment, and for a read the code. -/
def Core.ocCheck (x : Core) (a n align : Nat) (rd : Bool) : Option CoreCause :=
  if 2 ^ 22 < a + n then some .ocRange
  else if a % align ≠ 0 then some .ocAlign
  else if rd && (x.ocBad a n).isSome then some .ocUncorrectable
  else none

/-- The first fault among some accesses to the operand cache, with the address and length of the access. -/
def Core.firstOcFault (x : Core) (rs : List (Nat × Nat × Nat)) (rd : Bool) : Option (CoreCause × Nat × Nat) :=
  rs.findSome? (fun a => (x.ocCheck a.1 a.2.1 a.2.2 rd).map (fun f => (f, a.1, a.2.1)))

/-- R279, Table 15.4: an uncorrectable operand-cache word met by a reader: CORE_OC_ECC, CORE_OC_UE_ADDR and the log. -/
def Chip.noteOcUe (k : Chip) (v c a n : Nat) : Chip :=
  match (k.core v c).ocBad a n with
  | none => k
  | some w =>
    let k' := if k.flag (Reg.coreOcEcc v c) 31 then k else k.setF (Reg.coreOcUeAddr v c) 21 0 (8 * w)
    (k'.raise (Reg.coreOcEcc v c) 31).logCore 0x06 v c (8 * w)

/-- The record that a fault of an operand-cache access leaves beside CORE_FAULT. -/
def Chip.noteOc (k : Chip) (v c a n : Nat) (f : CoreCause) : Chip := if f = .ocUncorrectable then k.noteOcUe v c a n else k

/-! ### Parameter records (R375 to R377) -/

/-- What fetching a record meets. -/
inductive RecordRes where
  | illegal
  | stall (kind index : Nat)
  | fault (cause : CoreCause) (k : Chip)
  | done (bytes : List Byte) (k : Chip)

/-- R375, R376: the record of `n` bytes of an instruction, from the operand cache or from an entry popped from A. -/
def Chip.fetchRecord (k : Chip) (v c s : Nat) (q : QForm) (n : Nat) : RecordRes :=
  if q.a = endZero ∧ bitsAt q.imm 23 22 = 0 then
    let x := k.core v c
    let a := bitsOf 64 ((bitsAt q.imm 21 0 : Int) + q.aixVal (x.stream s).seq 64)
    match x.ocCheck a n n true with
    | some f => .fault f (k.noteOc v c a n f)
    | none => .done (x.ocBytes a n) k
  else if hoopEnd q.a ∧ k.popOk v c s q.a ∧ q.imm = 0 ∧ !q.aixe then
    match k.popEnd v c s q.a with
    | .stall a b => .stall a b
    | .poison k' => .fault .hoopDataError k'
    | .done d k' => .done ((entryBytes d).take n) k'
  else .illegal

/-! ### Bank-unit ends (Table 7.2, B profile) -/

/-- R327: the end may be popped by a bank unit. -/
def bankPopOk (e : Nat) : Bool := e < 0x10 || (0x30 ≤ e && e ≤ 0x3C)

/-- R327, R863: the end may be pushed by a bank unit. -/
def bankPushOk (e : Nat) : Bool := e < 0x10 || e = 0x3C

/-- The value an end holds for a bank unit. -/
def Bu.endValue (u : Bu) (e : Nat) : Lane :=
  if e < 0x10 then u.sregs.getD e 0
  else if 0x30 ≤ e ∧ e < 0x38 then BitVec.ofNat 32 (u.seq.ai 32 (e - 0x30))
  else if 0x38 ≤ e ∧ e < 0x3C then BitVec.ofNat 32 (u.seq.li (e - 0x38))
  else 0

/-- A push to a destination end of a bank unit. -/
def Bu.pushEnd (u : Bu) (e : Nat) (w : Lane) : Bu := if e < 0x10 then { u with sregs := setAt u.sregs e w } else u

end Sys2Proof.Machine
end

