-- ==== Sys2Proof/Machine/Issue.lean ====
section
/-!
DEFINITION. Issuing an instruction of a tensor-core stream or of a bank unit (R311, R315, R322, R327 to R338, R352): the
fetch, the checks that hold for every instruction, the sequencer's step, faults and stalls. A meaning of a Spaith
instruction is its own effect, given to `issueCore`, `issueBank` or both.
-/

namespace Sys2Proof.Machine




/-! ### Program faults (Table 7.9) -/

/-- Table 7.9, and Table 4.5's causes that a bank unit's instruction raises. -/
inductive BankCause where
  | align | addrRange | transInvalid | protDomain | protPerm | protAttr | illegal | pstoreCheck | dataUncorrectable
  | wheyDest | pcRange | loopDepth | loopRange | callDepth | callEntry | buInternal | waveInvalid | stopped
deriving DecidableEq, Repr

/-- BU_STATUS.FAULT_CAUSE (Tables 4.5, 7.9 and 15.6). -/
def BankCause.code : BankCause → Nat
  | .align => 0x10 | .addrRange => 0x11 | .transInvalid => 0x12 | .protDomain => 0x13 | .protPerm => 0x14
  | .protAttr => 0x15 | .illegal => 0x20 | .pstoreCheck => 0x21 | .dataUncorrectable => 0x22 | .wheyDest => 0x23
  | .pcRange => 0x24 | .loopDepth => 0x25 | .loopRange => 0x26 | .callDepth => 0x27 | .callEntry => 0x28
  | .buInternal => 0x29 | .waveInvalid => 0x2A | .stopped => 0x30

/-- R148's causes as a bank unit records them (R162). -/
def BankCause.ofDma : DmaCause → BankCause
  | .protDomain => .protDomain | .protPerm => .protPerm | .protAttr => .protAttr | .align => .align
  | .addrRange => .addrRange | _ => .transInvalid

/-! ### Opcodes (Tables 7.3, 7.5, 8.1, 8.2, 8.8, 8.10, 8.13, 8.16) -/

/-- An opcode that some table of spec/ defines. -/
def opDefined (op : Nat) : Bool :=
  (0x01 ≤ op && op ≤ 0x0B) || (0x20 ≤ op && op ≤ 0x31) || (0x40 ≤ op && op ≤ 0x47) || op = 0x60 || op = 0x61
  || (0x80 ≤ op && op ≤ 0x83) || op = 0xA0 || (0xC0 ≤ op && op ≤ 0xC7) || (0xE0 ≤ op && op ≤ 0xEA)

/-- Table 7.3: the class of an opcode is one stream `s` of a tensor core may issue. -/
def classOkCore (op s : Nat) : Bool :=
  match op / 32 with
  | 0 => true
  | 1 => s = 0
  | 2 => s = 0
  | 3 => s = 1
  | 4 => s = 2
  | 5 => s = 3 || s = 4
  | 6 => true
  | _ => false

/-- Table 7.3: the opcode is one a bank unit may issue; BAR and LUI2 are of the T profile only. -/
def classOkBank (op : Nat) : Bool := (op / 32 = 0 && op ≠ 0x08) || (op / 32 = 1 && op ≠ 0x22) || op / 32 = 7

/-! ### The sequencer (R344 to R363) -/

/-- R349, R350: from the innermost level outwards, the levels that end at `pc` loop back or close. -/
def closeLevels (pc : Nat) : List LoopLevel → List LoopLevel × Nat
  | [] => ([], pc + 1)
  | l :: outer =>
    if l.last = pc then
      if l.forever || l.li + 1 < l.count then ({ l with li := l.li + 1 } :: outer, l.first) else closeLevels pc outer
    else (l :: outer, pc + 1)

/-- The sequencer once the instruction at `pc` has completed (R333, R347, R349, R350). -/
def Sequencer.after (q : Sequencer) (pc : Nat) : Sequencer :=
  let r := closeLevels pc q.loops.reverse
  { q with loops := r.1.reverse, pc := r.2 }

/-- The sequencer after the instruction at its program counter. -/
def Sequencer.advance (q : Sequencer) : Sequencer := q.after q.pc

/-- The words of the space the program counter lies in (Table 7.1). -/
def spaceSize (bank lib : Bool) : Nat := if bank then (if lib then 4096 else 512) else 8192

/-! ### Tensor-core streams -/

/-- What an instruction's own effect comes to at issue. `step` leaves the sequencer to advance; `jump` has set it;
`held` has also set what the stream waits on. -/
inductive CoreEff where
  | fault (cause : CoreCause) (k : Chip)
  | dmaFault (k : Chip)
  | stall (kind index : Nat)
  | wait
  | step (k : Chip)
  | jump (k : Chip)
  | held (k : Chip)

/-- R683: a stream that a debug write holds. -/
def Chip.debugHeld (k : Chip) (v c s : Nat) : Bool := (k.core v c).held.testBit s

/-- An instruction of a stream that nothing else of it may pass: R386's XFER, R415's waiting push, a waiting FENCE, and a
chain with a hoop source or sink (R421), which may yet fault (R311). A SIGNAL does not: in Table 9.10 the press issues three more
instructions before its SIGNAL of cycle 9 is applied. -/
def InFlight.blocks : InFlight → Bool
  | .xfer .. => true
  | .push .. => true
  | .fence .. => true
  | .chain r .. => r.kind = 3 || r.srcA.kind = 3 || (r.srcB.present && r.srcB.kind = 3)
  | _ => false

/-- The stream may issue: it runs, nothing holds it, and nothing it issued blocks it. -/
def Chip.canIssue (k : Chip) (v c s : Nat) : Bool :=
  let t := k.stream v c s
  t.run = .run && t.hold.isNone && !(t.inflight.any InFlight.blocks) && !k.debugHeld v c s && k.vatRuns v

/-- What fetching meets. -/
inductive Fetched where
  | other
  | pcRange
  | check
  | illegal
  | ok
deriving DecidableEq, Repr

/-- Table 7.1: a profile's library word: in the ROM a free value, in the patch RAM what the patch in force has put there. -/
def Chip.libWord (k : Chip) (bank : Bool) (pc : Nat) : Word :=
  if (if bank then 3840 else 7680) ≤ pc then lookup 0 (if bank then k.hub.patchB else k.hub.patchT) pc else Config.romWord bank pc

/-- R335: a library word fails its check. -/
def Chip.libBad (k : Chip) (bank : Bool) (pc : Nat) : Bool := lookup false (if bank then k.hub.libBadB else k.hub.libBadT) pc

/-- R329, R330, R335, R336: what a fetched word `w` comes to for an instruction that claims to be `op` with `ops`. A routine of the library whose
contract is pending is performed at a RET, whatever its words are. -/
def fetchWord (q : Sequencer) (w : Word) (bad : Bool) (op : Nat) (ops : BitVec 56) : Fetched :=
  if bad then .check
  else if q.lib && op = 0x07 && q.routine.isSome then .ok
  else if opcodeOfWord w = op ∧ operandsOfWord w = ops then .ok
  else if opDefined (opcodeOfWord w) then .other
  else .illegal

/-- R352: the fetch at a program counter, from the unit's store or from the library space. -/
def Chip.fetch (k : Chip) (bank : Bool) (q : Sequencer) (store : List (Nat × Word)) (bad : List (Nat × Bool)) (op : Nat)
    (ops : BitVec 56) : Fetched :=
  if spaceSize bank q.lib ≤ q.pc then .pcRange
  else if q.lib then fetchWord q (k.libWord bank q.pc) (k.libBad bank q.pc) op ops
  else fetchWord q (lookup 0 store q.pc) (lookup false bad q.pc) op ops

/-- R311, R313: a fault stops the stream at the instruction `sq` stands at, and is recorded in CORE_FAULT and CORE_FAULT_PC unless a record
is held. Instructions issued behind it never complete. -/
def Chip.coreFault (k : Chip) (v c s : Nat) (code : Nat) (sq : Sequencer) : Chip :=
  let k := k.setStream v c s { k.stream v c s with run := .fault, seq := sq, hold := none, stall := none, inflight := [], stoppedAt := k.now }
  let o := Reg.coreFault v c
  if k.flag o 31 then k.raise o 30
  else
    let k := (k.setF o 10 8 s).setF o 7 0 code
    let k := k.raise o 31
    (k.setF (Reg.coreFaultPc v c) 13 13 (if sq.lib then 1 else 0)).setF (Reg.coreFaultPc v c) 12 0 sq.pc

/-- A fault at the stream's own program counter. R311: it is raised once every earlier instruction has completed. -/
def Chip.faultHere (k0 k : Chip) (v c s : Nat) (code : Nat) : Chip :=
  let t := k0.stream v c s
  if t.inflight.all (k0.ownFlush v c s) then k.coreFault v c s code t.seq else k0

/-- R373: the register ends that an instruction of a stream pops (Tables 7.5, 8.1, 8.10 and 8.16). -/
def popsOf (op : Nat) (ops : BitVec 56) : List Nat :=
  let n := ops.toNat
  let a := bitsAt n 47 40
  if op = 0x03 then (if n.testBit 47 then [] else [bitsAt n 55 48])
  else if op = 0x09 then (if n.testBit 49 then [a] else [])
  else if op = 0x0B || (0x20 ≤ op && op ≤ 0x22) || op = 0x30 || op = 0x82 || op = 0xC0 || op = 0xC4 then [a]
  else if 0x23 ≤ op && op ≤ 0x31 then [a, bitsAt n 39 32]
  else []

/-- The ends that an instruction of a stream may pop a hoop at: those of `popsOf`, the A of a hoop instruction, and the A of an instruction with a
parameter record (R375). -/
def hoopPopsOf (op : Nat) (ops : BitVec 56) : List Nat :=
  (popsOf op ops ++ if (op / 32 = 2 && op ≠ 0x47) || op = 0x60 || op = 0x80 || op = 0x81 || op = 0xC3 || op = 0xC5 then [bitsAt ops.toNat 47 40] else [])
    |>.filter hoopEnd

/-- An instruction that has issued and may yet fault (R311). -/
def InFlight.mayFault : InFlight → Bool
  | .pass .. | .chain .. | .smax .. | .xfer .. | .signal .. => true
  | .pclr .. | .sread .. | .push .. | .fence .. | .flush .. | .put .. | .store .. => false

/-- R311: an instruction that pops a hoop, or flushes one, waits while an earlier instruction of its stream may yet fault: what it does at its issue
could not be undone. A WAIT does not: in Table 9.10 the press's WAIT of cycle 9 is satisfied while its passes and its SIGNAL are incomplete. -/
def Chip.faultHeld (k : Chip) (v c s op : Nat) (ops : BitVec 56) : Bool :=
  (hoopPopsOf op ops ≠ [] || op = 0xC7) && (k.stream v c s).inflight.any InFlight.mayFault

/-- R373, R315: an instruction waits for the earlier pushes of the registers it pops; a base-die command, which reads its record and its payload
from the operand cache, and LD wait for the stream's earlier stores (DEDUCED from program order). -/
def Chip.orderHeld (k : Chip) (v c s op : Nat) (ops : BitVec 56) : Bool :=
  (popsOf op ops).any (k.putPending v c s) || ((op = 0x30 || op / 32 = 2) && k.storePending v c s) || k.faultHeld v c s op ops

/-- R450: a stall is noted, with the time it began; kind 0 is none. -/
def Chip.noteStall (k : Chip) (v c s kind index : Nat) : Chip :=
  let t := k.stream v c s
  if kind = 0 then k.setStream v c s { t with stall := none } else
  let since := match t.stall with
    | some p => if p.kind = kind ∧ p.index = index then p.since else k.now
    | none => k.now
  k.setStream v c s { t with stall := some { kind := kind, index := index, since := since } }

/-- The stream has issued (R453): its stall ends. -/
def Chip.issued (k : Chip) (v c s : Nat) : Chip :=
  k.setStream v c s { k.stream v c s with stall := none, reported := false }

/-- The stream's sequencer steps past its instruction. -/
def Chip.advanceCore (k : Chip) (v c s : Nat) : Chip :=
  let t := k.stream v c s
  k.setStream v c s { t with seq := t.seq.advance, stall := none, reported := false }

/-- Table 6.8 and 7.9: a checked instruction of a stream: `legal` is R327's and R330's own part of the opcode. -/
def issueCore (k : Chip) (v c s op : Nat) (ops : BitVec 56) (used : Nat) (legal : Bool) (eff : Chip → CoreEff) : Chip :=
  if !k.canIssue v c s then k else
  let x := k.core v c
  let t := x.stream s
  match k.fetch false t.seq x.pstore x.pstoreBad op ops with
  | .other => k
  | .pcRange => k.faultHere k v c s CoreCause.pcRange.code
  | .check => k.faultHere k v c s CoreCause.pstoreCheck.code
  | .illegal => k.faultHere k v c s CoreCause.illegal.code
  | .ok =>
    if !(classOkCore op s && reservedZero ops used && legal) then k.faultHere k v c s CoreCause.illegal.code
    else if k.orderHeld v c s op ops then k
    else
      -- R362, model's own: a library word other than RET ends the pending contract of a routine.
      let k0 := if t.seq.lib && op ≠ 0x07 then
          k.setStream v c s { t with seq := { t.seq with routine := none } } else k
      match eff k0 with
      | .fault f k' => k.faultHere k' v c s f.code
      | .dmaFault k' => k'
      | .stall a b => k.noteStall v c s a b
      | .wait => k
      | .step k' => k'.advanceCore v c s
      | .jump k' => k'.issued v c s
      | .held k' => k'

/-! ### Bank units -/

/-- What a bank-unit instruction's own effect comes to at issue. -/
inductive BankEff where
  | fault (cause : BankCause) (k : Chip)
  | wait
  | step (k : Chip)
  | jump (k : Chip)

/-- R683: the bank units of a die that a debug write holds. -/
def Chip.debugHeldBu (k : Chip) (v d : Nat) : Bool := (k.die v d).held

/-- R186, R858: a fault ends the program at its instruction, once the slots it requested have ended. -/
def Chip.bankFault (k : Chip) (v d b : Nat) (f : BankCause) (lib : Bool) (pc : Nat) : Chip :=
  let u := k.bu v d b
  k.setBu v d b { u with ending := some .fault, cause := f.code, faultLib := lib, faultPc := pc }

/-- A bank-unit program may issue: it runs and has not ended. -/
def Chip.bankCanIssue (k : Chip) (v d b : Nat) : Bool :=
  let u := k.bu v d b
  u.run = .run && u.ending.isNone && !k.debugHeldBu v d && k.vatRuns v

/-- A checked instruction of the bank unit of physical bank `b`. -/
def issueBank (k : Chip) (v d b op : Nat) (ops : BitVec 56) (used : Nat) (legal : Bool) (eff : Chip → BankEff) : Chip :=
  if !k.bankCanIssue v d b then k else
  let u := k.bu v d b
  let fault (k' : Chip) (f : BankCause) : Chip := k'.bankFault v d b f u.seq.lib u.seq.pc
  match k.fetch true u.seq u.pstore u.pstoreBad op ops with
  | .other => k
  | .pcRange => fault k .pcRange
  | .check => fault k .pstoreCheck
  | .illegal => fault k .illegal
  | .ok =>
    if !(classOkBank op && reservedZero ops used && legal) then fault k .illegal
    else
      let k0 := if u.seq.lib && op ≠ 0x07 then k.setBu v d b { u with seq := { u.seq with routine := none } } else k
      match eff k0 with
      | .fault f k' => fault k' f
      | .wait => k
      | .step k' =>
        let u' := k'.bu v d b
        k'.setBu v d b { u' with seq := u'.seq.advance }
      | .jump k' => k'

/-- The instruction of a unit: its effect as a stream's, or as a bank unit's. -/
def issue (k : Chip) (u : IssueUnit) (op : Nat) (ops : BitVec 56) (used : Nat)
    (legalCore : Nat → Nat → Nat → Bool) (core : Nat → Nat → Nat → Chip → CoreEff)
    (legalBank : Bool) (bank : Nat → Nat → Nat → Chip → BankEff) : Chip :=
  match u with
  | .core v c s => issueCore k v c s op ops used (legalCore v c s) (core v c s)
  | .bank v d a => issueBank k v d (k.phys v d a) op ops used legalBank (bank v d (k.phys v d a))

/-- An instruction of the T profile alone: on a bank unit it is illegal (R330). -/
def issueT (k : Chip) (u : IssueUnit) (op : Nat) (ops : BitVec 56) (used : Nat)
    (legal : Nat → Nat → Nat → Bool) (core : Nat → Nat → Nat → Chip → CoreEff) : Chip :=
  issue k u op ops used legal core false (fun _ _ _ _ => .wait)

/-- An instruction of the B profile alone: on a stream it is illegal (R330). -/
def issueB (k : Chip) (u : IssueUnit) (op : Nat) (ops : BitVec 56) (used : Nat) (legal : Bool)
    (bank : Nat → Nat → Nat → Chip → BankEff) : Chip :=
  issue k u op ops used (fun _ _ _ => false) (fun _ _ _ _ => .wait) legal bank

/-- The unit exists on the part (R13, R157, R314). -/
def State.hasUnit (s : State) : IssueUnit → Bool
  | .core v c t => s.hasCore v c && t < 5
  | .bank v d a => s.hasLogical v d a

end Sys2Proof.Machine
end

