-- ==== Sys2Proof/Machine/Flow.lean ====
section
/-!
DEFINITION. Class 0: flow and index instructions (Table 7.5, R331 to R368), except RET, which is in Machine/Library.lean.
-/

namespace Sys2Proof.Machine

/-! ### Sequencer operations shared by both profiles -/

/-- What a flow instruction does to its sequencer, or its fault in the T and the B profile (Table 7.9). -/
inductive SeqRes where
  | fault (t : CoreCause) (b : BankCause)
  | advance (q : Sequencer)
  | goto (q : Sequencer)

/-- Form L of Table 7.4. -/
structure LForm where
  cnt     : Nat
  forever : Bool
  bodyM1  : Nat
deriving DecidableEq, Repr

/-- The fields of form L. -/
def lForm (ops : BitVec 56) : LForm :=
  let n := ops.toNat
  { cnt := bitsAt n 55 48, forever := bitsAt n 47 47 = 1, bodyM1 := bitsAt n 43 32 }

/-- Bits that form L uses. -/
def useL : Nat := 0xFF * 2 ^ 48 + 2 ^ 47 + 0xFFF * 2 ^ 32

/-- R344 to R348: LOOP with `count` read from CNT. -/
def Sequencer.loop (q : Sequencer) (bank : Bool) (f : LForm) (count : Nat) : SeqRes :=
  let last := q.pc + f.bodyM1 + 1
  if q.loops.length = 4 then .fault .loopDepth .loopDepth
  else if spaceSize bank q.lib ≤ last || (q.loops.getLast?.any (fun l => l.last < last)) then .fault .loopRange .loopRange
  else if !f.forever && 2 ^ 32 ≤ count then .fault .loopCount .loopRange
  else if !f.forever && count = 0 then .goto (q.after last)
  else
    .advance { q with loops := q.loops ++
      [{ count := if f.forever then 0 else count, forever := f.forever, li := 0, first := q.pc + 1, last := last }] }

/-- R359, R362: every AI base replaced by its effective value. -/
def Sequencer.folded (q : Sequencer) (w : Nat) : List AiReg :=
  (List.range 8).map (fun n => { (q.ais.getD n AiReg.zero) with base := BitVec.ofNat 64 (q.ai w n) })

/-- R359, R360: a call to `(lib, pc)`; `routine` is the contract still to be performed there. -/
def Sequencer.call (q : Sequencer) (bank : Bool) (lib : Bool) (pc : Nat) (routine : Option Nat) : SeqRes :=
  if (if bank then 2 else 4) ≤ q.frames.length then .fault .callDepth .callDepth
  else
    .goto { lib := lib, pc := pc, loops := [], ais := q.folded (if bank then 32 else 64), routine := routine
            frames := { lib := q.lib, pc := q.pc, loops := q.loops, ais := q.ais, routine := q.routine } :: q.frames }

/-- R357, R399: the address of a library entry, where it is valid; an entry names an address of its library space (Table 7.1). -/
def Chip.libEntry (k : Chip) (bank : Bool) (e : Nat) : Option Nat :=
  match (if bank then k.hub.libB else k.hub.libT).lookup e with
  | some a => some (a % spaceSize bank true)
  | none => if 1 ≤ e ∧ e ≤ (if bank then 7 else 4) then some (Config.romEntry bank e % spaceSize bank true) else none

/-- R399: the entry's number is one whose contract Tables 8.18 and 8.19 give. -/
def contractOf (bank : Bool) (e : Nat) : Option Nat := if 1 ≤ e ∧ e ≤ (if bank then 7 else 4) then some e else none

/-- R358, R360: CALL.R; the entry is checked first. -/
def Sequencer.callR (q : Sequencer) (k : Chip) (bank : Bool) (e : Nat) : SeqRes :=
  match k.libEntry bank e with
  | none => .fault .callEntry .callEntry
  | some a => q.call bank true a (contractOf bank e)

/-- R362: LJMP. -/
def Sequencer.ljmp (q : Sequencer) (k : Chip) (bank : Bool) (e : Nat) : SeqRes :=
  match k.libEntry bank e with
  | none => .fault .callEntry .callEntry
  | some a =>
    .goto { q with lib := true, pc := a, loops := [], ais := q.folded (if bank then 32 else 64), routine := contractOf bank e }

/-- Form A of Table 7.4. -/
structure AForm where
  k     : Nat
  level : Nat
  src   : Bool
  a     : Nat
  imm   : Nat
deriving DecidableEq, Repr

/-- The fields of form A. -/
def aForm (ops : BitVec 56) : AForm :=
  let n := ops.toNat
  { k := bitsAt n 55 53, level := bitsAt n 51 50, src := bitsAt n 49 49 = 1, a := bitsAt n 47 40, imm := bitsAt n 31 0 }

/-- AISET's bits: K, SRC, A and IMM32. -/
def useAiset : Nat := 7 * 2 ^ 53 + 2 ^ 49 + 0xFF * 2 ^ 40 + 0xFFFFFFFF

/-- AISTEP's bits: K, LEVEL and IMM32. -/
def useAistep : Nat := 7 * 2 ^ 53 + 3 * 2 ^ 50 + 0xFFFFFFFF

/-- R354: the base of AI register K. -/
def Sequencer.setBase (q : Sequencer) (n : Nat) (w : Word) : Sequencer :=
  { q with ais := setAt q.ais n { (q.ais.getD n AiReg.zero) with base := w } }

/-- R354: the step of AI register K at depth LEVEL. -/
def Sequencer.setStep (q : Sequencer) (n level : Nat) (x : Lane) : Sequencer :=
  let r := q.ais.getD n AiReg.zero
  { q with ais := setAt q.ais n { r with steps := setAt r.steps level x } }

/-- Form C's TARGET, ID and MASK. -/
def cTarget (ops : BitVec 56) : Nat := bitsAt ops.toNat 52 40
def cId (ops : BitVec 56) : Nat := bitsAt ops.toNat 39 38
def cMask (ops : BitVec 56) : Nat := bitsAt ops.toNat 36 32

/-- Bits of TARGET. -/
def useTarget : Nat := 0x1FFF * 2 ^ 40

/-- The stream's sequencer after a flow instruction. -/
def coreSeq (k : Chip) (v c s : Nat) (r : SeqRes) : CoreEff :=
  let put (q : Sequencer) : Chip := k.setStream v c s { k.stream v c s with seq := q }
  match r with
  | .fault t _ => .fault t k
  | .advance q => .step (put q)
  | .goto q => .jump (put q)

/-- The bank unit's sequencer after a flow instruction. -/
def bankSeq (k : Chip) (v d b : Nat) (r : SeqRes) : BankEff :=
  let put (q : Sequencer) : Chip := k.setBu v d b { k.bu v d b with seq := q }
  match r with
  | .fault _ f => .fault f k
  | .advance q => .step (put q)
  | .goto q => .jump (put q)

/-- The sequencer of a stream. -/
def Chip.seqOf (k : Chip) (v c s : Nat) : Sequencer := (k.stream v c s).seq

/-- The sequencer of a bank unit. -/
def Chip.bankSeqOf (k : Chip) (v d b : Nat) : Sequencer := (k.bu v d b).seq

/-! ### Meanings -/

/-- NOP (Table 7.5). -/
def execNop (u : IssueUnit) (ops : BitVec 56) (s : State) : Host.Outcome State Fault Refusal :=
  s.onChip (s.hasUnit u) (fun k => issue k u 0x01 ops 0 (fun _ _ _ => true) (fun _ _ _ k => .step k) true (fun _ _ _ k => .step k))

/-- R338: the end of a stream: IDLE once its earlier instructions have completed. -/
def Chip.haltStream (k : Chip) (v c s : Nat) : Chip :=
  k.setStream v c s (Stream.settle { k.stream v c s with run := .ending } k.now)

/-- R858: the end of a bank-unit program: DONE once the slots it requested have ended. -/
def Chip.haltBank (k : Chip) (v d b : Nat) : Chip := k.setBu v d b { k.bu v d b with ending := some .done }

/-- HALT (R338, R184). -/
def execHalt (u : IssueUnit) (ops : BitVec 56) (s : State) : Host.Outcome State Fault Refusal :=
  s.onChip (s.hasUnit u) (fun k => issue k u 0x02 ops 0 (fun _ _ _ => true)
    (fun v c t k => .jump (k.haltStream v c t)) true (fun v d b k => .jump (k.haltBank v d b)))

/-- LOOP (R344 to R348). CNT names a scalar register; with FOREVER set it is zero. -/
def execLoop (u : IssueUnit) (ops : BitVec 56) (s : State) : Host.Outcome State Fault Refusal :=
  let f := lForm ops
  let zero := !f.forever || f.cnt = 0
  s.onChip (s.hasUnit u) (fun k => issue k u 0x03 ops useL (fun _ _ _ => f.cnt < 0x20 && zero)
    (fun v c t k => coreSeq k v c t ((k.seqOf v c t).loop false f (k.endValue v c t f.cnt).toNat))
    (f.cnt < 0x10 && zero)
    (fun v d b k => bankSeq k v d b ((k.bankSeqOf v d b).loop true f ((k.bu v d b).endValue f.cnt).toNat)))

/-- CALL.L (R358 to R360). -/
def execCallL (u : IssueUnit) (ops : BitVec 56) (s : State) : Host.Outcome State Fault Refusal :=
  s.onChip (s.hasUnit u) (fun k => issue k u 0x04 ops useTarget (fun _ _ _ => true)
    (fun v c t k => coreSeq k v c t ((k.seqOf v c t).call false false (cTarget ops) none))
    (cTarget ops < 512)
    (fun v d b k => bankSeq k v d b ((k.bankSeqOf v d b).call true false (cTarget ops) none)))

/-- CALL.R (R357 to R360). -/
def execCallR (u : IssueUnit) (ops : BitVec 56) (s : State) : Host.Outcome State Fault Refusal :=
  s.onChip (s.hasUnit u) (fun k => issue k u 0x05 ops (0xFF * 2 ^ 40) (fun _ _ _ => true)
    (fun v c t k => coreSeq k v c t ((k.seqOf v c t).callR k false (cTarget ops)))
    true
    (fun v d b k => bankSeq k v d b ((k.bankSeqOf v d b).callR k true (cTarget ops))))

/-- LJMP (R362). -/
def execLjmp (u : IssueUnit) (ops : BitVec 56) (s : State) : Host.Outcome State Fault Refusal :=
  s.onChip (s.hasUnit u) (fun k => issue k u 0x06 ops (0xFF * 2 ^ 40) (fun _ _ _ => true)
    (fun v c t k => coreSeq k v c t ((k.seqOf v c t).ljmp k false (cTarget ops)))
    true
    (fun v d b k => bankSeq k v d b ((k.bankSeqOf v d b).ljmp k true (cTarget ops))))

/-- AISET (R354). -/
def execAiset (u : IssueUnit) (ops : BitVec 56) (s : State) : Host.Outcome State Fault Refusal :=
  let f := aForm ops
  let immOk := f.src || f.a = 0
  let imm := signedOf 32 f.imm
  s.onChip (s.hasUnit u) (fun k => issue k u 0x09 ops useAiset
    (fun v c t => if f.src then k.popOk v c t f.a && (f.imm = 0) else immOk)
    (fun v c t k =>
      if f.src then
        match k.popEnd v c t f.a with
        | .stall a b => .stall a b
        | .poison k' => .fault .hoopDataError k'
        | .done d k' => coreSeq k' v c t (.advance ((k'.seqOf v c t).setBase f.k (entryWord d)))
      else coreSeq k v c t (.advance ((k.seqOf v c t).setBase f.k (BitVec.ofInt 64 imm))))
    (if f.src then bankPopOk f.a && (f.imm = 0) else immOk)
    (fun v d b k =>
      let w : Word := if f.src then ((k.bu v d b).endValue f.a).zeroExtend 64 else BitVec.ofNat 64 (bitsOf 32 imm)
      bankSeq k v d b (.advance ((k.bankSeqOf v d b).setBase f.k w))))

/-- AISTEP (R354). -/
def execAistep (u : IssueUnit) (ops : BitVec 56) (s : State) : Host.Outcome State Fault Refusal :=
  let f := aForm ops
  let x : Lane := BitVec.ofNat 32 f.imm
  s.onChip (s.hasUnit u) (fun k => issue k u 0x0A ops useAistep (fun _ _ _ => true)
    (fun v c t k => coreSeq k v c t (.advance ((k.seqOf v c t).setStep f.k f.level x)))
    true
    (fun v d b k => bankSeq k v d b (.advance ((k.bankSeqOf v d b).setStep f.k f.level x))))

/-- SKIP.Z (R332, R333): in the library space alone; the instruction skipped counts as completed. -/
def execSkipZ (u : IssueUnit) (ops : BitVec 56) (s : State) : Host.Outcome State Fault Refusal :=
  let a := (qForm ops).a
  let skip (z : Bool) (q : Sequencer) : SeqRes := if z then .goto q.advance.advance else .advance q
  s.onChip (s.hasUnit u) (fun k => issue k u 0x0B ops useA
    (fun v c t => (k.seqOf v c t).lib && k.popOk v c t a)
    (fun v c t k =>
      match k.popEnd v c t a with
      | .stall a b => .stall a b
      | .poison k' => .fault .hoopDataError k'
      | .done d k' => coreSeq k' v c t (skip (entryWord d = 0) (k'.seqOf v c t)))
    (match u with
      | .bank v d i => (k.bankSeqOf v d (k.phys v d i)).lib && bankPopOk a
      | _ => false)
    (fun v d b k => bankSeq k v d b (skip ((k.bu v d b).endValue a = 0) (k.bankSeqOf v d b))))

/-! ### BAR (R365 to R367) -/

/-- The stream waits at BAR `id` with `mask`. -/
def Stream.atBar (t : Stream) (id mask : Nat) : Bool := t.hold = some (.bar id mask)

/-- R365: when every stream of `mask` waits at BAR `id`, all of them go on. -/
def Chip.barRelease (k : Chip) (v c id mask : Nat) : Chip :=
  let x := k.core v c
  let named (s : Nat) : Bool := mask.testBit s
  if (List.range 5).all (fun s => !named s || (x.stream s).atBar id mask) then
    k.setCore v c { x with streams := x.streams.mapIdx (fun s t => if named s && t.atBar id mask then t.release else t) }
  else k

/-- R450: the party a stream at BAR waits on: the lowest stream of MASK that has not arrived. -/
def Core.barParty (x : Core) (id mask : Nat) : Nat :=
  ((List.range 5).find? (fun s => mask.testBit s && !(x.stream s).atBar id mask)).getD 7

/-- BAR. R366: MASK names its own stream; a different MASK at the same ID faults the arriving stream. -/
def execBar (u : IssueUnit) (ops : BitVec 56) (s : State) : Host.Outcome State Fault Refusal :=
  let id := cId ops
  let mask := cMask ops
  s.onChip (s.hasUnit u) (fun k => issueT k u 0x08 ops (3 * 2 ^ 38 + 0x1F * 2 ^ 32)
    (fun _ _ t => mask.testBit t)
    (fun v c t k =>
      let x := k.core v c
      if (x.stream t).inflight ≠ [] then .wait
      else if x.streams.any (fun o => match o.hold with | some (.bar i m) => i = id && m ≠ mask | _ => false) then
        .fault .barMismatch k
      else
        let st := x.stream t
        let k := k.setStream v c t { st with
          hold := some (.bar id mask), seq := st.seq.advance, reported := false
          stall := some { kind := 5, index := id, since := k.now } }
        .held (k.barRelease v c id mask)))

end Sys2Proof.Machine
end

