-- ==== Sys2Proof/Machine/Sync.lean ====
section
/-!
DEFINITION. Class 6 and HBAR: sync objects, watches, hoop moves, fences and flushes, the hub layer barrier, and the stall
monitor (Table 8.16, R368, R387 to R390, R407 to R458).
-/

namespace Sys2Proof.Machine

/-! ### Sync objects (R437 to R442) -/

/-- IMM[5:0]: the object. -/
def QForm.obj (q : QForm) : Nat := bitsAt q.imm 5 0
/-- IMM[21:6]: WAIT's threshold. -/
def QForm.threshold (q : QForm) : Nat := bitsAt q.imm 21 6
/-- IMM[21:6], sign-extended: SIGNAL's amount. -/
def QForm.amount (q : QForm) : Int := signedOf 16 (bitsAt q.imm 21 6)
/-- IMM[23:22]: WAIT's COND. -/
def QForm.cond (q : QForm) : Nat := bitsAt q.imm 23 22

/-- The value of a sync object. -/
def Core.object (x : Core) (n : Nat) : Nat := lookup 0 x.sync n

/-- R389, R438: the watch's condition holds. -/
def Watch.met (w : Watch) (x : Core) : Bool :=
  if w.cond = 1 then x.object w.obj = w.threshold else w.threshold ≤ x.object w.obj

/-- R438: every satisfied watch of COND 0 or 1 releases its stream. -/
def Core.wakePlain (x : Core) : Core :=
  { x with streams := x.streams.map (fun t =>
      match t.hold with
      | some (.watch w) => if w.cond ≠ 2 ∧ w.met x then t.release else t
      | _ => t) }

/-- R438: the consuming wait of stream `s`, when satisfied, subtracts its threshold and releases its stream. -/
def Core.wakeConsuming (x : Core) (s : Nat) : Core :=
  match (x.stream s).hold with
  | some (.watch w) =>
    if w.cond = 2 ∧ w.met x then
      { (x.setStream s (x.stream s).release) with sync := store 0 x.sync w.obj (x.object w.obj - w.threshold) }
    else x
  | _ => x

/-- R438, R442: the evaluation of every registered watch in one cycle. -/
def Core.evaluate (x : Core) : Core := (List.range 5).foldl Core.wakeConsuming x.wakePlain

/-- R388, R438: a SIGNAL of stream `s` applied: refused, it faults its stream and changes nothing. -/
def Chip.applySignal (k : Chip) (v c s obj : Nat) (amount : Int) (sq : Sequencer) : Chip :=
  let x := k.core v c
  let n : Int := x.object obj + amount
  if n < 0 then k.coreFault v c s CoreCause.syncUnderflow.code sq
  else if 65535 < n then k.coreFault v c s CoreCause.syncOverflow.code sq
  else
    let since := match lookup none x.syncLast obj with
      | some l => if l.stream = s then l.since else k.now
      | none => k.now
    let k := k.setCore v c { x with
      sync := store 0 x.sync obj n.toNat
      syncLast := store none x.syncLast obj (some { stream := s, lib := sq.lib, pc := sq.pc, since := since }) }
    k.finish v c s (.signal obj amount sq)

/-- R438: the SIGNAL of stream `s` that reaches the sync unit, where its oldest incomplete instruction is one. -/
def Chip.signalStep (k : Chip) (v c s : Nat) : Chip :=
  match (k.stream v c s).oldest with
  | some (.signal obj amount sq) => k.applySignal v c s obj amount sq
  | _ => k

/-- SIGNAL (R387, R388): it joins the stream's incomplete instructions, and takes effect at SIGNAL_APPLIED. -/
def execSignal (u : IssueUnit) (ops : BitVec 56) (s : State) : Host.Outcome State Fault Refusal :=
  let q := qForm ops
  s.onChip (s.hasUnit u) (fun k => issueT k u 0xC0 ops (useA + 0x3FFFFF)
    (fun v c t => q.obj < 48 && scalarEnd q.a && k.popOk v c t q.a)
    (fun v c t k =>
      .step (k.inflight v c t (.signal q.obj (q.amount + (k.endValue v c t q.a).toInt) (k.seqOf v c t)))))

/-- SIGNAL_APPLIED (R438, R442): one cycle of the sync unit: the signals of the streams of `mask`, in ascending stream number, then the watches,
once. A cycle that no SIGNAL reaches, in which what a consuming wait left is judged, is an empty mask. -/
def execSignalApplied (v c : Nat) (mask : BitVec 5) (s : State) : Host.Outcome State Fault Refusal :=
  s.onVat (s.hasCore v c) v (fun k =>
    let k := (List.range 5).foldl (fun k t => if mask.toNat.testBit t then k.signalStep v c t else k) k
    k.setCore v c (k.core v c).evaluate)

/-- WAIT (R389, R440): its watch is registered and evaluated. -/
def execWait (u : IssueUnit) (ops : BitVec 56) (s : State) : Host.Outcome State Fault Refusal :=
  let q := qForm ops
  s.onChip (s.hasUnit u) (fun k => issueT k u 0xC1 ops useI (fun _ _ _ => q.obj < 48 && q.cond ≠ 3)
    (fun v c t k =>
      let st := k.stream v c t
      let k := k.setStream v c t { st with
        hold := some (.watch { obj := q.obj, cond := q.cond, threshold := q.threshold }), seq := st.seq.advance
        stall := some { kind := 1, index := q.obj, since := k.now }, reported := false }
      .held (k.setCore v c (k.core v c).evaluate)))

/-- POLL (R441, R420). -/
def execPoll (u : IssueUnit) (ops : BitVec 56) (s : State) : Host.Outcome State Fault Refusal :=
  let q := qForm ops
  s.onChip (s.hasUnit u) (fun k => issueT k u 0xC2 ops (useD + 0x3F)
    (fun v c t => q.obj < 48 && (scalarEnd q.d || hoopEnd q.d) && k.pushOk v c t q.d)
    (fun v c t k =>
      if !(if hoopEnd q.d then k.pushQuiet v c t (slotOf q.d) else k.quiet v c t) then .wait
      else .step (k.pushEnd v c t q.d (BitVec.ofNat 64 ((k.core v c).object q.obj)))))

/-! ### Hoop moves (R321, R390, R415, R420) -/

/-- IMM[0]: CONT leaves the packet open (R390). -/
def QForm.cont (q : QForm) : Bool := q.imm % 2 = 1

/-- HMOV (R390, R431): one entry moved whole, poison and fence mark with it. -/
def execHmov (u : IssueUnit) (ops : BitVec 56) (s : State) : Host.Outcome State Fault Refusal :=
  let q := qForm ops
  s.onChip (s.hasUnit u) (fun k => issueT k u 0xC3 ops (useD + useA + 1)
    (fun v c t => hoopEnd q.a && k.popOk v c t q.a && hoopEnd q.d && k.pushOk v c t q.d)
    (fun v c t k =>
      if !k.pushQuiet v c t (slotOf q.d) then .wait else
      match k.headFor v c t (slotOf q.a) with
      | [] => .stall 2 (slotOf q.a)
      | e :: _ =>
        .step ((k.popEntry v c t (slotOf q.a)).pushHoop v c t (slotOf q.d) { e with last := !q.cont, src := t })))

/-- HPUSH (R321, R390). -/
def execHpush (u : IssueUnit) (ops : BitVec 56) (s : State) : Host.Outcome State Fault Refusal :=
  let q := qForm ops
  s.onChip (s.hasUnit u) (fun k => issueT k u 0xC4 ops (useD + useA + 1)
    (fun v c t => k.popOk v c t q.a && hoopEnd q.d && k.pushOk v c t q.d)
    (fun v c t k =>
      if !k.pushQuiet v c t (slotOf q.d) then .wait else
      match k.popEnd v c t q.a with
      | .stall a b => .stall a b
      | .poison k' => .fault .hoopDataError k'
      | .done d k' =>
        .step (k'.pushHoop v c t (slotOf q.d)
          { data := wordEntry (entryWord d), last := !q.cont, fence := false, poison := false, src := t })))

/-- HPOP (R321). -/
def execHpop (u : IssueUnit) (ops : BitVec 56) (s : State) : Host.Outcome State Fault Refusal :=
  let q := qForm ops
  s.onChip (s.hasUnit u) (fun k => issueT k u 0xC5 ops (useD + useA)
    (fun v c t => hoopEnd q.a && k.popOk v c t q.a && (q.d < 0x20 || q.d = endZero) && k.pushOk v c t q.d)
    (fun v c t k =>
      if !k.quiet v c t then .wait else
      match k.popEnd v c t q.a with
      | .stall a b => .stall a b
      | .poison k' => .fault .hoopDataError k'
      | .done d k' => .step (k'.pushEnd v c t q.d (entryWord d))))

/-! ### Fences and flushes (R426 to R430) -/

/-- FENCE (R426, R427). -/
def execFence (u : IssueUnit) (ops : BitVec 56) (s : State) : Host.Outcome State Fault Refusal :=
  let q := qForm ops
  let h := slotOf q.d
  s.onChip (s.hasUnit u) (fun k => issueT k u 0xC6 ops useD (fun v c t => hoopEnd q.d && k.pushOk v c t q.d)
    (fun v c t k =>
      if !k.quiet v c t then .wait
      else if k.fenceReady v c t h then .step (k.landEntry v c h (k.fenceEntry v c t))
      else .step (k.inflight v c t (.fence h k.now))))

/-- The slot at which entries of the hoop of slot `h` land: the OUT slot of a joined pair. -/
def Chip.tailSlot (k : Chip) (v c h : Nat) : Nat × Nat × Nat :=
  match k.peerOf v c h with
  | some p => if (k.hoopCfg v c h).route = 3 then p else (v, c, h)
  | none => (v, c, h)

/-- HFLUSH (R409, R428 to R430). -/
def execHflush (u : IssueUnit) (ops : BitVec 56) (s : State) : Host.Outcome State Fault Refusal :=
  let h := (qForm ops).imm
  s.onChip (s.hasUnit u) (fun k => issueT k u 0xC7 ops 0xF (fun v c _ => (k.hoopCfg v c h).route ≠ 0)
    (fun v c t k =>
      let p := k.tailSlot v c h
      if (k.hoop p.1 p.2.1 p.2.2).openBy.isNone then .step (k.flushNow p.1 p.2.1 p.2.2)
      else .step ((k.setHoop v c h { k.hoop v c h with flushing := true }).inflight v c t (.flush h))))

/-! ### Hoop events -/

/-- HOOP_ENTRY_AT_HEAD (R416, R425, R864): the oldest entry on its way to slot `h` reaches it, and what waits inside it
moves on. -/
def execHoopEntryAtHead (v c : Nat) (h : BitVec 4) (s : State) : Host.Outcome State Fault Refusal :=
  s.onVat (s.hasCore v c) v (fun k => (k.deliverEntry v c h.toNat).settleHoop v c h.toNat)

/-- The next entry that stream `t` waits to push to slot `h` lands, where it now can. -/
def Chip.landNext (k : Chip) (v c t h : Nat) : Chip :=
  match k.pushOf v c t h with
  | some (e, k') => k'.landEntry v c h e
  | none => k

/-- HOOP_PUSH_LANDS (R415, R420, R426): the push or fence of stream `t` that waits lands, where it now can. -/
def execHoopPushLands (v c t : Nat) (s : State) : Host.Outcome State Fault Refusal :=
  s.onVat (s.hasCore v c && t < 5) v (fun k =>
    match (k.stream v c t).oldest with
    | some (.push h ..) => k.landNext v c t h
    | some (.fence h _) => k.landNext v c t h
    | _ => k)

/-- R165, R173, R412: the middle's slot is granted now. -/
def Chip.middleTurn (k : Chip) (v p : Nat) : Bool := k.turnOf v p .spent 1

/-- R412, R413: the middle of slot `h` writes its staged entries as one group to the spill region, and keeps their sideband, POISON with it
(R431). -/
def Chip.middleWrite (dr : Dram) (k : Chip) (v c h : Nat) : Dram × Chip :=
  let q := k.hoop v c h
  let g := k.hoopCfg v c h
  let es := q.going.take 16
  let p := k.getF (Reg.hoopSpillBase v c h) 36 0 + 1024 * q.nextUnit
  if es = [] ∨ g.spill ≤ q.groups.length ∨ !k.middleTurn v p then (dr, k)
  else
    let r := k.writeBytes dr v p (Config.middleSource % 8) (es.flatMap (fun e => entryBytes e.data))
    (r.1, r.2.setHoop v c h { q with
      going := q.going.drop 16, nextUnit := (q.nextUnit + 1) % g.spill
      groups := q.groups ++ [{ slot := q.nextUnit, ends := es.map (fun e => { last := e.last, fence := e.fence, poison := e.poison }) }] })

/-- R412, R431: the middle of slot `h` reads its oldest group back; an entry with a word the code cannot correct is
poisoned. -/
def Chip.middleRead (dr : Dram) (k : Chip) (v c h : Nat) : Chip :=
  let q := k.hoop v c h
  match q.groups with
  | [] => k
  | g :: rest =>
    let p := k.getF (Reg.hoopSpillBase v c h) 36 0 + 1024 * g.slot
    if q.back ≠ [] ∨ !k.middleTurn v p then k
    else
      let r := g.ends.zipIdx.foldl (fun (a : List Entry × Chip) e =>
        let (bs, bad, k) := Chip.readRun dr v (Config.middleSource % 8) 4 a.2 (p + 64 * e.2) 64
        (a.1 ++ [{ data := entryOfBytes bs, last := e.1.last, fence := e.1.fence, poison := e.1.poison || bad, src := 7 }], k)) ([], k.baseSlots v p 1024)
      (r.2.setHoop v c h { q with groups := rest, back := r.1 }).settleHoop v c h

/-- HOOP_MIDDLE_GROUP (R412, R413): one group written to the spill region, or one read back. -/
def execHoopMiddleGroup (v c : Nat) (h : BitVec 4) (write : Bool) (s : State) : Host.Outcome State Fault Refusal :=
  s.onVatBoth (s.hasCore v c) v (fun dr k =>
    if write then Chip.middleWrite dr k v c h.toNat else (dr, Chip.middleRead dr k v c h.toNat))

/-! ### The hub layer barrier (R40, R368, R755) -/

/-- A barrier of the hub. -/
def Chip.bar (k : Chip) (b : Nat) : Barrier := lookup Barrier.reset k.hub.bars b
def Chip.setBar (k : Chip) (b : Nat) (x : Barrier) : Chip := { k with hub := { k.hub with bars := insert k.hub.bars b x } }

/-- The cores that the culture image has enrolled in a barrier. -/
def Chip.enrolled (k : Chip) (b : Nat) : List Nat := (k.cores.filter (fun x => x.2.enrolled.testBit b)).map (·.1)

/-- HBAR (R368, Table 8.2). -/
def execHbar (u : IssueUnit) (ops : BitVec 56) (s : State) : Host.Outcome State Fault Refusal :=
  let b := (qForm ops).imm
  s.onChip (s.hasUnit u) (fun k => issueT k u 0x47 ops 0xF (fun _ _ _ => true)
    (fun v c t k =>
      if !k.quiet v c t then .wait
      else if !(k.core v c).enrolled.testBit b then .fault .cmdInvalid k
      else
        let st := k.stream v c t
        let k := k.setStream v c t { st with
          hold := some (.hbar b), seq := st.seq.advance, reported := false
          stall := some { kind := 6, index := b, since := k.now } }
        .held (k.setBar b { k.bar b with arrived := (k.bar b).arrived ++ [(coreKey v c, k.now)] })))

/-- R755: the slack of a vat in an episode that completes now: the time since its last core arrived. -/
def slackOf (arrived : List (Nat × Nat)) (now v : Nat) : Nat :=
  now - (arrived.filter (fun a => a.1 / 4 = v)).foldl (fun m a => max m a.2) 0

/-- R755: the least slack of a vat over some episodes. -/
def leastSlack (episodes : List (List (Nat × Nat))) (v : Nat) : Nat :=
  match episodes.map (lookup 0 · v) with
  | [] => 0
  | x :: xs => xs.foldl min x

/-- HUB_BARRIER_COMPLETE (R40, R368, R755): every enrolled core has arrived, and all of them go on. -/
def execHubBarrierComplete (b : BitVec 4) (s : State) : Host.Outcome State Fault Refusal :=
  s.onChip true (fun k =>
    let n := b.toNat
    let x := k.bar n
    let cores := k.enrolled n
    if cores = [] ∨ !(cores.all (fun c => x.arrived.any (fun a => a.1 = c))) then k
    else
      let vats := (cores.map (· / 4)).eraseDups
      let eps := ((vats.map (fun v => (v, slackOf x.arrived k.now v))) :: x.episodes).take 64
      let seen := eps.take (max 1 (k.getF Reg.pwrPaceCfg 23 16))
      let k := cores.foldl (fun k c => k.setStream (c / 4) (c % 4) 0 (k.stream (c / 4) (c % 4) 0).release) k
      let k := k.setBar n { x with arrived := [], episodes := eps, since := x.since + 1, lastAt := k.now }
      let k := k.setF (Reg.hbarSkew n) 31 0 (min (2 ^ 32 - 1) ((vats.map (leastSlack seen)).foldl max 0))
      k.wrapAdd (Reg.hbarEpisodes n) 31 0 1)

/-! ### The stall monitor (R450 to R455) -/

/-- R450: the party that a stalled stream waits on, by Table 9.5. -/
def Chip.stallParty (k : Chip) (v c s : Nat) (st : Stall) : Nat :=
  let x := k.core v c
  match st.kind with
  | 1 => match lookup none x.syncLast st.index with | some l => l.stream | none => 7
  | 2 => k.popParty v c st.index
  | 3 => if (k.hoopCfg v c st.index).route = 1 then (k.hoop v c st.index).lastPop else 5
  | 4 => (k.hoop v c st.index).openBy.getD 7
  | 5 => match (x.stream s).hold with | some (.bar id mask) => x.barParty id mask | _ => 7
  | 6 => 5
  | 7 => 6
  | _ => 7

/-- R450: what holds a chain: an entry it must push, else one it must pop. -/
def Chip.chainStall (k : Chip) (v c : Nat) (r : ChainRec) (run : ChainRun) : Option Stall :=
  if run.out ≠ [] then (k.pushHold v c 2 r.loc).map (fun p => { kind := p.1, index := p.2, since := run.since })
  else match r.popsNext (k.core v c).vl run.got.length with
    | some h => if run.done < r.count ∧ k.headOf v c h = [] then some { kind := 2, index := h, since := run.since } else none
    | none => none

/-- R451, R365: since when the lowest stream absent from a BAR has been that one: the latest arrival of a stream below it, or of `s`. -/
def Core.barSince (x : Core) (id mask n : Nat) : Nat :=
  ((List.range (x.barParty id mask)).map (fun o => match (x.stream o).stall with
    | some st => if mask.testBit o && (x.stream o).atBar id mask then st.since else 0
    | none => 0)).foldl max n

/-- R450: what holds a stream now, by Table 9.5, and since when it has stalled: an instruction held at issue, or a push, a FENCE or a chain that
waits on a hoop (R415, R421, R426). -/
def Chip.stallHeld (k : Chip) (v c s : Nat) : Option Stall :=
  let t := k.stream v c s
  let push (h n : Nat) : Option Stall := (k.pushHold v c s h).map (fun p => { kind := p.1, index := p.2, since := n })
  match t.stall with
  | some st => if st.kind = 2 ∧ k.headOf v c st.index ≠ [] then none else some st
  | none =>
    match t.oldest with
    | some (.push h _ n) => push h n
    | some (.fence h n) => push h n
    | some (.chain r run _) => if s = 2 then k.chainStall v c r run else none
    | _ => none

/-- R451: since when a stall of stream `s` has had the party that it waits on (Table 9.5). -/
def Chip.partySince (k : Chip) (v c s : Nat) (st : Stall) : Nat :=
  let x := k.core v c
  let q := k.hoop v c st.index
  let here (n : Nat) : Nat := if (k.hoopCfg v c st.index).route = 1 then n else 0
  match st.kind with
  | 1 => match lookup none x.syncLast st.index with | some l => max st.since l.since | none => st.since
  | 2 => if st.index = 16 then st.since else max st.since (here q.pushAt)
  | 3 => max st.since (max q.openAt (here q.popAt))
  | 4 => max st.since q.openAt
  | 5 => match (x.stream s).hold with
    | some (.bar id mask) => x.barSince id mask st.since
    | _ => st.since
  | _ => st.since

/-- R450, R683: a stream's stall, without break since when; one that a debug write holds is not stalled. -/
def Chip.stallOf (k : Chip) (v c s : Nat) : Option Stall :=
  if k.debugHeld v c s then none
  else (k.stallHeld v c s).map (fun st => { st with since := max st.since (k.stream v c s).freedAt })

/-- Core cycles in a number of nanoseconds (CORE_CLOCK.MODE: 1.4 or 1.6 GHz). -/
def Chip.coreCycles (k : Chip) (v c ns : Nat) : Nat :=
  if k.flag (Reg.coreClock v c) 0 then ns * 8 / 5 else ns * 7 / 5

/-- What the monitor would report, with the time from which it has held. -/
structure Finding where
  kind  : Nat
  a     : Nat
  b     : Nat
  mask  : Nat
  since : Nat
deriving DecidableEq, Repr

/-- The streams met from `s` on, each stalled on the next, until one repeats. -/
def Chip.waitChain (k : Chip) (v c : Nat) : Nat → Nat → List Nat
  | 0, _ => []
  | fuel + 1, s =>
    match k.stallOf v c s with
    | some st => s :: (if k.stallParty v c s st < 5 then Chip.waitChain k v c fuel (k.stallParty v c s st) else [])
    | none => []

/-- R452: the cycle of stalled streams whose lowest is `s`. -/
def Chip.deadlockAt (k : Chip) (v c s : Nat) : Option Finding :=
  let ws := k.waitChain v c 6 s
  let cyc := s :: (ws.drop 1).takeWhile (fun t => t ≠ s)
  if (ws.drop 1).contains s && 2 ≤ cyc.length && cyc.all (fun t => s ≤ t) then
    some { kind := 1, a := s, b := (cyc.drop 1).foldl min 7, mask := (cyc.map (2 ^ ·)).sum
           since := (cyc.map (fun t => match k.stallOf v c t with | some st => k.partySince v c t st | none => 0)).foldl max 0 }
  else none

/-- Table 9.6: ABSENT and LONG_WAIT of stream `s`. -/
def Chip.waitFinding (k : Chip) (v c s : Nat) : Option Finding :=
  match k.stallOf v c s with
  | none => none
  | some st =>
    let p := k.stallParty v c s st
    if p < 5 then
      let o := k.stream v c p
      if o.run = .idle ∨ o.run = .fault then
        some { kind := 2, a := s, b := p, mask := 0, since := max (k.partySince v c s st) o.stoppedAt }
      else none
    else some { kind := 3, a := s, b := p, mask := 0, since := k.partySince v c s st }

/-- R453: no stream that the finding names is one of an episode already reported. -/
def Chip.fresh (k : Chip) (v c : Nat) (f : Finding) : Bool :=
  (List.range 5).all (fun s => !(s = f.a || s = f.b || f.mask.testBit s) || !(k.stream v c s).reported)

/-- R458: a resource field. -/
def Chip.resOf (k : Chip) (v c s : Nat) : Nat :=
  if s < 5 then match k.stallOf v c s with | some st => st.kind * 64 + st.index % 64 | none => 0 else 0

/-- R451, R454: a finding reported: the record and its vector 19 (R651), unless one is held, the error log,
and the streams named. -/
def Chip.reportStall (k : Chip) (v c : Nat) (f : Finding) : Chip :=
  let o := Reg.stallReport v c
  let named (s : Nat) : Bool := s = f.a || s = f.b || f.mask.testBit s
  let k' :=
    if k.flag o 31 then k.raise o 30
    else
      let k' := ((((k.setF o 25 24 f.kind).setF o 20 16 f.mask).setF o 10 8 f.b).setF o 2 0 f.a).raise o 31
      let k' := (k'.setF (Reg.stallReportRes v c) 24 16 (k.resOf v c f.b)).setF (Reg.stallReportRes v c) 8 0 (k.resOf v c f.a)
      (k'.setF (Reg.stallReportTime v c) 63 0 k.now).msix 19
  let x := k'.core v c
  let k' := k'.setCore v c { x with streams := x.streams.mapIdx (fun s t => if named s then { t with reported := true } else t) }
  k'.logStream 0x13 v c f.a f.kind

/-- STALL_REPORT (R451 to R455): the first condition of Table 9.6 that has held for 2^THRESHOLD core cycles. -/
def execStallReport (v c : Nat) (s : State) : Host.Outcome State Fault Refusal :=
  s.onVat (s.hasCore v c) v (fun k =>
    let ripe (f : Finding) : Bool :=
      k.fresh v c f && 2 ^ k.getF (Reg.stallCtl v c) 4 0 ≤ k.coreCycles v c (k.now - f.since)
    let all := (List.range 5).filterMap (k.deadlockAt v c) ++
      ((List.range 5).filterMap (k.waitFinding v c)).mergeSort (fun x y => x.kind ≤ y.kind)
    match all.find? ripe with
    | some f => k.reportStall v c f
    | none => k)

end Sys2Proof.Machine
end

