-- ==== Sys2Proof/Machine/Press.lean ====
section
/-!
DEFINITION. Class 3, the press (R280 to R291, R382, Tables 6.3, 8.8 and 8.9), and the accumulator file (R77, R78, R292 to R294).
-/

namespace Sys2Proof.Machine

/-! ### The accumulator file -/

/-- The place of word `w` of row `r` of a set. -/
def accAt (set r w : Nat) : Nat := (set * 128 + r) * 128 + w

/-- A word of the accumulator file. -/
def Core.accWord (x : Core) (set r w : Nat) : Int := (lookup 0 x.acc (accAt set r w)).toInt

/-- The core with a word of the accumulator file replaced. -/
def Core.setAcc (x : Core) (set r w : Nat) (a : Int) : Core :=
  { x with acc := store 0 x.acc (accAt set r w) (BitVec.ofInt 48 a) }

/-- The tile exponent a set holds, and whether it has been cleared or loaded (R77, R294). -/
def Core.texp (x : Core) (set : Nat) : Bool × BitVec 8 := x.accT.getD set (false, 0)

/-- R77: a set latches a tile exponent. -/
def Core.latchT (x : Core) (set : Nat) (t : BitVec 8) : Core := { x with accT := setAt x.accT set (true, t) }

/-- R286: every word of a set zero, and the tile exponent latched. -/
def Core.clearSet (x : Core) (set : Nat) (t : BitVec 8) : Core :=
  { (x.latchT set t) with acc := x.acc.filter (fun a => a.1 < accAt set 0 0 || accAt (set + 1) 0 0 ≤ a.1) }

/-! ### Passes -/

/-- Table 8.9: the record's fields; the Bool says that every reserved field is zero. -/
def passOf (bs : List Byte) : PassRec × Bool :=
  let ws := words64 bs 4
  let w (i : Nat) : Nat := ws.getD i 0
  ({ act := bitsAt (w 0) 21 0, actStride := bitsAt (w 0) 37 22, actSc := bitsAt (w 0) 59 38, fmtA := bitsAt (w 0) 63 60
     actScStride := bitsAt (w 1) 11 0, m := bitsAt (w 1) 19 12, row0 := bitsAt (w 1) 26 20, kb := bitsAt (w 1) 30 27
     wreuse := bitsAt (w 1) 31 31 = 1, w := bitsAt (w 1) 53 32, fmtW := bitsAt (w 1) 57 54, set := bitsAt (w 1) 59 58
     clear := bitsAt (w 1) 60 60 = 1, wSc := bitsAt (w 2) 21 0, texp := signedOf 8 (bitsAt (w 2) 29 22) },
   bitsAt (w 1) 63 61 = 0 && bitsAt (w 2) 63 30 = 0 && w 3 = 0)

/-- R284: a format the press accepts. -/
def pressFmt (code : Nat) : Option Fmt := if code = 0 then some .s8 else if code = 2 then some .s4 else none

/-- Bytes of a unit of a press format. -/
def pressUnit (code : Nat) : Nat := if code = 2 then 16 else 32

/-- R281, R282: the runs of the operand cache that a pass reads, with their alignment: activation rows and scales, then the
weight tile's columns and scales. -/
def PassRec.reads (r : PassRec) : List (Nat × Nat × Nat) :=
  (List.range r.m).flatMap (fun i =>
    [(r.act + i * r.actStride, r.kb * pressUnit r.fmtA, 32), (r.actSc + i * r.actScStride, 2 * r.kb, 2)])
  ++ if r.wreuse then [] else
    (List.range 128).flatMap (fun n => [(r.w + 128 * n, r.kb * pressUnit r.fmtW, 128), (r.wSc + 2 * r.kb * n, 2 * r.kb, 2)])

/-- R285: KB and FMT_W of the tile that will be active before this pass: that of the last pass issued, else the active one. -/
def Core.tileAhead (x : Core) : Option (Nat × Nat) :=
  (x.stream 1).inflight.foldl (fun t f => match f with | .pass r .. => some (r.kb, r.fmtW) | _ => t)
    (x.tile.map (fun t => (t.kb, t.fmtW)))

/-- R78: the tile exponent the set will hold before this pass, those issued and incomplete included. -/
def Core.texpAhead (x : Core) (set : Nat) : BitVec 8 :=
  (x.stream 1).inflight.foldl (fun t f => match f with
    | .pass r .. => if r.clear && r.set = set then BitVec.ofInt 8 r.texp else t
    | .pclr s e => if s = set then e else t
    | _ => t) (x.texp set).2

/-- R285: a pass's checks, in order, before it changes anything. -/
def Core.passFault (x : Core) (r : PassRec) : Option CoreCause :=
  if (pressFmt r.fmtA).isNone || (pressFmt r.fmtW).isNone then some .formatUnsupported
  else if r.m = 0 || 128 < r.m || 128 < r.row0 + r.m || r.kb = 0 || (if r.fmtW = 2 then 8 else 4) < r.kb
    || r.actStride % 32 ≠ 0 || r.actScStride % 2 ≠ 0 || (r.wreuse && x.tileAhead ≠ some (r.kb, r.fmtW)) then some .pressGeometry
  else if !r.clear && x.texpAhead r.set ≠ BitVec.ofInt 8 r.texp then some .texpMismatch
  else none

/-- The blocks of a run of `kb` blocks in the operand cache, as (scale, codes). -/
def Core.blocksAt (x : Core) (f : Fmt) (data scale kb : Nat) : List (Nat × List Int) :=
  (List.range kb).map (fun k =>
    (leNat (x.ocBytes (scale + 2 * k) 2), unpackBlock f (x.ocBytes (data + k * f.unitBytes) f.unitBytes)))

/-- R281: the weight tile a pass loads. -/
def Core.tileOf (x : Core) (r : PassRec) : Tile :=
  let f := (pressFmt r.fmtW).getD .s8
  { kb := r.kb, fmtW := r.fmtW
    cols := (List.range 128).map (fun n => x.blocksAt f (r.w + 128 * n) (r.wSc + 2 * r.kb * n) r.kb) }

/-- R283: the block pairs of one row and one column, in ascending k, added into a word. -/
def accPairs (t : Int) (word : Int) : List (Nat × List Int) → List (Nat × List Int) → Int × Bool
  | a :: as, b :: bs =>
    let r := accPair 48 t word a.1 a.2 b.1 b.2
    let q := accPairs t r.1 as bs
    (q.1, r.2 || q.2)
  | _, _ => (word, false)

/-- R283, R286: a pass performed: the core afterwards, and ACC_SAT. -/
def Core.runPass (x : Core) (r : PassRec) : Core × Bool :=
  let tile := if r.wreuse then x.tile.getD { kb := 0, fmtW := 0, cols := [] } else x.tileOf r
  let f := (pressFmt r.fmtA).getD .s8
  let x1 := { x with tile := some tile }
  let x1 := if r.clear then x1.clearSet r.set (BitVec.ofInt 8 r.texp) else x1
  (List.range r.m).foldl (fun (a : Core × Bool) i =>
    let act := x.blocksAt f (r.act + i * r.actStride) (r.actSc + i * r.actScStride) r.kb
    (tile.cols.zipIdx).foldl (fun (a : Core × Bool) col =>
      let s := accPairs r.texp (a.1.accWord r.set (r.row0 + i) col.2) act col.1
      (a.1.setAcc r.set (r.row0 + i) col.2 s.1, a.2 || s.2)) a) (x1, false)

/-! ### Meanings -/

/-- Form Q of a class-3 word: D and B ZERO. -/
def pressForm (q : QForm) : Bool := q.d = endZero && q.b = endZero

/-- R382: the press's queue of two issued passes is full. A pass leaves it when its last row has entered the array, which no command of the
table shows; in the model it leaves when it completes, 24 cycles later (log entry 33). -/
def Chip.pressFull (k : Chip) (v c : Nat) : Bool :=
  2 ≤ ((k.stream v c 1).inflight.filter (fun f => match f with | .pass .. => true | _ => false)).length

/-- PASS. -/
def execPass (u : IssueUnit) (ops : BitVec 56) (s : State) : Host.Outcome State Fault Refusal :=
  let q := qForm ops
  s.onChip (s.hasUnit u) (fun k => issueT k u 0x60 ops (useD + useA + useB + useX + useI) (fun _ _ _ => pressForm q)
    (fun v c t k =>
      if k.pressFull v c then .wait else
      match k.fetchRecord v c t q 32 with
      | .illegal => .fault .illegal k
      | .stall a b => .stall a b
      | .fault f k' => .fault f k'
      | .done bs k' =>
        let (r, ok) := passOf bs
        if !ok then .fault .cmdInvalid k else
        match (k'.core v c).passFault r with
        | some f => .fault f k
        | none =>
          match (k'.core v c).firstOcFault r.reads true with
          | some (f, a, n) => .fault f (k.noteOc v c a n f)
          | none => .step (k'.inflight v c t (.pass r (k.seqOf v c t)))))

/-- PCLR. -/
def execPclr (u : IssueUnit) (ops : BitVec 56) (s : State) : Host.Outcome State Fault Refusal :=
  let q := qForm ops
  s.onChip (s.hasUnit u) (fun k => issueT k u 0x61 ops (useD + useB + 0x3FF) (fun _ _ _ => pressForm q)
    (fun v c t k =>
      if k.pressFull v c then .wait else
      .step (k.inflight v c t (.pclr (bitsAt q.imm 1 0) (BitVec.ofNat 8 (bitsAt q.imm 9 2))))))

/-- PRESS_PASS_COMPLETE (R289): the oldest pass or clear of the press completes; a pass that reads an uncorrectable word of
the operand cache faults instead and changes nothing (R279, R311): PASS met none, so one was made while the pass waited. -/
def execPressPassComplete (v c : Nat) (s : State) : Host.Outcome State Fault Refusal :=
  s.onVat (s.hasCore v c) v (fun k =>
    let x := k.core v c
    match (x.stream 1).oldest with
    | some (.pass r sq) =>
      match x.firstOcFault r.reads true with
      | some (f, a, n) => (k.noteOc v c a n f).coreFault v c 1 f.code sq
      | none =>
        let y := x.runPass r
        let k := ((k.setCore v c y.1).coreFlag v c .accSat y.2).count (Reg.corePressRows v c) r.m
        k.finish v c 1 (.pass r sq)
    | some (.pclr set t) => (k.setCore v c (x.clearSet set t)).finish v c 1 (.pclr set t)
    | _ => k)

end Sys2Proof.Machine
end

