-- ==== Sys2Proof/Machine/Vector.lean ====
section
/-!
DEFINITION. Class 4, the vector engine (R295 to R302, R383, R384, Tables 6.5 and 8.10 to 8.12).
-/

namespace Sys2Proof.Machine

/-! ### The chain record (Tables 8.11 and 8.11a) -/

/-- Words 1 and 2. -/
def chainSource (w : Nat) : ChainSrc :=
  { kind := bitsAt w 1 0, present := bitsAt w 2 2 = 1, sclr := bitsAt w 3 3 = 1, fmt := bitsAt w 7 4
    u := signedOf 8 (bitsAt w 15 8), loc := bitsAt w 37 16, stride := signedOf 16 (bitsAt w 53 38) }

/-- A stage word. -/
def stageOf (w : Nat) : Stage :=
  { op := bitsAt w 3 0, func := bitsAt w 9 4, opnd := bitsAt w 11 10, reg := bitsAt w 16 12, rsvd := bitsAt w 31 17 }

/-- Table 8.11; the Bool says that every reserved field is zero. -/
def chainOf (bs : List Byte) : ChainRec × Bool :=
  let ws := words64 bs 8
  let w (i : Nat) : Nat := ws.getD i 0
  let stages := (List.range 6).map (fun i => stageOf (bitsAt (w (4 + i / 2)) (32 * (i % 2) + 31) (32 * (i % 2))))
  ({ words := ws, count := bitsAt (w 0) 15 0, nst := bitsAt (w 0) 18 16, srcA := chainSource (w 1), srcB := chainSource (w 2)
     kind := bitsAt (w 3) 1 0, amode := bitsAt (w 3) 3 2, fmt := bitsAt (w 3) 7 4, u := signedOf 8 (bitsAt (w 3) 15 8)
     texp := signedOf 8 (bitsAt (w 3) 23 16), loc := bitsAt (w 3) 45 24, stride := signedOf 16 (bitsAt (w 3) 61 46)
     cont := bitsAt (w 3) 62 62 = 1, stages := stages, scaddr := bitsAt (w 7) 21 0
     scstride := signedOf 16 (bitsAt (w 7) 37 22) },
   bitsAt (w 0) 63 19 = 0 && bitsAt (w 1) 63 54 = 0 && bitsAt (w 2) 63 54 = 0 && bitsAt (w 3) 63 63 = 0
     && bitsAt (w 7) 63 38 = 0 && stages.all (fun t => t.rsvd = 0))

/-- The stages a chain runs. -/
def ChainRec.used (r : ChainRec) : List Stage := r.stages.take r.nst

/-- R384: the stage takes a second operand. -/
def Stage.takesB (t : Stage) : Bool := t.op = 1 || t.op = 4 || (t.op = 0 && laneNeedsB t.func)

/-- R384, Table 8.11a: a stage word in range; OPND 0 stands only in the first stage that takes a second operand. -/
def Stage.ok (t : Stage) (first : Bool) : Bool :=
  (match t.op with
    | 0 => laneCodeOk false t.func
    | 1 => t.func < 32
    | 2 | 3 | 4 => t.func = 0
    | 5 => t.func ≤ 1
    | _ => false)
  && (if t.takesB then (t.opnd = 0 && first) || (t.opnd = 1 && t.reg < 16) || t.opnd = 2 else t.opnd = 3)

/-- The stages are in range; `first` says that no stage so far took a second operand. -/
def stagesOk : Bool → List Stage → Bool
  | _, [] => true
  | first, t :: ts => t.ok first && stagesOk (first && !t.takesB) ts

/-- The first stage that takes a second operand takes it from source B (R298). -/
def ChainRec.usesB (r : ChainRec) : Bool := r.used.any (fun t => t.takesB && t.opnd = 0)

/-- R299: QUANT is the last stage of a chain if it has one, and the format it makes. -/
def ChainRec.quant (r : ChainRec) : Option Fmt :=
  match r.used.getLast? with
  | some t => if t.op = 5 then some (if t.func = 0 then .s8 else .s4) else none
  | none => none

/-- An OC source format that holds blocks. -/
def ocBlock (fmt : Nat) : Option Fmt := if fmt = 0 then some .s8 else if fmt = 2 then some .s4 else none

/-- Table 8.11: an ACC position: set, row and first word. -/
def accLoc (loc : Nat) : Nat × Nat × Nat := (bitsAt loc 1 0, bitsAt loc 8 2, bitsAt loc 15 9)

/-- Rows `row + i × stride` for `i < count` all lie in a set, and the segment in its row. -/
def accOk (loc count : Nat) (stride : Int) (vl : Nat) : Bool :=
  let p := accLoc loc
  let last : Int := p.2.1 + ((count : Int) - 1) * stride
  p.2.2 + vl ≤ 128 && decide (0 ≤ last) && decide (last ≤ 127) && loc < 2 ^ 16

/-- Table 8.11: a source in range. -/
def ChainSrc.ok (x : ChainSrc) (count vl : Nat) : Bool :=
  match x.kind with
  | 0 => x.fmt = 6 && accOk x.loc count x.stride vl
  | 1 => !x.sclr && (x.fmt = 0 || x.fmt = 2 || x.fmt = 4 || x.fmt = 5) && ((ocBlock x.fmt).isNone || vl % 32 = 0)
  | _ => !x.sclr && x.fmt = 0 && x.loc < 16 && x.stride = 0

/-- Table 8.11: the sink in range and fit for the stages (R299). -/
def ChainRec.sinkOk (r : ChainRec) (vl : Nat) : Bool :=
  (r.kind = 2 || r.amode = 0) &&
  match r.kind with
  | 0 => r.fmt = 0 && r.loc < 16 && r.stride = 0 && r.quant.isNone
  | 1 =>
    (match r.quant with
      | some f => ocBlock r.fmt = some f && vl % 32 = 0
      | none => r.fmt = 4 || r.fmt = 5 || r.fmt = 6)
  | 2 => r.fmt = 6 && r.amode ≤ 2 && r.quant.isNone && accOk r.loc r.count r.stride vl
  | _ => r.fmt = 0 && r.loc < 16 && r.stride = 0 && r.quant.isNone

/-- R299, R384: the record is a chain that can run at this VL. -/
def ChainRec.ok (r : ChainRec) (vl : Nat) : Bool :=
  1 ≤ r.count && r.nst ≤ 6 && r.srcA.present && r.sources.all (fun x => x.ok r.count vl) && stagesOk true r.used
  && (r.usesB = r.srcB.present) && (r.used.dropLast.all (fun t => t.op ≠ 5)) && r.sinkOk vl

/-! ### Operand-cache accesses of a chain -/

/-- Bytes of one vector in an operand-cache format. -/
def ocVecBytes (fmt vl : Nat) : Nat :=
  match fmt with
  | 0 => vl | 2 => vl / 2 | 4 => 2 * vl | 5 => 4 * vl | _ => 8 * vl

/-- An address computed with a signed stride, as an operand-cache address; a negative one is out of range. -/
def ocAddrOf (a : Int) : Nat := if a < 0 then 2 ^ 22 else a.toNat

/-- The operand-cache reads of a source. -/
def ChainSrc.reads (x : ChainSrc) (count vl : Nat) : List (Nat × Nat × Nat) :=
  if x.kind = 1 then
    (List.range count).map (fun i => (ocAddrOf ((x.loc : Int) + i * x.stride), ocVecBytes x.fmt vl, 1))
  else []

/-- The operand-cache writes of a chain's sink. -/
def ChainRec.writes (r : ChainRec) (vl : Nat) : List (Nat × Nat × Nat) :=
  if r.kind = 1 then
    (List.range r.count).flatMap (fun i =>
      (ocAddrOf ((r.loc : Int) + i * r.stride), ocVecBytes r.fmt vl, 1) ::
      if r.quant.isSome then [(ocAddrOf ((r.scaddr : Int) + i * r.scstride), 2 * (vl / 32), 2)] else [])
  else []

/-! ### Sources -/

/-- Sixteen lanes of a hoop entry. -/
def entryLanes (d : BitVec 512) : List Int := (List.range 16).map (fun i => signedOf 32 (bitsAt d.toNat (32 * i + 31) (32 * i)))

/-- R85 for a lane of exponent `u`; U = −15 is narrowed to Q1.15 too (R82). -/
def laneRead (t u a : Int) : Int × Bool :=
  let x := laneOfA48 t u a
  if u = -15 then let y := q15Narrow x.1; (y.1, x.2 || y.2) else x

/-- A vector register's lanes. -/
def Core.vreg (x : Core) (n vl : Nat) : List Int := (lookupRun 0 x.vregs (128 * n) vl).map (·.toInt)

/-- The lanes of one operand-cache vector, and LANE_SAT. -/
def Core.ocVector (x : Core) (words : List Nat) (which : Nat) (src : ChainSrc) (i vl : Nat) : List Int × Bool :=
  let a := ocAddrOf ((src.loc : Int) + i * src.stride)
  match ocBlock src.fmt with
  | some f =>
    let rs := (List.range (vl / 32)).flatMap (fun b =>
      let s := (Config.sourceScale words which (i * (vl / 32) + b)).toNat
      (unpackBlock f (x.ocBytes (a + b * f.unitBytes) f.unitBytes)).map (fun c =>
        clampBits 32 (roundScale (codeMant s c) ((scaleExp s : Int) - 135 - src.u))))
    (rs.map (·.1), rs.any (·.2))
  | none =>
    let w := if src.fmt = 4 then 2 else 4
    ((List.range vl).map (fun n => signedOf (8 * w) (leNat (x.ocBytes (a + w * n) w))), false)

/-- One vector of a source other than a hoop, and LANE_SAT (Table 6.5). -/
def Core.sourceVector (x : Core) (words : List Nat) (which : Nat) (src : ChainSrc) (i vl : Nat) (got : List (BitVec 512)) :
    List Int × Bool :=
  match src.kind with
  | 0 =>
    let p := accLoc src.loc
    let row := ((p.2.1 : Int) + i * src.stride).toNat
    let t := (x.texp p.1).2.toInt
    let rs := (List.range vl).map (fun n => laneRead t src.u (x.accWord p.1 row (p.2.2 + n)))
    (rs.map (·.1), rs.any (·.2))
  | 1 => x.ocVector words which src i vl
  | 2 => (x.vreg src.loc vl, false)
  | _ => ((got.flatMap entryLanes).take vl, false)

/-- R300: store-and-clear zeroes the words read. -/
def Core.clearRead (x : Core) (src : ChainSrc) (i vl : Nat) : Core :=
  if src.kind = 0 ∧ src.sclr then
    let p := accLoc src.loc
    let row := ((p.2.1 : Int) + i * src.stride).toNat
    (List.range vl).foldl (fun x n => x.setAcc p.1 row (p.2.2 + n) 0) x
  else x

/-! ### Stages -/

/-- One stage on the lanes below VL (Table 6.5); QUANT acts at the sink. -/
def stageRun (t : Stage) (a b : List Int) : List Int × NumSet :=
  let zip2 (f : Int → Int → Int × Bool) : List Int × NumSet :=
    let rs := a.zipWith f b
    (rs.map (·.1), { laneSat := rs.any (·.2) })
  match t.op with
  | 0 => if t.takesB then zip2 (laneFn t.func 0) else
      let rs := a.map (fun x => laneFn t.func 0 x 0)
      (rs.map (·.1), { laneSat := rs.any (·.2) })
  | 1 => zip2 (fun x y => laneMul x y t.func)
  | 2 => (a.map exp2Q15, {})
  | 3 =>
    let rs := a.map rcpQ15
    (rs.map (·.1), { div0 := rs.any (·.2) })
  | 4 =>
    let bad (p : Int) : Bool := decide (p < 0) || decide ((a.length : Int) ≤ p)
    (b.map (fun p => if bad p then 0 else a.getD p.toNat 0), { permOor := b.any bad })
  | _ => (a, {})

/-- The stages in order, each with its second operand. -/
def Core.runStages (x : Core) (vl : Nat) (b : List Int) : List (Stage × Lane) → List Int → NumSet → List Int × NumSet
  | [], a, n => (a, n)
  | (t, sc) :: ts, a, n =>
    let y := match t.opnd with
      | 0 => b
      | 1 => x.vreg t.reg vl
      | 2 => List.replicate vl sc.toInt
      | _ => []
    let r := stageRun t a y
    Core.runStages x vl b ts r.1 (n.or r.2)

/-! ### Sinks -/

/-- Lanes split into blocks of 32. -/
def blocks32 (l : List Int) : List (List Int) := (List.range (l.length / 32)).map (fun b => (l.drop (32 * b)).take 32)

/-- One vector into an operand-cache sink. Of format A48 it converts with the record's TEXP, which Table 8.11 names for the ACC sink only
(DESIGN CHOICE, log entry 71). -/
def Core.sinkOc (x : Core) (r : ChainRec) (i : Nat) (l : List Int) : Core × NumSet :=
  let a := ocAddrOf ((r.loc : Int) + i * r.stride)
  match r.quant with
  | some f =>
    let qs := (blocks32 l).map (quantise f r.u)
    let x := x.ocWrite a (qs.flatMap (fun q => packBlock f q.codes)) false
    (x.ocWrite (ocAddrOf ((r.scaddr : Int) + i * r.scstride)) (qs.flatMap (fun q => leBytes 2 q.scale)) false
    , { qsat := qs.any (·.qsat) })
  | none =>
    match r.fmt with
    | 4 =>
      let ns := l.map q15Narrow
      (x.ocWrite a (ns.flatMap (fun n => leBytes 2 (bitsOf 16 n.1))) false, { laneSat := ns.any (·.2) })
    | 5 => (x.ocWrite a (l.flatMap (fun n => leBytes 4 (bitsOf 32 n))) false, {})
    | _ =>
      let ns := l.map (a48OfLane r.u r.texp)
      (x.ocWrite a (ns.flatMap (fun n => a48Bytes n.1)) false, { laneSat := ns.any (·.2), accSat := ns.any (·.2) })

/-- One vector into an accumulator sink (R86, R300). Under AMODE 2 a lane at a saturation value is added as the number ±2^47 that R86 gives, and
ACC_SAT is set by its conversion's clamp too (DESIGN CHOICE, log entry 71). Under AMODE 1 the set latches its exponent with the chain's first vector
(DESIGN CHOICE, log entry 81). -/
def Core.sinkAcc (x : Core) (r : ChainRec) (i : Nat) (l : List Int) : Core × NumSet :=
  let p := accLoc r.loc
  let row := ((p.2.1 : Int) + i * r.stride).toNat
  let x := if r.amode = 1 then x.latchT p.1 (BitVec.ofInt 8 r.texp) else x
  l.zipIdx.foldl (fun (a : Core × NumSet) e =>
    let w := a48OfLane r.u r.texp e.1
    if r.amode = 2 then
      let s := accStep 48 (a.1.accWord p.1 row (p.2.2 + e.2)) w.1
      (a.1.setAcc p.1 row (p.2.2 + e.2) s.1, a.2.or { laneSat := w.2, accSat := w.2 || s.2 })
    else (a.1.setAcc p.1 row (p.2.2 + e.2) w.1, a.2.or { laneSat := w.2, accSat := w.2 })) (x, {})

/-- One vector into a vector register: lanes at or above VL stay (R297). -/
def Core.sinkReg (x : Core) (n : Nat) (l : List Int) : Core :=
  { x with vregs := storeRun 0 x.vregs (128 * n) (l.map (BitVec.ofInt 32)) }

/-- The entries of one vector: 16 lanes each. -/
def vectorEntries (l : List Int) : List (BitVec 512) :=
  (List.range ((l.length + 15) / 16)).map (fun e =>
    entryOfBytes ((List.range 16).flatMap (fun n =>
      let i := 16 * e + n
      leBytes 4 (if i < l.length then bitsOf 32 (l.getD i 0) else (Config.hoopFill l i).toNat))))

/-! ### Running a chain -/

/-- What collecting a vector's entries comes to. -/
inductive Collect where
  | short (k : Chip) (got : List (BitVec 512))
  | poison (k : Chip)
  | full (k : Chip) (got : List (BitVec 512))

/-- R414, R421: the entries of one vector, each popped when it is there. -/
def Chip.collect (v c s : Nat) : List Nat → Chip → List (BitVec 512) → Collect
  | [], k, got => .full k got
  | h :: hs, k, got =>
    match k.headFor v c s h with
    | [] => .short k got
    | e :: _ =>
      if e.poison then .poison (k.notePoison v c h) else Chip.collect v c s hs (k.popEntry v c s h) (got ++ [e.data])

/-- R421: entries pushed in order as room allows: those left. -/
def Chip.drain (v c s h : Nat) : Nat → Chip → List Entry → Chip × List Entry
  | 0, k, out => (k, out)
  | _, k, [] => (k, [])
  | fuel + 1, k, e :: rest =>
    if (k.pushHold v c s h).isNone then Chip.drain v c s h fuel (k.landEntry v c h e) rest else (k, e :: rest)

/-- One vector of a chain, its hoop entries at hand: the chip, and the entries its sink pushes. -/
def Chip.chainVector (k : Chip) (v c : Nat) (r : ChainRec) (run : ChainRun) : Chip × List Entry :=
  let x := k.core v c
  let vl := x.vl
  let i := run.done
  let nA := if r.srcA.kind = 3 then (vl + 15) / 16 else 0
  let a := x.sourceVector r.words 0 r.srcA i vl (run.got.take nA)
  let b := if r.srcB.present then x.sourceVector r.words 1 r.srcB i vl (run.got.drop nA) else ([], false)
  let st := x.runStages vl b.1 (r.used.zip run.scalars) a.1 { laneSat := a.2 || b.2 }
  let x := x.clearRead r.srcA i vl
  let x := if r.srcB.present then x.clearRead r.srcB i vl else x
  match r.kind with
  | 0 => ((k.setCore v c (x.sinkReg r.loc st.1)).setNum v c st.2, [])
  | 1 => let y := x.sinkOc r i st.1; ((k.setCore v c y.1).setNum v c (st.2.or y.2), [])
  | 2 => let y := x.sinkAcc r i st.1; ((k.setCore v c y.1).setNum v c (st.2.or y.2), [])
  | _ =>
    let es := vectorEntries st.1
    ((k.setCore v c x).setNum v c st.2,
     es.mapIdx (fun n d =>
      { data := d, last := i + 1 = r.count && n + 1 = es.length && !r.cont, fence := false, poison := false, src := 2 }))

/-- What a chain comes to when it goes as far as it can. -/
inductive ChainRes where
  | going (k : Chip) (run : ChainRun)
  | poison (k : Chip)
  | finished (k : Chip)

/-- A chain run on, vector by vector. -/
def Chip.chainGo (v c : Nat) (r : ChainRec) : Nat → Chip → ChainRun → ChainRes
  | 0, k, run => .going k run
  | fuel + 1, k, run =>
    let d := Chip.drain v c 2 r.loc 8 k run.out
    if d.2 ≠ [] then .going d.1 { run with out := d.2 }
    else if run.done = r.count then .finished d.1
    else
      let vl := (d.1.core v c).vl
      match Chip.collect v c 2 ((r.needs vl).drop run.got.length) d.1 run.got with
      | .short k' got => .going k' { run with got := got, out := [] }
      | .poison k' => .poison k'
      | .full k' got =>
        let y := k'.chainVector v c r { run with got := got }
        Chip.chainGo v c r fuel y.1 { run with done := run.done + 1, got := [], out := y.2 }

/-- A chain whose sink is no hoop: it pops the entries of its vectors as they come (R421), and with the last of them it computes and writes every
vector, in order. So a poisoned entry finds nothing of it written (R311, R308); the entries popped before are gone (log entry 70). -/
def Chip.chainWhole (k : Chip) (v c : Nat) (r : ChainRec) (run : ChainRun) : ChainRes :=
  let one := r.needs (k.core v c).vl
  match Chip.collect v c 2 (((List.replicate r.count one).flatten).drop run.got.length) k run.got with
  | .short k' got => .going k' { run with got := got }
  | .poison k' => .poison k'
  | .full k' got =>
    .finished ((List.range r.count).foldl (fun k i =>
      (k.chainVector v c r { run with done := i, got := (got.drop (i * one.length)).take one.length }).1) k')

/-- A chain run as far as it comes. -/
def Chip.chainRun (k : Chip) (v c : Nat) (r : ChainRec) (run : ChainRun) : ChainRes :=
  if r.kind = 3 then Chip.chainGo v c r (r.count + 1) k run else k.chainWhole v c r run

/-! ### The soft maximum (R90 to R95, R301, Table 8.12) -/

/-- Table 8.12; the Bool says that every reserved field is zero and every field without a fault of its own in range. -/
def smaxOf (bs : List Byte) : SmaxRec × Bool :=
  let ws := words64 bs 4
  let w (i : Nat) : Nat := ws.getD i 0
  let r : SmaxRec :=
    { l := bitsAt (w 0) 15 0, rowsM1 := bitsAt (w 0) 22 16, vrsBase := bitsAt (w 0) 29 23, kind := bitsAt (w 0) 30 30
      src := bitsAt (w 1) 21 0, srcStride := bitsAt (w 1) 37 22, mask := bitsAt (w 2) 21 0, maskStride := bitsAt (w 2) 37 22
      out := bitsAt (w 3) 21 0, outStride := bitsAt (w 3) 37 22 }
  (r, bitsAt (w 0) 63 31 = 0 && (List.range 3).all (fun i => bitsAt (w (i + 1)) 63 38 = 0) && r.vrsBase + r.rowsM1 ≤ 127
    && r.maskStride % 8 = 0 && r.outStride % 2 = 0
    && (r.kind = 1 || (r.src < 2 ^ 9 && r.srcStride = 0 && bitsAt r.src 8 2 + r.rowsM1 ≤ 127)))

/-- The operand-cache reads of a soft maximum. -/
def SmaxRec.reads (r : SmaxRec) : List (Nat × Nat × Nat) :=
  (List.range (r.rowsM1 + 1)).flatMap (fun i =>
    (r.mask + i * r.maskStride, (r.l + 7) / 8, 8) ::
    if r.kind = 1 then [(r.src + i * r.srcStride, 4 * r.l, 4)] else [])

/-- Its operand-cache writes. -/
def SmaxRec.writes (r : SmaxRec) : List (Nat × Nat × Nat) :=
  (List.range (r.rowsM1 + 1)).map (fun i => (r.out + i * r.outStride, 2 * r.l, 2))

/-- Row `i`'s positions, classified (R90), and LANE_SAT of reading them. -/
def Core.smaxRow (x : Core) (r : SmaxRec) (i : Nat) : List (ScoreClass × Int) × Bool :=
  let m := leNat (x.ocBytes (r.mask + i * r.maskStride) ((r.l + 7) / 8))
  if r.kind = 1 then
    ((List.range r.l).map (fun n =>
      let l := signedOf 32 (leNat (x.ocBytes (r.src + i * r.srcStride + 4 * n) 4))
      (classifyLane (m.testBit n) l, l)), false)
  else
    let set := bitsAt r.src 1 0
    let t := (x.texp set).2.toInt
    let ps := (List.range r.l).map (fun n =>
      let a := x.accWord set (bitsAt r.src 8 2 + i) n
      let l := laneOfA48 t (-16) a
      (classifyA48 (m.testBit n) a, l.1, l.2))
    (ps.map (fun p => (p.1, p.2.1)), ps.any (fun p => p.2.2))

/-- A soft maximum performed. -/
def Chip.runSmax (k : Chip) (v c : Nat) (r : SmaxRec) : Chip :=
  (List.range (r.rowsM1 + 1)).foldl (fun k i =>
    let x := k.core v c
    let row := x.smaxRow r i
    let y := softMaxRow row.1
    let x := x.ocWrite (r.out + i * r.outStride) (y.weights.flatMap (fun w => leBytes 2 (bitsOf 16 w))) false
    (k.setCore v c { x with vrs := store 0 x.vrs (r.vrsBase + i) y.status }).setNum v c
      { laneSat := row.2 || y.laneSat, div0 := y.div0, pinf := y.pinf, empty := y.empty }) k

/-! ### Meanings -/

/-- R383, R373: no class-4 instruction of the stream is incomplete. -/
def Chip.vectorFree (k : Chip) (v c : Nat) : Bool :=
  (k.stream v c 2).inflight.all (fun f => match f with | .chain .. => false | .smax .. => false | .put .. => false | _ => true)

/-- R327, R409: the hoop ends a chain names. -/
def Chip.chainEndsOk (k : Chip) (v c : Nat) (r : ChainRec) : Bool :=
  r.sources.all (fun x => x.kind ≠ 3 || (k.hoopCfg v c (x.loc % 16)).hasHead)
    && (r.kind ≠ 3 || (k.hoopCfg v c (r.loc % 16)).hasTail)

/-- The faults of a chain's own fields, in order. -/
def Core.chainFault (x : Core) (r : ChainRec) : Option CoreCause :=
  if !r.ok x.vl then some .chainInvalid
  else if r.kind = 2 && r.amode ≠ 1 && (x.texp (accLoc r.loc).1).2 ≠ BitVec.ofInt 8 r.texp then some .texpMismatch
  else none

/-- R278, R279: the first fault of a chain's operand-cache accesses. -/
def Core.chainOcFault (x : Core) (r : ChainRec) : Option (CoreCause × Nat × Nat) :=
  (x.firstOcFault (r.sources.flatMap (fun y => y.reads r.count x.vl)) true).orElse (fun _ => x.firstOcFault (r.writes x.vl) false)

/-- R278, R279: the same of a soft maximum. -/
def Core.smaxOcFault (x : Core) (r : SmaxRec) : Option (CoreCause × Nat × Nat) :=
  (x.firstOcFault r.reads true).orElse (fun _ => x.firstOcFault r.writes false)

/-- The scalar each stage broadcasts, read at issue (R272). -/
def Core.scalarsOf (x : Core) (r : ChainRec) : List Lane :=
  r.used.map (fun t => if t.opnd = 2 then (x.sregs.getD t.reg 0).setWidth 32 else 0)

/-- VCHAIN. -/
def execVchain (u : IssueUnit) (ops : BitVec 56) (s : State) : Host.Outcome State Fault Refusal :=
  let q := qForm ops
  s.onChip (s.hasUnit u) (fun k => issueT k u 0x80 ops (useA + useX + useI) (fun _ _ _ => true)
    (fun v c t k =>
      if !k.vectorFree v c then .wait else
      match k.fetchRecord v c t q 64 with
      | .illegal => .fault .illegal k
      | .stall a b => .stall a b
      | .fault f k' => .fault f k'
      | .done bs k' =>
        let (r, ok) := chainOf bs
        let x := k'.core v c
        if !k.chainEndsOk v c r then .fault .illegal k
        else if !ok then .fault .cmdInvalid k
        else match x.chainFault r with
          | some f => .fault f k
          | none =>
            match x.chainOcFault r with
            | some (f, a, n) => .fault f (k.noteOc v c a n f)
            | none =>
              let run : ChainRun := { scalars := x.scalarsOf r, done := 0, got := [], out := [], since := k.now }
              .step (k'.inflight v c t (.chain r run (k.seqOf v c t)))))

/-- VSMAX. -/
def execVsmax (u : IssueUnit) (ops : BitVec 56) (s : State) : Host.Outcome State Fault Refusal :=
  let q := qForm ops
  s.onChip (s.hasUnit u) (fun k => issueT k u 0x81 ops (useA + useX + useI) (fun _ _ _ => true)
    (fun v c t k =>
      if !k.vectorFree v c then .wait else
      match k.fetchRecord v c t q 32 with
      | .illegal => .fault .illegal k
      | .stall a b => .stall a b
      | .fault f k' => .fault f k'
      | .done bs k' =>
        let (r, ok) := smaxOf bs
        if !ok then .fault .cmdInvalid k
        else if !smaxLengthOk r.l then .fault .smaxLength k
        else if r.kind = 0 ∧ 128 < r.l then .fault .chainInvalid k
        else match (k'.core v c).smaxOcFault r with
          | some (f, a, n) => .fault f (k.noteOc v c a n f)
          | none => .step (k'.inflight v c t (.smax r (k.seqOf v c t)))))

/-- VSET (R295, R297). -/
def execVset (u : IssueUnit) (ops : BitVec 56) (s : State) : Host.Outcome State Fault Refusal :=
  let q := qForm ops
  s.onChip (s.hasUnit u) (fun k => issueT k u 0x82 ops (useD + useA + useI)
    (fun v c t => (q.d = 0x3D || (0x20 ≤ q.d && q.d < 0x30)) && scalarEnd q.a && k.popOk v c t q.a)
    (fun v c t k =>
      if !k.vectorFree v c then .wait else
      let w := k.endValue v c t q.a + BitVec.ofInt 64 q.simm
      if q.d = 0x3D ∧ (w = 0 ∨ 128 < w.toNat) then .fault .vlRange k else .step (k.inOrder v c t (.put q.d w))))

/-- VRSCLR. -/
def execVrsclr (u : IssueUnit) (ops : BitVec 56) (s : State) : Host.Outcome State Fault Refusal :=
  s.onChip (s.hasUnit u) (fun k => issueT k u 0x83 ops 0 (fun _ _ _ => true)
    (fun v c _ k =>
      if !k.vectorFree v c then .wait else .step (k.setCore v c { k.core v c with vrs := [] })))

/-- The stream of a chain that has run on: its place is kept, and when it last moved on. -/
def Chip.chainKeep (k : Chip) (v c : Nat) (r : ChainRec) (sq : Sequencer) (old new : ChainRun) : Chip :=
  let t := k.stream v c 2
  let new := if new = old then new else { new with since := k.now }
  k.setStream v c 2 { t with inflight := t.inflight.map (fun f => if f = .chain r old sq then .chain r new sq else f) }

/-- R315, R429: the instruction of the vector stream that may act next: its oldest, or a chain behind an HFLUSH that waits for the packet the
chain pushes. -/
def Chip.vectorTurn (k : Chip) (v c : Nat) : Option InFlight :=
  match (k.stream v c 2).inflight with
  | .flush h :: .chain r run sq :: _ =>
    some (if r.kind = 3 ∧ r.loc = h ∧ k.ownFlush v c 2 (.flush h) then .chain r run sq else .flush h)
  | f :: _ => some f
  | [] => none

/-- CHAIN_COMPLETE (R383): the oldest class-4 instruction runs as far as its hoops let it, and completes where that is the
end. One that reads an uncorrectable word of the operand cache faults instead (R279): it met none at its issue, so one was made since. -/
def execChainComplete (v c : Nat) (s : State) : Host.Outcome State Fault Refusal :=
  s.onVat (s.hasCore v c) v (fun k =>
    let x := k.core v c
    match k.vectorTurn v c with
    | some (.chain r run sq) =>
      match if run.done = 0 ∧ run.got = [] then x.chainOcFault r else none with
      | some (f, a, n) => (k.noteOc v c a n f).coreFault v c 2 f.code sq
      | none =>
        match k.chainRun v c r run with
        | .going k' run' => k'.chainKeep v c r sq run run'
        | .poison k' => k'.coreFault v c 2 CoreCause.hoopDataError.code sq
        | .finished k' => k'.finish v c 2 (.chain r run sq)
    | some (.smax r sq) =>
      match x.smaxOcFault r with
      | some (f, a, n) => (k.noteOc v c a n f).coreFault v c 2 f.code sq
      | none => (k.runSmax v c r).finish v c 2 (.smax r sq)
    | _ => k)

end Sys2Proof.Machine
end

