-- ==== Sys2Proof/Machine/Dma.lean ====
section
/-!
DEFINITION. Class 5, the DMA engines: XFER's issue and validation (R385, R386, R121 to R125), the walk over a transfer's
positions (R109 to R120, R126 to R141, R144 to R151, R856, R857), and its end (R150, R303, R305 to R307).
-/

namespace Sys2Proof.Machine

/-! ### What a transfer has gathered -/

/-- R130, R131, R306: the contributions met at one destination unit: the exact sum of the ordinary ones with the prior value, the
saturation values met, as infinities, and whether any of them was read uncorrectable. -/
structure AccSum where
  sum : Int
  pos : Bool
  neg : Bool
  bad : Bool
deriving DecidableEq, Repr

/-- A walk over a transfer: the chip, the column words that its read slots have delivered, those that it still needs, the bytes to be written
(each with its uncorrectable mark) to DRAM and to the operand cache, the accumulated units by address, and the bytes written for DMA_BYTES. -/
structure Walk where
  k     : Chip
  words : List (Nat × WordRead)
  miss  : List Nat
  dram  : List (Nat × (Byte × Bool))
  oc    : List (Nat × (Byte × Bool))
  sums  : List (Nat × AccSum)
  bytes : Nat

/-- Where a transfer runs: the vat, core and engine. -/
structure Engine where
  v : Nat
  c : Nat
  e : Nat

/-- A DRAM column word of the transfer, which one slot reads for every position that shares it (DESIGN CHOICE, log entry 82), or one still
needed. -/
def Walk.word (w : Walk) (p : Nat) : WordRead × Walk :=
  match w.words.lookup (p / 32) with
  | some r => (r, w)
  | none => ({ bytes := List.replicate 32 0, res := .clean, syms := [] }, { w with miss := p / 32 :: w.miss })

/-- `n` bytes of the DRAM at a vat physical address, within a page. -/
def Walk.dramBytes : Nat → Walk → Nat → Nat → List Byte × Bool × Walk
  | 0, w, _, _ => ([], false, w)
  | fuel + 1, w, p, n =>
    if n = 0 then ([], false, w)
    else
      let (r, w) := w.word p
      let m := min n (32 - p % 32)
      let (rest, bad, w) := Walk.dramBytes fuel w (p + m) (n - m)
      ((r.bytes.drop (p % 32)).take m ++ rest, r.res.bad || bad, w)

/-- The places of the `n` bytes at a core's virtual address: byte by byte, so that a page boundary is crossed rightly (R149). -/
def Chip.placesOf (k : Chip) (v c : Nat) (a n : Nat) : List Nat := (List.range n).map (fun i => k.vaToPa v c (a + i))

/-- R118, R120, R148, R149: the checks of one access of a descriptor, in R856's order. -/
def Walk.check (w : Walk) (g : Engine) (d : Desc) (a : Int) (n : Nat) (aligned wr : Bool) : Option (DmaCause × Int) :=
  if !d.inSpace a n then some (.addrRange, a)
  else if !aligned then some (.align, a)
  else if d.cache then none
  else (w.k.checkRange g.v g.c a.toNat n wr).map (fun e => (e.1, (e.2 : Int)))

/-- The bytes of an access that has passed its checks, and whether a word of them was uncorrectable. A byte that the transfer itself writes
gives, of R139's two values, the one before the transfer (DESIGN CHOICE, log entry 34). -/
def Walk.fetch (w : Walk) (g : Engine) (d : Desc) (a n : Nat) : List Byte × Bool × Walk :=
  if d.cache then
    let x := w.k.core g.v g.c
    (x.ocBytes a n, (x.ocBad a n).isSome, w)
  else
    let m := min n (2 ^ 21 - a % 2 ^ 21)
    let (b1, u1, w) := Walk.dramBytes (n / 32 + 2) w (w.k.vaToPa g.v g.c a) m
    let (b2, u2, w) := Walk.dramBytes (n / 32 + 2) w (w.k.vaToPa g.v g.c (a + m)) (n - m)
    (b1 ++ b2, u1 || u2, w)

/-- Bytes put into the transfer's writes, later ones in place of earlier ones (R128). -/
def Walk.put (w : Walk) (g : Engine) (d : Desc) (a : Nat) (bs : List Byte) (bad : Bool) : Walk :=
  if d.cache then { w with oc := bs.zipIdx.foldl (fun t b => insert t (a + b.2) (b.1, bad)) w.oc }
  else
    { w with dram := (bs.zip (w.k.placesOf g.v g.c a bs.length)).foldl (fun t b => insert t b.2 (b.1, bad)) w.dram }

/-! ### Index entries and units -/

/-- What a step of a position comes to: a fault, a result, or an index entry that has still to be read. -/
inductive Met (α : Type) where
  | fault (f : DmaFault) (w : Walk)
  | ok (x : α) (w : Walk)
  | await (w : Walk)

/-- R111, R127, R136, R857: the index entry of a position, where one is fetched; `none` makes the position padding. -/
def Walk.entry (w : Walk) (g : Engine) (d : Desc) (p : Pos) (side skip : Bool) : Met (Option Int) :=
  if d.gather = 0 ∨ skip then .ok (some 0) w
  else
    let a := d.indexAddr p
    match w.check g d a 4 true false with
    | some (f, x) => .fault { cause := f, side := side, fetch := true, addr := x } w
    | none =>
      let n := w.miss.length
      let (bs, bad, w) := w.fetch g d a 4
      if n < w.miss.length then .await w
      else if bad then .fault { cause := .indexUncorrectable, side := side, fetch := true, addr := a } w
      else
        let e := signedOf 32 (leNat bs)
        .ok (if e = minOf 32 then none else some e) w

/-- A unit as it travels: its bytes, its scale for a block format, and whether each of them was read uncorrectable (R306). -/
structure DmaUnit where
  bytes    : List Byte
  scale    : List Byte
  bad      : Bool
  scaleBad : Bool

/-- R107: the padding unit of a descriptor. -/
def Desc.padded (d : Desc) : DmaUnit :=
  let p := d.padUnit
  { bytes := p.2, scale := if d.fmt.isBlock then leBytes 2 p.1 else [], bad := false, scaleBad := false }

/-- R126, R127: a source position's unit. -/
def Walk.source (w : Walk) (g : Engine) (d : Desc) (p : Pos) : Met DmaUnit :=
  let dims := d.padByDims p
  match w.entry g d p false dims with
  | .fault f w => .fault f w
  | .await w => .await w
  | .ok none w => .ok d.padded w
  | .ok (some e) w =>
    if dims then .ok d.padded w
    else
      let off := d.offset p e
      let a := d.addr off
      match w.check g d a d.fmt.unitBytes (d.unitAligned off) false with
      | some (f, x) => .fault { cause := f, side := false, fetch := false, addr := x } w
      | none =>
        let (bs, bad, w) := w.fetch g d a.toNat d.fmt.unitBytes
        if !d.fmt.isBlock then .ok { bytes := bs, scale := [], bad := bad, scaleBad := false } w
        else
          let sa := d.scaleAddr off
          match w.check g d sa 2 true false with
          | some (f, x) => .fault { cause := f, side := false, fetch := false, addr := x } w
          | none =>
            let (ss, bad2, w) := w.fetch g d sa.toNat 2
            .ok { bytes := bs, scale := ss, bad := bad, scaleBad := bad2 } w

/-- The signed value of an accumulating format's unit. -/
def accValue (f : Fmt) (bs : List Byte) : Int := if f = .a48 then a48OfBytes bs else signedOf f.bits (leNat bs)

/-- R130, R131: a contribution, or the prior value, joins a sum. -/
def AccSum.add (s : AccSum) (f : Fmt) (x : Int) : AccSum :=
  if f = .a48 ∧ x = maxOf 48 then { s with pos := true }
  else if f = .a48 ∧ x = minOf 48 then { s with neg := true }
  else { s with sum := s.sum + x }

/-- R130, R131: the result of a sum, and whether it was clamped or decided by an infinity. -/
def AccSum.result (s : AccSum) (f : Fmt) : Int × Bool :=
  if s.pos then (maxOf 48, true) else if s.neg then (minOf 48, true) else clampBits f.bits s.sum

/-- The bytes of an accumulated unit. -/
def accBytes (f : Fmt) (x : Int) : List Byte := if f = .a48 then a48Bytes x else leBytes f.unitBytes (bitsOf f.bits x)

/-- R130: a contribution at a destination unit: the sum so far, and the unit it gives if the transfer ended here. -/
def Walk.accumulate (w : Walk) (g : Engine) (d : Desc) (a : Nat) (u : DmaUnit) : Walk :=
  let key := if d.cache then a else w.k.vaToPa g.v g.c a
  let f := d.fmt
  let (s, w) := match w.sums.lookup key with
    | some s => (s, w)
    | none =>
      let (bs, bad, w) := w.fetch g d a f.unitBytes
      ((({ sum := 0, pos := false, neg := false, bad := bad } : AccSum).add f (accValue f bs)), w)
  let s := s.add f (accValue f u.bytes)
  let s := { s with bad := s.bad || u.bad }
  let w := { w with sums := insert w.sums key s }
  w.put g d a (accBytes f (s.result f).1) s.bad

/-- R79: the bytes of a unit as a copy stores them: of an A48 word, bits [63:48] are made equal to bit 47 (DEDUCED, log entry 34). -/
def storedUnit (f : Fmt) (bs : List Byte) : List Byte := if f = .a48 then a48Bytes (a48OfBytes bs) else bs

/-- R136 to R138: a destination position, given the source's unit. ACCUMULATE's destination is checked by R148 as a write alone, its prior value
being no access that the descriptor makes of its own (DESIGN CHOICE, log entry 34). -/
def Walk.dest (w : Walk) (g : Engine) (d : Desc) (p : Pos) (u : DmaUnit) : Met Unit :=
  let dims := d.padByDims p
  match w.entry g d p true (dims && !d.padWrite) with
  | .fault f w => .fault f w
  | .await w => .await w
  | .ok none w => .ok () w
  | .ok (some e) w =>
    if dims && !d.padWrite then .ok () w
    else
      let u := if dims then d.padded else u
      let off := d.offset p e
      let a := d.addr off
      match w.check g d a d.fmt.unitBytes (d.unitAligned off) true with
      | some (f, x) => .fault { cause := f, side := true, fetch := false, addr := x } w
      | none =>
        let sa := d.scaleAddr off
        match if d.fmt.isBlock then w.check g d sa 2 true true else none with
        | some (f, x) => .fault { cause := f, side := true, fetch := false, addr := x } w
        | none =>
          let w := { w with bytes := w.bytes + u.bytes.length + u.scale.length }
          if d.accumulate then .ok () (w.accumulate g d a.toNat u)
          else
            let w := w.put g d a.toNat (storedUnit d.fmt u.bytes) u.bad
            .ok () (if d.fmt.isBlock then w.put g d sa.toNat u.scale u.scaleBad else w)

/-- The positions of a transfer in the destination's iteration order, to the first fault (R109, R123, R141, R150). -/
def Walk.go (g : Engine) (src dst : Desc) : Nat → Nat → Walk → Walk × Option (Nat × DmaFault)
  | 0, _, w => (w, none)
  | left + 1, n, w =>
    match w.source g src (sourceOf src dst n) with
    | .fault f w => (w, some (n, f))
    | .await w => Walk.go g src dst left (n + 1) w
    | .ok u w =>
      match w.dest g dst (dst.pos n) u with
      | .fault f w => (w, some (n, f))
      | .await w => Walk.go g src dst left (n + 1) w
      | .ok _ w => Walk.go g src dst left (n + 1) w

/-- A transfer walked over the column words that it has read. -/
def Chip.walk (k : Chip) (g : Engine) (src dst : Desc) (words : List (Nat × WordRead)) : Walk × Option (Nat × DmaFault) :=
  Walk.go g src dst dst.positions 0 { k := k, words := words, miss := [], dram := [], oc := [], sums := [], bytes := 0 }

/-! ### Landing -/

/-- The column words, operand-cache words or rows that a run of byte writes touches. -/
def wordsTouched (size : Nat) (t : List (Nat × (Byte × Bool))) : List Nat := (t.map (fun b => b.1 / size)).eraseDups

/-- R305, R306: the writes of a plan to one DRAM row land, word by word. -/
def DmaPlan.landRow (p : DmaPlan) (dr : Dram) (k : Chip) (v row : Nat) : Dram × Chip :=
  let mine := p.dram.filter (fun b => b.1 / 1024 = row)
  (wordsTouched 32 mine).foldl (fun (a : Dram × Chip) n =>
    let cell (i : Nat) : Option (Byte × Bool) := mine.lookup (32 * n + i)
    let bs := (List.range 32).map (fun i => match cell i with | some b => b.1 | none => 0)
    let bad := (List.range 32).any (fun i => match cell i with | some b => b.2 | none => false)
    let r := a.2.mergeAt a.1 v (32 * n) 1 bs (fun i => (cell i).isSome) bad
    (r.1, r.2.1)) (dr, k)

/-- R305: the slots of a row that a plan writes: with a column word written in part, a read slot and a write slot granted one after the other. -/
def DmaPlan.slots (p : DmaPlan) (row : Nat) : Nat :=
  let mine := p.dram.filter (fun b => b.1 / 1024 = row)
  if (wordsTouched 32 mine).any (fun n => (mine.filter (fun b => b.1 / 32 = n)).length < 32) then 2 else 1

/-- R306: the operand-cache writes of a plan land, word by word. -/
def DmaPlan.landOc (p : DmaPlan) (x : Core) : Core :=
  (wordsTouched 8 p.oc).foldl (fun x n =>
    let cells := p.oc.filter (fun b => b.1 / 8 = n)
    let bad := cells.any (fun b => b.2.2)
    let y := cells.foldl (fun y b => { y with oc := store 0 y.oc b.1 b.2.1 }) x
    if bad then { y with ocMarks := store 0 y.ocMarks n 1 }
    else if cells.length = 8 then { y with ocMarks := store 0 y.ocMarks n 0 }
    else y) x

/-- R130 to R132, R307: what a transfer leaves besides its DRAM writes: the operand cache, the flag that its clamps set, and its bytes counted. -/
def DmaPlan.land (p : DmaPlan) (k : Chip) (g : Engine) (d : Desc) : Chip :=
  let k := k.setCore g.v g.c (p.landOc (k.core g.v g.c))
  (k.setNum g.v g.c (if d.fmt = .a48 then { accSat := p.clamped } else { laneSat := p.clamped })).count (Reg.dmaBytes g.v g.c g.e) p.bytes

/-- What a walk that has read everything leaves to be done. -/
def Walk.plan (w : Walk) (d : Desc) (fault : Option (Nat × DmaFault)) : DmaPlan :=
  { dram := w.dram, oc := w.oc, clamped := w.sums.any (fun s => (s.2.result d.fmt).2), bytes := w.bytes, fault := fault
    left := wordsTouched 1024 w.dram }

/-! ### Faults -/

/-- R152, R153: the DMA fault registers keep the first record. Of an ADDR_RANGE address outside 0 to 2^37 - 1, DMA_FAULT_ADDR shows the low 37
bits (DESIGN CHOICE, log entry 34). -/
def Chip.dmaRecord (k : Chip) (g : Engine) (f : DmaFault) (d : Desc) (n : Option Nat) (descAt : Nat) : Chip :=
  let o := Reg.dmaFaultStatus g.v g.c g.e
  if k.flag o 31 then k.raise o 30
  else
    let p := match n with | some n => posFields d n | none => (0, 0, 0, 0, 0)
    let k := ((((k.setF o 7 0 f.cause.code).setF o 8 8 (if f.side then 1 else 0)).setF o 9 9 (if f.fetch then 1 else 0)).raise o 31)
    let k := k.setF (Reg.dmaFaultAddr g.v g.c g.e) 36 0 (bitsOf 37 f.addr)
    let q := Reg.dmaFaultPos g.v g.c g.e
    let k := (((k.setF q 15 0 p.1).setF q 31 16 p.2.1).setF q 47 32 p.2.2.1).setF q 63 48 p.2.2.2.1
    (k.setF (Reg.dmaFaultPos4 g.v g.c g.e) 15 0 p.2.2.2.2).setF (Reg.dmaFaultDesc g.v g.c g.e) 21 0 descAt
where
  /-- The position fields of position number `n`. -/
  posFields (d : Desc) (n : Nat) : Nat × Nat × Nat × Nat × Nat :=
    let p := d.pos n
    (d.j p 0, p.p1, p.p2, p.p3, p.p4)

/-! ### Meanings -/

/-- R385: the operand-cache address of a descriptor slot. -/
def descSlot (n : Nat) : Nat := 128 * n

/-- XFER: its descriptors are read and validated at issue (R121, R122); it completes or faults later (R386). -/
def execXfer (u : IssueUnit) (ops : BitVec 56) (s : State) : Host.Outcome State Fault Refusal :=
  let q := qForm ops
  s.onChip (s.hasUnit u) (fun k => issueT k u 0xA0 ops (2 ^ 56 - 1)
    (fun _ _ _ => q.d = endZero && q.a = endZero && q.b = endZero)
    (fun v c t k =>
      let x := k.core v c
      let sq := k.seqOf v c t
      let sa := descSlot (bitsAt q.imm 11 0)
      let da := descSlot (bitsAt q.imm 23 12)
      match x.firstOcFault [(sa, 128, 128), (da, 128, 128)] true with
      | some (f, a, n) => .fault f (k.noteOc v c a n f)
      | none =>
        let src := Desc.parse (x.ocBytes sa 128) (signedOf 64 (q.aixVal sq 64))
        let dst := Desc.parse (x.ocBytes da 128) (signedOf 64 (q.aiyVal sq 64))
        match validateDescs src dst with
        | some (f, side) =>
          if !k.quiet v c t then .wait
          else
            let g : Engine := { v := v, c := c, e := t - 3 }
            let k := k.dmaRecord g { cause := f, side := side, fetch := false, addr := if side then da else sa } dst none da
            .dmaFault (k.coreFault v c t f.code sq)
        | none => .step (k.inflight v c t (.xfer src dst da sq DmaRows.none))))

/-- The transfer that engine `e` runs. -/
def Chip.transfer (k : Chip) (v c e : Nat) : Option (Desc × Desc × Nat × Sequencer × DmaRows) :=
  match (k.stream v c (3 + e)).oldest with
  | some (.xfer src dst da sq rows) => some (src, dst, da, sq, rows)
  | _ => none

/-- How far the running transfer of an engine has come. -/
def Chip.setRows (k : Chip) (g : Engine) (rows : DmaRows) : Chip :=
  let t := k.stream g.v g.c (3 + g.e)
  match t.inflight with
  | .xfer src dst da sq _ :: rest => k.setStream g.v g.c (3 + g.e) { t with inflight := .xfer src dst da sq rows :: rest }
  | _ => k

/-- R304: as many of the rows are asked for as keeps 64 outstanding. -/
def Chip.askRows (k : Chip) (g : Engine) (rows : DmaRows) (need : List Nat) (use : Nat → SlotUse) (slots : Nat → Nat) : Chip × DmaRows :=
  let now := need.take (64 - rows.asked.length)
  (now.foldl (fun k r => k.askSlot g.v (1024 * r) (use r) (slots r)) k, { rows with asked := rows.asked ++ now })

/-- R163, R303 to R305: the running transfer of an engine goes on as far as its slots allow: it asks for the rows that it still has to read; with
everything read, for those that it writes; and with every slot ended it gives what is left to be done. -/
def Chip.pump (k : Chip) (g : Engine) : Chip × Option DmaPlan :=
  match k.transfer g.v g.c g.e with
  | none => (k, none)
  | some (src, dst, _, _, rows) =>
    match rows.plan with
    | none =>
      let r := k.walk g src dst rows.words
      let need := (r.1.miss.map (· / 32)).eraseDups.filter (fun x => !rows.asked.contains x)
      if r.1.miss ≠ [] then
        let a := k.askRows g rows need (fun x => .dmaRead g.c g.e x ((r.1.miss.eraseDups).filter (fun m => m / 32 = x))) (fun _ => 1)
        (a.1.setRows g a.2, none)
      else
        let p := r.1.plan dst r.2
        let a := k.askRows g rows p.left (fun x => .dmaWrite g.c g.e x) p.slots
        let p := { p with left := p.left.drop (64 - rows.asked.length) }
        (a.1.setRows g { a.2 with plan := some p }, if a.2.asked = [] then some p else none)
    | some p =>
      let a := k.askRows g rows p.left (fun x => .dmaWrite g.c g.e x) p.slots
      let p := { p with left := p.left.drop (64 - rows.asked.length) }
      (a.1.setRows g { a.2 with plan := some p }, if a.2.asked = [] then some p else none)

/-- R163, R688: a read slot of a transfer ends: the column words it asked for are read. -/
def Chip.dmaReadEnd (k : Chip) (dr : Dram) (g : Engine) (row : Nat) (words : List Nat) : Chip :=
  match k.transfer g.v g.c g.e with
  | some (_, _, _, _, rows) =>
    if !rows.asked.contains row ∨ rows.plan.isSome then k
    else
      let r := words.foldl (fun (a : List (Nat × WordRead) × Chip) n =>
        let x := a.2.readAt dr g.v (32 * n) 1
        ((n, x.1) :: a.1, x.2)) (rows.words, k)
      r.2.setRows g { rows with words := r.1, asked := rows.asked.erase row }
  | none => k

/-- R305: a write slot of a transfer ends: the row holds what the transfer writes there. -/
def Chip.dmaWriteEnd (k : Chip) (dr : Dram) (g : Engine) (row : Nat) : Dram × Chip :=
  match k.transfer g.v g.c g.e with
  | some (_, _, _, _, rows) =>
    match rows.plan with
    | some p =>
      if !rows.asked.contains row then (dr, k)
      else
        let r := p.landRow dr k g.v row
        (r.1, r.2.setRows g { rows with asked := rows.asked.erase row })
    | none => (dr, k)
  | none => (dr, k)

/-- DMA_TRANSFER_COMPLETE (R307): the running transfer of engine `e` goes on, and completes where every slot of it has ended and it met no
fault. -/
def execDmaTransferComplete (v c : Nat) (e : Bool) (s : State) : Host.Outcome State Fault Refusal :=
  let n := e.toNat
  let g : Engine := { v := v, c := c, e := n }
  s.onVat (s.hasCore v c) v (fun k =>
    let r := k.pump g
    match r.2, r.1.transfer v c n with
    | some p, some (src, dst, da, sq, rows) =>
      if p.fault.isSome then r.1 else (p.land r.1 g dst).finish v c (3 + n) (.xfer src dst da sq rows)
    | _, _ => r.1)

/-- DMA_UNIT_FAULT (R150, R151, R153): the running transfer of engine `e` goes on; where it met a fault at a unit and every slot of it has
ended, the positions before it have completed, and the stream stops. -/
def execDmaUnitFault (v c : Nat) (e : Bool) (s : State) : Host.Outcome State Fault Refusal :=
  let n := e.toNat
  let g : Engine := { v := v, c := c, e := n }
  s.onVat (s.hasCore v c) v (fun k =>
    let r := k.pump g
    match r.2, r.1.transfer v c n with
    | some p, some (_, dst, da, sq, _) =>
      match p.fault with
      | none => r.1
      | some (pos, f) => ((p.land r.1 g dst).dmaRecord g f dst (some pos) da).coreFault v c (3 + n) f.cause.code sq
    | _, _ => r.1)

end Sys2Proof.Machine
end

