-- ==== Sys2Proof/Machine/Scalar.lean ====
section
/-!
DEFINITION. Class 1: scalar arithmetic, moves, loads and stores of both profiles (Table 8.1, R318, R271, R378, R379). In the
T profile only CTL issues them; arithmetic wraps at 64 bits there and at 32 bits in a bank unit, and sets no flag.
-/

namespace Sys2Proof.Machine

/-- The sign-extended immediate as a value of `w` bits. -/
def QForm.immW (q : QForm) (w : Nat) : BitVec w := BitVec.ofInt w q.simm

/-- R378: the two-operand functions of opcodes 0x23 to 0x2F, on pop(A) and B', at width `w`. -/
inductive ScalarFn where
  | add | sub | mul | and | or | xor | shl | shr | sar | min | max | slt | seq
deriving DecidableEq, Repr

/-- Table 8.1. A shift takes its amount modulo the width. -/
def ScalarFn.eval (f : ScalarFn) {w : Nat} (a b : BitVec w) : BitVec w :=
  match f with
  | .add => a + b
  | .sub => a - b
  | .mul => a * b
  | .and => a &&& b
  | .or => a ||| b
  | .xor => a ^^^ b
  | .shl => a <<< (b.toNat % w)
  | .shr => a >>> (b.toNat % w)
  | .sar => a.sshiftRight (b.toNat % w)
  | .min => if a.slt b then a else b
  | .max => if a.slt b then b else a
  | .slt => if a.slt b then 1 else 0
  | .seq => if a = b then 1 else 0

/-- R324: an instruction whose push goes to a hoop waits for the stream's earlier instructions. -/
def Chip.pushReady (k : Chip) (v c t e : Nat) : Bool := !hoopEnd e || k.pushQuiet v c t (slotOf e)

/-- A pop of A, then a push of `f` of it to D, by stream `t`. -/
def coreMove (q : QForm) (f : Word → Word) (v c t : Nat) (k : Chip) : CoreEff :=
  if !k.pushReady v c t q.d then .wait else
  match k.popEnd v c t q.a with
  | .stall a b => .stall a b
  | .poison k' => .fault .hoopDataError k'
  | .done d k' => .step (k'.pushEnd v c t q.d (f (entryWord d)))

/-- A pop of A and B, then a push to D, by stream `t`. -/
def coreOp (q : QForm) (f : Word → Word → Word) (v c t : Nat) (k : Chip) : CoreEff :=
  if !k.pushReady v c t q.d then .wait else
  match k.popTwo v c t q.a q.b (fun x y k => .done (wordEntry (f x y)) k) with
  | .stall a b => .stall a b
  | .poison k' => .fault .hoopDataError k'
  | .done d k' => .step (k'.pushEnd v c t q.d (entryWord d))

/-- The same of a bank unit, whose ends are registers. -/
def bankMove (q : QForm) (f : Lane → Lane) (v d b : Nat) (k : Chip) : BankEff :=
  let u := k.bu v d b
  .step (k.setBu v d b (u.pushEnd q.d (f (u.endValue q.a))))

def bankOp (q : QForm) (f : Lane → Lane → Lane) (v d b : Nat) (k : Chip) : BankEff :=
  let u := k.bu v d b
  .step (k.setBu v d b (u.pushEnd q.d (f (u.endValue q.a) (u.endValue q.b))))

/-- An instruction of one source: its checks and its effect in both profiles. -/
def scalarMove (op : Nat) (fT : QForm → Word → Word) (fB : QForm → Lane → Lane) (u : IssueUnit) (ops : BitVec 56)
    (s : State) : Host.Outcome State Fault Refusal :=
  let q := qForm ops
  s.onChip (s.hasUnit u) (fun k => issue k u op ops (useD + useA + useI)
    (fun v c t => k.popOk v c t q.a && k.pushOk v c t q.d) (coreMove q (fT q))
    (bankPopOk q.a && bankPushOk q.d) (bankMove q (fB q)))

/-- R378: an instruction of two sources. -/
def scalarOp (op : Nat) (f : ScalarFn) (u : IssueUnit) (ops : BitVec 56) (s : State) :
    Host.Outcome State Fault Refusal :=
  let q := qForm ops
  s.onChip (s.hasUnit u) (fun k => issue k u op ops (useD + useA + useB + useI)
    (fun v c t => k.popOk v c t q.a && k.popOk v c t q.b && k.pushOk v c t q.d)
    (coreOp q (fun a b => f.eval a (b + q.immW 64)))
    (bankPopOk q.a && bankPopOk q.b && bankPushOk q.d)
    (bankOp q (fun a b => f.eval a (b + q.immW 32))))

/-! ### Meanings -/

/-- MOV. -/
def execMov (u : IssueUnit) (ops : BitVec 56) (s : State) : Host.Outcome State Fault Refusal :=
  scalarMove 0x20 (fun q a => a + q.immW 64) (fun q a => a + q.immW 32) u ops s

/-- LUI. -/
def execLui (u : IssueUnit) (ops : BitVec 56) (s : State) : Host.Outcome State Fault Refusal :=
  scalarMove 0x21 (fun q a => a + BitVec.ofNat 64 (q.imm * 2 ^ 24)) (fun q a => a + BitVec.ofNat 32 (q.imm * 2 ^ 24)) u ops s

/-- LUI2: T profile only; IMM[23:16] is reserved. -/
def execLui2 (u : IssueUnit) (ops : BitVec 56) (s : State) : Host.Outcome State Fault Refusal :=
  let q := qForm ops
  s.onChip (s.hasUnit u) (fun k => issueT k u 0x22 ops (useD + useA + 0xFFFF)
    (fun v c t => k.popOk v c t q.a && k.pushOk v c t q.d)
    (coreMove q (fun a => a + BitVec.ofNat 64 (bitsAt q.imm 15 0 * 2 ^ 48))))

def execAdd (u : IssueUnit) (ops : BitVec 56) (s : State) : Host.Outcome State Fault Refusal := scalarOp 0x23 .add u ops s
def execSub (u : IssueUnit) (ops : BitVec 56) (s : State) : Host.Outcome State Fault Refusal := scalarOp 0x24 .sub u ops s
def execMul (u : IssueUnit) (ops : BitVec 56) (s : State) : Host.Outcome State Fault Refusal := scalarOp 0x25 .mul u ops s
def execAnd (u : IssueUnit) (ops : BitVec 56) (s : State) : Host.Outcome State Fault Refusal := scalarOp 0x26 .and u ops s
def execOr (u : IssueUnit) (ops : BitVec 56) (s : State) : Host.Outcome State Fault Refusal := scalarOp 0x27 .or u ops s
def execXor (u : IssueUnit) (ops : BitVec 56) (s : State) : Host.Outcome State Fault Refusal := scalarOp 0x28 .xor u ops s
def execShl (u : IssueUnit) (ops : BitVec 56) (s : State) : Host.Outcome State Fault Refusal := scalarOp 0x29 .shl u ops s
def execShr (u : IssueUnit) (ops : BitVec 56) (s : State) : Host.Outcome State Fault Refusal := scalarOp 0x2A .shr u ops s
def execSar (u : IssueUnit) (ops : BitVec 56) (s : State) : Host.Outcome State Fault Refusal := scalarOp 0x2B .sar u ops s
def execMin (u : IssueUnit) (ops : BitVec 56) (s : State) : Host.Outcome State Fault Refusal := scalarOp 0x2C .min u ops s
def execMax (u : IssueUnit) (ops : BitVec 56) (s : State) : Host.Outcome State Fault Refusal := scalarOp 0x2D .max u ops s
def execSlt (u : IssueUnit) (ops : BitVec 56) (s : State) : Host.Outcome State Fault Refusal := scalarOp 0x2E .slt u ops s
def execSeq (u : IssueUnit) (ops : BitVec 56) (s : State) : Host.Outcome State Fault Refusal := scalarOp 0x2F .seq u ops s

/-! ### Bank-unit memory: scratch and latches (R391 to R396) -/

/-- R391: the region of a bank-unit address: scratch (none) or a latch. -/
inductive Region where
  | scratch
  | latch (i : Nat)
deriving DecidableEq, Repr

/-- R391: the region that holds all `n` bytes at `a`, with the offset in it. -/
def regionOf (a n : Nat) : Option (Region × Nat) :=
  if a + n ≤ 0x2000 then some (.scratch, a)
  else if 0x2000 ≤ a ∧ a + n ≤ 0x2400 then some (.latch 0, a - 0x2000)
  else if 0x2400 ≤ a ∧ a + n ≤ 0x2800 then some (.latch 1, a - 0x2400)
  else none

/-- A latch of a bank unit. -/
def Bu.latch (u : Bu) (i : Nat) : Latch := u.latches.getD i Latch.empty

/-- A row slot of the program on latch `i`; `rd` counts read slots alone. -/
def SlotReq.onLatch (r : SlotReq) (rd : Bool) (i : Nat) : Bool :=
  match r.use with
  | .buRead l _ => l = i
  | .buWrite l _ => l = i && !rd
  | _ => false

/-- R395, R394: a row slot of the program on latch `i` has been requested and has not ended. -/
def Bu.latchBusy (u : Bu) (rd : Bool) (i : Nat) : Bool := u.slotQ.any (·.onLatch rd i) || u.active.any (·.onLatch rd i)

/-- What an access to a bank-unit address meets. -/
inductive BankMem (α : Type) where
  | fault (f : BankCause)
  | wait
  | ok (x : α)

/-- R186, R391, R859: a read of `n` bytes at `a`, aligned to `al`. -/
def Bu.read (u : Bu) (a n al : Nat) : BankMem (List Byte) :=
  match regionOf a n with
  | none => .fault .addrRange
  | some (r, o) =>
    if a % al ≠ 0 then .fault .align else
    match r with
    | .scratch => .ok (lookupRun 0 u.scratch o n)
    | .latch i =>
      if u.latchBusy true i then .wait
      else if (List.range n).any (fun j => (u.latch i).marked.testBit ((o + j) / 32)) then .fault .dataUncorrectable
      else .ok (lookupRun 0 (u.latch i).bytes o n)

/-- R395, R859: bytes written into a latch are marked written; a column word all of whose bytes the program has written since its read slot, by
one write or by several, loses its uncorrectable mark. -/
def Latch.write (l : Latch) (o : Nat) (bs : List Byte) : Latch :=
  let all := Nat.lor l.written ((2 ^ bs.length - 1) * 2 ^ o)
  { bytes := storeRun 0 l.bytes o bs
    written := all
    marked := (List.range 32).foldl (fun m w => if m.testBit w && all / 2 ^ (32 * w) % 2 ^ 32 = 2 ^ 32 - 1 then m - 2 ^ w else m) l.marked }

/-- A write of bytes at `a`, aligned to `al`. -/
def Bu.write (u : Bu) (a al : Nat) (bs : List Byte) : BankMem Bu :=
  match regionOf a bs.length with
  | none => .fault .addrRange
  | some (r, o) =>
    if a % al ≠ 0 then .fault .align else
    match r with
    | .scratch => .ok { u with scratch := storeRun 0 u.scratch o bs }
    | .latch i =>
      if u.latchBusy false i then .wait
      else .ok { u with latches := setAt u.latches i ((u.latch i).write o bs) }

/-- R378, R379: the address LD and ST form: pop(A) + sext(IMM) + AIX, at width `w`. -/
def QForm.address (q : QForm) (sq : Sequencer) (w : Nat) (a : Nat) : Nat := bitsOf w ((a : Int) + q.simm + q.aixVal sq w)

/-- LD (R379). -/
def execLd (u : IssueUnit) (ops : BitVec 56) (s : State) : Host.Outcome State Fault Refusal :=
  let q := qForm ops
  s.onChip (s.hasUnit u) (fun k => issue k u 0x30 ops (useD + useA + useX + useI)
    (fun v c t => k.popOk v c t q.a && k.pushOk v c t q.d)
    (fun v c t k =>
      if !k.pushReady v c t q.d then .wait else
      match k.popEnd v c t q.a with
      | .stall a b => .stall a b
      | .poison k' => .fault .hoopDataError k'
      | .done d k' =>
        let x := k'.core v c
        let a := q.address (x.stream t).seq 64 (entryWord d).toNat
        match x.ocCheck a 8 8 true with
        | some f => .fault f (k.noteOc v c a 8 f)
        | none => .step (k'.pushEnd v c t q.d (BitVec.ofNat 64 (leNat (x.ocBytes a 8)))))
    (bankPopOk q.a && bankPushOk q.d)
    (fun v d b k =>
      let x := k.bu v d b
      match x.read (q.address x.seq 32 (x.endValue q.a).toNat) 4 4 with
      | .fault f => .fault f k
      | .wait => .wait
      | .ok bs => .step (k.setBu v d b (x.pushEnd q.d (BitVec.ofNat 32 (leNat bs))))))

/-- ST (R379): D must be ZERO. -/
def execSt (u : IssueUnit) (ops : BitVec 56) (s : State) : Host.Outcome State Fault Refusal :=
  let q := qForm ops
  s.onChip (s.hasUnit u) (fun k => issue k u 0x31 ops (useD + useA + useB + useX + useI)
    (fun v c t => k.popOk v c t q.a && k.popOk v c t q.b && q.d = endZero)
    (fun v c t k =>
      match k.popTwo v c t q.a q.b (fun x y k =>
          .done (BitVec.ofNat 512 (x.toNat + 2 ^ 64 * y.toNat)) k) with
      | .stall a b => .stall a b
      | .poison k' => .fault .hoopDataError k'
      | .done d k' =>
        let x := k'.core v c
        let a := q.address (x.stream t).seq 64 (entryWord d).toNat
        let y := bitsAt d.toNat 127 64
        match x.ocCheck a 8 8 false with
        | some f => .fault f k
        | none => .step (k'.inOrder v c t (.store a (leBytes 8 y))))
    (bankPopOk q.a && bankPopOk q.b && q.d = endZero)
    (fun v d b k =>
      let x := k.bu v d b
      match x.write (q.address x.seq 32 (x.endValue q.a).toNat) 4 (leBytes 4 (x.endValue q.b).toNat) with
      | .fault f => .fault f k
      | .wait => .wait
      | .ok x' => .step (k.setBu v d b x')))

end Sys2Proof.Machine
end

