-- ==== Sys2Proof/Machine/BaseDie.lean ====
section
/-!
DEFINITION. Class 2, the control stream's commands to the base die (Tables 8.2 to 8.7), and what follows on a die: loads,
starts, pending starts, stops, the ends of programs, completions, broadcasts and directed accesses to scratch (R177 to
R190, R273, R274, R339 to R343, R380, R381, R432 to R436, R858, R860).
-/

namespace Sys2Proof.Machine

/-! ### Starts and completions -/

/-- The bank units that a mask names: logical indices 0 to 99. -/
def maskList (mask : Nat) : List Nat := (List.range 100).filter (fun a => mask.testBit a)

/-- The bank unit behind a logical index. -/
def Chip.unit (k : Chip) (v d a : Nat) : Bu := k.bu v d (k.phys v d a)
def Chip.setUnit (k : Chip) (v d a : Nat) (u : Bu) : Chip := k.setBu v d (k.phys v d a) u

/-- Table 9.4's codes. -/
def EndStatus.code : EndStatus → Nat
  | .done => 0 | .fault => 1 | .stopped => 2 | .notStarted => 3

/-- Table 9.4, EACH: a bank unit's completion entry, its time still to be set. -/
def eachEntry (d a seq : Nat) (st : EndStatus) (u : Bu) : BitVec 512 :=
  entryOfBytes ([1, BitVec.ofNat 8 (d % 4)] ++ leBytes 2 seq ++ [BitVec.ofNat 8 st.code, BitVec.ofNat 8 a
    , BitVec.ofNat 8 u.cause, 0] ++ leBytes 2 (u.faultPc + if u.faultLib then 2 ^ 12 else 0))

/-- Table 9.4, GROUP: one entry for a whole mask, its time still to be set. -/
def groupEntry (d seq : Nat) (results : List (Nat × EndStatus)) : BitVec 512 :=
  let n (s : EndStatus) : Nat := (results.filter (fun r => r.2 = s)).length
  let bit (s : EndStatus) : Nat := if 0 < n s then 2 ^ s.code else 0
  let lost := ((results.filter (fun r => r.2 ≠ .done)).map (fun r => 2 ^ r.1)).sum
  entryOfBytes ([2, BitVec.ofNat 8 (d % 4)] ++ leBytes 2 seq
    ++ [BitVec.ofNat 8 (bit .done + bit .fault + bit .stopped + bit .notStarted), 0, 0, 0] ++ leBytes 8 0
    ++ leBytes 2 (n .done) ++ leBytes 2 (n .fault) ++ leBytes 2 (n .stopped) ++ leBytes 2 (n .notStarted)
    ++ leBytes 16 lost)

/-- R435: an entry joins those of its die that wait to be posted. -/
def Chip.post (k : Chip) (v d : Nat) (e : BitVec 512) : Chip :=
  let x := k.die v d
  k.setDie v d { x with posts := x.posts ++ [e] }

/-- R255: the merges attached to a start of bank `a` learn how it completed. -/
def Die.settleMerges (x : Die) (a seq : Nat) (st : EndStatus) : Die :=
  let f (l : List Attach) : List Attach :=
    l.map (fun t => if t.bank = a && t.seq = seq && t.done.isNone then { t with done := some st } else t)
  { x with merge := x.merge.map (fun m => { m with attach := f m.attach }), mergeQ := x.mergeQ.map (fun q => (q.1, f q.2)) }

/-- R255: how the latest start issued to a logical index completed, once it has. -/
def Die.settleStart (x : Die) (a seq : Nat) (st : EndStatus) : Die :=
  { x with lastStart := x.lastStart.map (fun l => if l.1 = a ∧ l.2.1 = seq ∧ l.2.2.isNone then (a, seq, some st) else l) }

/-- R184: a bank unit completes a start: COMPLETIONS advances, the result joins the start's, and the entry is posted, under
GROUP when the last bank unit of the mask has completed. -/
def Chip.completeStart (k : Chip) (v d a seq : Nat) (st : EndStatus) : Chip :=
  let u := k.unit v d a
  let k := k.setUnit v d a { u with completions := (u.completions + 1) % 2 ^ 16, lastDone := some (seq, st) }
  let x := ((k.die v d).settleMerges a seq st).settleStart a seq st
  let k := k.setDie v d x
  match x.starts.find? (fun r => r.seq = seq && r.left.contains a) with
  | none => k
  | some r =>
    let r' := { r with left := r.left.erase a, results := r.results ++ [(a, st)] }
    let k := k.setDie v d { x with starts := x.starts.flatMap (fun q => if q = r then (if r'.left = [] then [] else [r']) else [q]) }
    if !r.group then k.post v d (eachEntry d a seq st u)
    else if r'.left = [] then k.post v d (groupEntry d seq r'.results)
    else k

/-- R343, R178, R173: a program begins. -/
def Bu.begin (u : Bu) (a now limit : Nat) (cmd : StartCmd) : Bu :=
  { u with
    run := .run, cause := 0, start := some cmd, ending := none
    fenceHeld := decide (0 < cmd.fenceRows), fenceValid := decide (0 < cmd.fenceRows)
    fenceFirst := cmd.fenceFirst, fenceRows := cmd.fenceRows, fenceSince := now, fenceLimit := limit
    seq := Sequencer.start cmd.entry, faultLib := false, faultPc := 0
    sregs := cmd.args ++ List.replicate 11 0 ++ [BitVec.ofNat 32 a] }

/-- R175: the fence limit in force, in nanoseconds. -/
def Chip.fenceLimit (k : Chip) (v d : Nat) : Nat := 1000 * k.getF (Reg.dieFenceTimeout v d) 9 0

/-- R177, R179, R181: a start reaches one bank unit. -/
def Chip.startUnit (k : Chip) (v d a : Nat) (cmd : StartCmd) : Chip :=
  if !k.startable v d a then k.completeStart v d a cmd.seq .notStarted
  else
    let u := k.unit v d a
    if u.run = .run ∨ u.waiting.isSome then k.setUnit v d a { u with waiting := some cmd }
    else k.setUnit v d a (u.begin a k.now (k.fenceLimit v d) cmd)

/-! ### The queue of a die (R180) -/

/-- The bank units a queued command names. -/
def DieCmd.names : DieCmd → Nat
  | .load m _ _ => m
  | .start m _ _ => m
  | .write _ _ _ => 0

/-- The first command that `want` picks and no earlier command of the queue holds, with the queue without it. `free` says
that nothing on the banks themselves holds it. -/
def pickCmd (want free : DieCmd → Bool) : Nat → List DieCmd → List DieCmd → Option (DieCmd × List DieCmd)
  | _, _, [] => none
  | held, before, x :: rest =>
    if Nat.land x.names held = 0 ∧ want x ∧ free x then some (x, before.reverse ++ rest)
    else pickCmd want free (Nat.lor held x.names) (x :: before) rest

/-- R180, R342: the bank units of a load are free. -/
def Chip.loadFree (k : Chip) (v d : Nat) (c : DieCmd) : Bool :=
  (maskList c.names).all (fun a => let u := k.unit v d a; u.run ≠ .run && u.waiting.isNone)

/-- R179: a start's bank units have room for a pending start. -/
def Chip.startFree (k : Chip) (v d : Nat) (c : DieCmd) : Bool :=
  (maskList c.names).all (fun a => !k.startable v d a || (k.unit v d a).waiting.isNone)

/-- A queued load. -/
def DieCmd.isLoad : DieCmd → Bool
  | .load .. => true | _ => false

/-- A queued start. -/
def DieCmd.isStart : DieCmd → Bool
  | .start .. => true | _ => false

/-- R179: starts of a bank unit accepted and not begun, its running program counted as one; so is a program that has ended while its pending
start has still to begin (R433). -/
def Chip.outstanding (k : Chip) (v d a : Nat) : Nat :=
  let u := k.unit v d a
  (if u.run = .run ∨ u.waiting.isSome then 1 else 0) + (if u.waiting.isSome then 1 else 0)
    + ((k.die v d).cmds.filter (fun c => c.isStart && c.names.testBit a)).length

/-! ### Records -/

/-- Whether bytes `[lo, hi)` of a record are zero. -/
def zeroBytes (bs : List Byte) (lo hi : Nat) : Bool := ((bs.drop lo).take (hi - lo)).all (fun b => b = 0)

/-! ### The header of a wave (R233, Table 5.4) -/

/-- Table 5.4. -/
structure WaveHdr where
  seq      : Nat
  nent     : Nat
  hkv      : Nat
  g        : Nat
  dsel     : Nat
  qkS4     : Bool
  pvS4     : Bool
  uO       : Int
  pidx     : Nat
  qOff     : Nat
  qStride  : Nat
  outOff   : Nat
  outSlots : Nat
  workOff  : Nat
  rsvd     : Bool
deriving DecidableEq, Repr

/-- The header in 32 bytes. -/
def waveHdr (bs : List Byte) : WaveHdr :=
  let b2 := recField bs 2 3
  let b3 := recField bs 3 4
  let b4 := recField bs 4 5
  { seq := recField bs 0 2, nent := bitsAt b2 3 0, hkv := bitsAt b3 2 0 + 1, g := bitsAt b3 5 3 + 1, dsel := bitsAt b3 7 6
    qkS4 := b4.testBit 0, pvS4 := b4.testBit 1, uO := signedOf 8 (recField bs 5 6), pidx := recField bs 6 8
    qOff := recField bs 8 10, qStride := recField bs 10 12, outOff := recField bs 12 14, outSlots := recField bs 14 15
    workOff := recField bs 16 18
    rsvd := bitsAt b2 7 4 = 0 && bitsAt b4 7 2 = 0 && zeroBytes bs 15 16 && zeroBytes bs 18 32 }

/-- D. -/
def WaveHdr.dim (h : WaveHdr) : Nat := 32 * 2 ^ h.dsel

/-- H_q. -/
def WaveHdr.hq (h : WaveHdr) : Nat := h.hkv * h.g

/-- Bytes of one record (Table 5.8). -/
def WaveHdr.recBytes (h : WaveHdr) : Nat := 32 + h.dim

/-- Bytes of a record set (R234). -/
def WaveHdr.setBytes (h : WaveHdr) : Nat := h.hq * h.recBytes

/-! ### Commands -/

/-- What a class-2 command's own effect comes to once its record has been read. -/
inductive CmdEff where
  | invalid
  | fault (f : CoreCause) (k : Chip)
  | stall
  | wait
  | go (k : Chip)

/-- R375 to R377, R273: a class-2 command with a record of `n` bytes. -/
def baseCommand (op n : Nat) (u : IssueUnit) (ops : BitVec 56) (s : State)
    (eff : Nat → Nat → Chip → List Byte → CmdEff) : Host.Outcome State Fault Refusal :=
  let q := qForm ops
  s.onChip (s.hasUnit u) (fun k => issueT k u op ops (useA + useX + useI) (fun _ _ _ => true)
    (fun v c t k =>
      match k.fetchRecord v c t q n with
      | .illegal => .fault .illegal k
      | .stall a b => .stall a b
      | .fault f k' => .fault f k'
      | .done bs k' =>
        -- R311: a command that faults or waits has popped nothing; `eff` reads no hoop.
        match eff v c k bs with
        | .invalid => .fault .cmdInvalid k
        | .fault f k'' => .fault f k''
        | .stall => .stall 7 0
        | .wait => .wait
        | .go _ => match eff v c k' bs with
          | .go k'' => .step k''
          | _ => .wait))

/-- R278, R279: the command's operand-cache accesses, checked in order, each (address, bytes, alignment); `next` where none faults. -/
def Chip.checked (k : Chip) (v c : Nat) (rs : List (Nat × Nat × Nat)) (rd : Bool) (next : CmdEff) : CmdEff :=
  match (k.core v c).firstOcFault rs rd with
  | some (f, a, n) => .fault f (k.noteOc v c a n f)
  | none => next

/-- R380: a payload of the operand cache, read whole before the command is accepted. -/
def Chip.payload (k : Chip) (v c a n align : Nat) (next : List Byte → CmdEff) : CmdEff :=
  k.checked v c [(a, n, align)] true (next ((k.core v c).ocBytes a n))

/-! ### Meanings of class 2 -/

/-- BLOAD (R339, R340, Table 8.3). -/
def execBload (u : IssueUnit) (ops : BitVec 56) (s : State) : Host.Outcome State Fault Refusal :=
  baseCommand 0x40 32 u ops s (fun v c k bs =>
    let mask := recField bs 0 16
    let off := recField bs 16 18
    let cnt := recField bs 18 20
    let src := recField bs 20 24
    let d := 4 * c + recField bs 24 25
    if 2 ^ 100 ≤ mask ∨ 512 ≤ off ∨ 512 ≤ cnt ∨ 2 ^ 22 ≤ src ∨ 4 ≤ recField bs 24 25 ∨ !zeroBytes bs 25 32 then .invalid
    else if 511 < off + cnt then .fault .bloadRange k
    else k.payload v c src (8 * (cnt + 1)) 64 (fun p =>
      let x := k.die v d
      let ws := (words64 p (cnt + 1)).map (BitVec.ofNat 64)
      .go (k.setDie v d { x with cmds := x.cmds ++ [.load mask off ws] })))

/-- BSTART (R177 to R181, R185, R436, Table 8.4): what a record comes to. -/
def Chip.bstart (k : Chip) (v c : Nat) (bs : List Byte) : CmdEff :=
  let mask := recField bs 0 16
  let entry := recField bs 32 34
  let b34 := recField bs 34 35
  let first := recField bs 36 38
  let rows := recField bs 38 42
  let d := 4 * c + b34 % 4
  let group := b34 / 4 = 1
  if 2 ^ 100 ≤ mask ∨ 512 ≤ entry ∨ 8 ≤ b34 ∨ 65536 < rows ∨ 65536 < first + rows
    ∨ !zeroBytes bs 35 36 ∨ !zeroBytes bs 42 64 then .invalid
  else
    let x := k.die v d
    if (maskList mask).any (fun a => k.startable v d a && 2 ≤ k.outstanding v d a) then .stall
    else
      let seq := (x.startSeq + 1) % 2 ^ 16
      let args := (List.range 4).map (fun i => BitVec.ofNat 32 (recField bs (16 + 4 * i) (20 + 4 * i)))
      let cmd : StartCmd :=
        { seq := seq, entry := entry, args := args, group := group, fenceFirst := first, fenceRows := rows
          domain := (k.core v c).domain }
      let named := maskList mask
      .go (k.setDie v d { x with
        startSeq := seq, cmds := x.cmds ++ [.start mask group cmd]
        lastStart := (x.lastStart.filter (fun l => !mask.testBit l.1)) ++ named.map (fun a => (a, seq, none))
        starts := x.starts ++ [{ seq := seq, group := group, mask := mask, left := named, results := [] }] })

/-- BSTART. -/
def execBstart (u : IssueUnit) (ops : BitVec 56) (s : State) : Host.Outcome State Fault Refusal :=
  baseCommand 0x41 64 u ops s (fun v c k bs => k.bstart v c bs)

/-- R182, R183: a stop of one bank unit. One that meets a program which has halted or faulted, its slots not all ended, leaves that program its
status and its slots (DESIGN CHOICE, log entry 76). -/
def Chip.stopUnit (k : Chip) (v d a : Nat) : Chip :=
  let u := k.unit v d a
  if u.run = .run then
    let own (r : SlotReq) : Bool := r.onLatch false 0 || r.onLatch false 1
    let u := if u.ending.isSome then u else
      { u with ending := some .stopped, cause := BankCause.stopped.code, slotQ := u.slotQ.filter (fun r => !own r) }
    k.setUnit v d a { u with dropped := u.dropped ++ u.waiting.toList, waiting := none }
  else
    match u.waiting with
    | none => k
    | some w => (k.setUnit v d a { u with waiting := none }).completeStart v d a w.seq .notStarted

/-- BSTOP (R182, R183, R860, Table 8.5): it reaches the die after the starts issued before it that nothing holds. -/
def execBstop (u : IssueUnit) (ops : BitVec 56) (s : State) : Host.Outcome State Fault Refusal :=
  baseCommand 0x42 32 u ops s (fun v c k bs =>
    let mask := recField bs 0 16
    let d := 4 * c + recField bs 16 17
    if 2 ^ 100 ≤ mask ∨ 4 ≤ recField bs 16 17 ∨ !zeroBytes bs 17 32 then .invalid
    else if (pickCmd (fun x => x.isStart && Nat.land x.names mask ≠ 0) (k.startFree v d) 0 [] (k.die v d).cmds).isSome then .wait
    else .go ((maskList mask).foldl (fun k a => k.stopUnit v d a) k))

/-- Table 8.6: OC_ADDR, OFFSET, LEN, DIE and LOGICAL, where they are in range. -/
def scratchRecord (bs : List Byte) : Option (Nat × Nat × Nat × Nat × Nat) :=
  let oc := recField bs 0 4
  let off := recField bs 4 6
  let len := recField bs 6 8
  let die := recField bs 8 9
  let lg := recField bs 9 10
  if 2 ^ 22 ≤ oc ∨ off % 32 ≠ 0 ∨ len < 32 ∨ 8192 < len ∨ len % 32 ≠ 0 ∨ 8192 < off + len ∨ 4 ≤ die ∨ 100 ≤ lg
    ∨ !zeroBytes bs 10 32 then none
  else some (oc, off, len, die, lg)

/-- A broadcast or directed write accepted: its payload read, it waits to land. -/
def Chip.acceptWrite (k : Chip) (v c : Nat) (target : Option Nat) (oc off len die : Nat) : CmdEff :=
  k.payload v c oc len 32 (fun p =>
    let x := k.die v (4 * c + die)
    .go (k.setDie v (4 * c + die) { x with writes := x.writes ++ [.write target off p] }))

/-- BCAST (R189, R380). -/
def execBcast (u : IssueUnit) (ops : BitVec 56) (s : State) : Host.Outcome State Fault Refusal :=
  baseCommand 0x43 32 u ops s (fun v c k bs =>
    match scratchRecord bs with
    | some (oc, off, len, die, 0) => k.acceptWrite v c none oc off len die
    | _ => .invalid)

/-- SWRITE (R380, R381). -/
def execSwrite (u : IssueUnit) (ops : BitVec 56) (s : State) : Host.Outcome State Fault Refusal :=
  baseCommand 0x44 32 u ops s (fun v c k bs =>
    match scratchRecord bs with
    | some (oc, off, len, die, lg) => k.acceptWrite v c (some lg) oc off len die
    | none => .invalid)

/-- SREAD (R274, R381): it completes at SCRATCH_READ_COMPLETE. -/
def execSread (u : IssueUnit) (ops : BitVec 56) (s : State) : Host.Outcome State Fault Refusal :=
  baseCommand 0x45 32 u ops s (fun v c k bs =>
    match scratchRecord bs with
    | some (oc, off, len, die, lg) =>
      k.checked v c [(oc, len, 32)] false (.go (k.inflight v c 0 (.sread (4 * c + die) lg off len oc)))
    | none => .invalid)

/-- R255: the latest start issued to each bank of a die, with how it completed where it has. -/
def Chip.attachments (k : Chip) (v d : Nat) : List Attach :=
  (k.die v d).lastStart.map (fun l => { bank := l.1, seq := l.2.1, done := l.2.2 })

/-- Table 5.10, R259 to R261: the bytes of the operand cache that a merge of the wave with header `h` writes: its outputs, its status bytes and
its mass vectors. -/
def WaveHdr.mergeWrites (h : WaveHdr) (out status mass : Nat) (massEn : Bool) : List (Nat × Nat × Nat) :=
  let size := h.hq * h.dim + 2 * (h.hq * h.dim / 32)
  if h.nent = 0 then []
  else [(out, (h.nent - 1) * ((size + 31) / 32 * 32) + size, 32), (status, 16 * (h.nent - 1) + h.hq, 1)]
    ++ if massEn then [(mass, 192 * h.nent, 2)] else []

/-- MERGE (R252, R253, R255, R278, Table 8.7): what a record comes to, for the entries of `entries`. R278's checks take NENT, H_q and D from the
copy at IMAGE, which R254 keeps unchanged from here on (DEDUCED). -/
def Chip.merge (k : Chip) (v c : Nat) (bs : List Byte) (entries : Nat) : CmdEff :=
  let image := recField bs 0 4
  let out := recField bs 4 8
  let status := recField bs 8 12
  let mass := recField bs 12 16
  let b18 := recField bs 18 19
  if 2 ^ 22 ≤ image ∨ 2 ^ 22 ≤ out ∨ 2 ^ 22 ≤ status ∨ 2 ^ 22 ≤ mass ∨ 8 ≤ b18 ∨ !zeroBytes bs 19 32 then .invalid
  else
    let h := waveHdr ((k.core v c).ocBytes image 32)
    k.checked v c [(image, 32, 32), (image, 32 * (1 + h.nent), 32)] true
      (k.checked v c (h.mergeWrites out status mass (b18 / 4 = 1)) false
        (let d := 4 * c + b18 % 4
         let x := k.die v d
         if 3 ≤ x.mergeQ.length + (if x.merge.isSome then 1 else 0) then .stall
         else
           let cmd : MergeCmd :=
             { core := c, image := image, out := out, status := status, mass := mass, waveSeq := recField bs 16 18
               massEn := b18 / 4 = 1, entries := entries }
           .go (k.setDie v d { x with mergeQ := x.mergeQ ++ [(cmd, k.attachments v d)] })))

/-- MERGE. -/
def execMerge (u : IssueUnit) (ops : BitVec 56) (s : State) : Host.Outcome State Fault Refusal :=
  baseCommand 0x46 32 u ops s (fun v c k bs => k.merge v c bs 255)

/-! ### Events on a die -/

/-- BU_START_ARRIVAL (R177, R180, R181, R185): the first start that nothing holds reaches its bank units. -/
def execBuStartArrival (v d : Nat) (s : State) : Host.Outcome State Fault Refusal :=
  s.onVat (s.hasDie v d) v (fun k =>
    let x := k.die v d
    match pickCmd DieCmd.isStart (k.startFree v d) 0 [] x.cmds with
    | some (.start mask group cmd, rest) =>
      let k := k.setDie v d { x with cmds := rest }
      if mask = 0 then
        let y := k.die v d
        let k := k.setDie v d { y with starts := y.starts.filter (fun r => r.seq ≠ cmd.seq) }
        if group then k.post v d (groupEntry d cmd.seq []) else k
      else (maskList mask).foldl (fun k a => k.startUnit v d a cmd) k
    | _ => k)

/-- R433: the completion that a bank unit last reported still awaits a place in CPL. -/
def Chip.awaitsPlace (k : Chip) (v d a : Nat) : Bool :=
  match (k.unit v d a).lastDone with
  | none => false
  | some (seq, _) =>
    1024 ≤ (k.core v (ownerOf d)).cpl.length &&
      (k.die v d).posts.any (fun e =>
        let n := e.toNat
        bitsAt n 31 16 = seq && (bitsAt n 7 0 = 2 || (bitsAt n 7 0 = 1 && bitsAt n 47 40 = a)))

/-- PENDING_START_BEGIN (R179, R433): the pending start of a bank unit begins. -/
def execPendingStartBegin (v d a : Nat) (s : State) : Host.Outcome State Fault Refusal :=
  s.onVat (s.hasLogical v d a) v (fun k =>
    let u := k.unit v d a
    match u.waiting with
    | some cmd =>
      if u.run = .run || u.dropped ≠ [] || k.awaitsPlace v d a then k
      else if !k.startable v d a then
        (k.setUnit v d a { u with waiting := none }).completeStart v d a cmd.seq .notStarted
      else k.setUnit v d a ({ u with waiting := none }.begin a k.now (k.fenceLimit v d) cmd)
    | none => k)

/-- R858: the program holds a requested slot that has not ended. -/
def Bu.slotsOpen (u : Bu) : Bool := u.latchBusy false 0 || u.latchBusy false 1

/-- The state a bank unit takes at the end of its program. -/
def Bu.ended (u : Bu) (st : EndStatus) : Bu :=
  { u with run := if st = .fault then .fault else .idle, ending := none, start := none, fenceHeld := false }

/-- BU_PROGRAM_END (R858, R184, R175, R183): a program that has halted, faulted or been stopped ends, once every slot it
requested has ended. -/
def execBuProgramEnd (v d a : Nat) (s : State) : Host.Outcome State Fault Refusal :=
  s.onVat (s.hasLogical v d a) v (fun k =>
    let u := k.unit v d a
    match u.ending with
    | some st =>
      if u.slotsOpen then k
      else
        let k := k.setUnit v d a { u.ended st with dropped := [] }
        let k := match u.start with | some cmd => k.completeStart v d a cmd.seq st | none => k
        u.dropped.foldl (fun k w => k.completeStart v d a w.seq .notStarted) k
    | none => k)

/-- BU_COMPLETION_POST (R433 to R435): the die's oldest completion entry lands in its core's CPL, with the time. -/
def execBuCompletionPost (v d : Nat) (s : State) : Host.Outcome State Fault Refusal :=
  s.onVat (s.hasDie v d) v (fun k =>
    let x := k.die v d
    match x.posts with
    | [] => k
    | e :: rest =>
      let r := k.postCpl v (ownerOf d) (e ||| BitVec.ofNat 512 (k.now * 2 ^ 448))
      if r.2 then r.1.setDie v d { r.1.die v d with posts := rest } else r.1)

/-- R341, R342: the words of a load written into one bank unit's store. -/
def Bu.loadStore (u : Bu) (off : Nat) (ws : List Word) : Bu :=
  { u with pstore := storeRun 0 u.pstore off ws, pstoreBad := storeRun false u.pstoreBad off (ws.map (fun _ => false)) }

/-- BU_PSTORE_LOAD (R339, R341, R342): the first load whose bank units are free is broadcast. -/
def execBuPstoreLoad (v d : Nat) (s : State) : Host.Outcome State Fault Refusal :=
  s.onVat (s.hasDie v d) v (fun k =>
    let x := k.die v d
    match pickCmd DieCmd.isLoad (k.loadFree v d) 0 [] x.cmds with
    | some (.load mask off ws, rest) =>
      let k := (k.setDie v d { x with cmds := rest }).count (Reg.tsvDownBytes v) (8 * ws.length)
      (maskList mask).foldl (fun k a =>
        if (k.die v d).startable a then k.setUnit v d a ((k.unit v d a).loadStore off ws) else k) k
    | _ => k)

/-- Bytes written into the scratch of a bank unit through its TSV port. -/
def Bu.scratchWrite (u : Bu) (off : Nat) (bs : List Byte) : Bu := { u with scratch := storeRun 0 u.scratch off bs }

/-- TSV_WRITE_LAND (R189, R190, R381): the oldest broadcast or directed write of the die lands. -/
def execTsvWriteLand (v d : Nat) (s : State) : Host.Outcome State Fault Refusal :=
  s.onVat (s.hasDie v d) v (fun k =>
    let x := k.die v d
    match x.writes with
    | .write target off bs :: rest =>
      let k := k.setDie v d { x with writes := rest }
      let land (k : Chip) (a : Nat) : Chip := k.setUnit v d a ((k.unit v d a).scratchWrite off bs)
      match target with
      | none => ((List.range 96).filter (k.die v d).startable).foldl land (k.count (Reg.tsvDownBytes v) bs.length)
      | some a => if (k.die v d).startable a then land (k.count (Reg.tsvDownBytes v) bs.length) a else k
    | _ => k)

/-- SCRATCH_READ_COMPLETE (R274, R310, R381): the control stream's oldest scratch read has its last byte in the operand
cache. -/
def execScratchReadComplete (v c : Nat) (s : State) : Host.Outcome State Fault Refusal :=
  s.onVat (s.hasCore v c) v (fun k =>
    match (k.stream v c 0).oldest with
    | some (.sread d a off len oc) =>
      let k := if (k.die v d).startable a then
          let bs := lookupRun 0 (k.unit v d a).scratch off len
          (k.setCore v c ((k.core v c).ocWrite oc bs false)).count (Reg.tsvUpBytes v) len
        else k
      k.finish v c 0 (.sread d a off len oc)
    | _ => k)

end Sys2Proof.Machine
end

