-- ==== Sys2Proof/Machine/Bank.lean ====
section
/-!
DEFINITION. Class 7, the bank unit's own instructions (Table 8.13, R391 to R397): row-slot requests, copies, the vector
datapath, and the whey bus (R193 to R199).
-/

namespace Sys2Proof.Machine

/-! ### Row-slot requests (R162, R394) -/

/-- R162, R201: the page check of one row access by the program of a bank unit; a CALIBRATING spare's own bank is open to it. -/
def Chip.rowCheck (k : Chip) (v d b row : Nat) (wr : Bool) : Option BankCause :=
  let u := k.bu v d b
  match u.start with
  | none => none
  | some cmd =>
    if 96 ≤ (k.die v d).logicalOf b then none
    else (k.protect v (k.page v d b (row / 2048)) cmd.domain wr).map BankCause.ofDma

/-- BRD and BWR: the page check at issue, and the request at the arbiter. -/
def bankSlot (wr : Bool) (op : Nat) (u : IssueUnit) (ops : BitVec 56) (s : State) : Host.Outcome State Fault Refusal :=
  let q := qForm ops
  s.onChip (s.hasUnit u) (fun k => issueB k u op ops (useD + useA + 1) (q.d = endZero && bankPopOk q.a)
    (fun v d b k =>
      let x := k.bu v d b
      let row := (x.endValue q.a).toNat % 2 ^ 16
      let l := q.imm % 2
      if x.latchBusy false l then .wait
      else match k.rowCheck v d b row wr with
        | some f => .fault f k
        | none =>
          let r : SlotReq :=
            { use := if wr then .buWrite l row else .buRead l row, cls := .bank, row := some row, arrived := k.now }
          .step (k.setBu v d b { x with slotQ := x.slotQ ++ [r] })))

/-- BRD. -/
def execBrd (u : IssueUnit) (ops : BitVec 56) (s : State) : Host.Outcome State Fault Refusal := bankSlot false 0xE0 u ops s

/-- BWR. -/
def execBwr (u : IssueUnit) (ops : BitVec 56) (s : State) : Host.Outcome State Fault Refusal := bankSlot true 0xE1 u ops s

/-! ### Reads and writes in turn -/

/-- A chain of accesses to the bank-unit address space, the first stop ending it. -/
def BankMem.bind {α β : Type} (m : BankMem α) (f : α → BankMem β) : BankMem β :=
  match m with
  | .fault c => .fault c
  | .wait => .wait
  | .ok x => f x

/-- The reads of several runs (address, bytes, alignment), joined. -/
def Bu.readAll (u : Bu) : List (Nat × Nat × Nat) → BankMem (List (List Byte))
  | [] => .ok []
  | (a, n, al) :: rest => (u.read a n al).bind (fun bs => (u.readAll rest).bind (fun r => .ok (bs :: r)))

/-- The writes of several runs (address, alignment, bytes), in order. -/
def Bu.writeAll (u : Bu) : List (Nat × Nat × List Byte) → BankMem Bu
  | [] => .ok u
  | (a, al, bs) :: rest => (u.write a al bs).bind (fun u' => u'.writeAll rest)

/-- Eight lanes, or 32, at a lane address. -/
def Bu.lanes (u : Bu) (a n : Nat) : BankMem (List Int) :=
  (u.read a (4 * n) 4).bind (fun bs => .ok ((List.range n).map (fun i => signedOf 32 (leNat ((bs.drop (4 * i)).take 4)))))

/-- Lanes as bytes. -/
def laneBytes (l : List Int) : List Byte := l.flatMap (fun x => leBytes 4 (bitsOf 32 x))

/-- R392: the block `k` of an operand: its data run and its scale run. -/
def blockRuns (f : Fmt) (w : Lane) (k : Nat) : List (Nat × Nat × Nat) :=
  [(w.toNat % 2 ^ 16 + k * f.unitBytes, f.unitBytes, 8), (w.toNat / 2 ^ 16 + 2 * k, 2, 2)]

/-- A block read from the address space, as (scale, codes). -/
def Bu.block (u : Bu) (f : Fmt) (w : Lane) (k : Nat) : BankMem (Nat × List Int) :=
  (u.readAll (blockRuns f w k)).bind (fun rs => .ok (leNat (rs.getD 1 []), unpackBlock f (rs.getD 0 [])))

/-- Tables 8.13 and 8.14: the block formats of the B profile. -/
def bankFmt (code : Nat) : Option Fmt := if code = 0 then some .s8 else if code = 1 then some .s6 else if code = 2 then some .s4 else none

/-- What an instruction of the bank unit's datapath comes to: the bank unit after it, and its flags. -/
def bankWork (v d b : Nat) (k : Chip) (m : BankMem (Bu × NumSet)) : BankEff :=
  match m with
  | .fault f => .fault f k
  | .wait => .wait
  | .ok (u, n) => .step ((k.setBu v d b u).setBuNum v d b n)

/-- R397: the AIX effective value: bits [15:0] name the destination. -/
def QForm.dest (q : QForm) (u : Bu) : Lane := BitVec.ofNat 32 (q.aixVal u.seq 32)

/-- The form of a datapath instruction: D ZERO, AIXE set. -/
def datapathForm (q : QForm) : Bool := q.d = endZero && q.aixe && bankPopOk q.a

/-! ### Copies and the datapath -/

/-- The `n` column words from word `i` of a source. -/
def Bu.wordsAt (u : Bu) (src : Nat) : Nat → Nat → BankMem (List (List Byte))
  | 0, _ => .ok []
  | n + 1, i => (u.read (src + 32 * i) 32 32).bind (fun bs => (u.wordsAt src n (i + 1)).bind (fun rest => .ok (bs :: rest)))

/-- Column words written from word `i` of a destination on. -/
def Bu.putWords (dst : Nat) : List (List Byte) → Nat → Bu → BankMem Bu
  | [], _, u => .ok u
  | bs :: rest, i, u => (u.write (dst + 32 * i) 32 bs).bind (Bu.putWords dst rest (i + 1))

/-- BCPY: 1 to 32 column words, all read before any is written (DEDUCED, log entry 32). -/
def Bu.copyWords (u : Bu) (src dst n i : Nat) : BankMem Bu := (u.wordsAt src n i).bind (fun ws => Bu.putWords dst ws i u)

/-- BCPY. -/
def execBcpy (u : IssueUnit) (ops : BitVec 56) (s : State) : Host.Outcome State Fault Refusal :=
  let q := qForm ops
  s.onChip (s.hasUnit u) (fun k => issueB k u 0xE2 ops (useD + useA + useX + 0x1F) (datapathForm q)
    (fun v d b k =>
      let x := k.bu v d b
      bankWork v d b k ((x.copyWords ((x.endValue q.a).toNat % 2 ^ 16) ((q.dest x).toNat % 2 ^ 16) (q.imm % 32 + 1) 0).bind
        (fun x' => .ok (x', {})))))

/-- R69 to R72, R80: one BDOT pair into the lane at `dst`, starting from zero where `init`. -/
def Bu.dotPair (u : Bu) (fa fb : Fmt) (t : Int) (a b : Lane) (ka kb dst : Nat) (init : Bool) : BankMem (Bu × Bool) :=
  (u.block fa a ka).bind (fun x =>
    (u.block fb b kb).bind (fun y =>
      (u.read dst 4 4).bind (fun l =>
        let r := accPair 32 t (if init then 0 else signedOf 32 (leNat l)) x.1 x.2 y.1 y.2
        (u.write dst 4 (leBytes 4 (bitsOf 32 r.1))).bind (fun u' => .ok (u', r.2)))))

/-- BDOT's pairs in order. -/
def Bu.dotPairs (u : Bu) (fa fb : Fmt) (t : Int) (a b : Lane) (dst : Nat) (spread init : Bool) : Nat → Nat → Bool →
    BankMem (Bu × Bool)
  | 0, _, sat => .ok (u, sat)
  | n + 1, i, sat =>
    (u.dotPair fa fb t a b (if spread then 0 else i) i (if spread then dst + 4 * i else dst) (init && (spread || i = 0))).bind
      (fun r => r.1.dotPairs fa fb t a b dst spread init n (i + 1) (sat || r.2))

/-- BDOT (Table 8.14). -/
def execBdot (u : IssueUnit) (ops : BitVec 56) (s : State) : Host.Outcome State Fault Refusal :=
  let q := qForm ops
  let fa := bankFmt (bitsAt q.imm 3 0)
  let fb := bankFmt (bitsAt q.imm 7 4)
  s.onChip (s.hasUnit u) (fun k => issueB k u 0xE3 ops (useD + useA + useB + useX + 0xFFFFF)
    (datapathForm q && bankPopOk q.b && fa.isSome && fb.isSome)
    (fun v d b k =>
      let x := k.bu v d b
      bankWork v d b k ((x.dotPairs (fa.getD .s8) (fb.getD .s8) (signedOf 8 (bitsAt q.imm 15 8)) (x.endValue q.a) (x.endValue q.b)
        ((q.dest x).toNat % 2 ^ 16) (q.imm.testBit 19) (q.imm.testBit 18) (bitsAt q.imm 17 16 + 1) 0 false).bind
        (fun r => .ok (r.1, { accSat := r.2 })))))

/-- BALU (Table 8.15). -/
def execBalu (u : IssueUnit) (ops : BitVec 56) (s : State) : Host.Outcome State Fault Refusal :=
  let q := qForm ops
  let code := bitsAt q.imm 4 0
  let n := bitsAt q.imm 12 8
  s.onChip (s.hasUnit u) (fun k => issueB k u 0xE4 ops (useD + useA + useB + useX + 0x3F1F)
    (datapathForm q && bankPopOk q.b && laneCodeOk true code)
    (fun v d b k =>
      let x := k.bu v d b
      let second : BankMem (List Int) :=
        if !laneNeedsB code then .ok (List.replicate 8 0)
        else if q.imm.testBit 13 then .ok (List.replicate 8 (x.endValue q.b).toInt)
        else x.lanes ((x.endValue q.b).toNat % 2 ^ 16) 8
      bankWork v d b k ((x.lanes ((x.endValue q.a).toNat % 2 ^ 16) 8).bind (fun a => second.bind (fun y =>
        let rs := a.zipWith (laneFn code n) y
        (x.write ((q.dest x).toNat % 2 ^ 16) 4 (laneBytes (rs.map (·.1)))).bind
          (fun x' => .ok (x', { laneSat := rs.any (·.2) })))))))

/-- BEXP (R87). -/
def execBexp (u : IssueUnit) (ops : BitVec 56) (s : State) : Host.Outcome State Fault Refusal :=
  let q := qForm ops
  s.onChip (s.hasUnit u) (fun k => issueB k u 0xE5 ops (useD + useA + useB + useX) (datapathForm q && bankPopOk q.b)
    (fun v d b k =>
      let x := k.bu v d b
      bankWork v d b k ((x.lanes ((x.endValue q.a).toNat % 2 ^ 16) 8).bind (fun a =>
        let ds := a.map (fun l => clampBits 32 (l - (x.endValue q.b).toInt))
        (x.write ((q.dest x).toNat % 2 ^ 16) 4 (laneBytes (ds.map (fun r => exp2Q15 r.1)))).bind
          (fun x' => .ok (x', { laneSat := ds.any (·.2) }))))))

/-- Table 8.13: a reduction of eight lanes and a scalar, and whether it clamped. -/
def laneReduce (code : Nat) (a : List Int) (m : Int) : Int × Bool :=
  match code with
  | 0 => (a.foldl max m, false)
  | 1 => (a.foldl min m, false)
  | _ => clampBits 32 (a.sum + m)

/-- BRED (R863). -/
def execBred (u : IssueUnit) (ops : BitVec 56) (s : State) : Host.Outcome State Fault Refusal :=
  let q := qForm ops
  s.onChip (s.hasUnit u) (fun k => issueB k u 0xE6 ops (useD + useA + useB + 3)
    (bankPushOk q.d && bankPopOk q.a && bankPopOk q.b && q.imm ≤ 2)
    (fun v d b k =>
      let x := k.bu v d b
      bankWork v d b k ((x.lanes ((x.endValue q.a).toNat % 2 ^ 16) 8).bind (fun a =>
        let r := laneReduce q.imm a (x.endValue q.b).toInt
        .ok (x.pushEnd q.d (BitVec.ofInt 32 r.1), { laneSat := r.2 })))))

/-- BQUANT (R66, R67). -/
def execBquant (u : IssueUnit) (ops : BitVec 56) (s : State) : Host.Outcome State Fault Refusal :=
  let q := qForm ops
  let f := bankFmt (bitsAt q.imm 3 0)
  s.onChip (s.hasUnit u) (fun k => issueB k u 0xE7 ops (useD + useA + useX + 0xFF0F) (datapathForm q && f.isSome)
    (fun v d b k =>
      let x := k.bu v d b
      let g := f.getD .s8
      let w := q.dest x
      bankWork v d b k ((x.lanes ((x.endValue q.a).toNat % 2 ^ 16) 32).bind (fun a =>
        let r := quantise g (signedOf 8 (bitsAt q.imm 15 8)) a
        (x.writeAll [(w.toNat % 2 ^ 16, 8, packBlock g r.codes), (w.toNat / 2 ^ 16, 2, leBytes 2 r.scale)]).bind
          (fun x' => .ok (x', { qsat := r.qsat }))))))

/-- A block decoded into lanes of exponent `t`, each with whether it clamped. -/
def decodeLanes (t : Int) (s : Nat) (codes : List Int) : List (Int × Bool) :=
  codes.map (fun c => clampBits 32 (roundScale (codeMant s c) ((scaleExp s : Int) - 135 - t)))

/-- BDEC. -/
def execBdec (u : IssueUnit) (ops : BitVec 56) (s : State) : Host.Outcome State Fault Refusal :=
  let q := qForm ops
  let f := bankFmt (bitsAt q.imm 3 0)
  s.onChip (s.hasUnit u) (fun k => issueB k u 0xE8 ops (useD + useA + useX + 0xFF0F) (datapathForm q && f.isSome)
    (fun v d b k =>
      let x := k.bu v d b
      bankWork v d b k ((x.block (f.getD .s8) (x.endValue q.a) 0).bind (fun blk =>
        let rs := decodeLanes (signedOf 8 (bitsAt q.imm 15 8)) blk.1 blk.2
        (x.write ((q.dest x).toNat % 2 ^ 16) 4 (laneBytes (rs.map (·.1)))).bind
          (fun x' => .ok (x', { laneSat := rs.any (·.2) }))))))

/-! ### The whey bus -/

/-- R193, R391: a whey offset: 32-byte aligned, all its bytes in the scratch; one that is neither is recorded as ADDR_RANGE (DESIGN CHOICE, log
entry 78). -/
def wheyFault (a n : Nat) : Option BankCause :=
  if 0x2000 < a + n then some .addrRange else if a % 32 ≠ 0 then some .align else none

/-- BWSEND (R193, R196, R198, R199). Bits [31:16] of the source operand are ignored, and of several breaches the source's comes first, then the
destination offset's, then WHEY_DEST (DESIGN CHOICE, log entry 78). -/
def execBwsend (u : IssueUnit) (ops : BitVec 56) (s : State) : Host.Outcome State Fault Refusal :=
  let q := qForm ops
  s.onChip (s.hasUnit u) (fun k => issueB k u 0xE9 ops (useD + useA + useB + useX + 0x1F) (datapathForm q && bankPopOk q.b)
    (fun v d b k =>
      let x := k.bu v d b
      let n := 32 * (q.imm % 32 + 1)
      let src := (x.endValue q.a).toNat % 2 ^ 16
      let dst := (x.endValue q.b).toNat
      let off := (q.dest x).toNat % 2 ^ 16
      match wheyFault src n, wheyFault off n with
      | some f, _ => .fault f k
      | none, some f => .fault f k
      | none, none =>
        if 100 ≤ dst || !(k.die v d).startable dst then .fault .wheyDest k
        else if 4 ≤ x.wheyQ.length then .wait
        else .step (k.setBu v d b { x with wheyQ := x.wheyQ ++ [{ src := src, dst := dst, dstAt := off, len := n, sent := k.now }] })))

/-- BWSTAT (R863). -/
def execBwstat (u : IssueUnit) (ops : BitVec 56) (s : State) : Host.Outcome State Fault Refusal :=
  let q := qForm ops
  s.onChip (s.hasUnit u) (fun k => issueB k u 0xEA ops (useD + 1) (bankPushOk q.d)
    (fun v d b k =>
      let x := k.bu v d b
      .step (k.setBu v d b (x.pushEnd q.d (BitVec.ofNat 32 (if q.imm = 0 then x.wheyRx else x.wheyQ.length))))))

/-- R195: the sender the bus grants next: round robin over logical indices from the one after the last granted. -/
def Chip.wheyNext (k : Chip) (v d : Nat) : Option Nat :=
  let x := k.die v d
  ((List.range 100).map (fun i => (x.wheyLast + 1 + i) % 100)).find? (fun a => (k.unit v d a).wheyQ ≠ [])

/-- WHEY_GRANT (R194 to R196): with the bus free, the next sender's oldest transfer reads its bytes and takes the bus. -/
def execWheyGrant (v d : Nat) (s : State) : Host.Outcome State Fault Refusal :=
  s.onVat (s.hasDie v d) v (fun k =>
    let x := k.die v d
    if x.wheyBus.isSome then k else
    match k.wheyNext v d with
    | none => k
    | some a =>
      let u := k.unit v d a
      match u.wheyQ with
      | [] => k
      | w :: rest =>
        let bs := lookupRun 0 u.scratch w.src w.len
        let u' := { u with wheyTx := (u.wheyTx + 1) % 2 ^ 16, wheyQ := rest.map (fun r => { r with sent := max r.sent k.now }) }
        let k := k.setUnit v d a u'
        let k := k.satMax (Reg.dieWheyWaitMax v d) 15 0 ((k.now - w.sent) / 2)
        k.setDie v d { k.die v d with wheyLast := a, wheyBus := some { src := a, dst := w.dst, dstAt := w.dstAt, bytes := bs } })

/-- WHEY_LAND (R192, R197, R199): the transfer on the bus lands in its destination's scratch. -/
def execWheyLand (v d : Nat) (s : State) : Host.Outcome State Fault Refusal :=
  s.onVat (s.hasDie v d) v (fun k =>
    let x := k.die v d
    match x.wheyBus with
    | none => k
    | some w =>
      let k := k.setDie v d { x with wheyBus := none }
      let u := k.unit v d w.dst
      let k := k.setUnit v d w.dst { (u.scratchWrite w.dstAt w.bytes) with wheyRx := (u.wheyRx + 1) % 2 ^ 16 }
      k.count (Reg.dieWheyBytes v d) w.bytes.length)

end Sys2Proof.Machine
end

