-- ==== Sys2Proof/Machine/Rows.lean ====
section
/-!
DEFINITION. Whole-row work of the Hykaley library's bank-unit routines: read slots and write slots taken in turn, with
their page checks (R162), as one computation that a fault ends. Bank-unit-class slots count in BU_SLOTS_BU.
-/

namespace Sys2Proof.Machine

/-- Where a routine runs: the vat, die and physical bank. -/
structure BankAt where
  v : Nat
  d : Nat
  b : Nat
deriving DecidableEq, Repr

/-- The machine a routine works on. -/
structure Mach where
  dr : Dram
  k  : Chip

/-- What a run of row slots comes to. -/
inductive RowRun (α : Type) where
  | fault (f : BankCause) (m : Mach)
  | ok (x : α) (m : Mach)

/-- One run of slots and then another. -/
def RowRun.bind {α β : Type} (r : RowRun α) (f : α → Mach → RowRun β) : RowRun β :=
  match r with
  | .fault c m => .fault c m
  | .ok x m => f x m

/-- What a run leaves where it ends in a fault. -/
def RowRun.onFault {α : Type} (r : RowRun α) (f : Mach → Mach) : RowRun α :=
  match r with
  | .fault c m => .fault c (f m)
  | .ok x m => .ok x m

/-- A run over a list, its answers joined. -/
def runList {α β : Type} (f : α → Mach → RowRun β) : List α → Mach → RowRun (List β)
  | [], m => .ok [] m
  | a :: as, m => (f a m).bind (fun x m => (runList f as m).bind (fun xs m => .ok (x :: xs) m))

/-- The bank unit that a routine runs on. -/
def Mach.bu (m : Mach) (p : BankAt) : Bu := m.k.bu p.v p.d p.b

/-- The machine with its bank unit replaced. -/
def Mach.setBu (m : Mach) (p : BankAt) (u : Bu) : Mach := { m with k := m.k.setBu p.v p.d p.b u }

/-- A bank-unit-class slot granted (Table 4.11, BU_SLOTS_BU). -/
def Mach.slot (m : Mach) (p : BankAt) : Mach := { m with k := m.k.count (Reg.buSlotsBu p.v p.d p.b) 1 }

/-- A read slot of a row: its 32 column words (R162, R688). -/
def readSlot (p : BankAt) (row : Nat) (m : Mach) : RowRun (List WordRead) :=
  match m.k.rowCheck p.v p.d p.b row false with
  | some f => .fault f m
  | none =>
    let r := m.k.readRow m.dr p.v p.d p.b row 2
    .ok r.1 (Mach.slot { m with k := r.2 } p)

/-- The rows that the `n` bytes at byte `a` of the bank lie in. -/
def rowsOver (a n : Nat) : List Nat := if n = 0 then [] else (List.range ((a % 1024 + n + 1023) / 1024)).map (fun i => a / 1024 + i)

/-- The `n` bytes at byte `a` of the bank, row by row, and whether a column word of them was uncorrectable. -/
def readSpan (p : BankAt) (a n : Nat) (m : Mach) : RowRun (List Byte × Bool) :=
  (runList (readSlot p) (rowsOver a n) m).bind (fun rows m =>
    let words := ((rows.flatten).drop (a % 1024 / 32)).take ((a % 32 + n + 31) / 32)
    .ok (((words.flatMap (·.bytes)).drop (a % 32)).take n, words.any (·.res.bad)) m)

/-- `readSpan` by a program that faults on an uncorrectable word (R859). -/
def readClean (p : BankAt) (a n : Nat) (m : Mach) : RowRun (List Byte) :=
  (readSpan p a n m).bind (fun r m => if r.2 then .fault .dataUncorrectable m else .ok r.1 m)

/-- A write slot that stores the column words under `bs` at byte `a` of the bank: words whole, and others merged with what a
read slot of the row gives (R171, R172). -/
def writeSlot (p : BankAt) (row o : Nat) (bs : List Byte) (m : Mach) : RowRun Unit :=
  match m.k.rowCheck p.v p.d p.b row true with
  | some f => .fault f m
  | none =>
    let base := bankByte p.v p.d p.b (1024 * row)
    let words := (List.range 32).filter (fun w => o < 32 * w + 32 && 32 * w < o + bs.length)
    let dr := words.foldl (fun dr w =>
      let old := m.dr.word (base + 32 * w)
      let whole := o ≤ 32 * w && 32 * w + 32 ≤ o + bs.length
      let new := (List.range 32).map (fun i =>
        if o ≤ 32 * w + i ∧ 32 * w + i < o + bs.length then bs.getD (32 * w + i - o) 0 else old.bytes.getD i 0)
      dr.putEither (base + 32 * w) new (!whole && old.res.bad)) m.dr
    .ok () (Mach.slot { m with dr := dr } p)

/-- `bs` written at byte `a` of the bank, row by row. -/
def writeSpan (p : BankAt) (a : Nat) (bs : List Byte) (m : Mach) : RowRun Unit :=
  (runList (fun row m =>
    let lo := max a (1024 * row)
    writeSlot p row (lo - 1024 * row) ((bs.drop (lo - a)).take (1024 * row + 1024 - lo)) m) (rowsOver a bs.length) m).bind
    (fun _ m => .ok () m)

/-- The pages of `[a, a+n)` of the bank permit a write, or a read, by R162. -/
def spanAllowed (p : BankAt) (a n : Nat) (wr : Bool) (m : Mach) : Bool :=
  (rowsOver a n).all (fun row => (m.k.rowCheck p.v p.d p.b row wr).isNone)

end Sys2Proof.Machine
end

