-- ==== Sys2Proof/Machine/Attention.lean ====
section
/-!
DEFINITION. Near-bank attention (chapter 5 of spec/): the wave buffer, page indexes, and the partial-attention routine ATTN,
with CALIB, which is the same routine over a spare's shadow pages (R221 to R250, R497, R861).
-/

namespace Sys2Proof.Machine

/-! ### The wave buffer (R233, Tables 5.4 and 5.5) -/

/-- R236: WORK_BYTES. -/
def WaveHdr.workBytes (h : WaveHdr) : Nat := 162 * h.g + 4 * h.g * h.dim + 4 * h.dim

/-- Bytes of a query entry (Table 5.5). -/
def WaveHdr.entryBytes (h : WaveHdr) : Nat := 32 + h.hq * h.dim + 2 * (h.hq * h.dim / 32)

/-- The header of a query entry (Table 5.5). -/
structure QEntry where
  slot   : Nat
  layer  : Nat
  rot    : Nat
  oldest : Nat
  tail   : Nat
  tokens : Nat
  window : Nat
deriving DecidableEq, Repr

/-- The entry header in 32 bytes. -/
def qEntry (bs : List Byte) : QEntry :=
  { slot := recField bs 0 2 % 2 ^ 14, layer := recField bs 2 3 % 8, rot := recField bs 3 4, oldest := recField bs 4 7
    tail := recField bs 8 11, tokens := recField bs 12 13, window := recField bs 14 16 }

/-- R231: pages in the range, less one. -/
def QEntry.span (q : QEntry) : Nat := (q.tail + 2 ^ 24 - q.oldest) % 2 ^ 24

/-- R227: the bank of page `p` of a layer. -/
def bankOf (rot layer p : Nat) : Nat := (rot + 16 * layer + p % 96) % 96

/-- R234: the entry touches bank `b`. -/
def QEntry.touches (q : QEntry) (b : Nat) : Bool :=
  (List.range (min (q.span + 1) 384)).any (fun i => bankOf q.rot q.layer ((q.oldest + i) % 2 ^ 24) = b)

/-- R234: the rank of entry `j` on bank `b`. -/
def rankOf (qs : List QEntry) (j b : Nat) : Nat := ((qs.take j).filter (fun q => q.touches b)).length

/-! ### Page indexes (R228 to R232, Table 5.3) -/

/-- Table 5.3. -/
structure PageIdx where
  row      : Nat
  scaleRow : Nat
  half     : Nat
  tier     : Nat
  opened   : Bool
  layer    : Nat
  valid    : Bool
  page     : Nat
deriving DecidableEq, Repr

/-- The entry in a 64-bit word. -/
def pageIdx (w : Nat) : PageIdx :=
  { row := bitsAt w 15 0, scaleRow := bitsAt w 31 16, half := bitsAt w 32 32, tier := bitsAt w 34 33
    opened := bitsAt w 35 35 = 1, layer := bitsAt w 38 36, valid := bitsAt w 39 39 = 1, page := bitsAt w 63 40 }

/-- The word of an entry. -/
def PageIdx.word (e : PageIdx) : Nat :=
  e.row % 2 ^ 16 + e.scaleRow % 2 ^ 16 * 2 ^ 16 + e.half % 2 * 2 ^ 32 + e.tier % 4 * 2 ^ 33
    + (if e.opened then 2 ^ 35 else 0) + e.layer % 8 * 2 ^ 36 + (if e.valid then 2 ^ 39 else 0) + e.page % 2 ^ 24 * 2 ^ 40

/-- The format of a tier (Table 5.2). -/
def tierFmt (tier : Nat) : Fmt := if tier = 0 then .s8 else if tier = 1 then .s6 else .s4

/-- R225, R226, Table 5.2: bytes of a page's data, and of its scale block, for `n` = H_kv × D. -/
def pageBytes (tier n : Nat) : Nat := 2 * n * (tierFmt tier).unitBytes
def scaleBytes (n : Nat) : Nat := 4 * n

/-- Where a page's data and scale block begin in their bank. -/
def PageIdx.dataAt (e : PageIdx) : Nat := 1024 * e.row
def PageIdx.scaleAt (e : PageIdx) : Nat := 1024 * e.scaleRow + 512 * e.half

/-- The byte of a bank at which the page index of a slot begins (R228). -/
def indexAt (pidx slot : Nat) : Nat := 1024 * (pidx + slot / 8) + 128 * (slot % 8)

/-- R230, for the bank `b` that stands for the reader. -/
def PageIdx.usable (e : PageIdx) (q : QEntry) (b n : Nat) : Bool :=
  e.valid && e.tier ≠ 3 && (!e.opened || e.tier = 0) && e.layer = q.layer && (e.page + 2 ^ 24 - q.oldest) % 2 ^ 24 ≤ q.span
    && bankOf q.rot q.layer e.page = b && e.dataAt + pageBytes e.tier n ≤ 2 ^ 26 && e.scaleAt + scaleBytes n ≤ 2 ^ 26

/-- R230: of two usable entries for one page, the first. -/
def firstOfPage : List PageIdx → List PageIdx
  | [] => []
  | e :: es => e :: (firstOfPage es).filter (fun x => x.page ≠ e.page)

/-- R230, R241: the pages used, in the order processed. -/
def pagesOf (index : List Byte) (q : QEntry) (b n : Nat) : List PageIdx :=
  let es := (words64 index 16).map pageIdx
  let age (e : PageIdx) : Nat := (e.page + 2 ^ 24 - q.oldest) % 2 ^ 24
  orderBy age (firstOfPage (es.filter (fun e => e.usable q b n)))

/-- R232: position `i` of page `p` is masked. -/
def QEntry.masked (q : QEntry) (p i : Nat) : Bool :=
  (p = q.tail && q.tokens ≤ i)
    || (q.window ≠ 0 && (let newest : Int := 32 * (q.tail : Int) + q.tokens - 1
        (q.window : Int) ≤ (newest - 32 * p - i) % 2 ^ 29))

/-! ### A page's contents (R223 to R225) -/

/-- A page as read: its data and scale bytes. -/
structure PageData where
  idx    : PageIdx
  data   : List Byte
  scales : List Byte

/-- Block `n` of a page: its scale and codes. -/
def PageData.block (p : PageData) (n : Nat) : Nat × List Int :=
  let f := tierFmt p.idx.tier
  let w := f.unitBytes
  (leNat ((p.scales.drop (2 * n)).take 2), unpackBlock f ((p.data.drop (w * n)).take w))

/-- The key blocks of token `t` for key/value head `h`. -/
def PageData.key (p : PageData) (dim h t : Nat) : List (Nat × List Int) :=
  (List.range (dim / 32)).map (fun i => p.block (2 * h * dim + t * (dim / 32) + i))

/-- Element `d` of the value of token `t`, as a mantissa at 2^−135 (R60). -/
def PageData.value (p : PageData) (dim h t d : Nat) : Int :=
  let base := (2 * h + 1) * dim
  let (s, cs, i) :=
    if p.idx.opened then let b := p.block (base + t * (dim / 32) + d / 32); (b.1, b.2, d % 32)
    else let b := p.block (base + d); (b.1, b.2, t)
  codeMant s (cs.getD i 0) * 2 ^ scaleExp s

/-- Value block `d` of a sealed page. -/
def PageData.valueBlock (p : PageData) (dim h d : Nat) : Nat × List Int := p.block ((2 * h + 1) * dim + d)

/-! ### One query head (R242 to R246) -/

/-- R242: the score of one position. -/
def scoreOf (qb : List (Nat × List Int)) (kb : List (Nat × List Int)) : Int × Bool :=
  (qb.zip kb).foldl (fun a x =>
    let r := accPair 32 (-16) a.1 x.1.1 x.1.2 x.2.1 x.2.2
    (r.1, a.2 || r.2)) (0, false)

/-- A page of one head, scored and classified (R243). -/
structure Scored where
  page : PageData
  pos  : List (ScoreClass × Int)

/-- R242, R243: every position of a page. -/
def scorePage (h : WaveHdr) (q : QEntry) (head : Nat) (qb qb4 : List (Nat × List Int)) (p : PageData) : Scored × Bool :=
  let query := if h.qkS4 ∧ p.idx.tier = 2 then qb4 else qb
  let ss := (List.range 32).map (fun t => scoreOf query (p.key h.dim head t))
  ({ page := p, pos := ss.mapIdx (fun t s => (classifyLane (q.masked p.idx.page t) s.1, s.1)) }, ss.any (·.2))

/-- The running state of a head (R246): m, S, the O lanes, each page's share as (σ, rescales), and what saturated. -/
structure HeadRun where
  m      : Option Int
  s      : Int
  o      : List Int
  shares : List (Int × Nat)
  osat   : Bool
  flags  : NumSet

/-- A lane or S at a saturation value. -/
def atSat (x : Int) : Bool := x = maxOf 32 || x = minOf 32

/-- Table 5.7, step 2: a lane rescaled. -/
def rescale (c x : Int) : Int := if atSat x then x else roundDiv (x * c) (2 ^ 15)

/-- Table 5.7, steps 4 to 6: the weights of a page as exact numbers (mantissas at an exponent), and their block. -/
def pageWeights (pvS4 opened : Bool) (es : List Int) : List Int × Int × QBlock :=
  if opened then (es, -15, { scale := 0, codes := [], qsat := false })
  else
    let b := quantise (if pvS4 then .s4 else .s8) (-15) es
    (b.codes.map (codeMant b.scale), (scaleExp b.scale : Int) - 135, b)

/-- Table 5.7: one page for one head. -/
def pageStep (h : WaveHdr) (head : Nat) (r : HeadRun) (x : Scored) : HeadRun :=
  match x.pos.filter (fun p => p.1 = .fin) with
  | [] => { r with shares := r.shares ++ [(0, 0)] }
  | f :: fs =>
    let mPage := fs.foldl (fun a p => max a p.2) f.2
    let mNew := match r.m with | some m => max m mPage | none => mPage
    let grow := match r.m with | some m => decide (m < mNew) | none => false
    let d := match r.m with | some m => clampBits 32 (m - mNew) | none => (0, false)
    let c := exp2Q15 d.1
    let s := if grow then rescale c r.s else r.s
    let o := if grow then r.o.map (rescale c) else r.o
    let shares := if grow then r.shares.map (fun y => (y.1 * c, y.2 + 1)) else r.shares
    let es := x.pos.map (fun p => if p.1 = .fin then exp2Q15 (clampBits 32 (p.2 - mNew)).1 else 0)
    let cl := x.pos.any (fun p => p.1 = .fin && (clampBits 32 (p.2 - mNew)).2)
    let w := pageWeights h.pvS4 x.page.idx.opened es
    let sigma := roundScale w.1.sum (w.2.1 + 16)
    let s' := clampBits 32 (s + sigma)
    let os := o.mapIdx (fun i l =>
      if x.page.idx.opened then
        let sum := ((List.range 32).map (fun t => es.getD t 0 * x.page.value h.dim head t i)).sum
        accStep 32 l (roundScale sum (-150 - h.uO))
      else
        let vb := x.page.valueBlock h.dim head i
        accPair 32 h.uO l w.2.2.scale w.2.2.codes vb.1 vb.2)
    let osat := os.any (·.2)
    { m := some mNew, s := s'.1, o := os.map (·.1), shares := shares ++ [(sigma, 0)], osat := r.osat || osat || s'.2
      flags := r.flags.or { accSat := osat, laneSat := s'.2 || cl || (grow && d.2), qsat := w.2.2.qsat } }

/-- One record before it is written (Table 5.8), with the flags its making set. -/
structure Partial where
  bytes : List Byte
  flags : NumSet

/-- R249: a share of Q1.15. -/
def shareOf (n : Int) (d : Nat) : Nat := (min 0x7FFF (roundDiv (n * 32768) d)).toNat

/-- Table 5.8: a record: R247 quantises the O lanes. -/
def recordOf (h : WaveHdr) (m s : Int) (status npages : Nat) (shares : List Nat) (o : List Int) (flags : NumSet) : Partial :=
  let blocks := (List.range (h.dim / 32)).map (fun i => quantise .s8 h.uO ((o.drop (32 * i)).take 32))
  { bytes := leBytes 4 (bitsOf 32 m) ++ leBytes 4 (bitsOf 32 s) ++ leBytes 1 status ++ leBytes 1 npages ++ leBytes 2 h.seq
      ++ (List.range 4).flatMap (fun i => leBytes 2 (shares.getD i 0)) ++ leBytes 4 0
      ++ (List.range 4).flatMap (fun i => leBytes 2 (match blocks[i]? with | some b => b.scale | none => 0))
      ++ blocks.flatMap (fun b => b.codes.map (BitVec.ofInt 8))
    flags := flags.or { qsat := blocks.any (·.qsat) } }

/-- R244 to R249: one query head over the bank's pages. -/
def headRecord (h : WaveHdr) (q : QEntry) (head : Nat) (qb qb4 : List (Nat × List Int)) (pages : List PageData) : Partial :=
  let scored := pages.map (scorePage h q head qb qb4)
  let xs := scored.map (·.1)
  let sat : NumSet := { accSat := scored.any (·.2) }
  let count (x : Scored) (c : ScoreClass) : Nat := (x.pos.filter (fun p => p.1 = c)).length
  let k := (xs.map (fun x => count x .pinf)).sum
  if 0 < k then
    let lane (i : Nat) : Int × Bool :=
      let sum := (xs.map (fun x =>
        (x.pos.mapIdx (fun t p => if p.1 = .pinf then x.page.value h.dim head t i else 0)).sum)).sum
      clampBits 32 (roundScale sum (-135 - h.uO))
    let os := (List.range h.dim).map lane
    let osat := os.any (·.2)
    recordOf h 0 k (2 + if osat then 4 else 0) pages.length (xs.map (fun x => shareOf (count x .pinf) k)) (os.map (·.1))
      (sat.or { accSat := osat, pinf := true })
  else if xs.all (fun x => count x .fin = 0) then
    recordOf h 0 0 1 pages.length [] (List.replicate h.dim 0) sat
  else
    let r := xs.foldl (pageStep h head)
      { m := none, s := 0, o := List.replicate h.dim 0, shares := [], osat := false, flags := sat }
    recordOf h (r.m.getD 0) r.s (if r.osat then 4 else 0) pages.length
      (r.shares.map (fun y => shareOf y.1 (r.s.toNat * 2 ^ (15 * y.2)))) r.o r.flags

/-! ### The routine -/

/-- A query entry in scratch: its header and its query blocks, as sent and re-quantised to S4 (R242). -/
structure Query where
  q    : QEntry
  head : List (List (Nat × List Int) × List (Nat × List Int))
  qsat : Bool

/-- Entry bytes parsed. -/
def queryOf (h : WaveHdr) (bs : List Byte) : Query :=
  let n := h.dim / 32
  let blk (i : Nat) : Nat × List Int :=
    (recField bs (32 + h.hq * h.dim + 2 * i) (32 + h.hq * h.dim + 2 * i + 2), unpackBlock .s8 ((bs.drop (32 + 32 * i)).take 32))
  let to4 (b : Nat × List Int) : QBlock := quantise .s4 ((scaleExp b.1 : Int) - 135) (b.2.map (codeMant b.1))
  let heads := (List.range h.hq).map (fun i => (List.range n).map (fun j => blk (n * i + j)))
  let fours := heads.map (fun l => l.map to4)
  { q := qEntry bs, head := heads.zip (fours.map (fun l => l.map (fun b => (b.scale, b.codes))))
    qsat := h.qkS4 && fours.any (fun l => l.any (·.qsat)) }

/-- R241: one page read, data and scales. -/
def readPage (p : BankAt) (n : Nat) (e : PageIdx) (m : Mach) : RowRun PageData :=
  (readClean p e.scaleAt (scaleBytes n) m).bind (fun sc m =>
    (readClean p e.dataAt (pageBytes e.tier n) m).bind (fun da m => .ok { idx := e, data := da, scales := sc } m))

/-- R241 to R249: the record set of one entry on the bank that stands as `b`, and the flags. -/
def entryRecords (p : BankAt) (b : Nat) (h : WaveHdr) (e : Query) (m : Mach) : RowRun (List Byte × NumSet) :=
  let n := h.hkv * h.dim
  (readClean p (indexAt h.pidx e.q.slot) 128 m).bind (fun index m =>
    (runList (readPage p n) (pagesOf index e.q b n) m).bind (fun pages m =>
      let four := h.qkS4 && pages.any (fun x => x.idx.tier = 2)
      let rs := e.head.mapIdx (fun i x => headRecord h e.q (i / h.g) x.1 x.2 pages)
      .ok (rs.flatMap (·.bytes), (rs.foldl (fun (a : NumSet) r => a.or r.flags) {}).or { qsat := four && e.qsat }) m))

/-- R861: the faults of a wave header at scratch offset `at_`. A header that meets conditions of both is recorded as ADDR_RANGE (DESIGN CHOICE, log
entry 80). -/
def waveFault (at_ : Nat) (h : WaveHdr) : Option BankCause :=
  if 0x2000 < at_ + 32 then some .addrRange
  else if (List.range h.nent).any (fun j => 0x2000 < h.qOff + j * h.qStride + h.entryBytes)
    ∨ 0x2000 < h.outOff + h.outSlots * h.setBytes ∨ 0x2000 < h.workOff + h.workBytes then some .addrRange
  else if h.dsel = 3 ∨ h.nent = 0 ∨ 8 < h.nent ∨ h.outSlots = 0 ∨ 4 < h.outSlots ∨ h.qOff % 32 ≠ 0 ∨ h.outOff % 32 ≠ 0
    ∨ h.workOff % 32 ≠ 0 ∨ h.qStride % 32 ≠ 0 ∨ !h.rsvd then some .waveInvalid
  else none

/-- Two runs of bytes that share none. -/
def apart (a n b m : Nat) : Bool := a + n ≤ b || b + m ≤ a

/-- R236: an entry's slot belongs to a context homed on the die, and the wave's geometry is that of the context's model. -/
def Chip.homedEntry (k : Chip) (v d : Nat) (h : WaveHdr) (q : QEntry) : Bool :=
  k.hub.ctxs.any (fun c => (c.2.state = .live || c.2.state = .migrating || c.2.state = .closing)
    && c.2.vat = v && c.2.die = d && c.2.slot = q.slot
    && k.hub.models.any (fun m => m.1 = c.2.model && m.2.hkv = h.hkv && m.2.g = h.g && m.2.dsel = h.dsel && q.layer < m.2.layers))

/-- R236, R231, R861: what a wave must be for its outputs to be specified. -/
def Chip.waveSound (k : Chip) (p : BankAt) (at_ : Nat) (h : WaveHdr) (qs : List QEntry) : Bool :=
  let out := h.outSlots * h.setBytes
  let clear (a n : Nat) : Bool :=
    apart a n at_ 32 && (List.range h.nent).all (fun j => apart a n (h.qOff + j * h.qStride) h.entryBytes)
  h.hq ≤ 16 && 32 ≤ h.hkv * h.dim && h.hkv * h.dim ≤ 512 && apart h.outOff out h.workOff h.workBytes
    && clear h.outOff out && clear h.workOff h.workBytes
    && qs.all (fun q => q.rot ≤ 95 && 1 ≤ q.tokens && q.tokens ≤ 32 && q.span < 384 && k.homedEntry p.v p.d h q)

/-- The key by which a bank unit's free values are named. -/
def BankAt.key (p : BankAt) : Nat := 2 * bankKey p.v p.d p.b

/-- R400: what a bank-unit routine leaves of its working state: S0 to S14, both latches, and `n` bytes of scratch at `o`. -/
def Mach.used (m : Mach) (p : BankAt) (o n : Nat) : Mach :=
  let u := m.bu p
  let t := m.k.now
  let latch (i : Nat) : Latch :=
    { bytes := Config.workCells p.key t i, written := Config.workBits p.key t i % 2 ^ 1024, marked := Config.workBits p.key t (2 + i) % 2 ^ 32 }
  m.setBu p { u with
    sregs := u.sregs.mapIdx (fun i x => if i < 15 then (Config.workWord p.key t i).truncate 32 else x)
    latches := [latch 0, latch 1]
    scratch := storeRun 0 u.scratch o (lookupRun 0 (Config.workCells p.key t 2) o n) }

/-- Bytes of a bank unit's scratch, zero beyond its end. -/
def Mach.scratch (m : Mach) (p : BankAt) (o n : Nat) : List Byte := lookupRun 0 (m.bu p).scratch o n

/-- Bytes written into scratch. -/
def Mach.putScratch (m : Mach) (p : BankAt) (o : Nat) (bs : List Byte) : Mach := m.setBu p ((m.bu p).scratchWrite o bs)

/-- R237, R241 to R250: ATTN, on the bank that stands as `b`. A header that is not 32-byte aligned is served where it stands, and a wave that faults
at a row leaves BU_NUMFLAGS alone (DESIGN CHOICE, log entry 80). -/
def attention (p : BankAt) (b : Nat) (m : Mach) : RowRun Unit :=
  let u := m.bu p
  let o := (u.sregs.getD 0 0).toNat
  let h := waveHdr (m.scratch p o 32)
  match waveFault o h with
  | some f => .fault f m
  | none =>
    let qs := (List.range h.nent).map (fun j => queryOf h (m.scratch p (h.qOff + j * h.qStride) h.entryBytes))
    let es := qs.map (·.q)
    let mine := (List.range h.nent).filter (fun j => (es.getD j (qEntry [])).touches b && rankOf es j b < h.outSlots)
    let sound := m.k.waveSound p o h es
    ((runList (fun j m =>
      match qs[j]? with
      | some e => entryRecords p b h e m
      | none => .ok ([], {}) m) mine m).onFault (fun m => m.used p h.workOff h.workBytes)).bind (fun rs m =>
      let m := m.used p h.workOff h.workBytes
      let m := { m with k := m.k.setBuNum p.v p.d p.b (rs.foldl (fun (a : NumSet) r => a.or r.2) {}) }
      if sound then
        .ok () ((mine.zip rs).foldl (fun m x => m.putScratch p (h.outOff + rankOf es x.1 b * h.setBytes) x.2.1) m)
      else
        let n := h.outSlots * h.setBytes
        .ok () (if mine = [] then m
          else m.putScratch p h.outOff (lookupRun 0 (Config.workCells p.key m.k.now 3) h.outOff n)))

/-- ATTN on an active bank (R230, R234). -/
def libAttn (p : BankAt) (m : Mach) : RowRun Unit := attention p ((m.k.die p.v p.d).logicalOf p.b) m

/-- CALIB: ATTN on a spare, with ARG1 the stand-in bank (R497). -/
def libCalib (p : BankAt) (m : Mach) : RowRun Unit := attention p (((m.bu p).sregs.getD 1 0).toNat % 128) m

end Sys2Proof.Machine
end

