-- ==== Sys2Proof/Machine/Library.lean ====
section
/-!
DEFINITION. The bank-unit routines of the Hykaley library (Table 8.19): SEAL, RIPEN, COMPACT, CULL and FILL, and the table of
all seven (R399 to R406, R862). Each is performed whole at its RET.
-/

namespace Sys2Proof.Machine

/-! ### Affinage jobs (Table 8.20) -/

/-- Table 8.20: a job record. -/
structure JobRec where
  slot   : Nat
  entry  : Nat
  page   : Nat
  row    : Nat
  srow   : Nat
  half   : Nat
deriving DecidableEq, Repr

/-- The record in 32 bytes. -/
def jobRec (bs : List Byte) : JobRec :=
  { slot := recField bs 0 2 % 2 ^ 14, entry := recField bs 2 3 % 16, page := recField bs 3 6, row := recField bs 6 8
    srow := recField bs 8 10, half := recField bs 10 11 % 2 }

/-- Their codes. -/
def JobStatus.code : JobStatus → Nat
  | .done => 0 | .stale => 1 | .badTier => 2 | .dataError => 3 | .range => 4

/-- The model that a context slot of a die serves: that of the context homed there, else the lowest placed on the pool of
the die's core. The job record does not name a geometry. -/
def Chip.slotModel (k : Chip) (v d slot : Nat) : Option Model :=
  match k.hub.ctxs.find? (fun c => c.2.vat = v && c.2.die = d && c.2.slot = slot) with
  | some c => (k.hub.models.find? (fun m => m.1 = c.2.model)).map (·.2)
  | none =>
    let mine (p : Nat) : Bool := k.hub.pools.any (fun q => q.1 = p && q.2.cores.any (fun c => c.core = 4 * v + ownerOf d))
    (k.hub.models.find? (fun m => mine m.2.pool)).map (·.2)

/-- H_kv × D of a model, and D. -/
def Model.width (m : Model) : Nat := m.hkv * (32 * 2 ^ m.dsel)
def Model.dim (m : Model) : Nat := 32 * 2 ^ m.dsel

/-- The blocks of a page, each (scale, codes). -/
def PageData.blocks (p : PageData) (n : Nat) : List (Nat × List Int) := (List.range (2 * n)).map p.block

/-- Blocks as page data and a scale block, and whether a quantisation set QSAT. -/
def packPage (f : Fmt) (bs : List QBlock) : List Byte × List Byte × Bool :=
  (bs.flatMap (fun b => packBlock f b.codes), bs.flatMap (fun b => leBytes 2 b.scale), bs.any (·.qsat))

/-- A block kept as it stands. Whether a block with e = 0 is then rewritten as R64 has blocks made is the spec's silence: SEAL's key blocks and
COMPACT's blocks are copied verbatim (DESIGN CHOICE, log entry 72). -/
def keepBlock (b : Nat × List Int) : QBlock := { scale := b.1, codes := b.2, qsat := false }

/-- R406: a block re-quantised exactly from its decoded value. -/
def requant (f : Fmt) (b : Nat × List Int) : QBlock := quantise f ((scaleExp b.1 : Int) - 135) (b.2.map (codeMant b.1))

/-- R223, R224: an open page's blocks as a sealed S8 page holds them: keys as they stand, and each dimension's 32 values as
one block, quantised by R66. -/
def sealBlocks (p : PageData) (hkv dim : Nat) : List QBlock :=
  (List.range hkv).flatMap (fun h =>
    (List.range dim).map (fun i => keepBlock (p.block (2 * h * dim + i)))
      ++ (List.range dim).map (fun d => quantise .s8 (-135) ((List.range 32).map (fun t => p.value dim h t d))))

/-- What one job writes: the new blocks of the page, in its new tier, sealed. -/
def newPage (kind : Nat) (md : Model) (p : PageData) : Nat × List Byte × List Byte × Bool :=
  let n := md.width
  match kind with
  | 2 => (0, packPage .s8 (sealBlocks p md.hkv md.dim))
  | 3 => (p.idx.tier + 1, packPage (tierFmt (p.idx.tier + 1)) ((p.blocks n).map (requant (tierFmt (p.idx.tier + 1)))))
  | _ => (p.idx.tier, p.data, p.scales, false)

/-- R405: the tier the job needs. -/
def tierOk (kind : Nat) (e : PageIdx) : Bool :=
  match kind with
  | 2 => e.opened
  | 3 => !e.opened && e.tier < 2
  | _ => true

/-- R404, R405, R406: one job of kind 2 SEAL, 3 RIPEN, 4 COMPACT or 5 CULL, and its status. -/
def runJob (p : BankAt) (kind pidx : Nat) (j : JobRec) (m : Mach) : RowRun JobStatus :=
  let at_ := indexAt pidx j.slot + 8 * j.entry
  if 2 ^ 26 < at_ + 8 ∨ !spanAllowed p at_ 8 false m then .ok .range m
  else
    (readClean p at_ 8 m).bind (fun w m =>
      let e := pageIdx (leNat w)
      if !e.valid || e.page ≠ j.page then .ok .stale m
      else if !spanAllowed p at_ 8 true m then .ok .range m
      else if kind = 5 then
        (writeSpan p at_ (leBytes 8 { e with valid := false }.word) m).bind (fun _ m => .ok .done m)
      else if !tierOk kind e then .ok .badTier m
      else match m.k.slotModel p.v p.d j.slot with
      | none => .ok .stale m
      | some md =>
        let n := md.width
        let tier := if kind = 2 then 0 else if kind = 3 then e.tier + 1 else e.tier
        let da := 1024 * j.row
        let sa := 1024 * j.srow + 512 * j.half
        let fits (a n : Nat) (wr : Bool) : Bool := a + n ≤ 2 ^ 26 && spanAllowed p a n wr m
        if !(fits da (pageBytes tier n) true && fits sa (scaleBytes n) true && fits e.dataAt (pageBytes e.tier n) false
            && fits e.scaleAt (scaleBytes n) false) then .ok .range m
        else
          (readSpan p e.scaleAt (scaleBytes n) m).bind (fun sc m =>
            (readSpan p e.dataAt (pageBytes e.tier n) m).bind (fun dt m =>
              if sc.2 || dt.2 then .ok .dataError m
              else
                let r := newPage kind md { idx := e, data := dt.1, scales := sc.1 }
                let e' : PageIdx := { e with row := j.row, scaleRow := j.srow, half := j.half, tier := r.1, opened := e.opened && kind = 4 }
                let m := { m with k := m.k.setBuNum p.v p.d p.b { qsat := r.2.2.2 } }
                (writeSpan p da r.2.1 m).bind (fun _ m =>
                  (writeSpan p sa r.2.2.1 m).bind (fun _ m =>
                    (writeSpan p at_ (leBytes 8 e'.word) m).bind (fun _ m => .ok .done m))))))

/-- R404: the jobs of the list at ARG0, in order, each writing its STATUS before the next. -/
def runJobs (p : BankAt) (kind : Nat) (m : Mach) : RowRun Unit :=
  let u := m.bu p
  let arg (i : Nat) : Nat := (u.sregs.getD i 0).toNat
  let list := arg 0
  (runList (fun i m =>
    let a := list + 32 * i
    if 0x2000 < a + 32 then .fault .addrRange m
    else if a % 4 ≠ 0 then .fault .align m
    else (runJob p kind (arg 2 % 2 ^ 16) (jobRec (m.scratch p a 32)) m).bind (fun st m =>
      .ok () (m.putScratch p (a + 11) (leBytes 1 st.code)))) (List.range (arg 1)) m).bind
    (fun _ m => .ok () (m.used p 0 0))

/-- R862: FILL. -/
def libFill (p : BankAt) (m : Mach) : RowRun Unit :=
  let u := m.bu p
  let arg (i : Nat) : Nat := (u.sregs.getD i 0).toNat
  let row := leBytes 4 (arg 2) ++ leBytes 4 (arg 3)
  if 65536 < arg 0 + arg 1 then .fault .addrRange m
  else (runList (fun i m => writeSpan p (1024 * (arg 0 + i)) (List.replicate 128 row).flatten m) (List.range (arg 1)) m).bind
    (fun _ m => .ok () (m.used p 0 0))

/-- Table 8.19: what a B-profile entry does. -/
def libBank (e : Nat) (p : BankAt) (m : Mach) : RowRun Unit :=
  match e with
  | 1 => libAttn p m
  | 6 => libCalib p m
  | 7 => libFill p m
  | _ => runJobs p e m

end Sys2Proof.Machine
end

