-- ==== Sys2Proof/Machine/Merge.lean ====
section
/-!
DEFINITION. The merge unit of a base die (R252 to R264, Tables 5.10 to 5.13): MERGE_BEGIN and MERGE_COMPLETE.
-/

namespace Sys2Proof.Machine

/-! ### Records (Table 5.8) -/

/-- A partial record as the merge unit reads it: M, S, the status bits, WAVE_SEQ and the O blocks. -/
structure MergeRec where
  m     : Int
  s     : Int
  empty : Bool
  pinf  : Bool
  osat  : Bool
  seq   : Nat
  o     : List Int
deriving DecidableEq, Repr

/-- A record of `32 + dim` bytes; an O element is a mantissa at 2^−135. -/
def mergeRec (dim : Nat) (bs : List Byte) : MergeRec :=
  let st := recField bs 8 9
  { m := signedOf 32 (recField bs 0 4), s := signedOf 32 (recField bs 4 8), empty := st.testBit 0, pinf := st.testBit 1
    osat := st.testBit 2, seq := recField bs 10 12
    o := (List.range dim).map (fun i =>
      let sc := recField bs (24 + 2 * (i / 32)) (26 + 2 * (i / 32))
      codeMant sc (signedOf 8 (recField bs (32 + i) (33 + i))) * 2 ^ scaleExp sc) }

/-- R256: a record that R244 to R246 cannot write. -/
def MergeRec.broken (r : MergeRec) : Bool := (r.empty && r.pinf) || (!r.empty && r.s ≤ 0)

/-! ### Loss (R235, R255, R256, Table 5.13) -/

/-- What a merge finds of one entry on one touched bank: its records, or MERGE_LAST_CAUSE. -/
def Chip.mergeBank (k : Chip) (v d : Nat) (r : MergeRun) (h : WaveHdr) (qs : List QEntry) (j b : Nat) :
    Sum Nat (List MergeRec) :=
  match r.attach.find? (fun t => t.bank = b) with
  | none => .inl 0
  | some t =>
    if t.done ≠ some .done then .inl 0
    else
      let rank := rankOf qs j b
      if h.outSlots ≤ rank then .inl 2
      else
        let sc := (k.unit v d b).scratch
        let rs := (List.range h.hq).map (fun i => mergeRec h.dim (lookupRun 0 sc (h.outOff + rank * h.setBytes + i * h.recBytes) h.recBytes))
        if rs.any (fun x => x.seq ≠ r.cmd.waveSeq) then .inl 1
        else if rs.any MergeRec.broken then .inl 3
        else .inr rs

/-! ### Combination (Table 5.11) -/

/-- One head combined: its status bits, the result as numerators over `den` at 2^exp, and each bank's share as a fraction. -/
structure Combined where
  status : Nat
  num    : List Int
  exp    : Int
  den    : Nat
  shares : List (Nat × Nat)

/-- R257, R258, R261: one query head, over (bank, record). -/
def combine (dim : Nat) (rs : List (Nat × MergeRec)) : Combined :=
  let osat (l : List (Nat × MergeRec)) : Nat := if l.any (fun r => r.2.osat) then 8 else 0
  let pinf := rs.filter (fun r => r.2.pinf)
  let fin := rs.filter (fun r => !r.2.pinf && !r.2.empty)
  let sum (l : List (Nat × MergeRec)) (w : MergeRec → Int) : List Int :=
    (List.range dim).map (fun i => (l.map (fun (r : Nat × MergeRec) => w r.2 * r.2.o.getD i 0)).sum)
  if pinf ≠ [] then
    { status := 2 + osat pinf, num := sum pinf (fun _ => 1), exp := -135, den := ((pinf.map (fun (r : Nat × MergeRec) => r.2.s)).sum).toNat
      shares := pinf.map (fun r => (r.1, r.2.s.toNat)) }
  else
    match fin with
    | [] => { status := 1, num := List.replicate dim 0, exp := 0, den := 1, shares := [] }
    | f :: fs =>
      let m := fs.foldl (fun a r => max a r.2.m) f.2.m
      let c (r : MergeRec) : Int := exp2Q15 (clampBits 32 (r.m - m)).1
      { status := osat fin, num := sum fin c, exp := -119, den := ((fin.map (fun (r : Nat × MergeRec) => c r.2 * r.2.s)).sum).toNat
        shares := fin.map (fun r => (r.1, (c r.2 * r.2.s).toNat)) }

/-- R66 to R68 over exact quotients: `num / den × 2^k`. -/
def quantiseOver (f : Fmt) (k : Int) (den : Nat) (num : List Int) : QBlock :=
  let amax := (num.map Int.natAbs).foldl max 0
  if amax = 0 then { scale := 0, codes := num.map (fun _ => 0), qsat := false }
  else
    let (s, sat) := chooseScale (f.qmax.toNat * den) amax k
    let code (x : Int) : Int :=
      let d : Int := k + 135 - (scaleExp s : Int)
      let m := (256 + scaleFrac s) * den
      (clampBits f.bits (if 0 ≤ d then roundDiv (x * 2 ^ d.toNat) m else roundDiv x (m * 2 ^ (-d).toNat))).1
    { scale := s, codes := num.map code, qsat := sat }

/-- The output blocks of one head. -/
def Combined.blocks (c : Combined) (dim : Nat) : List QBlock :=
  (List.range (dim / 32)).map (fun i => quantiseOver .s8 c.exp c.den ((c.num.drop (32 * i)).take 32))

/-- R261: one bank's mean share over the heads of an entry, Q1.15. -/
def massOf (heads : List Combined) (b : Nat) : Nat :=
  let add (a : Nat × Nat) (c : Combined) : Nat × Nat :=
    match c.shares.lookup b with
    | some n => (a.1 * c.den + n * a.2, a.2 * c.den)
    | none => a
  let r := heads.foldl add (0, 1)
  (min 0x7FFF (roundDiv (r.1 * 32768) (r.2 * heads.length))).toNat

/-! ### The merge -/

/-- R254: MERGE_BEGIN: the next merge of a lane begins, and reads the copy at IMAGE. An uncorrectable word of it that its MERGE did not yet meet is
recorded, and the merge goes on (DESIGN CHOICE, log entry 69: R279 names a reading instruction, and this one has completed). -/
def execMergeBegin (v d : Nat) (s : State) : Host.Outcome State Fault Refusal :=
  s.onVat (s.hasDie v d) v (fun k =>
    let x := k.die v d
    match x.merge, x.mergeQ with
    | none, (cmd, att) :: rest =>
      let o := k.core v cmd.core
      let n := 32 * (1 + leNat (o.ocBytes (cmd.image + 2) 1) % 16)
      (k.noteOcUe v cmd.core cmd.image n).setDie v d
        { x with merge := some { cmd := cmd, image := o.ocBytes cmd.image n, attach := att }, mergeQ := rest }
    | _, _ => k)

/-- What a merge has done for the entries before. -/
structure MergeAcc where
  k      : Chip
  status : Nat
  lost   : Nat

/-- R260, Table 5.13: one lost (entry, bank) pair. -/
def Chip.noteLost (k : Chip) (v d seq j b cause : Nat) : Chip :=
  let k := k.satAdd (Reg.mergeLost v d) 15 0 1
  let o := Reg.mergeLastLost v d
  let k := (((k.raise o 31).setF o 23 16 seq).setF o 11 8 j).setF o 6 0 b
  k.setF (Reg.mergeLastCause v d) 1 0 cause

/-- The operand-cache write of a merge output; bytes beyond the cache have no place. -/
def Chip.mergeWrite (k : Chip) (v c a : Nat) (bs : List Byte) : Chip :=
  k.setCore v c ((k.core v c).ocWrite a (bs.take (2 ^ 22 - a)) false)

/-- R257 to R261: one entry of a merge. -/
def MergeAcc.entry (m : MergeAcc) (v d : Nat) (r : MergeRun) (h : WaveHdr) (qs : List QEntry) (j : Nat) : MergeAcc :=
  match qs[j]? with
  | none => m
  | some q =>
    let banks := (List.range 96).filter q.touches
    let found := banks.map (fun b => (b, m.k.mergeBank v d r h qs j b))
    let gone := found.filterMap (fun x => match x.2 with | .inl c => some (x.1, c) | .inr _ => none)
    let good := found.filterMap (fun x => match x.2 with | .inr rs => some (x.1, rs) | .inl _ => none)
    let heads := (List.range h.hq).map (fun i =>
      combine h.dim (good.filterMap (fun x => (x.2[i]?).map (fun y => (x.1, y)))))
    let blocks := heads.flatMap (fun c => c.blocks h.dim)
    let size := h.hq * h.dim + 2 * (h.hq * h.dim / 32)
    let pitch := (size + 31) / 32 * 32
    let out := blocks.flatMap (fun b => b.codes.map (BitVec.ofInt 8)) ++ blocks.flatMap (fun b => leBytes 2 b.scale)
    let lost := if gone = [] then 0 else 4
    let stat := heads.map (fun c => c.status + lost)
    let c := r.cmd.core
    let k := (m.k.count (Reg.tsvUpBytes v) (good.length * h.setBytes)).mergeWrite v c (r.cmd.out + j * pitch) out
    let k := k.mergeWrite v c (r.cmd.status + 16 * j) (stat.map (BitVec.ofNat 8))
    let k := if r.cmd.massEn then
        k.mergeWrite v c (r.cmd.mass + 192 * j) ((List.range 96).flatMap (fun b => leBytes 2 (massOf heads b)))
      else k
    let k := k.setNum v c { qsat := blocks.any (·.qsat), pinf := heads.any (fun x => x.status.testBit 1)
                            empty := heads.any (fun x => x.status.testBit 0) }
    let k := gone.foldl (fun k g => k.noteLost v d r.cmd.waveSeq j g.1 g.2) k
    { k := k, status := stat.foldl Nat.lor m.status, lost := m.lost + gone.length }

/-- Table 9.4, MERGE: a merge's completion entry, its time still to be set. -/
def mergeEntry (d seq status lost : Nat) : BitVec 512 :=
  let bit (n m : Nat) : Nat := if status.testBit n then m else 0
  entryOfBytes ([3, BitVec.ofNat 8 (d % 4)] ++ leBytes 2 seq ++ leBytes 1 (bit 2 1 + bit 1 2 + bit 0 4 + bit 3 8)
    ++ leBytes 11 0 ++ leBytes 2 lost)

/-- The entries a merge serves: those of the wave that its command does not leave out. -/
def MergeRun.entriesOf (r : MergeRun) (h : WaveHdr) : List Nat := (List.range h.nent).filter (fun j => r.cmd.entries.testBit j)

/-- R255: every start that the merge is attached to has completed on the banks its entries touch. -/
def MergeRun.ready (r : MergeRun) (h : WaveHdr) (qs : List QEntry) : Bool :=
  r.attach.all (fun t => t.done.isSome || !(r.entriesOf h).any (fun j => (qs[j]?).any (fun q => q.touches t.bank)))

/-- MERGE_COMPLETE (R255 to R264): with the starts it is attached to completed, the running merge of a lane combines its
record sets and posts its completion. -/
def execMergeComplete (v d : Nat) (s : State) : Host.Outcome State Fault Refusal :=
  s.onVat (s.hasDie v d) v (fun k =>
    match (k.die v d).merge with
    | none => k
    | some r =>
      let h := waveHdr (r.image.take 32)
      let qs := (List.range h.nent).map (fun j => qEntry ((r.image.drop (32 + 32 * j)).take 32))
      if !r.ready h qs then k
      else
        let m := (r.entriesOf h).foldl (fun (m : MergeAcc) j => m.entry v d r h qs j) { k := k, status := 0, lost := 0 }
        let k := m.k.setDie v d { m.k.die v d with merge := none, mergeSeq := r.cmd.waveSeq }
        k.post v d (mergeEntry d r.cmd.waveSeq m.status m.lost))

end Sys2Proof.Machine
end

