-- ==== Sys2Proof/Machine/Return.lean ====
section
/-!
DEFINITION. RET (R361), and with it the routines of the Hykaley library, performed at the RET that ends them: those of the
bank units whole (Machine/Library.lean), and STEP, AFFSCHED, CALSCHED and DIEFILL of the control stream step by step, each
RET attempted taking them as far as they come (R401 to R403, R498 to R500).
-/

namespace Sys2Proof.Machine

/-! ### What a control-stream routine comes to -/

/-- A routine's turn: it goes on at its next turn, it stalls (Table 9.5), it faults, or it has finished. -/
inductive Turn where
  | wait (k : Chip)
  | stall (kind index : Nat) (k : Chip)
  | fault (f : CoreCause) (k : Chip)
  | done (k : Chip)

/-- The control stream a routine runs on. -/
structure CtlAt where
  v : Nat
  c : Nat
deriving DecidableEq, Repr

/-- A scalar register of the core. -/
def Chip.sreg (k : Chip) (p : CtlAt) (i : Nat) : Nat := ((k.core p.v p.c).sregs.getD i 0).toNat

/-- How far the routine has come. -/
def Chip.routine (k : Chip) (p : CtlAt) : Routine := (k.core p.v p.c).routine
def Chip.setRoutine (k : Chip) (p : CtlAt) (r : Routine) : Chip := k.setCore p.v p.c { k.core p.v p.c with routine := r }

/-- A command issued by the routine: what follows where it is accepted. -/
def Chip.issueCmd (k : Chip) (p : CtlAt) (e : CmdEff) (next : Chip → Turn) : Turn :=
  match e with
  | .invalid => .fault .cmdInvalid k
  | .fault f k' => .fault f k'
  | .stall => .stall 7 0 k
  | .wait => .wait k
  | .go k' => next (k'.issued p.v p.c 0)

/-- A run of operand-cache bytes that the routine reads. -/
def Chip.libRead (k : Chip) (p : CtlAt) (a n align : Nat) (next : List Byte → Turn) : Turn :=
  match (k.core p.v p.c).ocCheck a n align true with
  | some f => .fault f (k.noteOc p.v p.c a n f)
  | none => next ((k.core p.v p.c).ocBytes a n)

/-- A run of operand-cache bytes that the routine writes. -/
def Chip.libWrite (k : Chip) (p : CtlAt) (a : Nat) (bs : List Byte) : Chip :=
  k.setCore p.v p.c ((k.core p.v p.c).ocWrite a (bs.take (2 ^ 22 - a)) false)

/-! ### Completions of the routine's own starts and merges (R433 to R435) -/

/-- A completion entry's kind, die and sequence number (Table 9.4). -/
def cplKey (e : Entry) : Nat × Nat × Nat :=
  let n := e.data.toNat
  (bitsAt n 7 0, bitsAt n 9 8, bitsAt n 31 16)

/-- The entry of CPL reports start `seq` of die `dd`. -/
def startEntry (dd seq : Nat) (e : Entry) : Bool :=
  let q := cplKey e
  (q.1 = 1 || q.1 = 2) && q.2.1 = dd && q.2.2 = seq

/-- The entry of CPL reports the merge of wave `seq` of die `dd`. -/
def mergeEntryOf (dd seq : Nat) (e : Entry) : Bool := cplKey e = (3, dd, seq)

/-- Every completion of start `seq` of die `d` has been posted. -/
def Chip.startPosted (k : Chip) (v d seq : Nat) : Bool :=
  let x := k.die v d
  !x.starts.any (fun r => r.seq = seq) && !x.posts.any (fun e => e.toNat % 256 ≠ 3 && bitsAt e.toNat 31 16 = seq)

/-- R434, R322: the routine pops from the head of CPL as long as it finds completions of its own there. It takes no other: one that stands before
them waits for a stream to pop it (DESIGN CHOICE, log entry 68). -/
def Chip.takeOwn (k : Chip) (p : CtlAt) (mine : Entry → Bool) : Chip :=
  let x := k.core p.v p.c
  let own := x.cpl.takeWhile mine
  k.setCore p.v p.c { x with cpl := x.cpl.drop own.length, routine := { x.routine with taken := x.routine.taken ++ own } }

/-- Every completion of start `seq` of die `d` has been posted and popped. -/
def Chip.startTaken (k : Chip) (p : CtlAt) (d seq : Nat) : Bool :=
  k.startPosted p.v d seq && !(k.core p.v p.c).cpl.any (startEntry (d % 4) seq)

/-- The routine's own START_SEQ of the start it has just issued. -/
def Chip.seqOfDie (k : Chip) (v d : Nat) : Nat := (k.die v d).startSeq

/-- Table 8.4: the record of a start. -/
def startRecord (mask : Nat) (args : List Nat) (entry dd : Nat) (group : Bool) : List Byte :=
  leBytes 16 mask ++ (List.range 4).flatMap (fun i => leBytes 4 (args.getD i 0)) ++ leBytes 2 entry
    ++ leBytes 1 (dd + if group then 4 else 0) ++ leBytes 29 0

/-! ### STEP (R401, R402) -/

/-- The entries of a wave whose merge status has LOST set, among those of the record's entry mask. -/
def Chip.lostEntries (k : Chip) (p : CtlAt) (status mask hq nent : Nat) : Nat :=
  let x := k.core p.v p.c
  (((List.range nent).filter (fun j => mask.testBit j &&
    (x.ocBytes (status + 16 * j) hq).any (fun b => b.toNat.testBit 2))).map (fun j => 2 ^ j)).sum

/-- R278, R279: the entries that the merge lost, its status bytes being read first. -/
def Chip.statusRead (k : Chip) (p : CtlAt) (status mask hq nent : Nat) (next : Nat → Turn) : Turn :=
  match (k.core p.v p.c).firstOcFault (((List.range nent).filter mask.testBit).map (fun j => (status + 16 * j, hq, 1))) true with
  | some (f, a, n) => .fault f (k.noteOc p.v p.c a n f)
  | none => next (k.lostEntries p status mask hq nent)

/-- The banks that some entries of a wave touch (R263). -/
def banksOf (entries : Nat) (payload : List Byte) (h : WaveHdr) (base : Nat) : Nat :=
  let touched (b : Nat) : Bool := (List.range h.nent).any (fun j => entries.testBit j &&
    (qEntry ((payload.drop (h.qOff + j * h.qStride - base)).take 32)).touches b)
  (((List.range 96).filter touched).map (fun b => 2 ^ b)).sum

/-- One turn of STEP on the wave record at `a`. Phases: 0 broadcast, 1 start, 2 merge, 3 wait; 4 to 7 the same for the
retry, which broadcasts the payload with its own WAVE_SEQ, and merges with the MERGE record's, increased by one. -/
def Chip.stepWave (k : Chip) (p : CtlAt) (a : Nat) : Turn :=
  let r := k.routine p
  k.libRead p a 128 64 (fun w =>
    let retry := 4 ≤ r.phase
    let bst := w.take 64
    let mrg := (w.drop 64).take 32
    let dd := recField bst 34 35 % 4
    let d := 4 * p.c + dd
    let base := recField bst 16 20
    let seq := (recField mrg 16 18 + if retry then 1 else 0) % 2 ^ 16
    k.libRead p (recField w 96 100) (recField w 100 102) 32 (fun payload =>
      let h := waveHdr (payload.take 32)
      match r.phase % 4 with
      | 0 =>
        let x := k.die p.v d
        let bs := if retry then leBytes 2 ((h.seq + 1) % 2 ^ 16) ++ payload.drop 2 else payload
        if base % 32 ≠ 0 ∨ bs.length < 32 ∨ bs.length % 32 ≠ 0 ∨ 8192 < base + bs.length then .fault .cmdInvalid k
        else
          .wait ((k.setDie p.v d { x with writes := x.writes ++ [.write none base bs] }).setRoutine p { r with phase := r.phase + 1 })
      | 1 =>
        if (k.die p.v d).writes ≠ [] then .wait k
        else
          let rec0 := if retry then leBytes 16 (Nat.land (recField bst 0 16) (banksOf r.lost payload h base)) ++ bst.drop 16 else bst
          k.issueCmd p (k.bstart p.v p.c rec0) (fun k =>
            .wait (k.setRoutine p { r with phase := r.phase + 1, seq := k.seqOfDie p.v d }))
      | 2 =>
        k.issueCmd p (k.merge p.v p.c (mrg.take 16 ++ leBytes 2 seq ++ mrg.drop 18) (if retry then r.lost else 255)) (fun k =>
          .wait (k.setRoutine p { r with phase := r.phase + 1 }))
      | _ =>
        let k := k.takeOwn p (fun e => mergeEntryOf dd seq e || startEntry dd r.seq e)
        if !((k.routine p).taken.any (mergeEntryOf dd seq) && k.startTaken p d r.seq) then .stall 2 16 k
        else
          let mask := if retry then r.lost else recField w 102 103
          k.statusRead p (recField mrg 8 12) mask h.hq h.nent (fun lost =>
          let next : Routine := { Routine.fresh with item := r.item + 1 }
          if lost = 0 then .wait ((k.libWrite p (a + 103) [if retry then 1 else 0]).setRoutine p next)
          else if retry then .wait ((k.libWrite p (a + 103) [2]).setRoutine p next)
          else .wait (k.setRoutine p { r with phase := 4, lost := lost, taken := [] }))))

/-! ### AFFSCHED (R403) -/

/-- The row layout of a die, as its pool gives it (Table 12.4). -/
def Chip.layout (k : Chip) (v d : Nat) : Option DieLayout :=
  (k.hub.pools.findSome? (fun q => (q.2.cores.find? (fun c => c.core = 4 * v + ownerOf d)))).bind (fun c => c.dies[d % 4]?)

/-- One turn of AFFSCHED on the list item at `a`. -/
def Chip.affItem (k : Chip) (p : CtlAt) (a : Nat) : Turn :=
  let r := k.routine p
  k.libRead p a 8 8 (fun w =>
    let n := leNat w
    let dd := bitsAt n 1 0
    let d := 4 * p.c + dd
    match r.phase with
    | 0 =>
      let pidx := match k.layout p.v d with | some l => l.pidx | none => 0
      k.issueCmd p (k.bstart p.v p.c (startRecord (2 ^ bitsAt n 8 2) [bitsAt n 29 17, bitsAt n 37 30, pidx] (bitsAt n 16 9) dd false))
        (fun k => .wait (k.setRoutine p { r with phase := 1, seq := k.seqOfDie p.v d }))
    | _ =>
      let k := k.takeOwn p (startEntry dd r.seq)
      if !k.startTaken p d r.seq then .stall 2 16 k
      else
        let st := match (k.routine p).taken.find? (startEntry dd r.seq) with | some e => bitsAt e.data.toNat 39 32 | none => 0
        let n' := n - bitsAt n 40 38 * 2 ^ 38 + st % 8 * 2 ^ 38
        .wait ((k.libWrite p a (leBytes 8 n')).setRoutine p { Routine.fresh with item := r.item + 1 }))

/-! ### CALSCHED (R498 to R500, Tables 10.4 and 10.5) -/

/-- One head of a record set for a comparison: its class, y of every element, S and M, and NPAGES. -/
structure CalHead where
  cls    : Nat
  y      : List ℚ
  s      : Nat
  m      : Int
  npages : Nat

/-- R499: y and m of a record. -/
def calHead (dim : Nat) (bs : List Byte) : CalHead :=
  let r := mergeRec dim bs
  let y (den : ℚ) : List ℚ := r.o.map (fun x => (x : ℚ) / den)
  { cls := if r.pinf then 1 else if r.empty then 2 else 0
    y := if r.pinf then y (2 ^ 135 * r.s) else if r.empty then r.o.map (fun _ => 0) else y (2 ^ 119 * r.s)
    s := r.s.toNat, m := r.m, npages := recField bs 9 10 }

/-- R54: a non-negative rational times 2^15, rounded and limited to 0x7FFF. -/
def q15OfRat (x : ℚ) : Nat := (min 0x7FFF (roundDiv (x.num * 32768) x.den)).toNat

/-- R499: ERR_O of two record sets. -/
def errO (live shadow : List CalHead) : Nat :=
  let top := (shadow.flatMap (fun h => h.y.map (fun y => |y|))).foldl max (1 / 256 : ℚ)
  let d := (live.zip shadow).flatMap (fun p => (p.1.y.zip p.2.y).map (fun q => |q.1 - q.2|))
  q15OfRat (d.foldl max 0 / top)

/-- `n − 1/2` lies at or below `|S_l / S_s × 2^(Δ/65536) − 1| × 2^15`, above 1 (`up`) or below it. -/
def massAtLeast (sl ss : Nat) (delta : Int) (up : Bool) (n : Nat) : Bool :=
  n = 0 ||
    let a := (sl * 65536) ^ 65536 * 2 ^ delta.toNat
    let b (x : Nat) : Nat := (ss * x) ^ 65536 * 2 ^ (-delta).toNat
    if up then decide (b (65536 + (2 * n - 1)) ≤ a) else 2 * n ≤ 65537 && decide (a ≤ b (65536 - (2 * n - 1)))

/-- The greatest `n` of `b` bits above `acc` that `massAtLeast` admits. -/
def massBits (sl ss : Nat) (delta : Int) (up : Bool) : Nat → Nat → Nat
  | 0, acc => acc
  | b + 1, acc => massBits sl ss delta up b (if massAtLeast sl ss delta up (acc + 2 ^ b) then acc + 2 ^ b else acc)

/-- R499: `|m_live − m_shadow| / m_shadow`, m being S × 2^M, in Q1.15. -/
def massErr (l s : CalHead) : Nat :=
  let delta := max (-4194304) (min 4194304 (l.m - s.m))
  if l.s = 0 ∨ s.s = 0 then 0x7FFF
  else if delta % 65536 = 0 then
    let e := delta / 65536
    let a := l.s * 2 ^ e.toNat
    let b := s.s * 2 ^ (-e).toNat
    (min 0x7FFF (roundDiv (((a : Int) - b).natAbs * 32768) b)).toNat
  else
    let up := decide ((s.s : Nat) ^ 65536 * 2 ^ (-delta).toNat ≤ l.s ^ 65536 * 2 ^ delta.toNat)
    massBits l.s s.s delta up 15 0

/-- R499: ERR_MASS. -/
def errMass (live shadow : List CalHead) : Nat :=
  ((live.zip shadow).map (fun p =>
    if p.1.cls ≠ p.2.cls then 0x7FFF else if p.1.cls = 0 then massErr p.1 p.2 else 0)).foldl max 0

/-- The fields of a list item (Table 10.4). -/
structure CalItem where
  live    : Nat
  payload : Nat
  len     : Nat
  die     : Nat
  spare   : Nat
  standIn : Nat
  out     : Nat
  handle  : Nat

/-- The item in 32 bytes. -/
def calItem (w : List Byte) : CalItem :=
  { live := recField w 0 4 % 2 ^ 22, payload := recField w 4 8 % 2 ^ 22, len := recField w 8 10, die := recField w 10 11 % 4
    spare := recField w 11 12 % 128, standIn := recField w 12 13 % 128, out := recField w 16 20 % 2 ^ 22, handle := recField w 20 24 }

/-- R500, Table 10.5: the comparison record. -/
def comparison (it : CalItem) (h : WaveHdr) (q : QEntry) (live shadow : List Byte) (done : Bool) (tiers : List Nat) (now : Nat) : List Byte :=
  let heads (bs : List Byte) : List CalHead := (List.range h.hq).map (fun i => calHead h.dim ((bs.drop (i * h.recBytes)).take h.recBytes))
  let sound (bs : List Byte) : Bool := (List.range h.hq).all (fun i => recField (bs.drop (i * h.recBytes)) 10 12 = h.seq)
  let l := heads live
  let s := heads shadow
  let nl := (l.map (·.npages)).foldl max 0
  let ns := (s.map (·.npages)).foldl max 0
  let inBank := ((List.range (min (q.span + 1) 384)).filter (fun i => bankOf q.rot q.layer ((q.oldest + i) % 2 ^ 24) = it.standIn)).length
  let status := if done ∧ sound shadow ∧ ns < inBank then 1 else if !sound live then 2 else if !done ∨ !sound shadow then 3 else 0
  let cls := if nl < ns then 3 else if tiers.contains 2 then 2 else if tiers.contains 1 then 1 else 0
  let tierBits := (tiers.take 4).mapIdx (fun i t => t % 4 * 4 ^ i)
  leBytes 4 it.handle ++ leBytes 1 q.layer ++ leBytes 1 it.standIn ++ leBytes 2 (recField live 10 12) ++ leBytes 1 nl ++ leBytes 1 ns
    ++ leBytes 1 cls ++ leBytes 1 status ++ leBytes 2 (errO l s) ++ leBytes 2 (errMass l s) ++ leBytes 1 tierBits.sum ++ leBytes 39 0
    ++ leBytes 8 now

/-- One turn of CALSCHED on the item at `a`: 0 the wave to the spare's scratch, 1 the start, 2 the comparison. -/
def Chip.calTurn (k : Chip) (dr : Dram) (p : CtlAt) (a : Nat) : Turn :=
  let r := k.routine p
  k.libRead p a 32 32 (fun w =>
    let it := calItem w
    let d := 4 * p.c + it.die
    k.libRead p it.payload it.len 32 (fun payload =>
      let h := waveHdr (payload.take 32)
      let q := qEntry ((payload.drop 32).take 32)
      let base := h.qOff - 32
      match r.phase with
      | 0 =>
        let x := k.die p.v d
        if it.len % 32 ≠ 0 ∨ it.len < 64 ∨ base % 32 ≠ 0 ∨ 8192 < base + it.len ∨ 100 ≤ it.spare then .fault .cmdInvalid k
        else .wait ((k.setDie p.v d { x with writes := x.writes ++ [.write (some it.spare) base payload] }).setRoutine p { r with phase := 1 })
      | 1 =>
        if (k.die p.v d).writes ≠ [] then .wait k
        else k.issueCmd p (k.bstart p.v p.c (startRecord (2 ^ it.spare) [base, it.standIn] 6 it.die false))
          (fun k => .wait (k.setRoutine p { r with phase := 2, seq := k.seqOfDie p.v d }))
      | _ =>
        let k := k.takeOwn p (startEntry it.die r.seq)
        if !k.startTaken p d r.seq then .stall 2 16 k
        else
          let done := match (k.routine p).taken.find? (startEntry it.die r.seq) with
            | some e => bitsAt e.data.toNat 39 32 = 0 | none => false
          let at_ := physAddr d it.standIn (indexAt h.pidx q.slot)
          k.libRead p it.live h.setBytes 32 (fun live =>
            -- R165: the page index is read once its row's slot is granted.
            if !k.turnOf p.v at_ .spent 1 then .wait k else
            match (k.core p.v p.c).ocCheck it.out 64 64 false with
            | some f => .fault f k
            | none =>
              let shadow := lookupRun 0 (k.unit p.v d it.spare).scratch h.outOff h.setBytes
              let (index, _, k) := k.readBytes dr p.v at_ 128 (Config.calSource % 8)
              let tiers := (pagesOf index q it.standIn (h.hkv * h.dim)).map (·.tier)
              let rec_ := comparison it h q live shadow done tiers k.now
              .wait (((k.libWrite p it.out rec_).count (Reg.tsvUpBytes p.v) h.setBytes).setRoutine p
                { Routine.fresh with item := r.item + 1 }))))

/-! ### DIEFILL (R862) -/

/-- One turn of DIEFILL: 32 banks at a time. -/
def Chip.fillTurn (k : Chip) (p : CtlAt) : Turn :=
  let r := k.routine p
  let dd := k.sreg p 8 % 4
  let d := 4 * p.c + dd
  match r.phase with
  | 0 =>
    let pat := k.sreg p 11
    let mask := (2 ^ 32 - 1) * 2 ^ (32 * r.item)
    let args := [k.sreg p 9 % 2 ^ 32, k.sreg p 10 % 2 ^ 32, pat % 2 ^ 32, pat / 2 ^ 32]
    k.issueCmd p (k.bstart p.v p.c (startRecord mask args 7 dd true))
      (fun k => .wait (k.setRoutine p { r with phase := 1, seq := k.seqOfDie p.v d }))
  | _ =>
    let k := k.takeOwn p (startEntry dd r.seq)
    if !k.startTaken p d r.seq then .stall 2 16 k else .wait (k.setRoutine p { Routine.fresh with item := r.item + 1 })

/-! ### RET -/

/-- Table 8.18: the working scalars of a control-stream routine. -/
def workScalars (e : Nat) : Nat × Nat :=
  match e with
  | 1 => (10, 23) | 2 | 3 => (10, 19) | _ => (12, 15)

/-- R400: what a control-stream routine leaves of its working scalars, S`lo` up to S`hi`. -/
def Chip.usedScalars (k : Chip) (p : CtlAt) (lo hi : Nat) : Chip :=
  let x := k.core p.v p.c
  k.setCore p.v p.c { x with
    sregs := x.sregs.mapIdx (fun i w => if lo ≤ i ∧ i ≤ hi then Config.workWord (2 * coreKey p.v p.c + 1) k.now i else w)
    routine := Routine.fresh }

/-- Table 8.18: one turn of a T-profile routine. -/
def Chip.libTurn (k : Chip) (dr : Dram) (p : CtlAt) (e : Nat) : Turn :=
  let i := (k.routine p).item
  let a (n : Nat) : Nat := k.sreg p 8 + n * i
  if (if e ≤ 3 then k.sreg p 9 else 3) ≤ i then .done (k.usedScalars p (workScalars e).1 (workScalars e).2)
  else match e with
    | 1 => k.stepWave p (a 128)
    | 2 => k.affItem p (a 8)
    | 3 => k.calTurn dr p (a 32)
    | _ => k.fillTurn p

/-- R361: the sequencer after a RET with a frame. -/
def Sequencer.ret (q : Sequencer) : Option Sequencer :=
  match q.frames with
  | [] => none
  | f :: rest =>
    some (({ q with lib := f.lib, pc := f.pc, loops := f.loops, frames := rest, ais := f.ais, routine := f.routine } : Sequencer).after f.pc)

/-- RET itself (R338, R361). -/
def retIssue (k : Chip) (u : IssueUnit) (ops : BitVec 56) : Chip :=
  issue k u 0x07 ops 0 (fun _ _ _ => true)
    (fun v c t k => match (k.seqOf v c t).ret with
      | some q => .jump (k.setStream v c t { k.stream v c t with seq := q })
      | none => .jump (k.haltStream v c t))
    true
    (fun v d b k => match (k.bankSeqOf v d b).ret with
      | some q => .jump (k.setBu v d b { k.bu v d b with seq := q })
      | none => .jump (k.haltBank v d b))

/-- RET. -/
def execRet (u : IssueUnit) (ops : BitVec 56) (s : State) : Host.Outcome State Fault Refusal :=
  s.onBoth (s.hasUnit u) (fun dr k =>
    match u with
    | .bank v d a =>
      let b := k.phys v d a
      let q := (k.bu v d b).seq
      match q.routine with
      | none => (dr, retIssue k u ops)
      | some e =>
        if !(k.bankCanIssue v d b && q.lib && ops = 0 && k.fetch true q (k.bu v d b).pstore (k.bu v d b).pstoreBad 0x07 ops = .ok) then
          (dr, retIssue k u ops)
        else if (k.bu v d b).slotsOpen then (dr, k)
        else match libBank e ⟨v, d, b⟩ ⟨dr, k⟩ with
          | .fault f m => (m.dr, (m.used ⟨v, d, b⟩ 0 0).k.bankFault v d b f q.lib q.pc)
          | .ok _ m => (m.dr, retIssue m.k u ops)
    | .core v c t =>
      let q := k.seqOf v c t
      match q.routine with
      | none => (dr, retIssue k u ops)
      | some e =>
        if !(k.canIssue v c t && t = 0 && q.lib && ops = 0 && k.quiet v c t
            && k.fetch false q (k.core v c).pstore (k.core v c).pstoreBad 0x07 ops = .ok) then (dr, retIssue k u ops)
        else match k.libTurn dr ⟨v, c⟩ e with
          | .wait k' => (dr, k'.noteStall v c t 0 0)
          | .stall a b k' => (dr, k'.noteStall v c t a b)
          | .fault f k' =>
            let k'' := k'.usedScalars ⟨v, c⟩ (workScalars e).1 (workScalars e).2
            (dr, k''.faultHere k'' v c t f.code)
          | .done k' => (dr, retIssue k' u ops))

end Sys2Proof.Machine
end

