-- ==== Sys2Proof/Machine/HostMem.lean ====
section
/-!
DEFINITION. Host accesses to memory (R615 to R647, R685, R699 to R701, R717, R721): the windows, the host block entries, lines
read and written, and the legacy command aperture (R207 to R217).
-/

namespace Sys2Proof.Machine

/-! ### Addresses (R619 to R621, R624) -/

/-- R619: the vat and the vat physical address of an interleaved-window address, on a part of `V` vats. -/
def interleaved (V x : Nat) : Nat × Nat :=
  let b := x / 2 ^ 24
  let q := b / V
  let p := q / 192
  let o := (q % 192 + 37 * p) % 192
  let r := bitsAt x 23 13
  let j := Nat.xor (bitsAt x 12 10) (bitsAt x 15 13)
  (b % V, (8 * o + j) * 2 ^ 26 + (2048 * p + r) * 2 ^ 10 + x % 2 ^ 10)

/-- R619 the other way: the interleaved-window address of a vat physical address. -/
def windowOf (V v pa : Nat) : Nat :=
  let n := pa / 2 ^ 26
  let row := pa % 2 ^ 26 / 1024
  let p := row / 2048
  let r := row % 2048
  let q := 192 * p + (n / 8 + 192 * 37 - 37 * p) % 192
  (q * V + v) * 2 ^ 24 + r * 2 ^ 13 + Nat.xor (n % 8) (r % 8) * 2 ^ 10 + pa % 2 ^ 10

/-- R624: the host block of a page of a vat. -/
def blockOf (V v ppn : Nat) : Nat := windowOf V v (ppn / 32 * 2 ^ 26 + ppn % 32 * 2 ^ 21) / 2 ^ 24

/-- C: the bytes of the part's memory. -/
def capacity (V : Nat) : Nat := V * 96 * 2 ^ 30

/-- Where a DPA leads (Table 13.2). -/
inductive Place where
  | dram (decoder v pa : Nat)
  | aperture (offset : Nat)
  | nowhere
deriving DecidableEq, Repr

/-- R615, R619 to R621, R644. -/
def placeOf (V dpa : Nat) : Place :=
  if dpa < capacity V then let a := interleaved V dpa; .dram 0 a.1 a.2
  else if 2 ^ 40 ≤ dpa ∧ dpa < 2 ^ 40 + capacity V then
    let y := dpa - 2 ^ 40
    .dram 1 (y / (96 * 2 ^ 30)) (y % (96 * 2 ^ 30))
  else if 2 ^ 41 ≤ dpa ∧ dpa < 2 ^ 41 + 2 ^ 28 then .aperture (dpa - 2 ^ 41)
  else .nowhere

/-- R617: decoder `n` has committed. -/
def Chip.decoderOn (k : Chip) (n : Nat) : Bool := k.hub.decoders.any (fun d => d.1 = n)

/-- R624, R717, R677: the host may read, or write, a page of a vat. -/
def Chip.hostMay (k : Chip) (V v ppn : Nat) (wr : Bool) : Bool :=
  let o := Reg.hostBlock (blockOf V v ppn)
  k.flag o 0 && k.flag o (if wr then 2 else 1) && !k.retired v ppn && !k.hub.zeroBlocks.contains (blockOf V v ppn)

/-- R628: a denied access. -/
def Chip.hostDeny (k : Chip) (dpa : Nat) (wr : Bool) : Chip :=
  let k := k.count Reg.hostDenied 1
  if k.flag Reg.hostDeniedLast 63 then k
  else
    let o := Reg.hostDeniedLast
    let k := ((k.raise o 63).setF o 62 62 (if wr then 1 else 0)).setF o 41 0 dpa
    k.log { occ 0x16 k.now with dpa := some dpa }

/-- R679, R680, R685: every request of CXL.mem is denied: the part is TAMPERED, or requires IDE and has none. -/
def Chip.linkDenied (k : Chip) : Bool := k.getF Reg.rindStatus 1 0 = 3 || (k.flag Reg.rindCfg 0 && !k.flag Reg.hostLinkStatus 9)

/-- R628, R647: the access to DRAM is denied, also where no other is. -/
def Chip.hostDenied (k : Chip) (V decoder v pa : Nat) (wr : Bool) : Bool :=
  (decoder = 1 && !k.flag Reg.hostWindowCfg 1) || k.linkDenied || !k.hostMay V v (pa / 2 ^ 21) wr

/-- R628: a denied access, answered. -/
def Chip.denyHost (k : Chip) (dpa : Nat) (wr : Bool) : Chip := (k.hostDeny dpa wr).answer (if wr then .written else .line 0 false)

/-! ### The check-bit test mode (R699, R700) -/

/-- The line at a vat physical address lies in the range of an armed test mode. -/
def Chip.diagAt (k : Chip) (v pa : Nat) : Bool :=
  let b := bankAddr pa
  let row := b.byte / 1024
  k.flag (Reg.eccDiagCtl v) 31 && k.getF (Reg.eccDiagCtl v) 3 0 = b.die && k.getF (Reg.eccDiagCtl v) 10 4 = b.idx
    && k.getF (Reg.eccDiagRows v) 15 0 ≤ row && row ≤ k.getF (Reg.eccDiagRows v) 31 16

/-- R699: the error pattern injected. -/
def Chip.diagPattern (k : Chip) (v : Nat) : List (Nat × Nat) :=
  let o := Reg.eccDiagSym v
  let a := (k.getF o 5 0, k.getF o 15 8)
  let b := (k.getF o 21 16, k.getF o 31 24)
  let sym := if a.1 = b.1 then [(a.1, Nat.xor a.2 b.2)] else [a, b]
  let flip := if k.flag (Reg.eccDiagCtl v) 11 then [(36, 1)] else []
  orderBy (·.1) ((sym ++ flip).filter (fun e => e.2 ≠ 0))

/-! ### Lines -/

/-- R687, R699, R700: the check bytes stored with the column word at a place of DRAM, whose address in its vat is `pa`: those of the data and of the
address that it was written with, which its error pattern gives, and the pattern's own errors in them. -/
def Dram.checkAt (dr : Dram) (at_ pa : Nat) : Nat :=
  let p := lookup [] dr.marks (at_ / 32)
  let addr := p.foldl (fun n e => if 36 ≤ e.1 then Nat.xor n (e.2 * 2 ^ (5 + 8 * (e.1 - 36))) else n) pa
  p.foldl (fun n e => if 32 ≤ e.1 ∧ e.1 < 36 then Nat.xor n (e.2 * 2 ^ (8 * (e.1 - 32))) else n)
    (Config.checkBytes addr (xorPattern (dr.bytes (at_ / 32 * 32) 32) p)).toNat

/-- The two column words of a line, read for the host (R635, R638, R700). -/
def Chip.hostRead (k : Chip) (dr : Dram) (v pa : Nat) : Chip :=
  let lo := k.readAt dr v pa 0
  let hi := lo.2.readAt dr v (pa + 32) 0
  let bad := lo.1.res.bad || hi.1.res.bad
  let k := hi.2.count (Reg.vmcReads v) 1
  let k := if bad then k.count Reg.hostPoisonReads 1 else k
  let k := if k.diagAt v pa then
      let k := k.setF (Reg.eccDiagResult v) 2 0 lo.1.res.code
      k.setF (Reg.eccDiagCheck v) 31 0 (dr.checkAt (k.dramAt v pa) (pa / 32 * 32))
    else k
  k.answer (.line (entryOfBytes (lo.1.bytes ++ hi.1.bytes)) bad)

/-- One column word of a line written for the host (R635 to R639, R701): `en` says which bytes. -/
def Chip.hostWord (k : Chip) (dr : Dram) (v pa dpa : Nat) (bs : List Byte) (en : Nat → Bool) (poison : Bool) : Dram × Chip :=
  if (List.range 32).all en then (k.storeAt dr v pa bs poison, k.count (Reg.tsvDownBytes v) 32)
  else if !(List.range 32).any en then
    if poison then
      let r := k.readAt dr v pa 0
      (r.2.storeAt dr v pa r.1.bytes true, r.2)
    else (dr, k)
  else
    let (dr', k, refused) := k.mergeAt dr v pa 0 bs en poison
    let k := k.count (Reg.vmcMerges v) 1
    if refused then (dr', k.log { occ 0x05 k.now with dpa := some dpa }) else (dr', k)

/-- A line written for the host: it acts on DRAM at once (R633); the slot that stores it is the caller's. -/
def Chip.hostWrite (k : Chip) (dr : Dram) (v pa dpa : Nat) (bs : List Byte) (en : Nat → Bool) (poison diag : Bool) :
    Dram × Chip :=
  if diag && k.diagAt v pa && (List.range 64).all en && !poison then
    let p := k.diagPattern v
    let b := bankAddr pa
    let put (dr : Dram) (o : Nat) : Dram :=
      (k.writePlaces v b.die b.idx (b.byte / 1024)).foldl
        (fun dr ph => dr.putPattern (bankByte v b.die ph (b.byte + o)) ((bs.drop o).take 32) p) dr
    (put (put dr 0) 32, k.count (Reg.tsvDownBytes v) 64)
  else
    let (dr, k) := k.hostWord dr v pa dpa (bs.take 32) en poison
    k.hostWord dr v (pa + 32) dpa (bs.drop 32) (fun i => en (32 + i)) poison

/-- The base-die slots waiting or running at the bank behind an address. -/
def Chip.aheadOf (k : Chip) (v pa : Nat) : Nat :=
  let b := bankAddr pa
  let u := k.bu v b.die (k.phys v b.die b.idx)
  (((u.slotQ ++ u.active.toList).filter (fun r => r.cls = .base)).map (·.slots)).sum

/-- R640, Table 13.4: the nanoseconds a host read has taken at the pins, having waited `waited` at its bank: the table's spread at 64 GT/s, 10 ns
more at 32 GT/s and 25 ns more at 16 GT/s, and at least 60 and at most 67.5 ns for each base-die slot ahead of it. -/
def Chip.readNs (k : Chip) (r : HostReq) (waited : Nat) : Nat :=
  let rate := match k.getF Reg.hostLinkStatus 2 0 with | 1 => 25 | 2 => 10 | _ => 0
  150 + Config.readLatency k.now % 241 + rate + max waited (60 * r.ahead + Config.readLatency (k.now + 1) % (15 * r.ahead / 2 + 1))

/-- R636: the slots of a host access: a write that covers a column word in part takes a read slot and a write slot. -/
def HostReq.slots (r : HostReq) : Nat :=
  let part (o : Nat) : Bool :=
    let en := (List.range 32).map (fun i => r.enables.getD (o + i) false)
    en.any (fun e => e) && !en.all (fun e => e)
  if r.write && (part 0 || part 32) then 2 else 1

/-- A host write has been completed: its slot is still to store it (R633, R836). -/
def Chip.holdWrite (k : Chip) (v : Nat) (r : HostReq) : Chip :=
  let b := bankAddr r.pa
  let x := k.vat v
  let k := k.setVat v { x with wq := x.wq ++ [{ die := b.die, logical := b.idx, row := b.byte / 1024, req := r }] }
  let k := k.satMax (Reg.vmcWq v) 24 16 (x.wq.length + 1)
  (k.askSlot v r.pa .hostStore r.slots).answer .written

/-- R633: the host writes to a row that are completed and not yet stored, over what another slot has just stored there. -/
def Chip.hostOver (k : Chip) (dr : Dram) (v d b row : Nat) : Dram :=
  (k.vat v).wq.foldl (fun dr e =>
    if e.die = d ∧ k.phys v d e.logical = b ∧ e.row = row then
      (k.hostWrite dr v e.req.pa e.req.dpa e.req.bytes (fun i => e.req.enables.getD i false) e.req.poison (2 ^ 40 ≤ e.req.dpa)).1
    else dr) dr

/-- The host access whose turn has come, in R640's time (`waited` is what it waited). -/
def Chip.hostPerform (k : Chip) (dr : Dram) (v : Nat) (r : HostReq) (diag : Bool) (waited : Nat) : Dram × Chip :=
  if r.write then k.hostWrite dr v r.pa r.dpa r.bytes (fun i => r.enables.getD i false) r.poison diag
  else (dr, (k.hostRead dr v r.pa).satMax Reg.hostReadLatMax 15 0 (k.readNs r waited))

/-- R634: an earlier access to the same line still waits at its bank. -/
def Chip.lineWaits (k : Chip) (v pa : Nat) : Bool :=
  let b := bankAddr pa
  let u := k.bu v b.die (k.phys v b.die b.idx)
  let same (r : SlotReq) : Bool := match r.use with | .host h => h.pa = pa | _ => false
  u.slotQ.any same || u.active.any same

/-- R721: an access to a lost vat: poison for a read, a write discarded. -/
def Chip.hostGone (k : Chip) (write : Bool) : Chip :=
  if write then (k.count Reg.hostDenied 1).answer .written else (k.count Reg.hostPoisonReads 1).answer (.line 0 true)

/-- R677: a host access that has waited at its bank, and whose slot ends: denied where it is denied by now. -/
def Chip.hostTurn (k : Chip) (dr : Dram) (V v : Nat) (r : HostReq) (waited : Nat) : Dram × Chip :=
  let decoder := if 2 ^ 40 ≤ r.dpa then 1 else 0
  if k.hostDenied V decoder v r.pa r.write then (dr, k.denyHost r.dpa r.write) else k.hostPerform dr v r (decoder = 1) waited

/-- A host access to DRAM (R165, R617, R628, R633, R173, R721, R730, R836): a read whose turn has not come waits at its bank. -/
def Chip.hostDram (k : Chip) (dr : Dram) (V decoder v pa dpa : Nat) (r : HostReq) : Dram × Chip :=
  if k.linkDenied then (dr, k.denyHost dpa r.write)
  else if (k.vat v).lost then (dr, k.hostGone r.write)
  else if k.hostDenied V decoder v pa r.write then (dr, k.denyHost dpa r.write)
  else
    let fenced := k.fencedAt v pa
    let k := if fenced then k.count (Reg.vmcFenced v) 1 else k
    if fenced || k.lineWaits v pa || (k.vat v).power ≠ .awake || (if r.write then 256 ≤ (k.vat v).wq.length else !k.turnOf v pa (.host r) 1) then
      (dr, ((k.wake v).askSlot v pa (.host { r with ahead := k.aheadOf v pa }) r.slots).answer .none)
    else
      let (dr, k) := k.hostPerform dr v r (decoder = 1) 0
      if r.write then (dr, k.holdWrite v r) else (dr, k.baseSlots v pa 1)

/-! ### The legacy command aperture (R207 to R217) -/

/-- Keys of Table 4.7. -/
def armKey : Nat := 0x4C9E2B17
def fireKey : Nat := 0xB361D4E8

/-- The command line of active index `a`. -/
def Chip.legacy (k : Chip) (v d a : Nat) : LegacyLine := lookup LegacyLine.reset (k.die v d).legacy a
def Chip.setLegacy (k : Chip) (v d a : Nat) (l : LegacyLine) : Chip :=
  let x := k.die v d
  k.setDie v d { x with legacy := insert x.legacy a l }

/-- R214: an ARM write; `bs` is the line's 64 bytes. -/
def Chip.legacyArm (k : Chip) (v d a : Nat) (bs : List Byte) : Chip :=
  let l := k.legacy v d a
  if recField bs 4 6 ≠ (l.lastSeq + 1) % 2 ^ 16 then k.setLegacy v d a { l with arm := none, result := 8 }
  else if l.busy then k.setLegacy v d a { l with arm := none, result := 9 }
  else k.setLegacy v d a { l with arm := some bs, armAt := k.now }

/-- Table 4.8: the sources an operation uses, 1 or 2; none where it is not an operation. -/
def legacySources (op : Nat) : Option Nat :=
  match op with
  | 1 => some 1 | 2 => some 0 | 3 => some 2 | 4 => some 2 | 5 => some 2 | 6 => some 1 | _ => none

/-- R213, R646: the PROT check of the rows an operation names. -/
def Chip.legacyProt (k : Chip) (V v d a : Nat) (bs : List Byte) (srcs : Nat) : Bool :=
  let rows := recField bs 14 16
  let pages (first : Nat) : List Nat := (List.range ((first + rows) / 2048 - first / 2048 + 1)).map (fun i => first / 2048 + i)
  let ok (first : Nat) (wr : Bool) : Bool := (pages first).all (fun p => k.hostMay V v (32 * (96 * d + a) + p) wr)
  ok (recField bs 8 10) true && (srcs = 0 || ok (recField bs 10 12) false) && (srcs ≠ 2 || ok (recField bs 12 14) false)

/-- Table 4.9: the first refusal of a FIRE that applies. -/
def Chip.legacyRefusal (k : Chip) (V v d a : Nat) (bs : List Byte) : Option Nat :=
  let l := k.legacy v d a
  let rows := recField bs 14 16
  match l.arm with
  | none => some 1
  | some h =>
    if h.drop 4 ≠ bs.drop 4 then some 2
    else if !k.flag Reg.hostWindowCfg 0 then some 3
    else match legacySources (recField bs 6 7) with
      | none => some 4
      | some n =>
        if !zeroBytes bs 7 8 ∨ !zeroBytes bs 24 64 then some 4
        else if 65535 < recField bs 8 10 + rows ∨ (0 < n ∧ 65535 < recField bs 10 12 + rows) ∨ (n = 2 ∧ 65535 < recField bs 12 14 + rows) then some 5
        else if !k.legacyProt V v d a bs n then some 6
        else none

/-- The row of a running operation's next slot: its sources in turn, then its destination. -/
def LegacyLine.slotRow (l : LegacyLine) : Nat :=
  let n := (legacySources (recField l.command 6 7)).getD 0
  (if l.phase = 0 ∧ 1 ≤ n then recField l.command 10 12 else if l.phase = 1 ∧ n = 2 then recField l.command 12 14
    else recField l.command 8 10) + l.rowsDone

/-- R210: the running operation asks for its next slot, in the base-die class. -/
def Chip.legacySlot (k : Chip) (v d a : Nat) : Chip := k.askSlot v (physAddr d a (1024 * (k.legacy v d a).slotRow)) (.rowOp a) 1

/-- R213, R215, R216: a FIRE write. -/
def Chip.legacyFire (k : Chip) (V v d a : Nat) (bs : List Byte) : Chip :=
  let l := k.legacy v d a
  match k.legacyRefusal V v d a bs with
  | some r => k.setLegacy v d a { l with arm := none, result := r }
  | none =>
    let k := k.setLegacy v d a { l with
      arm := none, busy := true, command := bs, rowsDone := 0, lastSeq := recField bs 4 6, dataError := false, phase := 0
      latch := [], bad := 0 }
    k.legacySlot v d a

/-- R214: a write whose KEY is neither key. -/
def Chip.legacyBad (k : Chip) (v d a : Nat) : Chip :=
  k.setLegacy v d a { k.legacy v d a with arm := none, result := 0xB }

/-- R209, R214: a write of one command line. -/
def Chip.legacyWrite (k : Chip) (V v d a : Nat) (bs : List Byte) : Chip :=
  if recField bs 0 4 = armKey then k.legacyArm v d a bs
  else if recField bs 0 4 = fireKey then k.legacyFire V v d a bs
  else k.legacyBad v d a

/-- Table 4.10: a command line as read. -/
def LegacyLine.status (l : LegacyLine) : List Byte :=
  leBytes 4 ((if l.busy then 2 else if l.arm.isSome then 1 else 0) + l.result % 16 * 16 + l.rowsDone * 256) ++ leBytes 2 l.lastSeq ++ leBytes 58 0

/-- R207, R644: the bank of a command line, where the aperture has one. -/
def legacyPlace (V off : Nat) : Option (Nat × Nat × Nat) :=
  if off < 98304 * V then some (off / 64 / 1536, off / 64 % 1536 / 96, off / 64 % 96) else none

/-! ### Meanings -/

/-- A host access to a line of the part (R615 to R617, R679, R685): `mem` and `aper` are what a place of DRAM, or of the aperture, comes to. -/
def hostAccess (line : BitVec 36) (wr : Bool) (s : State) (mem : Nat → Nat → Nat → Nat → Dram → Chip → Dram × Chip)
    (aper : Nat → Chip → Chip) : Host.Outcome State Fault Refusal :=
  s.onBoth true (fun dr k =>
    let V := s.part.vats
    let dpa := 64 * line.toNat
    if k.hub.stopped then (dr, k) else
    match placeOf V dpa with
    | .nowhere => (dr, k)
    | .dram n v pa => if k.decoderOn n then mem n v pa dpa dr k else (dr, k)
    | .aperture o => if !k.decoderOn 2 then (dr, k) else if k.linkDenied then (dr, k.denyHost dpa wr) else (dr, aper o k))

/-- CXL_MEM_READ. -/
def execCxlMemRead (line : BitVec 36) (s : State) : Host.Outcome State Fault Refusal :=
  hostAccess line false s
    (fun n v pa dpa dr k =>
      k.hostDram dr s.part.vats n v pa dpa { write := false, dpa := dpa, pa := pa, bytes := [], enables := [], poison := false, ahead := 0 })
    (fun o k => match legacyPlace s.part.vats o with
      | some (v, d, a) => k.answer (.line (entryOfBytes (k.legacy v d a).status) false)
      | none => k.answer (.line 0 false))

/-- A host write of a line with byte enables. -/
def hostLineWrite (line : BitVec 36) (data : BitVec 512) (enables : BitVec 64) (poison : Bool) (s : State) :
    Host.Outcome State Fault Refusal :=
  hostAccess line true s
    (fun n v pa dpa dr k =>
      k.hostDram dr s.part.vats n v pa dpa
        { write := true, dpa := dpa, pa := pa, bytes := entryBytes data
          enables := (List.range 64).map (fun i => enables.getLsbD i), poison := poison, ahead := 0 })
    (fun o k => (match legacyPlace s.part.vats o with
      | some (v, d, a) => if enables = BitVec.allOnes 64 then k.legacyWrite s.part.vats v d a (entryBytes data) else k
      | none => k).answer .written)

/-- CXL_MEM_WRITE. -/
def execCxlMemWrite (line : BitVec 36) (data : BitVec 512) (poison : Bool) (s : State) : Host.Outcome State Fault Refusal :=
  hostLineWrite line data (BitVec.allOnes 64) poison s

/-- CXL_MEM_PARTIAL_WRITE (R636, R639). -/
def execCxlMemPartialWrite (line : BitVec 36) (data : BitVec 512) (enables : BitVec 64) (poison : Bool) (s : State) :
    Host.Outcome State Fault Refusal :=
  hostLineWrite line data enables poison s

/-- A key and the 60 bytes after it, as a line. -/
def commandLine (key : Nat) (body : BitVec 480) : List Byte := leBytes 4 key ++ leBytes 60 body.toNat

/-- R207, R644: the DPA of a command line. -/
def legacyDpa (v d a : Nat) : Nat := 2 ^ 41 + 64 * ((16 * v + d) * 96 + a)

/-- A write of a command line of the aperture (R617, R679, R685), which reaches the part once decoder 2 has committed. -/
def legacyAccess (v d a : Nat) (s : State) (f : Chip → Chip) : Host.Outcome State Fault Refusal :=
  s.onChip (s.hasDie v d && a < 96) (fun k =>
    if !k.decoderOn 2 then k else if k.linkDenied then k.denyHost (legacyDpa v d a) true else f k)

/-- ARM (R209, R214). -/
def execArm (v d a : Nat) (body : BitVec 480) (s : State) : Host.Outcome State Fault Refusal :=
  legacyAccess v d a s (fun k => k.legacyArm v d a (commandLine armKey body))

/-- FIRE (R209, R213, R215, R216, R645, R646). -/
def execFire (v d a : Nat) (body : BitVec 480) (s : State) : Host.Outcome State Fault Refusal :=
  legacyAccess v d a s (fun k => k.legacyFire s.part.vats v d a (commandLine fireKey body))

/-- LEGACY_BAD_KEY (R214). -/
def execLegacyBadKey (v d a : Nat) (s : State) : Host.Outcome State Fault Refusal :=
  legacyAccess v d a s (fun k => k.legacyBad v d a)

/-- ARM_LAPSED (R215, Table 4.9): an ARM held for 1 ms is discarded. -/
def execArmLapsed (v d a : Nat) (s : State) : Host.Outcome State Fault Refusal :=
  s.onChip (s.hasDie v d && a < 96) (fun k =>
    let l := k.legacy v d a
    if l.arm.isSome ∧ l.armAt + 1000000 ≤ k.now then k.setLegacy v d a { l with arm := none, result := 0xA } else k)

/-- ROW_OPERATION_DONE (R212, R216): an operation whose last slot has ended completes. -/
def execRowOperationDone (v d a : Nat) (s : State) : Host.Outcome State Fault Refusal :=
  s.onChip (s.hasDie v d && a < 96) (fun k =>
    let l := k.legacy v d a
    if l.busy ∧ l.rowsDone = recField l.command 14 16 + 1 then
      k.setLegacy v d a { l with busy := false, result := if l.dataError then 7 else 0 }
    else k)

end Sys2Proof.Machine
end

