-- ==== Sys2Proof/Machine/SipHash.lean ====
section
/-!
DEFINITION. SipHash-2-4 (R465), the published keyed hash of a byte string under a 128-bit key, giving 64 bits.
-/

namespace Sys2Proof.Machine

/-- The four words of the hash's running state. -/
structure SipState where
  a : Word
  b : Word
  c : Word
  d : Word

/-- A word rotated left by `n` bits. -/
def rotl (w : Word) (n : Nat) : Word := w.rotateLeft n

/-- One round. -/
def SipState.round (s : SipState) : SipState :=
  let a := s.a + s.b
  let b := rotl s.b 13 ^^^ a
  let a := rotl a 32
  let c := s.c + s.d
  let d := rotl s.d 16 ^^^ c
  let a := a + d
  let d := rotl d 21 ^^^ a
  let c := c + b
  let b := rotl b 17 ^^^ c
  { a := a, b := b, c := rotl c 32, d := d }

/-- One message word: two rounds. -/
def SipState.take (s : SipState) (m : Word) : SipState :=
  let s := ({ s with d := s.d ^^^ m }.round).round
  { s with a := s.a ^^^ m }

/-- The message words of a byte string: whole words, then the rest with the length in the top byte. -/
def sipWords (bs : List Byte) : List Word :=
  let n := bs.length
  let word (i : Nat) : Word :=
    BitVec.ofNat 64 (((bs.drop (8 * i)).take 8).foldr (fun b x => x * 256 + b.toNat) 0)
  (List.range (n / 8)).map word ++ [word (n / 8) ||| BitVec.ofNat 64 (n % 256 * 2 ^ 56)]

/-- SipHash-2-4 of `bs` under the 128-bit key `key`. -/
def sipHash (key : Nat) (bs : List Byte) : Word :=
  let k0 := BitVec.ofNat 64 key
  let k1 := BitVec.ofNat 64 (key / 2 ^ 64)
  let s : SipState :=
    { a := k0 ^^^ 0x736f6d6570736575, b := k1 ^^^ 0x646f72616e646f6d
      c := k0 ^^^ 0x6c7967656e657261, d := k1 ^^^ 0x7465646279746573 }
  let s := (sipWords bs).foldl SipState.take s
  let s := ((({ s with c := s.c ^^^ 0xff }.round).round).round).round
  s.a ^^^ s.b ^^^ s.c ^^^ s.d

end Sys2Proof.Machine
end

