-- ==== Sys2Proof/Machine/Pages.lean ====
section
/-!
DEFINITION. The hub's own writes to memory, the free rows and granules of a die, the allocation of pages (R471, R475, R476), and
the copies of directory entries and context records (R464 to R469, R722).
-/

namespace Sys2Proof.Machine

/-- A command whose effect runs over DRAM and the chip together. -/
def State.onMach (s : State) (ok : Bool) (f : Mach → Mach) : Host.Outcome State Fault Refusal :=
  s.onBoth ok (fun dr k => let m := f { dr := dr, k := k }; (m.dr, m.k))

/-- The machine with its chip changed. -/
def Mach.onChip (m : Mach) (f : Chip → Chip) : Mach := { m with k := f m.k }

/-! ### The hub's accesses to a vat (R163 to R166, R173, R305, SOURCE hub)

Each row that the hub reads or writes takes one base-die slot (R412, R480). It is taken at once where the arbiter would grant it now; otherwise the
access joins the requests of its bank, and a command that may wait answers the state it met (`Mach.orWait`). -/

/-- The runs of a run of `n` bytes from `o` on that lie in one row each. -/
def rowSpans (o n : Nat) : List (Nat × Nat) :=
  (List.range ((o % 1024 + n + 1023) / 1024)).map (fun i =>
    let s := max o (o / 1024 * 1024 + 1024 * i)
    (s, min (o + n) (o / 1024 * 1024 + 1024 * (i + 1)) - s))

/-- The runs of bytes that lie in one row each, of those from byte `o` on. -/
def rowPieces (o : Nat) (bs : List Byte) : List (Nat × List Byte) :=
  (rowSpans o bs.length).map (fun x => (x.1, (bs.drop (x.1 - o)).take x.2))

/-- A base-die request of the hub at the bank of a logical index: the bytes to be written, none for a read. -/
def Chip.hubReq (k : Chip) (a o : Nat) (bs : List Byte) : SlotReq :=
  { use := .hubStore a o bs, cls := .base, row := some (o / 1024), arrived := k.now }

/-- Such a request joins those of its bank. -/
def Chip.askHub (k : Chip) (v d a o : Nat) (bs : List Byte) : Chip :=
  let b := k.phys v d a
  let u := k.bu v d b
  k.setBu v d b { u with slotQ := u.slotQ ++ [k.hubReq a o bs] }

/-- Bytes written by the hub into the bank of a logical index, spares included, word by word. -/
def Mach.bankRun (v d a : Nat) : Nat → Mach → Nat → List Byte → Mach
  | 0, m, _, _ => m
  | fuel + 1, m, o, bs =>
    if bs = [] then m
    else
      let n := min bs.length (32 - o % 32)
      let row := o / 1024
      let b := m.k.phys v d a
      let at_ (b : Nat) : Nat := bankByte v d b (o / 32 * 32)
      let r := m.dr.word (at_ b)
      let k := if n = 32 then m.k else (m.k.noteRead v d b row (o / 32 % 32) 6 r).count (Reg.tsvUpBytes v) 32
      let lost : Bool := n < 32 && r.res.bad
      let k := if lost then k else k.count (Reg.tsvDownBytes v) 32
      let dr := if lost then m.dr
        else (k.writePlaces v d a row).foldl (fun dr b => dr.putWord (at_ b) (patchBytes r.bytes (bs.take n) (o % 32) (fun _ => true))) m.dr
      Mach.bankRun v d a fuel { dr := dr, k := k } (o + n) (bs.drop n)

/-- DRAM as it will stand once the hub's writes that wait at the bank of a logical index have been made. -/
def Mach.settled (m : Mach) (v d a : Nat) : Dram :=
  ((m.k.bu v d (m.k.phys v d a)).slotQ.foldl (fun m r => match r.use with
    | .hubStore x o bs => m.bankRun v d x (bs.length / 32 + 2) o bs
    | _ => m) m).dr

/-- The column words of a run of bytes of one row, read for the hub: the bytes, whether any word was uncorrectable, each word counted and
logged. -/
def Chip.rowRun (k : Chip) (dr : Dram) (v d b o n : Nat) : List Byte × Bool × Chip :=
  let at_ (i : Nat) : Nat := o / 32 * 32 + 32 * i
  let ws := (List.range ((o % 32 + n + 31) / 32)).map (fun i => (at_ i, dr.word (bankByte v d b (at_ i))))
  (((ws.flatMap (fun w => w.2.bytes)).drop (o % 32)).take n, ws.any (fun w => w.2.res.bad),
    ws.foldl (fun k w => (k.noteRead v d b (w.1 / 1024) (w.1 / 32 % 32) 6 w.2).count (Reg.tsvUpBytes v) 32) k)

/-- Bytes of one row read by the hub. -/
def Mach.rowRead (m : Mach) (v d a o n : Nat) : List Byte × Bool × Mach :=
  let b := m.k.phys v d a
  if m.k.turnAt v d b (m.k.hubReq a o []) then
    let r := (m.k.takeSlots v d b 1).rowRun m.dr v d b o n
    (r.1, r.2.1, { m with k := r.2.2 })
  else
    let r := m.k.rowRun (m.settled v d a) v d b o n
    (r.1, r.2.1, m.onChip (fun k => k.askHub v d a o []))

/-- Bytes of the bank of a logical index read by the hub, row by row, and whether any word was uncorrectable; a lost vat gives none (R721). -/
def Mach.bankRead (m : Mach) (v d a o n : Nat) : List Byte × Bool × Mach :=
  if (m.k.vat v).lost then (List.replicate n 0, true, m)
  else (rowSpans o n).foldl (fun r x =>
    let y := r.2.2.rowRead v d a x.1 x.2
    (r.1 ++ y.1, r.2.1 || y.2.1, y.2.2)) ([], false, m)

/-- Bytes read by the hub at a vat physical address, and whether any word was uncorrectable. -/
def Mach.hubRead (m : Mach) (v p n : Nat) : List Byte × Bool × Mach :=
  if 96 * 2 ^ 30 < p + n then (List.replicate n 0, true, m)
  else (rowSpans p n).foldl (fun r x =>
    let b := bankAddr x.1
    let y := r.2.2.bankRead v b.die b.idx b.byte x.2
    (r.1 ++ y.1, r.2.1 || y.2.1, y.2.2)) ([], false, m)

/-- Bytes of one row written by the hub (R480). -/
def Mach.rowWrite (m : Mach) (v d a o : Nat) (bs : List Byte) : Mach :=
  let b := m.k.phys v d a
  if m.k.turnAt v d b (m.k.hubReq a o bs) then Mach.bankRun v d a (bs.length / 32 + 2) (m.onChip (fun k => k.takeSlots v d b 1)) o bs
  else m.onChip (fun k => k.askHub v d a o bs)

/-- Bytes written into the bank of a logical index, row by row; a lost vat takes none (R721). -/
def Mach.bankWrite (m : Mach) (v d a o : Nat) (bs : List Byte) : Mach :=
  if (m.k.vat v).lost then m else (rowPieces o bs).foldl (fun m x => m.rowWrite v d a x.1 x.2) m

/-- Bytes written by the hub at a vat physical address, row by row. -/
def Mach.hubWrite (m : Mach) (v p : Nat) (bs : List Byte) : Mach :=
  if 96 * 2 ^ 30 < p + bs.length then m
  else (rowPieces p bs).foldl (fun m x =>
    let b := bankAddr x.1
    m.bankWrite v b.die b.idx b.byte x.2) m

/-- The accesses of the hub that wait at a bank. -/
def Bu.hubWaiting (u : Bu) : Nat := (u.slotQ.filter (fun r => match r.use with | .hubStore .. => true | _ => false)).length

/-- The vats at whose banks one machine has more accesses of the hub waiting than another had. -/
def Mach.waitsAt (m old : Mach) : List Nat :=
  ((m.k.bus.filter (fun u => (lookup Bu.reset old.k.bus u.1).hubWaiting < (lookup Bu.reset m.k.bus u.1).hubWaiting)).map (fun u => u.1 / 1600)).eraseDups

/-- R165, R173, R480, R730: what a command comes to, where the arbiter grants every access that it makes now; else the command has still to
come about, and the vats that sleep are asked to wake. -/
def Mach.orWait (m m' : Mach) : Mach :=
  match m'.waitsAt m with
  | [] => m'
  | vs => m.onChip (fun k => vs.foldl Chip.wake k)

/-! ### What lies on a die -/

/-- A model by its index. -/
def Chip.model (k : Chip) (i : Nat) : Option Model := (k.hub.models.find? (fun m => m.1 = i)).map (·.2)

/-- A pool by its number. -/
def Chip.pool (k : Chip) (i : Nat) : Option Pool := (k.hub.pools.find? (fun p => p.1 = i)).map (·.2)

/-- Table 12.4: the core record of a core. -/
def Chip.poolCore (k : Chip) (v c : Nat) : Option PoolCore :=
  k.hub.pools.findSome? (fun q => q.2.cores.find? (fun x => x.core = 4 * v + c))

/-- Table 5.2: the rows of a page of a tier, and R225: the granules of its scale block. -/
def Model.rows (m : Model) (tier : Nat) : Nat := (pageBytes tier m.width + 1023) / 1024
def Model.granules (m : Model) : Nat := (scaleBytes m.width + 511) / 512

/-- A run of rows, or of granules, that is taken on a bank. -/
structure Taken where
  bank  : Nat
  start : Nat
  len   : Nat
deriving DecidableEq, Repr

/-- A page's rows and its granules, in the geometry of its model. -/
def PageRec.rowRun (md : Model) (p : PageRec) : Taken := { bank := p.bank, start := p.row, len := md.rows p.tier }
def PageRec.granRun (md : Model) (p : PageRec) : Taken := { bank := p.bank, start := p.gran, len := md.granules }

/-- The pages of a context on a die: its own, its shadow's, those whose entries are still to be cleared, and those of a migration to that
die. -/
def Ctx.pagesOn (c : Ctx) (v d : Nat) : List PageRec :=
  (if c.vat = v ∧ c.die = d then c.pages ++ c.shadow ++ c.owed else [])
    ++ match c.migration with
      | some g => if g.vat = v ∧ g.die = d then g.pages else []
      | none => []

/-- R485: the page that a job makes. -/
def AffJob.made (j : AffJob) : PageRec :=
  { j.page with row := j.row, gran := j.gran, tier := if j.kind = 3 then j.page.tier + 1 else j.page.tier
                opened := j.page.opened && j.kind = 4 }

/-- Every page on a die with its model: the contexts', and those that affinage jobs make. -/
def Chip.diePages (k : Chip) (v d : Nat) : List (Model × PageRec) :=
  k.hub.ctxs.flatMap (fun c => match k.model c.2.model with
    | some md => (c.2.pagesOn v d).map (fun p => (md, p))
    | none => [])
  ++ k.hub.affs.flatMap (fun j => match k.hub.ctxs.find? (fun c => c.1 = j.ctx) with
    | some c => if c.2.vat = v ∧ c.2.die = d ∧ j.kind ≠ 5 then
        (match k.model c.2.model with | some md => [(md, j.made)] | none => []) else []
    | none => [])

/-- R717: a page whose rows or granules lie in a retired 2 MB page. -/
def Chip.onRetired (k : Chip) (md : Model) (v d : Nat) (p : PageRec) : Bool :=
  p.bank < 96 && (List.range 32).any (fun g => k.retired v (32 * (96 * d + p.bank) + g)
    && ((p.row < 2048 * (g + 1) && 2048 * g < p.row + md.rows p.tier) || (p.gran < 4096 * (g + 1) && 4096 * g < p.gran + md.granules)))

/-- R717: the 2 MB pages of a bank that are retired, as runs of `per` units. -/
def Chip.retiredRuns (k : Chip) (v d b per : Nat) : List (Nat × Nat) :=
  if 96 ≤ b then [] else
  ((List.range 32).filter (fun p => k.retired v (32 * (96 * d + b) + p))).map (fun p => (per * p, per))

/-- The lowest run of `len` free units in `[first, last]`. -/
def lowestRun (first last len : Nat) (used : List (Nat × Nat)) : Option Nat :=
  let fits (s : Nat) : Bool := first ≤ s && s + len ≤ last + 1 && used.all (fun u => s + len ≤ u.1 || u.1 + u.2 ≤ s)
  ((first :: used.map (fun u => u.1 + u.2)).filter fits).min?

/-- The rows, and the granules, taken on a bank. -/
def Chip.takenRows (k : Chip) (v d b : Nat) (more : List (Model × PageRec)) : List (Nat × Nat) :=
  ((k.diePages v d ++ more).filter (fun p => p.2.bank = b)).map (fun p => (p.2.row, p.1.rows p.2.tier)) ++ k.retiredRuns v d b 2048
def Chip.takenGrans (k : Chip) (v d b : Nat) (more : List (Model × PageRec)) : List (Nat × Nat) :=
  ((k.diePages v d ++ more).filter (fun p => p.2.bank = b)).map (fun p => (p.2.gran, p.1.granules)) ++ k.retiredRuns v d b 4096

/-- R475: rows for a page of a tier, and granules for a scale block, on a bank. -/
def Chip.findRows (k : Chip) (md : Model) (lay : DieLayout) (v d b tier : Nat) (more : List (Model × PageRec)) : Option Nat :=
  lowestRun lay.pageFirst lay.pageLast (md.rows tier) (k.takenRows v d b more)
def Chip.findGrans (k : Chip) (md : Model) (lay : DieLayout) (v d b : Nat) (more : List (Model × PageRec)) : Option Nat :=
  lowestRun (2 * lay.scaleFirst) (2 * lay.scaleLast + 1) md.granules (k.takenGrans v d b more)

/-- R475, R476: a page allocated: its bank, its rows, its granules and the lowest page-index entry whose VALID is 0 among a
context's pages `mine`. -/
def Chip.fitPage (k : Chip) (md : Model) (lay : DieLayout) (v d bank : Nat) (mine : List PageRec) (layer page tier : Nat)
    (opened : Bool) : Option PageRec :=
  let more := mine.map (fun p => (md, p))
  let used := (mine.filter (fun p => p.bank = bank)).map (·.entry)
  match k.findRows md lay v d bank tier more, k.findGrans md lay v d bank more,
      (List.range 16).find? (fun e => !used.contains e) with
  | some r, some g, some e =>
    some { layer := layer, page := page, tier := tier, opened := opened, bank := bank, row := r, gran := g, entry := e }
  | _, _, _ => none

/-- A page of every layer, open in tier S8 (R476); the bank of each layer as `bankAt` gives it. -/
def Chip.fitLayers (k : Chip) (md : Model) (lay : DieLayout) (v d : Nat) (mine : List PageRec) (bankAt : Nat → Nat) (page : Nat) :
    Option (List PageRec) :=
  (List.range md.layers).foldl (fun acc l =>
    match acc with
    | none => none
    | some ps =>
      match k.fitPage md lay v d (bankAt l) (mine ++ ps) l page 0 true with
      | some p => some (ps ++ [p])
      | none => none) (some [])

/-- R476: page `page` of every layer of a context with rotation `rot`. -/
def Chip.fitTail (k : Chip) (md : Model) (lay : DieLayout) (v d rot : Nat) (mine : List PageRec) (page : Nat) :
    Option (List PageRec) := k.fitLayers md lay v d mine (fun l => bankOf rot l page) page

/-- Table 5.3: a page's entry. -/
def PageRec.index (p : PageRec) (valid : Bool) : PageIdx :=
  { row := p.row, scaleRow := p.gran / 2, half := p.gran % 2, tier := p.tier, opened := p.opened, layer := p.layer
    valid := valid, page := p.page }

/-- R480: a page-index entry written by one base-die row slot. -/
def Mach.putIndex (m : Mach) (v d slot : Nat) (p : PageRec) (valid : Bool) : Mach :=
  match m.k.layout v d with
  | some lay => m.bankWrite v d p.bank (indexAt lay.pidx slot + 8 * p.entry) (leBytes 8 (p.index valid).word)
  | none => m

/-- The entries of pages written, or cleared. -/
def Mach.putIndexes (m : Mach) (v d slot : Nat) (ps : List PageRec) (valid : Bool) : Mach :=
  ps.foldl (fun m p => m.putIndex v d slot p valid) m

/-- R474: VALID cleared in every page-index entry of a slot on every active bank of a die. -/
def Mach.clearSlot (m : Mach) (v d slot : Nat) (banks : List Nat) : Mach :=
  match m.k.layout v d with
  | none => m
  | some lay =>
    banks.foldl (fun m b =>
      let o := indexAt lay.pidx slot
      let r := m.bankRead v d b o 128
      r.2.2.bankWrite v d b o ((words64 r.1 16).flatMap (fun w => leBytes 8 { pageIdx w with valid := false }.word))) m

/-! ### Homes (R471, R714) -/

/-- R471: the slots of a die that contexts hold. -/
def Chip.slotsOn (k : Chip) (v d : Nat) : List Nat :=
  k.hub.ctxs.flatMap (fun c =>
    (if c.2.vat = v ∧ c.2.die = d ∧ c.2.state ≠ .spilled then [c.2.slot] else [])
      ++ match c.2.migration with
        | some g => if g.vat = v ∧ g.die = d then [g.slot] else []
        | none => [])

/-- R471: the lowest free context slot of a die. -/
def Chip.freeSlot (k : Chip) (v d : Nat) : Option Nat :=
  let used := k.slotsOn v d
  if 2 ^ 14 ≤ used.length then none else (List.range (used.length + 1)).find? (fun s => !used.contains s)

/-- R471: the free page rows of a die. -/
def Chip.freeRows (k : Chip) (lay : DieLayout) (v d : Nat) : Nat :=
  let area := lay.pageLast + 1 - lay.pageFirst
  let inArea (r : Nat × Nat) : Nat := min (r.1 + r.2) (lay.pageLast + 1) - max r.1 lay.pageFirst
  ((List.range 96).map (fun b => area - ((k.takenRows v d b []).map inArea).sum)).sum

/-- R471: the active logical index that holds the fewest open pages of a die. -/
def Chip.leastOpen (k : Chip) (v d : Nat) : Nat :=
  let ps := (k.diePages v d).map (·.2)
  let count (b : Nat) : Nat := (ps.filter (fun p => p.bank = b && p.opened)).length
  (List.range 96).foldl (fun a b => if count b < count a then b else a) 0

/-- R714, R718, R721: a die that takes no new context. -/
def Chip.dieShut (k : Chip) (v d : Nat) : Bool := k.flag (Reg.vatStatus v) d || (k.vat v).lost

/-- A home for a context: where, and its first pages. -/
structure Home where
  v     : Nat
  d     : Nat
  slot  : Nat
  rot   : Nat
  pages : List PageRec

/-- R471: the dies of a model's pool. -/
def Chip.poolDies (k : Chip) (md : Model) : List (Nat × Nat) :=
  match k.pool md.pool with
  | none => []
  | some q => q.cores.flatMap (fun c => (List.range 4).map (fun i => (c.core / 4, 4 * (c.core % 4) + i)))

/-- R471: the home of a new copy of a context: the die with the most free page rows, the lowest vat and die on a tie, among
those that `fit` gives pages on; not the die `but`. -/
def Chip.findHome (k : Chip) (md : Model) (but : Option (Nat × Nat)) (fit : DieLayout → Nat → Nat → Nat → Option (List PageRec)) :
    Option Home :=
  let homes := (orderBy (fun x => dieKey x.1 x.2) (k.poolDies md)).filterMap (fun x =>
    if k.dieShut x.1 x.2 ∨ but = some x then none
    else match k.layout x.1 x.2, k.freeSlot x.1 x.2 with
      | some lay, some s =>
        let rot := k.leastOpen x.1 x.2
        match fit lay x.1 x.2 rot with
        | some ps => some ({ v := x.1, d := x.2, slot := s, rot := rot, pages := ps : Home }, k.freeRows lay x.1 x.2)
        | none => none
      | _, _ => none)
  (homes.foldl (fun (a : Option (Home × Nat)) h => match a with
    | some b => if b.2 < h.2 then some h else a
    | none => some h) none).map (·.1)

/-! ### The directory and the context records (Tables 10.1, 10.2) -/

/-- Table 10.3. -/
def CtxState.code : CtxState → Nat
  | .free => 0 | .live => 1 | .migrating => 2 | .closing => 3 | .spilled => 4 | .standby => 5

/-- R460. -/
def Ctx.handle (c : Ctx) (i : Nat) : Nat := c.gen * 2 ^ 20 + i

/-- Table 10.1. -/
def Ctx.entryBytes (c : Ctx) (i : Nat) : List Byte :=
  c.key.take 40 ++ List.replicate (40 - c.key.length) 0 ++ leBytes 1 c.key.length ++ leBytes 1 c.domain ++ leBytes 1 (c.model % 16)
    ++ leBytes 1 c.state.code ++ leBytes 4 (c.handle i) ++ leBytes 8 c.hash ++ leBytes 8 0

/-- Table 10.2. -/
def Ctx.recordBytes (c : Ctx) (i : Nat) : List Byte :=
  let b (x : Bool) (n : Nat) : Nat := if x then 2 ^ n else 0
  leBytes 4 (c.handle i) ++ leBytes 1 (c.state.code + b c.sampled 3 + b c.shadowOk 4 + b c.mirrored 5)
    ++ leBytes 1 (c.vat % 8 + c.die % 16 * 8) ++ leBytes 2 (c.slot % 2 ^ 14) ++ leBytes 1 c.rot
    ++ leBytes 1 (c.model % 16 + c.cls % 16 * 16) ++ leBytes 1 c.domain ++ leBytes 1 c.tailCount ++ leBytes 4 (c.oldest % 2 ^ 24)
    ++ leBytes 4 (c.tail % 2 ^ 24) ++ leBytes 4 (c.shadowFirst % 2 ^ 24) ++ leBytes 8 c.tokens ++ leBytes 8 c.lastActive
    ++ leBytes 4 c.mirrorSeq ++ List.replicate 84 0

/-- R464, R469, R722: bytes written in a region of vat `v`, and with replicas in that of the next vat. -/
def Mach.regionWrite (m : Mach) (V v : Nat) (base : Nat → Nat) (off : Nat) (bs : List Byte) : Mach :=
  let at_ (v : Nat) : Nat := m.k.getF (base v) 36 0 + off
  let m := m.hubWrite v (at_ v) bs
  if m.k.flag Reg.ctxReplica 0 then m.hubWrite ((v + 1) % V) (at_ ((v + 1) % V) + 2 ^ 24) bs else m

/-- R469: a context record written through. -/
def Mach.putRecord (m : Mach) (V i : Nat) (c : Ctx) : Mach :=
  m.regionWrite V (i % V) Reg.ctxTableBase (128 * (i / V)) (c.recordBytes i)

/-- R464, R466: a directory entry written, or its way freed. -/
def Mach.putEntry (m : Mach) (V : Nat) (place : Nat × Nat) (bs : List Byte) : Mach :=
  m.regionWrite V (place.1 % V) Reg.dirBase (256 * (place.1 / V) + 64 * place.2) bs

/-- R465: NB, and the buckets of a hash. -/
def bucketCount (V : Nat) : Nat := 65536 * V
def bucketsOf (V h : Nat) : Nat × Nat :=
  let n := bucketCount V
  let h1 := h % 2 ^ 32 % n
  let h2 := h / 2 ^ 32 % 2 ^ 32 % n
  (h1, if h2 = h1 then (h1 + 1) % n else h2)

/-- R465: the hash of a key. -/
def Chip.hashOf (k : Chip) (domain model : Nat) (key : List Byte) : Nat :=
  (sipHash k.hub.hashKey (leBytes 1 domain ++ leBytes 1 model ++ leBytes 1 key.length ++ key.take 40
    ++ List.replicate (40 - key.length) 0)).toNat

/-- The context at an index. -/
def Chip.ctx (k : Chip) (i : Nat) : Option Ctx := (k.hub.ctxs.find? (fun c => c.1 = i)).map (·.2)

/-- A command whose accesses to rows wait for their turn (R165, R173). -/
def State.onTurn (s : State) (ok : Bool) (f : Mach → Mach) : Host.Outcome State Fault Refusal := s.onMach ok (fun m => m.orWait (f m))

/-- The hub's view of a context changed. -/
def Chip.setCtx (k : Chip) (i : Nat) (c : Ctx) : Chip := k.onHub (fun h => { h with ctxs := insert h.ctxs i c })

/-- R469: a context changed, its record and its directory entry's STATE written through. -/
def Mach.setCtx (m : Mach) (V i : Nat) (c : Ctx) : Mach :=
  let m := match m.k.ctx i with
    | some old => if old.state = c.state ∧ old.gen = c.gen then m else m.putEntry V c.place (c.entryBytes i)
    | none => m.putEntry V c.place (c.entryBytes i)
  (m.onChip (fun k => k.setCtx i c)).putRecord V i c

/-- R467: the hot-directory set of a hash. -/
def hotSet (h : Nat) : Nat := h % 2 ^ 14

/-- R467: a context's way becomes the most recently used of its set, the least recently used way leaving. -/
def Chip.hotTouch (k : Chip) (i : Nat) (c : Ctx) : Chip :=
  let s := hotSet c.hash
  k.onHub (fun h => { h with hot := insert h.hot s ((i :: (lookup [] h.hot s).filter (· ≠ i)).take 8) })

/-- A context leaves the hot directory. -/
def Chip.hotDrop (k : Chip) (i : Nat) (c : Ctx) : Chip :=
  let s := hotSet c.hash
  k.onHub (fun h => { h with hot := insert h.hot s ((lookup [] h.hot s).filter (· ≠ i)) })

/-- The hot directory holds a context. -/
def Chip.isHot (k : Chip) (i : Nat) (c : Ctx) : Bool := (lookup [] k.hub.hot (hotSet c.hash)).contains i

/-! ### The ledger (R488, R490) -/

/-- R488, R490: the ledger bytes of a slot: the vat, their address and their number. -/
def Chip.ledgerOf (k : Chip) (md : Model) (model v d slot : Nat) : Option (Nat × Nat) :=
  (k.poolCore v (ownerOf d)).map (fun c =>
    let n := 2 * md.layers * (32 * k.getF (Reg.affCull model) 31 24)
    (c.ledger + ((d % 4) * 16384 + slot) * n, n))

/-- R488: the ledger words of a slot, and R490: zero written to them. -/
def Mach.zeroLedger (m : Mach) (md : Model) (model v d slot : Nat) : Mach :=
  match m.k.ledgerOf md model v d slot with
  | some (p, n) => m.hubWrite v p (List.replicate n 0)
  | none => m

end Sys2Proof.Machine
end

