-- ==== Sys2Proof/Machine/Contexts.lean ====
section
/-!
DEFINITION. The life of a context (spec/10_contexts_and_affinage.md): lookup, creation, eviction, close, the advance of its tail
and the expiry of its pages, shadows, and what a mirrored context sends (R506, R778 to R782).
-/

namespace Sys2Proof.Machine

/-! ### Messages about a context (R506, R778, Table 17.4) -/

/-- The header fields of a message about a context. -/
def Ctx.hdr (c : Ctx) (i seq : Nat) : CtxHdr :=
  { domain := c.domain, model := c.model, handle := c.handle i, seq := seq, tokens := c.tokens, tail := c.tail
    tailCount := c.tailCount, oldest := c.oldest }

/-- One page as a message carries it. -/
def Mach.pageImage (m : Mach) (md : Model) (c : Ctx) (p : PageRec) : PageImage × Mach :=
  let x := m.bankRead c.vat c.die p.bank (1024 * p.row) (pageBytes p.tier md.width)
  let y := x.2.2.bankRead c.vat c.die p.bank (512 * p.gran) (scaleBytes md.width)
  ({ layer := p.layer, page := p.page, tier := p.tier, opened := p.opened, data := x.1, scales := y.1 }, y.2.2)

/-- R778: every page of a context. -/
def Mach.images (m : Mach) (c : Ctx) : List PageImage × Mach :=
  match m.k.model c.model with
  | some md => c.pages.foldl (fun a p => let r := a.2.pageImage md c p; (a.1 ++ [r.1], r.2)) ([], m)
  | none => ([], m)

/-- R506: the S8 keys and values of one layer of a token, with their scales, from its open page (R223, R224). -/
def Mach.tokenKv (m : Mach) (md : Model) (c : Ctx) (p : PageRec) (place : Nat) : TokenKv × Mach :=
  let n := md.dim / 32
  let at_ (s : Nat) : Nat := s * md.dim + place * n
  let run (m : Mach) (base unit : Nat) : List Byte × Mach :=
    (List.range (2 * md.hkv)).foldl (fun a s =>
      let r := a.2.bankRead c.vat c.die p.bank (base + unit * at_ s) (unit * n)
      (a.1 ++ r.1, r.2.2)) ([], m)
  let x := run m (1024 * p.row) 32
  let y := run x.2 (512 * p.gran) 2
  ({ layer := p.layer, page := p.page, place := place, data := x.1, scales := y.1 }, y.2)

/-- R781: an update that the backlog refuses marks its context diverged. -/
def Chip.diverge (k : Chip) (i : Nat) (c : Ctx) (pkg : Nat) : Chip :=
  if c.diverged then k
  else ((k.setCtx i { c with diverged := true }).count Reg.kwDiverged 1).logKw 0x53 (pkg + 2 ^ 8)

/-- R774: a mirrored context whose domain the peer no longer declares is not mirrored on; it goes out whole once the peer does again. -/
def Chip.mirrorStops (k : Chip) (i : Nat) (c : Ctx) : Option Chip :=
  let pkg := k.getF Reg.kwMirror 15 14
  if k.peerTakes pkg c.domain || !k.peerKnown pkg then none
  else some ((k.setCtx i { c with diverged := true }).logKw 0x56 (c.domain + pkg * 2 ^ 8))

/-- R506, R778, R781: MIRROR_FULL for a context, under its next sequence number. -/
def Mach.sendFull (m : Mach) (V i : Nat) (c : Ctx) : Mach :=
  let pkg := m.k.getF Reg.kwMirror 15 14
  let seq := (c.mirrorSeq + 1) % 2 ^ 32
  let x := m.images c
  let r := x.2.k.sendMirror pkg (c.handle i) seq (.mirrorFull (c.hdr i seq) x.1)
  if r.2 then ({ x.2 with k := r.1 } : Mach).setCtx V i { c with mirrored := true, mirrorSeq := seq, diverged := false }
  else m.onChip (fun k => k.diverge i c pkg)

/-! ### Lookup (R466, R468, R473, R779) -/

/-- A close of a context has taken its place (R473). -/
def Chip.closePending (k : Chip) (handle : Nat) : Bool := k.hub.closes.any (fun c => c.handle = handle)

/-- R473: a close of a context has taken its place before a job of place `order`. -/
def Chip.closedBefore (k : Chip) (handle order : Nat) : Bool := k.hub.closes.any (fun c => c.handle = handle && decide (c.order ≤ order))

/-- A lookup for a job accepted in place `order` may find this context. -/
def Chip.findable (k : Chip) (order i : Nat) (c : Ctx) : Bool :=
  (c.state = .live || c.state = .migrating || c.state = .spilled) && !k.closedBefore (c.handle i) order

/-- R459: the context of a key, for a job of place `order`. -/
def Chip.lookupKey (k : Chip) (order domain model : Nat) (key : List Byte) : Option (Nat × Ctx) :=
  k.hub.ctxs.find? (fun c => c.2.domain = domain && c.2.model = model && c.2.key = key && k.findable order c.1 c.2)

/-- R463: the context of a handle, for a job of place `order`. -/
def Chip.lookupHandle (k : Chip) (order handle : Nat) : Option (Nat × Ctx) :=
  k.hub.ctxs.find? (fun c => c.2.handle c.1 = handle && k.findable order c.1 c.2)

/-! ### Jobs of a context -/

/-- R50, R459, R473: a job is of the context at index `i`: it is bound to it, has found it, or looks up its key, accepted before any
close of it took its place. -/
def Chip.jobOf (k : Chip) (j : Job) (i : Nat) (c : Ctx) : Bool :=
  match j.phase with
  | .found h => h = c.handle i
  | .walking => j.domain = c.domain && j.model = c.model && j.key = c.key && k.findable j.order i c
  | _ => j.handle = c.handle i

/-- R50: a job of the context at index `i` that is accepted and not yet committed or ended. -/
def Chip.pendingOn (k : Chip) (j : Job) (i : Nat) (c : Ctx) : Bool := j.outcome.isNone && k.jobOf j i c

/-- R50: a context has such a job. -/
def Chip.hasJob (k : Chip) (i : Nat) (c : Ctx) : Bool := k.hub.jobs.any (fun j => k.pendingOn j.2 i c)

/-- R50: a context has such a job accepted before place `order`. -/
def Chip.jobBefore (k : Chip) (order i : Nat) (c : Ctx) : Bool := k.hub.jobs.any (fun j => j.2.order < order && k.pendingOn j.2 i c)

/-- A context has an affinage job delivered and not ended (R480). -/
def Chip.hasAff (k : Chip) (i : Nat) : Bool := k.hub.affs.any (fun j => j.ctx = i)

/-- R480: such a job of the context at index `i` is queued or running on a bank. -/
def Chip.affOnBank (k : Chip) (i b : Nat) : Bool := k.hub.affs.any (fun j => j.ctx = i && j.page.bank = b)

/-- R480: the pages that a context gives up: their entries are cleared, but for those on a bank where an affinage job of the context
still stands, which the hub owes. -/
def Mach.giveUp (m : Mach) (i : Nat) (c : Ctx) (ps : List PageRec) : Mach × Ctx :=
  (m.putIndexes c.vat c.die c.slot (ps.filter (fun p => !m.k.affOnBank i p.bank)) false,
    { c with owed := c.owed ++ ps.filter (fun p => m.k.affOnBank i p.bank) })

/-- R480: the entries that a context owes cleared, as far as its affinage jobs let the hub. -/
def Mach.payOwed (m : Mach) (i : Nat) : Mach :=
  match m.k.ctx i with
  | none => m
  | some c =>
    if c.owed = [] then m
    else
      let r := m.giveUp i { c with owed := [] } c.owed
      r.1.onChip (fun k => k.setCtx i r.2)

/-! ### Close (R473, R474, R782) -/

/-- R474: a context's pages and shadow given up: every page-index entry of its slot cleared, in the spares that hold rows of their own too. -/
def Mach.freePages (m : Mach) (c : Ctx) : Mach :=
  let whole (q : Nat) : Bool := (m.k.die c.vat c.die).spare q = .ready || (m.k.die c.vat c.die).spare q = .calibrating
  let m := m.clearSlot c.vat c.die c.slot (List.range 96 ++ ((List.range 4).filter whole).map (96 + ·))
  match c.migration with
  | some g => m.clearSlot g.vat g.die g.slot (List.range 96)
  | none => m

/-- R782, R788: the mirror, and the holder of a spilled context, told of a close. A message that the backlog has no room for, or that no port can
take, is owed. -/
def Chip.tellClose (k : Chip) (i : Nat) (c : Ctx) : Chip :=
  let h := c.hdr i ((c.mirrorSeq + 1) % 2 ^ 32)
  let owe (k : Chip) (pkg : Nat) : Chip := k.onHub (fun x => { x with untold := x.untold ++ [(pkg, h)] })
  let pkg := k.getF Reg.kwMirror 15 14
  let k := if !c.mirrored then k else
    let r := k.sendMirror pkg h.handle h.seq (.mirrorClose h)
    if r.2 then r.1 else owe k pkg
  if c.state ≠ .spilled && c.spill ≠ .offered then k
  else if (k.portTo c.holder).isSome then k.sendTo c.holder (.mirrorClose h)
  else owe k c.holder

/-- R474: a context closed whole: its entries cleared, its pages and its index freed. -/
def Mach.dropCtx (m : Mach) (V i : Nat) (c : Ctx) : Mach :=
  let m := if c.state = .spilled then m else m.freePages c
  let m := (m.putEntry V c.place (List.replicate 64 0)).putRecord V i { c with state := .free }
  m.onChip (fun k => ((k.hotDrop i c).count Reg.ctxClosed 1).onHub (fun h => { h with
    ctxs := erase h.ctxs i, freed := h.freed ++ [i], affs := h.affs.filter (fun j => j.ctx ≠ i)
    closes := h.closes.filter (fun x => x.handle ≠ c.handle i) }))

/-- R474, R782, R788: a context closed, and whoever holds a copy of it told. -/
def Mach.closeCtx (m : Mach) (V i : Nat) (c : Ctx) : Mach := (m.dropCtx V i c).onChip (fun k => k.tellClose i c)

/-! ### Shadows (R491 to R494) -/

/-- R491: a spare in CALIBRATING that serves a domain, with room for `want`'s pages. -/
def Chip.shadowOn (k : Chip) (md : Model) (lay : DieLayout) (v d domain page : Nat) (mine : List PageRec) : Option (Nat × List PageRec) :=
  let x := k.die v d
  (List.range 4).findSome? (fun q =>
    if x.spare q = .calibrating ∧ x.spareDomain.getD q 0 = domain then
      (k.fitLayers md lay v d mine (fun _ => 96 + q) page).map (fun ps => (q, ps))
    else none)

/-- R492: the shadow's page of every layer as the tail moves to `page`. A shadow that finds no room for it does not cover the range until
its first page after the gap is the oldest (R494). -/
def Mach.growShadow (m : Mach) (c : Ctx) (md : Model) (page : Nat) : Mach × Ctx :=
  match m.k.layout c.vat c.die with
  | none => (m, c)
  | some lay =>
    if !c.sampled then (m, c)
    else match c.spare with
    | some q =>
      match m.k.fitLayers md lay c.vat c.die c.shadow (fun _ => 96 + q) page with
      | some ps => (m.putIndexes c.vat c.die c.slot ps true, { c with shadow := c.shadow ++ ps })
      | none => (m, { c with shadowOk := false, shadowFirst := (page + 1) % 2 ^ 24 })
    | none =>
      match m.k.shadowOn md lay c.vat c.die c.domain page [] with
      | some (q, ps) =>
        (m.putIndexes c.vat c.die c.slot ps true, { c with spare := some q, shadow := ps, shadowFirst := page })
      | none => (m, c)

/-! ### Creation (R461, R470 to R472, R491) -/

/-- R461: the next free index. -/
def Chip.nextIndex (k : Chip) (V : Nat) : Option Nat :=
  if k.hub.nextIdx < 131072 * V then some k.hub.nextIdx else k.hub.freed.head?

/-- R461: that index taken, its generation raised. -/
def Chip.takeIndex (k : Chip) (V i : Nat) : Chip × Nat :=
  let g := lookup 0 k.hub.gens i
  let g := if g = 0 ∨ g = 4095 then 1 else g + 1
  (k.onHub (fun h =>
    if h.nextIdx < 131072 * V then { h with nextIdx := h.nextIdx + 1, gens := insert h.gens i g }
    else { h with freed := h.freed.drop 1, gens := insert h.gens i g }), g)

/-- R466: a free way for a hash: the lowest of its first bucket, else of its second. -/
def Chip.freeWay (k : Chip) (V h : Nat) : Option (Nat × Nat) :=
  let b := bucketsOf V h
  let free (n : Nat) : Option (Nat × Nat) :=
    ((List.range 4).map (fun w => (n, w))).find? (fun p => !k.hub.ctxs.any (fun c => c.2.place = p))
  (free b.1).or (free b.2)

/-- A context at its creation on a home. -/
def Ctx.fresh (gen domain model cls : Nat) (key : List Byte) (hash : Nat) (place : Nat × Nat) (home : Home) (now : Nat) : Ctx :=
  { gen := gen, state := .live, sampled := false, shadowOk := false, mirrored := false, vat := home.v, die := home.d
    slot := home.slot, rot := home.rot, model := model, cls := cls, domain := domain, tailCount := 0, oldest := 0, tail := 0
    shadowFirst := 0, tokens := 0, lastActive := now, mirrorSeq := 0, key := key, hash := hash, place := place
    pages := home.pages, shadow := [], spare := none, room := .fits, owed := [], sample := none, migration := none
    standby := none, spill := .home, holder := 0, diverged := false }

/-- What an attempt to create comes to; it waits for the context with a handle, which makes room. -/
inductive Made where
  | ok (i : Nat) (m : Mach)
  | refused (status : Nat) (m : Mach)
  | wait (handle : Nat) (m : Mach)

/-- R470, R491: a context created at a free way, where an index and a home are found. -/
def Mach.tryCreate (m : Mach) (V domain model cls : Nat) (md : Model) (key : List Byte) (hash : Nat) (place : Nat × Nat) :
    Option (Nat × Mach) :=
  match m.k.nextIndex V, m.k.findHome md none (fun lay v d rot => m.k.fitTail md lay v d rot [] 0) with
  | some i, some home =>
    let (k, g) := m.k.takeIndex V i
    let c := Ctx.fresh g domain model cls key hash place home k.now
    let shift := k.getF Reg.ctxCfg 3 0
    let shadow := if shift ≠ 0 ∧ hash % 2 ^ shift = 0 then
        (k.layout home.v home.d).bind (fun lay => k.shadowOn md lay home.v home.d domain 0 []) else none
    let c := match shadow with
      | some (q, ps) => { c with sampled := true, shadowOk := true, spare := some q, shadow := ps }
      | none => c
    let m := ({ m with k := k } : Mach).putIndexes c.vat c.die c.slot (c.pages ++ c.shadow) true
    let m := m.setCtx V i c
    let m := m.onChip (fun k => (k.hotTouch i c).count Reg.ctxCreated 1)
    let pkg := m.k.getF Reg.kwMirror 15 14
    some (i,
      if !m.k.flag Reg.kwMirror (16 + cls) then m
      else if m.k.peerTakes pkg domain then m.sendFull V i c
      else if m.k.peerRefuses pkg domain then m.onChip (fun k => k.logKw 0x56 (domain + pkg * 2 ^ 8)) else m)
  | _, _ => none

/-- R472: the context to evict for a domain. -/
def Chip.victim (k : Chip) (domain : Nat) : Option (Nat × Ctx) :=
  let old (c : Ctx) : Bool := k.getF Reg.ctxCfg 31 16 * 10 ^ 6 ≤ k.now - c.lastActive
  let cs := k.hub.ctxs.filter (fun c => c.2.state = .live && c.2.domain = domain && !k.hasJob c.1 c.2
    && !k.closePending (c.2.handle c.1))
  match cs.foldl (fun (a : Option (Nat × Ctx)) c => match a with
      | some b => if c.2.lastActive < b.2.lastActive then some c else a
      | none => some c) none with
  | some c => if k.flag Reg.ctxCfg 4 && old c.2 then some c else none
  | none => none

/-- R472, R480, R785: the context with a handle is still on its way out: CLOSING, or offered to a peer. -/
def Chip.leaving (k : Chip) (handle : Nat) : Bool :=
  k.hub.ctxs.any (fun c => c.2.handle c.1 = handle && (c.2.state = .closing || c.2.spill = .offered))

/-- R470, R472, R785: a context created for a key, evicting, or spilling, to make room. While the context `evicts`, which an earlier
attempt chose, has not left, the attempt waits. -/
def Mach.create (m : Mach) (V domain model cls : Nat) (key : List Byte) (evicts : Option Nat) : Made :=
  let h := m.k.hashOf domain model key
  let full (m : Mach) : Made := .refused 0x22 (m.onChip (fun k => k.count Reg.ctxRefused 1))
  let try_ (m : Mach) (md : Model) : Option (Nat × Mach) := (m.k.freeWay V h).bind (fun place => m.tryCreate V domain model cls md key h place)
  match m.k.freeWay V h, m.k.model model with
  | none, _ => .refused 0x23 (m.onChip (fun k => k.count Reg.ctxRefused 1))
  | some _, none => full m
  | some _, some md =>
    match try_ m md with
    | some (i, m) => .ok i m
    | none =>
      match evicts.filter m.k.leaving, m.k.victim domain with
      | some h, _ => .wait h m
      | none, none => full m
      | none, some (i, c) =>
        let pkg := m.k.getF Reg.kwSpill 30 29
        -- a peer's NO_ROOM stands for the attempt that it answered
        let offer : Bool := m.k.flag Reg.kwSpill 31 && (c.spill = .home || (c.spill = .refused && evicts ≠ some (c.handle i)))
        if c.spill = .offered ∨ (offer ∧ m.k.hasAff i) then .wait (c.handle i) m
        else if offer && (m.k.portTo pkg).isSome && m.k.peerTakes pkg domain then
          let x := m.images c
          let seq := (c.mirrorSeq + 1) % 2 ^ 32
          .wait (c.handle i) ((x.2.setCtx V i { c with spill := .offered, holder := pkg, mirrorSeq := seq }).onChip (fun k =>
            k.sendTo pkg (.spillPut (c.hdr i seq) c.key x.1)))
        else
        let m := if m.k.flag Reg.kwSpill 31 && m.k.peerRefuses pkg domain then m.onChip (fun k => k.logKw 0x56 (domain + pkg * 2 ^ 8)) else m
        if m.k.hasAff i then
          .wait (c.handle i) ((m.setCtx V i { c with state := .closing }).onChip (fun k => k.count Reg.ctxEvicted 1))
        else
          let m := (m.closeCtx V i c).onChip (fun k => k.count Reg.ctxEvicted 1)
          match try_ m md with
          | some (i, m) => .ok i m
          | none => full m

/-! ### The tail (R476, R478, R479, R545) -/

/-- R475, R476, R480: page `page` of every layer allocated and entered in the page index; none where it does not fit. -/
def Mach.addPage (m : Mach) (c : Ctx) (md : Model) (page : Nat) : Option (Mach × List PageRec) :=
  match m.k.layout c.vat c.die with
  | none => none
  | some lay => (m.k.fitTail md lay c.vat c.die c.rot (c.pages ++ c.owed) page).map (fun ps => (m.putIndexes c.vat c.die c.slot ps true, ps))

/-- R479: the oldest page has no position that a token at the end of the range attends to, or the range is too long. -/
def Ctx.oldestDead (c : Ctx) (window mass tail count : Nat) : Bool :=
  let span := (tail + 2 ^ 24 - c.oldest) % 2 ^ 24
  let newest : Int := 32 * (tail : Int) + count - 1
  span ≠ 0 && ((window ≠ 0 && decide ((window : Int) ≤ (newest - (32 * (c.oldest : Int) + 31)) % 2 ^ 29)) || decide (mass - 1 < span))

/-- R479: pages expired from the oldest, as long as the rule gives. -/
def Mach.expire (md : Model) (mass tail count i : Nat) : Nat → Mach → Ctx → Mach × Ctx
  | 0, m, c => (m, c)
  | fuel + 1, m, c =>
    if !c.oldestDead md.window mass tail count then (m, c)
    else
      let gone (p : PageRec) : Bool := p.page = c.oldest
      let r := m.giveUp i c ((c.pages ++ c.shadow).filter gone)
      Mach.expire md mass tail count i fuel r.1
        { r.2 with pages := c.pages.filter (fun p => !gone p), shadow := c.shadow.filter (fun p => !gone p)
                   oldest := (c.oldest + 1) % 2 ^ 24 }

/-- R505: MASS_PAGES of a model. -/
def Chip.massPages (k : Chip) (model : Nat) : Nat := 32 * k.getF (Reg.affCull model) 31 24

/-- R494: SHADOW_OK returns once the shadow covers the range. -/
def Ctx.checkShadow (c : Ctx) : Ctx :=
  if c.sampled && c.spare.isSome && decide ((c.oldest + 2 ^ 24 - c.shadowFirst) % 2 ^ 24 < 2 ^ 23) then
    { c with shadowOk := !c.shadow.isEmpty } else c

/-- How many pages lie before the tail. -/
def Ctx.spanTo (c : Ctx) (tail : Nat) : Nat := (tail + 2 ^ 24 - c.oldest) % 2 ^ 24

/-- R479, R494: expiry to a tail. -/
def Mach.expireTo (m : Mach) (i : Nat) (c : Ctx) (md : Model) (tail count : Nat) : Mach × Ctx :=
  match Mach.expire md (m.k.massPages c.model) tail count i (c.spanTo tail) m c with
  | (m, c) => (m, c.checkShadow)

/-- R476: the tail moves to `page`, which is allocated; false where it does not fit, and the tail is full (R478). -/
def Mach.moveTail (m : Mach) (c : Ctx) (md : Model) (page : Nat) : Mach × Ctx × Bool :=
  match m.addPage c md page with
  | none => (m, { c with room := .full }, false)
  | some (m, ps) =>
    let (m, c) := m.growShadow { c with pages := c.pages ++ ps, tail := page, tailCount := 0, room := .fits } md page
    (m, c, true)

end Sys2Proof.Machine
end

