-- ==== Sys2Proof/Machine/Affinage.lean ====
section
/-!
DEFINITION. Affinage (R481 to R490): reviews and their jobs, compaction, the mass ledger; live calibration's controller (R501 to
R504); and migration (R509 to R511).
-/

namespace Sys2Proof.Machine

/-! ### Planning a review (R481 to R483, R487) -/

/-- The age of a page in a context's range. -/
def Ctx.age (c : Ctx) (p : PageRec) : Nat := (c.tail + 2 ^ 24 - p.page) % 2 ^ 24

/-- A page of the range that the tail has left. -/
def Ctx.left (c : Ctx) (p : PageRec) : Bool := 0 < c.age p && c.age p ≤ c.spanTo c.tail

/-- An affinage job on a page is delivered and not ended. -/
def Chip.affOn (k : Chip) (i : Nat) (p : PageRec) : Bool :=
  k.hub.affs.any (fun j => j.ctx = i && j.page.layer = p.layer && j.page.page = p.page)

/-- R482: a CULL of a page is delivered and not ended. -/
def Chip.cullOn (k : Chip) (i : Nat) (p : PageRec) : Bool :=
  k.hub.affs.any (fun j => j.ctx = i && j.kind = 5 && j.page.layer = p.layer && j.page.page = p.page)

/-- R488: the ledger word of a page, in the ledger bytes of its slot. -/
def ledgerWord (ledger : List Byte) (mass : Nat) (p : PageRec) : Int :=
  signedOf 16 (leNat ((ledger.drop (2 * (p.layer * mass + p.page % mass))).take 2))

/-- R481, Table 8.19: a planned job: its B-profile entry and its page. -/
structure Planned where
  kind : Nat
  page : PageRec

/-- R482, R483: the culls of one layer. -/
def planCulls (c : Ctx) (minAge cullMass cullMax keep mass : Nat) (ledger : List Byte) (ps : List PageRec) : List PageRec :=
  let usable := (ps.filter (fun p => c.age p ≤ c.spanTo c.tail)).length
  let word (p : PageRec) : Int := ledgerWord ledger mass p
  let cs := ps.filter (fun p => c.left p && !p.opened && minAge ≤ c.age p && 0 < cullMass && decide (word p ≤ 32 * cullMass))
  let key (p : PageRec) : Nat := (word p + 2 ^ 15).toNat * 2 ^ 24 + p.page
  (orderBy key cs).take (min cullMax (usable - keep))

/-- R481, R717: the jobs of a review, layer by layer. -/
def Chip.plan (k : Chip) (i : Nat) (c : Ctx) (md : Model) (ledger : List Byte) : List Planned :=
  let a6 := k.getF (Reg.affAge c.model) 7 0
  let a4 := k.getF (Reg.affAge c.model) 15 8
  let o := Reg.affCull c.model
  let gone (p : PageRec) : Bool := k.onRetired md c.vat c.die p
  (List.range md.layers).flatMap (fun l =>
    let ps := c.pages.filter (fun p => p.layer = l && !k.affOn i p)
    let mine := orderBy (fun p => 2 ^ 24 - c.age p) ps
    (mine.filter gone).map (fun p => ⟨5, p⟩) ++ (mine.filter (fun p => !gone p && c.left p && p.opened)).map (fun p => ⟨2, p⟩)
      ++ (mine.filter (fun p => !gone p && c.left p && !p.opened && p.tier = 0 && a6 ≤ c.age p)).map (fun p => ⟨3, p⟩)
      ++ (mine.filter (fun p => !gone p && c.left p && !p.opened && p.tier = 1 && a4 ≤ c.age p)).map (fun p => ⟨3, p⟩)
      ++ (planCulls c (k.getF o 7 0) (k.getF (Reg.affAge c.model) 31 16) (k.getF o 23 16) (k.getF o 15 8) (k.massPages c.model)
            ledger (c.pages.filter (fun p => p.layer = l && !k.cullOn i p && !gone p))).map (fun p => ⟨5, p⟩))

/-- The rows of `[first, last]` free from `s` on, up to the next row taken. -/
def freeFrom (last : Nat) (used : List (Nat × Nat)) (s : Nat) : Nat :=
  if used.any (fun u => u.1 ≤ s && s < u.1 + u.2) || last < s then 0
  else used.foldl (fun n u => if s < u.1 then min n (u.1 - s) else n) (last + 1 - s)

/-- R487: the longest free run of page rows of a bank. -/
def longestRun (first last : Nat) (used : List (Nat × Nat)) : Nat :=
  (((first :: used.map (fun u => u.1 + u.2)).filter (fun s => first ≤ s)).map (freeFrom last used)).foldl max 0

/-- R487: one page to move on a bank: the sealed page nearest the end of the page area that a lower free run holds. -/
def Chip.compactOne (k : Chip) (lay : DieLayout) (v d b : Nat) : Option (Nat × Planned × Nat × Nat) :=
  let ps := k.hub.ctxs.flatMap (fun c =>
    if c.2.vat = v ∧ c.2.die = d ∧ (c.2.state = .live) then
      (match k.model c.2.model with
        | some md => (c.2.pages.filter (fun p => p.bank = b && !p.opened && !k.affOn c.1 p)).map (fun p => (c.1, md, p))
        | none => [])
    else [])
  (orderBy (fun x => 2 ^ 16 - x.2.2.row) ps).findSome? (fun x =>
    match k.findRows x.2.1 lay v d b x.2.2.tier [], k.findGrans x.2.1 lay v d b [] with
    | some r, some g => if r < x.2.2.row then some (x.1, ⟨4, x.2.2⟩, r, g) else none
    | _, _ => none)

/-! ### Delivery (R484) -/

/-- Table 8.20: the record of a job. -/
def AffJob.bytes (j : AffJob) (slot : Nat) : List Byte :=
  leBytes 2 slot ++ leBytes 1 j.page.entry ++ leBytes 3 j.page.page ++ leBytes 2 j.row ++ leBytes 2 (j.gran / 2)
    ++ leBytes 1 (j.gran % 2) ++ List.replicate 21 0

/-- R403: the item word for a run of jobs on one bank. -/
def affItemWord (dd bank kind offset count : Nat) : Nat :=
  dd + bank * 2 ^ 2 + kind * 2 ^ 9 + offset % 2 ^ 13 * 2 ^ 17 + count % 2 ^ 8 * 2 ^ 30

/-- A packet of the hub's for a hub-peered IN hoop, which carries `jobs`, waiting to be pushed. -/
def Chip.feedPacket (k : Chip) (core hoop : Nat) (jobs : List AffJob) (es : List (BitVec 512)) : Chip :=
  let n := es.length
  let entry (i : Nat) (e : BitVec 512) : FeedEntry :=
    { core := core, hoop := hoop, first := i = 0, jobs := if i = 0 then jobs else []
      entry := { data := e, last := i + 1 = n, fence := false, poison := false, src := 5 } }
  k.onHub (fun h => { h with feed := h.feed ++ es.mapIdx entry })

/-- R597: a packet that a drain keeps back. -/
def Chip.feedHeld (k : Chip) (x : FeedEntry) : Bool := x.first && k.hub.drain.contains x.core

/-- R606, R597: an affinage job that a drain keeps in its packet. -/
def Chip.jobHeld (k : Chip) (j : AffJob) : Bool := k.hub.feed.any (fun x => k.feedHeld x && x.jobs.contains j)

/-- The entries that wait, without the packets whose jobs `want` picks; `cut` are the cores whose packet is being left out. -/
def dropPackets (want : List AffJob → Bool) : List Nat → List FeedEntry → List FeedEntry
  | _, [] => []
  | cut, x :: xs =>
    let gone := if x.first then want x.jobs else cut.contains x.core
    let cut := if gone then x.core :: cut else cut.filter (· ≠ x.core)
    if gone then dropPackets want cut xs else x :: dropPackets want cut xs

/-- R606: the packets that a drain keeps back and that name the context at index `i` are withdrawn with their jobs: a later review plans again what
is still due (R481). -/
def Chip.withdraw (k : Chip) (i : Nat) : Chip :=
  let out : List AffJob := (k.hub.feed.filter (fun x => k.feedHeld x && x.jobs.any (fun j => j.ctx = i))).flatMap (·.jobs)
  k.onHub (fun h => { h with
    feed := dropPackets (fun js => js.any out.contains) [] h.feed, affs := h.affs.filter (fun j => !out.contains j) })

/-- R418, R484: the hub's waiting entries are pushed, in order, into the hoops whose hub tail has room. -/
def Chip.feedHub (k : Chip) : Chip :=
  let step (a : Chip × List FeedEntry) (x : FeedEntry) : Chip × List FeedEntry :=
    let v := x.core / 4
    let c := x.core % 4
    if a.2.any (fun y => y.core = x.core && y.hoop = x.hoop) || a.1.hubFull v c x.hoop || !a.1.vatRuns v
      || a.1.feedHeld x then (a.1, a.2 ++ [x])
    else (a.1.landEntry v c x.hoop x.entry, a.2)
  let r := k.hub.feed.foldl step (k, [])
  r.1.onHub (fun h => { h with feed := r.2 })

/-- R484: jobs in runs of one bank and one routine, at most `burst` to a run, in the order planned. -/
def affItems (burst : Nat) : List AffJob → List (List AffJob)
  | [] => []
  | j :: js =>
    let rest := affItems burst js
    match rest.find? (fun r => r.any (fun x => x.page.bank = j.page.bank)) with
    | some r =>
      if r.length < burst ∧ r.all (fun x => x.kind = j.kind) then (j :: r) :: rest.filter (fun x => x ≠ r) else [j] :: rest
    | none => [j] :: rest

/-- R484: jobs of contexts homed on one die delivered to the core that owns it. -/
def Chip.deliver (k : Chip) (v d burst : Nat) (jobs : List AffJob) : Chip :=
  match k.poolCore v (ownerOf d) with
  | none => k
  | some pc =>
    let slotOf (i : Nat) : Nat := match k.ctx i with | some c => c.slot | none => 0
    let k := k.onHub (fun h => { h with affs := h.affs ++ jobs })
    let items := affItems (max 1 burst) jobs
    let pack (n : Nat) (r : List AffJob) : List (BitVec 512) :=
      match r with
      | [] => []
      | j :: _ =>
        let recs := r.flatMap (fun x => x.bytes (slotOf x.ctx))
        entryOfBytes (leBytes 8 (affItemWord (d % 4) j.page.bank j.kind (Config.affOffset k.now n) r.length))
          :: (List.range ((r.length + 1) / 2)).map (fun i => entryOfBytes ((recs.drop (64 * i)).take 64))
    ((items.zipIdx).foldl (fun k x => k.feedPacket pc.core pc.affHoop x.1 (pack x.2 x.1)) k).feedHub

/-- R475: a planned job given new rows and granules where its routine needs them; none where they are not to be had. -/
def Chip.prepare (k : Chip) (i : Nat) (c : Ctx) (md : Model) (lay : DieLayout) (made : List AffJob) (p : Planned) : Option AffJob :=
  if p.kind = 5 then some { ctx := i, kind := 5, page := p.page, row := 0, gran := 0 }
  else
    let more := made.map (fun j => (md, j.made))
    let tier := if p.kind = 3 then p.page.tier + 1 else p.page.tier
    match k.findRows md lay c.vat c.die p.page.bank tier more, k.findGrans md lay c.vat c.die p.page.bank more with
    | some r, some g => some { ctx := i, kind := p.kind, page := p.page, row := r, gran := g }
    | _, _ => none

/-- R487: the compaction of one bank, up to AFF_BURST jobs, and the jobs planned for it. -/
def Chip.compact (lay : DieLayout) (v d b run : Nat) : Nat → Chip → List AffJob → Chip × List AffJob
  | 0, k, js => (k, js)
  | n + 1, k, js =>
    if 2 * run ≤ longestRun lay.pageFirst lay.pageLast (k.takenRows v d b []) then (k, js)
    else match k.compactOne lay v d b with
    | none => (k, js)
    | some (i, p, r, g) =>
      let j : AffJob := { ctx := i, kind := 4, page := p.page, row := r, gran := g }
      Chip.compact lay v d b run n (k.deliver v d 1 [j]) (js ++ [j])

/-- R487: the compaction of the banks of a review. -/
def Chip.compactBanks (k : Chip) (lay : DieLayout) (v d run burst : Nat) (banks : List Nat) : Chip × List AffJob :=
  banks.foldl (fun a b =>
    if longestRun lay.pageFirst lay.pageLast (a.1.takenRows v d b []) < run then Chip.compact lay v d b run burst a.1 a.2 else a) (k, [])

/-- R506, R781: the jobs that a review plans for a mirrored context sent to its mirror, under the sequence number of the commit that held
the review; where the backlog has no room the context diverges. -/
def Chip.mirrorPlan (k : Chip) (i : Nat) (c : Ctx) (jobs : List AffJob) : Chip :=
  let mine := jobs.filter (fun j => j.ctx = i)
  if !c.mirrored ∨ c.diverged ∨ mine = [] ∨ (k.mirrorStops i c).isSome then k
  else
    let pkg := k.getF Reg.kwMirror 15 14
    let r := k.sendMirror pkg (c.handle i) c.mirrorSeq (.mirrorReview (c.hdr i c.mirrorSeq)
      (mine.map (fun j => { kind := j.kind, layer := j.page.layer, page := j.page.page })))
    if r.2 then r.1 else match k.ctx i with
      | some c => k.diverge i c pkg
      | none => k

/-- R488, R490: the ledger words at place `n` of their layer belong to a page of the range; page numbers wrap at 2^24 (R505). -/
def Ctx.inLedger (c : Ctx) (mass n : Nat) : Bool :=
  let span := c.spanTo c.tail
  let upTo (o s : Nat) : Bool := decide ((n + mass - o % mass) % mass ≤ s)
  if c.oldest + span < 2 ^ 24 then upTo c.oldest span else upTo c.oldest (2 ^ 24 - 1 - c.oldest) || upTo 0 (c.oldest + span - 2 ^ 24)

/-- R481 to R487, R490, R495, R506: the review of a context whose tail has just moved. -/
def Mach.review (m : Mach) (i : Nat) (c : Ctx) (md : Model) : Mach :=
  match m.k.layout c.vat c.die with
  | none => m
  | some lay =>
    let mass := m.k.massPages c.model
    let (ledger, _, m) := match m.k.ledgerOf md c.model c.vat c.die c.slot with
      | some (p, n) => m.hubRead c.vat p n
      | none => ([], false, m)
    let plan := m.k.plan i c md ledger
    let jobs := plan.foldl (fun js p => match m.k.prepare i c md lay js p with | some j => js ++ [j] | none => js) []
    -- R490: the ledger words of the range go to zero
    let inRange (n : Nat) : Bool := c.inLedger mass n
    let zeroed := ledger.mapIdx (fun o b => if inRange (o / 2 % mass) then 0 else b)
    let m := match m.k.ledgerOf md c.model c.vat c.die c.slot with
      | some (p, _) => m.hubWrite c.vat p zeroed
      | none => m
    let burst := m.k.getF (Reg.affBounds c.model) 31 24
    let k := m.k.deliver c.vat c.die burst jobs
    let run := k.getF (Reg.compactCfg c.model) 7 0
    let r := k.compactBanks lay c.vat c.die run (max 1 burst) (c.pages.map (·.bank)).eraseDups
    let k := r.1
    let k := if c.sampled ∧ c.shadowOk ∧ 0 < md.layers then
        let l := c.tail % md.layers
        k.setCtx i { c with sample := some (l, bankOf c.rot l c.oldest) }
      else k
    { m with k := k.mirrorPlan i c (jobs ++ r.2) }

/-! ### The end of a job (R485) -/

/-- A context's record of a page replaced. -/
def Ctx.setPage (c : Ctx) (p : PageRec) (q : Option PageRec) : Ctx :=
  { c with pages := c.pages.filterMap (fun x => if x.layer = p.layer ∧ x.page = p.page then q else some x) }

/-- R485: what the hub does with a job's final STATUS. -/
def Mach.affResult (m : Mach) (j : AffJob) (status : JobStatus) : Mach :=
  match m.k.ctx j.ctx with
  | none => m
  | some c =>
    match status with
    | .done => m.onChip (fun k => k.setCtx j.ctx (c.setPage j.page (if j.kind = 5 then none else some j.made)))
    | .stale => m
    | .range => m
    | .badTier =>
      match m.k.layout c.vat c.die with
      | none => m
      | some lay =>
        let (bs, _, m) := m.bankRead c.vat c.die j.page.bank (indexAt lay.pidx c.slot + 8 * j.page.entry) 8
        let e := pageIdx (leNat bs)
        m.onChip (fun k => k.setCtx j.ctx (c.setPage j.page (if e.valid ∧ e.page = j.page.page then
          some { j.page with tier := e.tier, opened := e.opened, row := e.row, gran := 2 * e.scaleRow + e.half } else none)))
    | .dataError =>
      -- R486, R507: a context that is not LIVE, and a mirror's copy, has no job planned
      if c.state = .live then m.onChip (fun k => k.deliver c.vat c.die 1 [{ ctx := j.ctx, kind := 5, page := j.page, row := 0, gran := 0 }])
      else m

/-- AFFINAGE_JOB_RESULT: job `n`, in delivery order, ends with a STATUS of Table 8.20. -/
def execAffinageJobResult (n : Nat) (status : JobStatus) (s : State) : Host.Outcome State Fault Refusal :=
  s.onTurn true (fun m =>
    match m.k.hub.affs[n]? with
    | none => m
    | some j =>
      ((({ m with k := m.k.onHub (fun h => { h with affs := h.affs.eraseIdx n }) } : Mach).affResult j status).payOwed j.ctx).onChip
        Chip.feedHub)

/-! ### Live calibration's controller (R501 to R504) -/

/-- R504: a home die of a model's pool has a CALIBRATING spare serving the model's domain. -/
def Chip.calSpare (k : Chip) (md : Model) : Bool :=
  match k.pool md.pool with
  | none => false
  | some q => (k.poolDies md).any (fun x => (List.range 4).any (fun i =>
      (k.die x.1 x.2).spare i = .calibrating && (k.die x.1 x.2).spareDomain.getD i 0 = q.domain))

/-- R504: a model's controller is FROZEN. -/
def Chip.calFrozen (k : Chip) (md : Model) : Bool := !k.flag Reg.ctxCfg 5 || !k.calSpare md

/-- The key of a class's counts: S6 1, S4 2, CULL 3. -/
def calKey (model cls : Nat) : Nat := 4 * model + cls

/-- R504: the counts of every frozen controller go to zero. -/
def Chip.freezeCal (k : Chip) : Chip :=
  k.onHub (fun h => { h with cal := h.cal.filter (fun x => match k.model (x.1 / 4) with
    | some md => !k.calFrozen md
    | none => false) })

/-- A value brought between two bounds. -/
def clip (l h x : Nat) : Nat := max l (min h x)

/-- R503: a model's values in force brought within its bounds, A4 above A6. -/
def Chip.clipAges (k : Chip) (model : Nat) : Chip :=
  let o := Reg.affAge model
  let lo := k.getF (Reg.affBounds model) 7 0
  let hi := k.getF (Reg.affBounds model) 15 8
  let a6 := clip lo (hi - 1) (k.getF o 7 0)
  let a4 := clip (a6 + 1) hi (k.getF o 15 8)
  let cm := clip (k.getF (Reg.cullBounds model) 15 0) (k.getF (Reg.cullBounds model) 31 16) (k.getF o 31 16)
  ((k.setF o 7 0 a6).setF o 15 8 a4).setF o 31 16 cm

/-- Table 10.6, R503: one action of a class. -/
def Chip.calAct (k : Chip) (model cls : Nat) (tighten : Bool) : Chip :=
  let o := Reg.affAge model
  let b := Reg.affBounds model
  let step := k.getF b 23 16
  let lo := k.getF b 7 0
  let hi := k.getF b 15 8
  let a6 := k.getF o 7 0
  let a4 := k.getF o 15 8
  let cm := k.getF o 31 16
  let (a6', a4', cm') :=
    match cls, tighten with
    | 1, true => let x := clip lo (hi - 1) (a6 + step); (x, clip lo hi (max a4 (x + 1)), cm)
    | 1, false => (clip lo hi (a6 - step), a4, cm)
    | 2, true => (a6, clip lo hi (a4 + step), cm)
    | 2, false => (a6, clip lo hi (max (a4 - step) (a6 + 1)), cm)
    | _, true => (a6, a4, clip (k.getF (Reg.cullBounds model) 15 0) (k.getF (Reg.cullBounds model) 31 16) (cm / 2))
    | _, false => (a6, a4, clip (k.getF (Reg.cullBounds model) 15 0) (k.getF (Reg.cullBounds model) 31 16) (cm + (cm + 3) / 4))
  let k := (((k.setF o 7 0 a6').setF o 15 8 a4').setF o 31 16 cm').clipAges model
  let c := Reg.calState model
  (k.setF c 25 24 cls).wrapAdd c 23 16 1

/-- R501, R502: a comparison of class S6, S4 or CULL with STATUS OK is counted, and the controller acts when N reaches CAL_N. -/
def Chip.calCount (k : Chip) (model cls : Nat) (above : Bool) : Chip :=
  let key := calKey model cls
  let x := lookup { n := 0, e := 0 } k.hub.cal key
  let x : CalCount := { n := x.n + 1, e := x.e + (if above then 1 else 0) }
  let put (k : Chip) (x : CalCount) : Chip := k.onHub (fun h => { h with cal := insert h.cal key x })
  let o := Reg.calCfg model
  if x.n < 16 * k.getF o 23 16 then put k x
  else
    let k := put k { n := 0, e := 0 }
    if x.n < x.e * 2 ^ k.getF o 27 24 then k.calAct model cls true
    else if x.e * 2 ^ k.getF o 31 28 < x.n then k.calAct model cls false
    else k

/-- CAL_COMPARISON: the hub receives a comparison record of Table 10.5. -/
def execCalComparison (record : BitVec 512) (s : State) : Host.Outcome State Fault Refusal :=
  s.onChip true (fun k =>
    let bs := entryBytes record
    match k.hub.ctxs.find? (fun c => c.2.handle c.1 = recField bs 0 4) with
    | none => k
    | some c =>
      match k.model c.2.model with
      | none => k
      | some md =>
        let k := k.count (Reg.calRecords c.2.model) 1
        let cls := recField bs 10 11 % 4
        if k.calFrozen md then k.freezeCal
        else if recField bs 11 12 ≠ 0 ∨ cls = 0 then k
        else
          let t := k.getF (Reg.calCfg c.2.model) 15 0
          k.calCount c.2.model cls (decide (t < recField bs 12 14) || decide (t < recField bs 14 16)))

/-! ### Migration (R509 to R511) -/

/-- Column words of the bank of a logical index read by the hub, row by row. -/
def Mach.wordsAt (m : Mach) (v d a o n : Nat) : List WordRead × Mach :=
  let b := m.k.phys v d a
  (rowSpans o n).foldl (fun r x =>
    let ws := (List.range (x.2 / 32)).map (fun i => m.dr.word (bankByte v d b (x.1 + 32 * i)))
    (r.1 ++ ws, (r.2.rowRead v d a x.1 x.2).2.2)) ([], m)

/-- Column words stored in the bank of a logical index by the hub, row by row, marked words staying marked. -/
def Mach.putWords (m : Mach) (v d a o : Nat) (ws : List WordRead) : Mach :=
  (rowSpans o (32 * ws.length)).foldl (fun m x =>
    let m := m.rowWrite v d a x.1 ((ws.flatMap (·.bytes)).drop (x.1 - o) |>.take x.2)
    (List.range (x.2 / 32)).foldl (fun m i =>
      let at_ := x.1 + 32 * i
      match ws[(at_ - o) / 32]? with
      | some w => if w.res.bad then
          { m with dr := (m.k.writePlaces v d a (at_ / 1024)).foldl (fun dr b => dr.putMarked (bankByte v d b at_) w.bytes) m.dr } else m
      | none => m) m) m

/-- One page copied to its new place, by row slots of the hub (R165, R173). -/
def Mach.copyPage (m : Mach) (md : Model) (v d v' d' : Nat) (p q : PageRec) : Mach :=
  let move (m : Mach) (o o' n : Nat) : Mach :=
    let r := m.wordsAt v d p.bank o n
    r.2.putWords v' d' q.bank o' r.1
  move (move m (1024 * p.row) (1024 * q.row) (pageBytes p.tier md.width)) (512 * p.gran) (512 * q.gran) (scaleBytes md.width)

/-- R714: a page whose bank unit is held failed is not copied. -/
def Chip.pageLost (k : Chip) (v d : Nat) (p : PageRec) : Bool := k.flag (Reg.buEccState v d (k.phys v d p.bank)) 1

/-- R714: the pages of a context that a failover copies. -/
def Chip.keptPages (k : Chip) (c : Ctx) : List PageRec := c.pages.filter (fun p => !k.pageLost c.vat c.die p)

/-- R509: places on a die for pages, tiers and page numbers unchanged. -/
def Chip.placeAll (k : Chip) (md : Model) (lay : DieLayout) (v d rot : Nat) (have_ : List PageRec) (ps : List PageRec) :
    Option (List PageRec) :=
  ps.foldl (fun acc p =>
    match acc with
    | none => none
    | some qs =>
      match k.fitPage md lay v d (bankOf rot p.layer p.page) (have_ ++ qs) p.layer p.page p.tier p.opened with
      | some q => some (qs ++ [q])
      | none => none) (some [])

/-- The bytes of a page with its scales. -/
def PageRec.bytes (md : Model) (p : PageRec) : Nat := pageBytes p.tier md.width + scaleBytes md.width

/-- R718, R714, R721: migrations of contexts that a vat's failures drive away. -/
def Chip.failMigrations (k : Chip) (v : Nat) : Nat :=
  (k.hub.ctxs.filter (fun c => c.2.vat = v && c.2.migration.isSome && k.dieShut c.2.vat c.2.die)).length

/-- R509: the hub begins to move the context at index `i` to a home; `keep` are the pages that go with it. A copy held for a peer, which
R606 moves too, stays STANDBY. -/
def Mach.startMigration (m : Mach) (V i : Nat) (c : Ctx) (md : Model) (h : Home) (keep : List PageRec) : Mach :=
  let m := (keep.zip h.pages).foldl (fun m x => m.copyPage md c.vat c.die h.v h.d x.1 x.2) m
  let m := m.putIndexes h.v h.d h.slot h.pages true
  m.setCtx V i { c with
    state := if c.state = .standby then .standby else .migrating
    migration := some { since := m.k.now, vat := h.v, die := h.d, slot := h.slot, rot := h.rot, pages := h.pages
                        bytes := (keep.map (PageRec.bytes md)).sum } }

/-- R509, R606, R714, R719: a context may begin to move now; one whose pages are on offer to a peer stays (R785). -/
def Chip.mayMigrate (k : Chip) (c : Ctx) : Bool :=
  let limited := k.dieShut c.vat c.die && decide (k.getF Reg.failPolicy 11 8 ≤ k.failMigrations c.vat)
  (c.state = .live || c.state = .standby) && c.spill ≠ .offered && c.migration.isNone && !(k.vat c.vat).lost && !limited

/-- R510: the pages of a migration brought up to the context as it stands: those gone freed, those new placed, in the die's areas as
`narrow` leaves them. -/
def Mach.catchUp (m : Mach) (c : Ctx) (md : Model) (g : Migration) (narrow : DieLayout → DieLayout) :
    Option (Mach × List PageRec × List (PageRec × PageRec)) :=
  let same (p q : PageRec) : Bool := p.layer = q.layer && p.page = q.page
  let keep := m.k.keptPages c
  let old := g.pages.filter (fun q => keep.any (fun p => same p q && p.tier = q.tier))
  let gone := g.pages.filter (fun q => !keep.any (fun p => same p q && p.tier = q.tier))
  let fresh := keep.filter (fun p => !old.any (fun q => same p q))
  match m.k.layout g.vat g.die with
  | none => none
  | some lay =>
    match m.k.placeAll md (narrow lay) g.vat g.die g.rot old fresh with
    | none => none
    | some new =>
      let m := m.putIndexes g.vat g.die g.slot gone false
      let pages := old ++ new
      let fix (p q : PageRec) : PageRec := { q with opened := p.opened }
      let pairs := keep.filterMap (fun p => (pages.find? (same p)).map (fun q => (p, fix p q)))
      some (m, pairs.map (·.2), pairs)

end Sys2Proof.Machine
end

