-- ==== Sys2Proof/Machine/Bounds.lean ====
section
/-!
DEFINITION. Admission's arithmetic (R589 to R592, Tables 12.10 and 12.11): step quantities, latency bounds, and the loads of cores and
vats; and the classes' bounds and states after a failure (R720).
-/

namespace Sys2Proof.Machine

/-- Table 5.9: the cost of PAGES_PER_BANK sealed S8 pages of the model, which no tier exceeds, met by one entry. -/
def Model.waveCycles (m : Model) : Nat :=
  let hq := m.hkv * m.g
  74 + m.pagesPerBank * (2 * hq * m.dim + 6 * hq) + (2 * hq * m.dim / 32 + hq * (32 + m.dim) / 32)

/-- Table 8.19: the cost of RIPEN for a page of the model. -/
def Model.ripenCycles (m : Model) : Nat := 8 * (2 * m.width) + 74

/-- Table 12.11: a model's step quantities, in nanoseconds. -/
structure StepTimes where
  press : Nat
  vec   : Nat
  wt    : Nat
  wave  : Nat
  aff   : Nat
  layer : Nat
  step  : Nat
  openT : Nat
deriving DecidableEq, Repr

/-- R589: PRESS_LIMIT_FLOOR. -/
def Chip.pressFloor (k : Chip) : Nat := k.getF Reg.pwrPolicy 4 0

/-- Table 12.11. -/
def Chip.stepTimes (k : Chip) (lanes128 : Bool) (i : Nat) (m : Model) (gbps : Nat) : StepTimes :=
  let press := ceilDiv (m.press * 160) (k.pressFloor * 14)
  let vec := ceilDiv ((if lanes128 then m.vec128 else m.vec64) * 10) 14
  let wt := ceilDiv ((m.wbLayer - m.spillLayer) * 10 * gbps + m.spillLayer * 3584) (3584 * gbps)
  let wave := 2 * m.waveCycles
  let aff := k.getF (Reg.affBounds i) 31 24 * (2 * m.ripenCycles)
  let layer := max press (max vec wt) + (m.waves + 1) * wave + aff
  let step := m.layers * layer
  { press := press, vec := vec, wt := wt, wave := wave, aff := aff, layer := layer, step := step, openT := ceilDiv step m.pipe }

/-- The load that an enabled class declares, with its model. -/
structure ClassPlan where
  cls   : Nat
  load  : ClassLoad
  index : Nat
  model : Model
  pool  : Pool

/-- Table 11.9: a class is enabled. -/
def Chip.classOn (k : Chip) (c : Nat) : Bool := k.flag (Reg.classCfg c) 31

/-- Table 11.9: the model of a class. -/
def Chip.classModel (k : Chip) (c : Nat) : Nat := k.getF (Reg.classParse c) 31 28

/-- An enabled class's plan, where its CLASS section, its model and its pool stand. -/
def Chip.classPlan (k : Chip) (c : Nat) : Option ClassPlan :=
  if !k.classOn c then none
  else match k.hub.classes.find? (fun x => x.1 = c), k.model (k.classModel c) with
    | some l, some m => (k.pool m.pool).map (fun p => { cls := c, load := l.2, index := k.classModel c, model := m, pool := p })
    | _, _ => none

/-- Every enabled class's plan, in ascending order. -/
def Chip.classPlans (k : Chip) : List ClassPlan := (List.range 16).filterMap k.classPlan

/-- The vats of a pool. -/
def Pool.vats (p : Pool) : List Nat := (p.cores.map (fun c => c.core / 4)).eraseDups

/-- R591: T_wake. -/
def Chip.wakeTime (k : Chip) (p : Pool) : Nat :=
  if p.vats.all (fun v => k.flag Reg.pwrWarm v) then 0 else 3000

/-- R591: the latency bound of a class. -/
def Chip.boundOf (k : Chip) (lanes128 : Bool) (x : ClassPlan) : Nat :=
  let t := k.stepTimes lanes128 x.index x.model x.pool.spillGbps
  let n := ceilDiv x.load.nMax x.model.tps
  let hub := 1530 + ceilDiv x.load.nMax 16
  let mig := if x.load.migrate then
    1000 + ceilDiv (x.model.layers * (pageBytes 0 x.model.width + scaleBytes x.model.width)) 32 else 0
  hub + n * t.openT + t.step + 1000 + k.wakeTime x.pool + mig + (x.load.depth - 1) * (n * t.openT + t.step)

/-- Table 12.10, code 0x04: 256 × cores × the tokens per second that a core of a model's pool must serve. -/
def Chip.tokenLoad (k : Chip) (model : Nat) : Nat :=
  ((k.classPlans.filter (fun x => x.index = model)).map (fun x => x.load.rate * x.load.nMax * x.load.skew)).sum

/-- Table 12.10, code 0x04: what is needed, rounded up, and what is had, rounded down, where a core of the model falls short. -/
def Chip.tokensShort (k : Chip) (lanes128 : Bool) (i : Nat) (m : Model) (p : Pool) : Option (Nat × Nat) :=
  let n := 256 * p.cores.length
  let t := (k.stepTimes lanes128 i m p.spillGbps).openT
  let need := k.tokenLoad i
  if need * t ≤ m.batch * 10 ^ 9 * n then none
  else some (ceilDiv need n, m.batch * 10 ^ 9 / t)

/-- Table 12.10, code 0x07: the bytes per second that a vat's cores need of its TSV channels. -/
def Chip.tsvLoad (k : Chip) (lanes128 : Bool) (v : Nat) : Nat :=
  (k.hub.models.map (fun m => match k.pool m.2.pool with
    | some p =>
      let t := (k.stepTimes lanes128 m.1 m.2 p.spillGbps).openT
      let cores := (p.cores.filter (fun c => c.core / 4 = v)).length
      cores * (ceilDiv (m.2.layers * m.2.wbLayer * 10 ^ 9) t + m.2.attnToken * ceilDiv (k.tokenLoad m.1) (256 * p.cores.length))
    | none => 0)).sum

/-- R720: the chip without the cores that have been retired or lie in lost vats. -/
def Chip.withoutLost (k : Chip) : Chip :=
  let gone (c : Nat) : Bool := k.flag Reg.failState c || (k.vat (c / 4)).lost
  k.onHub (fun h => { h with pools := h.pools.map (fun p => (p.1, { p.2 with cores := p.2.cores.filter (fun c => !gone c.core) })) })

/-- R714, R720: the dies of a pool that are not degraded. -/
def Chip.openDies (k : Chip) (p : Pool) : List (Nat × Nat) :=
  (p.cores.flatMap (fun c => (List.range 4).map (fun i => (c.core / 4, 4 * (c.core % 4) + i)))).filter (fun d => !k.dieShut d.1 d.2)

/-- R720: the state of a class: NORMAL, DEGRADED or UNCOVERED by its bound. A class without a core left has none (DEDUCED, log entry 70). -/
def Chip.stateOf (k : Chip) (x : ClassPlan) (bound : Nat) : Nat :=
  let slow := k.getF (Reg.classDegradedNs x.cls) 26 0
  if x.pool.cores.isEmpty then 2
  else if bound ≤ k.getF (Reg.classCfg x.cls) 26 0 then 0
  else if slow ≠ 0 ∧ bound ≤ slow then 1
  else 2

/-- R720: admission run again after a failure: each enabled class's CLASS_BOUND and CLASS_STATE, every change of state logged. -/
def Chip.rebound (k : Chip) (lanes128 : Bool) : Chip :=
  let left := k.withoutLost
  left.classPlans.foldl (fun k x =>
    let b := left.boundOf lanes128 x
    let st := left.stateOf x b
    let old := k.getF (Reg.classState x.cls) 1 0
    let k := (k.setF (Reg.classBound x.cls) 31 0 b).setF (Reg.classState x.cls) 1 0 st
    if st = old then k else k.logPlain 0x28 (x.cls + 256 * st)) k

/-- R714, R720: a die is marked degraded. -/
def Chip.degradeDie (k : Chip) (lanes128 : Bool) (v d : Nat) : Chip := (k.raise (Reg.vatStatus v) d).rebound lanes128

end Sys2Proof.Machine
end

