-- ==== Sys2Proof/Machine/FlowEngine.lean ====
section
/-!
DEFINITION. The flow engine (R522 to R527, R533 to R535; Tables 11.2 to 11.4): a packet's parts, its flow key and its tokens.
-/

namespace Sys2Proof.Machine

/-- A 16-bit field in wire order. -/
def be16 (bs : List Byte) (o : Nat) : Nat := (bs.getD o 0).toNat * 256 + (bs.getD (o + 1) 0).toNat

/-- Table 11.8: the statuses that a parse gives. -/
inductive ParseErr where
  | l2 | l3 | truncated | frag | extHdr
deriving DecidableEq, Repr

/-- Their codes. -/
def ParseErr.code : ParseErr → Nat
  | .l2 => 0x11 | .l3 => 0x12 | .truncated => 0x13 | .frag => 0x14 | .extHdr => 0x15

/-- What parsing finds: the IP version, the protocol, the VLAN, the addresses in wire order, the ports, the TCP flags, and the
payload. -/
structure Packet where
  v6      : Bool
  proto   : Nat
  vlan    : Nat
  src     : List Byte
  dst     : List Byte
  ports   : Option (Nat × Nat)
  tcp     : Option Nat
  payload : List Byte
deriving DecidableEq, Repr

/-- The transport of an IP packet: `bs` is the packet from its transport header to its end (R522, R524). -/
def parseTransport (p : Packet) (bs : List Byte) : Except ParseErr Packet :=
  if p.proto = 6 then
    let off := 4 * (byteAt bs 12 / 16)
    if bs.length < 20 ∨ off < 20 ∨ bs.length < off then .error .truncated
    else .ok { p with ports := some (be16 bs 0, be16 bs 2), tcp := some (byteAt bs 13), payload := bs.drop off }
  else if p.proto = 17 then
    if bs.length < 8 then .error .truncated
    else .ok { p with ports := some (be16 bs 0, be16 bs 2), payload := (bs.take (be16 bs 4)).drop 8 }
  else .ok p

/-- IPv6 extension headers (Table 11.2), `n` already met: `bs` runs from the next header to the packet's end. -/
def parseExt (p : Packet) : Nat → Nat → Nat → List Byte → Except ParseErr Packet
  | 0, _, _, _ => .error .extHdr
  | fuel + 1, n, next, bs =>
    if [0, 43, 44, 51, 60, 135, 139, 140].contains next then
      if 8 ≤ n then .error .extHdr
      else
        let len := if next = 44 then 8 else if next = 51 then 4 * (byteAt bs 1 + 2) else 8 * (byteAt bs 1 + 1)
        if next = 44 ∧ 4 ≤ bs.length ∧ be16 bs 2 / 8 ≠ 0 then .error .frag
        else if bs.length < 8 ∨ bs.length < len then .error .truncated
        else parseExt p fuel (n + 1) (byteAt bs 0) (bs.drop len)
    else parseTransport { p with proto := next } bs

/-- IPv4 (RFC 791) as Table 11.2 takes it. -/
def parseV4 (vlan : Nat) (bs : List Byte) : Except ParseErr Packet :=
  let ihl := 4 * (byteAt bs 0 % 16)
  let total := be16 bs 2
  if bs = [] then .error .truncated
  else if byteAt bs 0 / 16 ≠ 4 ∨ ihl < 20 then .error .l3
  else if bs.length < 4 ∨ bs.length < total then .error .truncated
  else if 8 ≤ bs.length ∧ be16 bs 6 % 2 ^ 13 ≠ 0 then .error .frag
  else if total < ihl then .error .truncated
  else parseTransport
    { v6 := false, proto := byteAt bs 9, vlan := vlan, src := (bs.drop 12).take 4, dst := (bs.drop 16).take 4, ports := none
      tcp := none, payload := [] } ((bs.take total).drop ihl)

/-- IPv6 (RFC 8200) as Table 11.2 takes it. -/
def parseV6 (vlan : Nat) (bs : List Byte) : Except ParseErr Packet :=
  let total := 40 + be16 bs 4
  if bs = [] then .error .truncated
  else if byteAt bs 0 / 16 ≠ 6 then .error .l3
  else if bs.length < 40 ∨ bs.length < total then .error .truncated
  else parseExt
    { v6 := true, proto := 0, vlan := vlan, src := (bs.drop 8).take 16, dst := (bs.drop 24).take 16, ports := none
      tcp := none, payload := [] } 9 0 (byteAt bs 6) ((bs.take total).drop 40)

/-- The IP packet of an EtherType. -/
def parseIp (vlan etherType : Nat) (bs : List Byte) : Except ParseErr Packet :=
  if etherType = 0x0800 then parseV4 vlan bs
  else if etherType = 0x86DD then parseV6 vlan bs
  else .error .l2

/-- R522: a PACKET record's data. -/
def parsePacket (l3Start : Bool) (bs : List Byte) : Except ParseErr Packet :=
  if l3Start then
    let v := byteAt bs 0 / 16
    if v = 4 then parseV4 0 bs else if v = 6 then parseV6 0 bs else .error .l3
  else if bs.length < 14 then .error .truncated
  else if be16 bs 12 = 0x8100 then
    if bs.length < 18 then .error .truncated else parseIp (be16 bs 14 % 2 ^ 12) (be16 bs 16) (bs.drop 18)
  else parseIp 0 (be16 bs 12) (bs.drop 14)

/-! ### The flow key (R526, R527, Table 11.3) -/

/-- The number that bytes spell in wire order. -/
def wireNat (bs : List Byte) : Nat := bs.foldl (fun n b => n * 256 + b.toNat) 0

/-- R527: endpoint A is the source. -/
def Packet.srcIsA (p : Packet) (symmetric : Bool) : Bool :=
  let (s, d) := p.ports.getD (0, 0)
  !symmetric || wireNat p.src < wireNat p.dst || (wireNat p.src = wireNat p.dst && s ≤ d)

/-- R526: the flow key; `fields` is KEY_FIELDS: bit 0 VLAN, 1 PROTO, 2 the addresses, 3 the ports. -/
def Packet.key (p : Packet) (symmetric : Bool) (fields : Nat) : List Byte :=
  let a := p.srcIsA symmetric
  let (s, d) := p.ports.getD (0, 0)
  let on (i : Nat) (bs : List Byte) : List Byte := if fields.testBit i then bs else bs.map (fun _ => 0)
  let pick (x y : List Byte) : List Byte := if a then x ++ y else y ++ x
  leBytes 1 (if p.v6 then 0x06 else 0x04) ++ on 1 (leBytes 1 p.proto) ++ on 0 (leBytes 2 p.vlan)
    ++ on 2 (pick p.src p.dst) ++ on 3 (pick (leBytes 2 s) (leBytes 2 d))

/-- R526: the key of a FILE_CHUNK, and of a CLOSE that names FILE_ID. -/
def fileKey (id : List Byte) : List Byte := leBytes 1 0x0F ++ leBytes 3 0 ++ id.take 16

/-! ### Tokens (R533 to R535, Table 11.4) -/

/-- TCP flag bits. -/
def tcpFin (f : Nat) : Bool := f.testBit 0
def tcpSyn (f : Nat) : Bool := f.testBit 1
def tcpRst (f : Nat) : Bool := f.testBit 2
def tcpAck (f : Nat) : Bool := f.testBit 4

/-- Table 11.4: F. -/
def Packet.flagsField (p : Packet) : Nat :=
  match p.tcp with
  | none => 0
  | some f => if tcpRst f then 3 else if tcpSyn f then 1 else if tcpFin f then 2 else 4

/-- Table 11.4: Z, of a payload length. -/
def sizeField (n : Nat) : Nat := if n = 0 then 0 else min 15 (1 + Nat.log2 n)

/-- Table 11.4: G, of a gap in ns. -/
def gapField (g : Nat) : Nat := if g < 256 then 0 else min 23 (1 + Nat.log2 (g / 256))

/-- R535: the summary token. -/
def summaryToken (dir f z g : Nat) : Nat := 256 + 1920 * dir + 384 * f + 24 * z + g

end Sys2Proof.Machine
end

