-- ==== Sys2Proof/Machine/Jobs.lean ====
section
/-!
DEFINITION. Records, jobs and verdicts (spec/11_jobs_and_verdicts.md): acceptance, lookup, tokens, dispatch, commit, close, abort,
and the rings.
-/

namespace Sys2Proof.Machine

/-! ### Records (Table 11.1) -/

/-- Table 11.1: a record's header. -/
structure RecHdr where
  type      : Nat
  cls       : Nat
  len       : Nat
  l3Start   : Bool
  useHandle : Bool
  final     : Bool
  noCreate  : Bool
  cookie    : Nat
  handle    : Nat
  fileId    : List Byte
  clean     : Bool

/-- The header in 64 bytes. -/
def recHdr (bs : List Byte) : RecHdr :=
  let b (i : Nat) : Nat := byteAt bs i
  { type := b 0 % 16, cls := b 1 % 16, len := recField bs 2 4, l3Start := (b 4).testBit 0, useHandle := (b 4).testBit 1
    final := (b 4).testBit 2, noCreate := (b 4).testBit 3, cookie := recField bs 8 16, handle := recField bs 16 20
    fileId := (bs.drop 20).take 16
    clean := b 0 / 16 = 0 && b 1 / 16 = 0 && b 4 / 16 = 0 && zeroBytes bs 5 8 && zeroBytes bs 36 64 }

/-- R514, R516: a TYPE of Table 11.1 with a DATA_LEN in its range. -/
def RecHdr.formed (h : RecHdr) : Bool :=
  match h.type with
  | 0 => 1 ≤ h.len && h.len ≤ 16384
  | 1 => 1 ≤ h.len && h.len ≤ 4096
  | 2 => h.len = 0
  | 15 => h.len = 0
  | _ => false

/-! ### Class settings -/

/-- R428: the hub is READY and serves. -/
def Chip.serving (k : Chip) : Bool := k.flag Reg.bootStatus 31 && !k.hub.stopped

/-- R528: the domain that a class gives. -/
def Chip.classDomain (k : Chip) (c : Nat) : Nat :=
  match (k.model (k.classModel c)).bind (fun m => k.pool m.pool) with
  | some q => q.domain
  | none => 0

/-- R541, R720: the deadline that a class gives now. -/
def Chip.classDeadline (k : Chip) (c : Nat) : Nat :=
  if k.getF (Reg.classState c) 1 0 = 1 then k.getF (Reg.classDegradedNs c) 31 0 else k.getF (Reg.classCfg c) 26 0

/-- R804: since the last reset, a package reset, a core of the pool of a class's model has had no PROGRAM section. -/
def Chip.classIdle804 (k : Chip) (c : Nat) : Bool :=
  k.getF Reg.bootStatus 2 0 ≠ 1 && match (k.model (k.classModel c)).bind (fun m => k.pool m.pool) with
  | some q => q.cores.any (fun x => !k.hub.programmed.contains x.core)
  | none => false

/-! ### Tags and jobs (R519) -/

def Chip.job (k : Chip) (t : Nat) : Option Job := (k.hub.jobs.find? (fun j => j.1 = t)).map (·.2)
def Chip.setJob (k : Chip) (t : Nat) (j : Job) : Chip := k.onHub (fun h => { h with jobs := insert h.jobs t j })

/-- R519, R520: the tag that the next record takes. -/
def Chip.nextTag (k : Chip) : Option Nat := if k.hub.nextTag < 65536 then some k.hub.nextTag else k.hub.freeTags.head?

/-- R519: that tag taken. -/
def Chip.takeTag (k : Chip) : Chip :=
  k.onHub (fun h => if h.nextTag < 65536 then { h with nextTag := h.nextTag + 1 } else { h with freeTags := h.freeTags.drop 1 })

/-- R519: a tag returned, its job gone. -/
def Chip.freeTag (k : Chip) (t : Nat) : Chip :=
  k.onHub (fun h => { h with jobs := erase h.jobs t, freeTags := h.freeTags ++ [t] })

/-! ### Completion records (R544, R558 to R562, Table 11.7) -/

/-- R544, R551, R791, Table 11.7: a job's completion record, with a tag and a PHASE, written at a time; a forwarded job's has the fields other
than these and LATENCY as the peer wrote them. -/
def Job.record (j : Job) (tag phase now : Nat) (o : Outcome) : List Byte :=
  let b (x : Bool) (n : Nat) : Nat := if x then 2 ^ n else 0
  if j.raw ≠ [] then
    leBytes 2 tag ++ (j.raw.drop 2).take 1 ++ leBytes 1 (byteAt j.raw 3 % 128 + phase * 128) ++ (j.raw.drop 4).take 20
      ++ leBytes 4 (min (2 ^ 32 - 1) (now - j.accept)) ++ (j.raw.drop 28).take 4
  else
  leBytes 2 tag ++ leBytes 1 o.status ++ leBytes 1 (j.cls + phase * 128) ++ leBytes 4 j.handle ++ leBytes 8 j.cookie
    ++ leBytes 8 o.verdict ++ leBytes 4 (min (2 ^ 32 - 1) (now - j.accept)) ++ leBytes 2 o.tokens
    ++ leBytes 1 (b (j.deadline < now) 0 + b j.isNew 1 + b j.late 2 + b o.closed 3) ++ leBytes 1 0

/-- R544, R791: a job's record, written at a time, carries LATE. -/
def Job.isLate (j : Job) (now : Nat) : Bool := if j.raw ≠ [] then (byteAt j.raw 30).testBit 0 else j.deadline < now

/-- R544: the counters of a job whose record is written. -/
def Chip.countJob (k : Chip) (j : Job) (o : Outcome) : Chip :=
  let k := k.count (Reg.classJobs j.cls) 1
  let k := if j.isLate k.now then k.count (Reg.classLate j.cls) 1 else k
  let k := if o.status = 0x30 then k.count (Reg.classDropped j.cls) 1 else k
  k.satMax (Reg.classLatMax j.cls) 31 0 (k.now - j.accept)

/-! ### Verdict rings -/

def Chip.vring (k : Chip) (c : Nat) : VRing := lookup VRing.empty k.hub.vrings c
def Chip.setVring (k : Chip) (c : Nat) (r : VRing) : Chip := k.onHub (fun h => { h with vrings := insert h.vrings c r })

/-- R553: the records of ring `c`. -/
def Chip.vringSize (k : Chip) (c : Nat) : Nat := 2 ^ k.getF (Reg.vringCfg c) 4 0

/-- R557: ring `c` has no room. -/
def Chip.vringFull (k : Chip) (c : Nat) : Bool :=
  (k.getF (Reg.vringWi c) 15 0 + 1) % k.vringSize c = k.getF (Reg.vringCi c) 15 0

/-- R553, R557: where ring `c`'s next record goes in the interleaved window. -/
def Chip.vringNext (k : Chip) (c : Nat) : Nat := k.getF (Reg.vringBase c) 36 0 + 32 * k.getF (Reg.vringWi c) 15 0

/-- R622: that place lies in a host-cached block. -/
def Chip.vringCached (k : Chip) (c : Nat) : Bool := k.getF (Reg.hostBlock (k.vringNext c / 2 ^ 24)) 5 4 = 0

/-- R557, R632, R806: ring `c` takes no record now: it is full; its place is host-cached and decoder 0 has not committed; or the snoop of
its line is not answered, as which the ring behaves as though full. -/
def Chip.vringHeld (k : Chip) (c : Nat) : Bool :=
  k.vringFull c || (k.vringCached c && !k.decoderOn 0) || (match (k.vring c).snoop with | some (_, _, ok) => !ok | none => false)

/-- R560: FULL_WAIT where records wait at a ring that takes none. -/
def Chip.noteWait (k : Chip) (c : Nat) : Chip :=
  if k.vringHeld c ∧ (k.vring c).waiting ≠ [] then k.raise (Reg.vringStatus c) 31 else k

/-- R560 for every ring, as indices, settings and the link change. -/
def Chip.noteWaits (k : Chip) : Chip := (List.range 16).foldl Chip.noteWait k

/-- R777, R790: the completion record of a job forwarded from a peer goes back as FWD_RESULT on the lowest ACTIVE port to the peer, and is kept
to be sent again. -/
def Chip.answerPeer (k : Chip) (tag : Nat) (j : Job) (o : Outcome) (p seq : Nat) : Chip :=
  let bs := j.record tag 0 k.now o
  let x := k.port p
  (((k.countJob j o).setPort p { x with answers := x.answers ++ [(seq, bs)] }).sendTo (k.peerOfPort p) (.fwdResult j.domain seq bs)).freeTag tag

/-- R559: an earlier job of the context of job `j` uses its ring, and its record is not ready. -/
def Chip.recordWaits (k : Chip) (j : Job) : Bool :=
  k.hub.jobs.any (fun x => x.2.order < j.order && x.2.cls = j.cls && !x.2.written && j.handle ≠ 0 && (x.2.handle = j.handle
    || k.hub.ctxs.any (fun c => c.2.handle c.1 = j.handle && k.jobOf x.2 c.1 c.2)))

/-- R559: a job whose outcome is fixed, its record ready: behind the records of earlier jobs of its context on its ring. -/
def Chip.settleJob (k : Chip) (t : Nat) : Chip :=
  match k.job t with
  | none => k
  | some j =>
    match j.outcome with
    | none => k
    | some o =>
      if j.written || k.recordWaits j then k
      else match j.origin with
      | .port p seq => k.answerPeer t j o p seq
      | .ring _ =>
        let r := k.vring j.cls
        ((k.setJob t { j with written := true }).setVring j.cls { r with waiting := r.waiting ++ [t] }).noteWait j.cls

/-- R559: every record that is ready joins its ring's queue, in acceptance order. -/
def Chip.settleJobs (k : Chip) : Chip :=
  (orderBy (fun t => match k.job t with | some j => j.order | none => 0) (k.hub.jobs.map (·.1))).foldl Chip.settleJob k

/-- R549: a job's outcome is fixed. -/
def Chip.endJob (k : Chip) (t : Nat) (o : Outcome) : Chip :=
  match k.job t with
  | none => k
  | some j => (k.setJob t { j with outcome := some o, phase := .ended, decided := true }).settleJobs

/-- A job ends with a refusal of Table 11.8; one that an abort reached first ends ABORTED (R551). -/
def Chip.refuseJob (k : Chip) (t status : Nat) : Chip :=
  match k.job t with
  | none => k
  | some j => k.endJob t { status := if j.aborted then 2 else status, verdict := 0, tokens := 0, closed := false }

/-- R532, R549, R552: the context with a handle is gone: its jobs end with a status, but a CLOSE that has taken its place ends CLOSED, and what
becomes of a job dispatched to a core is fixed when its result entry arrives. -/
def Chip.orphanJobs (k : Chip) (handle status : Nat) : Chip :=
  (k.hub.jobs.map (·.1)).foldl (fun k t => match k.job t with
    | none => k
    | some j =>
      if j.handle ≠ handle ∨ j.outcome.isSome then k
      else match j.phase with
      | .sent _ => k.setJob t { j with doom := some status }
      | _ => if j.kind = 2 ∧ j.decided then k.endJob t { status := 1, verdict := 0, tokens := 0, closed := true } else k.refuseJob t status) k

/-! ### A job and its context (R528, R532 to R536, R787) -/

/-- R473, R528: the context that a job names, a close behind it or not. -/
def Chip.jobCtx (k : Chip) (j : Job) : Option (Nat × Ctx) := k.hub.ctxs.find? (fun c => c.2.handle c.1 = j.handle)

/-- R50: an earlier job of the same context is accepted and not yet committed or ended. -/
def Chip.blocked (k : Chip) (j : Job) : Bool :=
  match k.jobCtx j with
  | some (i, c) => k.jobBefore j.order i c
  | none => false

/-- R534: the tokens that the jobs of a context accepted before place `order` and not yet ended carry. -/
def Chip.pendingTokens (k : Chip) (order i : Nat) (c : Ctx) : Nat :=
  ((k.hub.jobs.filter (fun j => j.2.order < order && k.pendingOn j.2 i c)).map (fun j => j.2.tokens.length)).sum

/-- R534, R535: the tokens of a job on its context. -/
def Chip.tokenise (k : Chip) (j : Job) (i : Nat) (c : Ctx) (isNew : Bool) : List Nat :=
  match j.summary with
  | none => j.payload.map (·.toNat)
  | some (dir, f, z) =>
    let g := if isNew then 23 else if k.jobBefore j.order i c then 0 else gapField (j.accept - c.lastActive)
    let bytes := if c.tokens + k.pendingTokens j.order i c < j.budget then (j.payload.take j.byteMax).map (·.toNat) else []
    summaryToken dir f z g :: bytes

/-- R787: a recall of a spilled context, under the next of its sequence numbers (log entry 85), where its holder can be reached. -/
def Chip.recall (k : Chip) (i : Nat) (c : Ctx) : Chip :=
  let seq := (c.mirrorSeq + 1) % 2 ^ 32
  if c.state = .spilled ∧ c.spill = .away ∧ (k.portTo c.holder).isSome then
    (k.setCtx i { c with spill := .recalled, mirrorSeq := seq }).sendTo c.holder (.spillRecall (c.hdr i seq))
  else k

/-- R528, R532, R534: a job finds its context: its tokens are emitted and it waits in the scheduler; a CLOSE takes its place. -/
def Chip.bindJob (k : Chip) (t i : Nat) (isNew : Bool) : Chip :=
  match k.job t, k.ctx i with
  | some j, some c =>
    let h := c.handle i
    if j.kind = 2 then
      let k := k.setJob t { j with handle := h, phase := .waiting, decided := true }
      k.onHub (fun hb => { hb with closes := hb.closes ++ [{ handle := h, order := j.order, tag := some t }] })
    else
      (k.setJob t { j with handle := h, isNew := isNew, phase := .waiting, tokens := k.tokenise j i c isNew }).recall i c
  | _, _ => k

/-- R50, R473: an earlier job of the context at index `i` is still looking it up. -/
def Chip.seeking (k : Chip) (order i : Nat) (c : Ctx) : Bool :=
  k.hub.jobs.any (fun x => x.2.order < order && k.pendingOn x.2 i c && (match x.2.phase with | .walking | .found _ => true | _ => false))

/-- R50: a job has found its context: it is bound to it once no earlier job of the context is still looking it up. -/
def Chip.foundCtx (k : Chip) (t i : Nat) (c : Ctx) : Chip :=
  match k.job t with
  | none => k
  | some j => if k.seeking j.order i c then k.setJob t { j with phase := .found (c.handle i) } else k.bindJob t i false

/-- R528, R532: a job that names its context by handle. -/
def Chip.byHandle (k : Chip) (t handle : Nat) : Chip :=
  match k.job t with
  | none => k
  | some j =>
    match k.lookupHandle j.order handle with
    | some (i, c) => if c.domain = j.domain ∧ c.model = j.model then k.foundCtx t i c else k.refuseJob t 0x21
    | none => k.refuseJob t (if j.kind = 2 then 0x20 else 0x21)

/-- R50, R473: the jobs that have found their context and wait for an earlier job's lookup go on in acceptance order, where that lookup
has ended. A close that has taken its place meanwhile hides the context from those behind it. -/
def Chip.releaseFound (k : Chip) : Chip :=
  (orderBy (fun t => match k.job t with | some j => j.order | none => 0) (k.hub.jobs.map (·.1))).foldl (fun k t =>
    match k.job t with
    | none => k
    | some j =>
      match j.phase with
      | .found h => if j.outcome.isNone then (if j.key = [] then k.byHandle t h
          else match k.lookupHandle j.order h with
            | some (i, c) => k.foundCtx t i c
            | none => k.setJob t { j with phase := .walking }) else k
      | _ => k) k

/-- R468: a job that names its context by key: a hot-directory hit finds it at once; a miss begins a directory walk. -/
def Chip.byKey (k : Chip) (t : Nat) : Chip :=
  match k.job t with
  | none => k
  | some j =>
    match k.lookupKey j.order j.domain j.model j.key with
    | some (i, c) =>
      if k.isHot i c then ((k.hotTouch i c).count Reg.hotdirHit 1).foundCtx t i c
      else (k.setJob t { j with phase := .walking }).count Reg.hotdirMiss 1
    | none => (k.setJob t { j with phase := .walking }).count Reg.hotdirMiss 1

/-! ### Acceptance (R516 to R532, R789, R790) -/

/-- R529: the class's CREATE field and NO_CREATE permit creation. -/
def mayCreate (create : Nat) (noCreate : Bool) (tcp : Option Nat) : Bool :=
  !noCreate && (create = 1 || (create = 2 && match tcp with
    | some f => tcpSyn f && !tcpAck f
    | none => true))

/-- R530: the record closes its context once its job has committed. -/
def closesAfter (eof : Nat) (tcp : Option Nat) (final : Bool) : Bool :=
  final || match tcp with
    | some f => (eof = 1 && tcpRst f) || (eof = 2 && (tcpRst f || tcpFin f))
    | none => false

/-- R517: what of Table 11.1 a header breaks. -/
def Chip.badHeader (k : Chip) (h : RecHdr) : Bool :=
  !k.flag (Reg.classCfg h.cls) 31 || !h.clean || (h.l3Start && h.type ≠ 0) || (h.final && h.type ≠ 1)
    || (h.type = 2 && !h.useHandle && h.fileId.all (fun b => b = 0))

/-- A job at its acceptance. -/
def Chip.newJob (k : Chip) (o : Origin) (h : RecHdr) (deadline : Nat) (source : List Byte) : Job :=
  { origin := o, order := k.hub.accepted, kind := h.type, cls := h.cls, cookie := h.cookie, accept := k.now, deadline := deadline
    domain := k.classDomain h.cls, model := k.classModel h.cls, key := [], mayCreate := false, handle := 0, isNew := false
    summary := none, payload := [], tokens := [], closes := false, phase := .waiting, ahead := [], outcome := none
    budget := k.getF (Reg.classTokens h.cls) 31 16, byteMax := k.getF (Reg.classTokens h.cls) 11 0
    drop := k.flag (Reg.classCfg h.cls) 29, decided := false, aborted := false, late := false, written := false, source := source, raw := []
    evicts := none, doom := none }

/-- R522 to R532: a job parsed and its context looked for. -/
def Chip.parseJob (k : Chip) (t : Nat) (h : RecHdr) (data : List Byte) : Chip :=
  match k.job t with
  | none => k
  | some j =>
    let o := Reg.classParse h.cls
    let look (k : Chip) : Chip := if h.useHandle then k.byHandle t h.handle else k.byKey t
    if h.type = 0 then
      match parsePacket h.l3Start data with
      | .error e => k.refuseJob t e.code
      | .ok p =>
        let sym := k.flag o 23
        look (k.setJob t { j with
          key := if h.useHandle then [] else p.key sym (k.getF o 19 16)
          mayCreate := mayCreate (k.getF o 25 24) h.noCreate p.tcp
          summary := some (if p.srcIsA sym then 0 else 1, p.flagsField, sizeField p.payload.length)
          payload := p.payload.take j.byteMax
          closes := closesAfter (k.getF o 27 26) p.tcp false })
    else
      look (k.setJob t { j with
        key := if h.useHandle then [] else fileKey h.fileId
        mayCreate := h.type = 1 && mayCreate (k.getF o 25 24) h.noCreate none
        payload := data, closes := closesAfter 0 none h.final })

/-- R563, R789, Table 17.3: the forward sequence number that the next job to a package takes: newer than every one used on a port to it
(log entry 86). -/
def Chip.nextFwdSeq (k : Chip) (pkg : Nat) : Nat :=
  (((List.range 4).filter (fun p => k.peerOfPort p = pkg)).foldl (fun a p => if newer a (k.port p).fwdSeq then (k.port p).fwdSeq else a)
    (k.port (k.wayTo pkg)).fwdSeq + 1) % 2 ^ 32

/-- R517, R518, R789, R804: a record accepted as a job, header first. -/
def Chip.acceptRecord (k : Chip) (o : Origin) (bs : List Byte) (deadline : Nat) : Chip :=
  match k.nextTag with
  | none => k
  | some t =>
    let h := recHdr bs
    let j := k.newJob o h deadline bs
    let k := (k.takeTag.setJob t j).onHub (fun hb => { hb with accepted := hb.accepted + 1 })
    let k := k.count Reg.jobAccepted 1
    if k.badHeader h then k.refuseJob t 0x10
    else
      let pkg := k.getF Reg.kwFwd 15 14
      let own : Bool := match o with | .ring _ => true | .port .. => false
      if own ∧ k.flag Reg.kwFwd (16 + h.cls) ∧ k.peerTakes pkg j.domain then
        let x := k.port (k.wayTo pkg)
        let seq := k.nextFwdSeq pkg
        ((k.setPort (k.wayTo pkg) { x with fwdSeq := seq }).setJob t { j with phase := .forwarded pkg seq }).sendTo pkg
          (.fwdJob j.domain seq (deadline - k.now) h.cookie h.cls bs)
      else
        let k := if own ∧ k.flag Reg.kwFwd (16 + h.cls) ∧ k.peerRefuses pkg j.domain then k.logKw 0x56 (j.domain + pkg * 2 ^ 8) else k
        if k.classIdle804 h.cls then k.refuseJob t 0x33
        else k.parseJob t h ((bs.drop 64).take h.len)

/-- R513: the slots of a submission ring. -/
def Chip.subqSize (k : Chip) (r : Nat) : Nat := 2 ^ k.getF (Reg.subqCfg r) 4 0

/-- R521: a ring that holds unaccepted records and may be read. -/
def Chip.subqReady (k : Chip) (r : Nat) : Bool :=
  k.flag (Reg.subqCfg r) 31 && !k.hub.badRings.contains r && k.getF (Reg.subqPi r) 15 0 ≠ k.getF (Reg.subqCi r) 15 0

/-- R521: the ring that is served next. -/
def Chip.nextRing (k : Chip) : Option Nat :=
  ((List.range 16).map (fun i => (k.hub.lastRing + 1 + i) % 16)).find? k.subqReady

/-- R516: a ring stops with a cause. -/
def Chip.stopRing (k : Chip) (r cause : Nat) : Chip :=
  let k := ((k.raise (Reg.subqStatus r) 31).setF (Reg.subqStatus r) 1 0 cause).onHub (fun h => { h with badRings := r :: h.badRings })
  (k.logPlain 0x14 r).msix 18

/-- `n` slots of a ring from slot `i` on. -/
def Mach.ringRead (m : Mach) (V r i n : Nat) : List Byte × Bool × Mach :=
  (List.range n).foldl (fun a s =>
    let x := interleaved V (a.2.2.k.getF (Reg.subqBase r) 36 0 + 64 * (i + s))
    let b := a.2.2.hubRead x.1 x.2 64
    (a.1 ++ b.1, a.2.1 || b.2.1, b.2.2)) ([], false, m)

/-- RECORD_ACCEPT: the hub reads the next record of ring `r`, where that ring's turn has come. -/
def execRecordAccept (r : Nat) (s : State) : Host.Outcome State Fault Refusal :=
  s.onTurn (r < 16) (fun m =>
    if !m.k.serving ∨ m.k.nextTag.isNone ∨ m.k.nextRing ≠ some r then m
    else
      let V := s.part.vats
      let n := m.k.subqSize r
      let ci := m.k.getF (Reg.subqCi r) 15 0
      let pi := m.k.getF (Reg.subqPi r) 15 0
      let (hb, bad, m) := m.ringRead V r ci 1
      let h := recHdr hb
      let slots := 1 + (h.len + 63) / 64
      if bad then m.onChip (fun k => k.stopRing r 3)
      else if !h.formed then m.onChip (fun k => k.stopRing r 1)
      else if h.type = 15 then m.onChip (fun k => k.setF (Reg.subqCi r) 15 0 0)
      else if n < ci + slots ∨ (pi + n - ci) % n < slots then m.onChip (fun k => k.stopRing r 2)
      else
        let (db, bad, m) := m.ringRead V r (ci + 1) (slots - 1)
        if bad then m.onChip (fun k => k.stopRing r 3)
        else m.onChip (fun k =>
          let k := (k.setF (Reg.subqCi r) 15 0 ((ci + slots) % n)).onHub (fun hb => { hb with lastRing := r })
          k.acceptRecord (.ring r) (hb ++ db) (k.now + k.classDeadline h.cls)))

/-! ### The directory walk (R468, R470, R529) -/

/-- R464, R722: a bucket read: from the copy in the next vat after the loss of its own, where there is one. -/
def Mach.readBucket (m : Mach) (V n : Nat) : Mach :=
  let v := n % V
  let place (v : Nat) : Nat := m.k.getF (Reg.dirBase v) 36 0 + 256 * (n / V)
  if !(m.k.vat v).lost then (m.hubRead v (place v) 256).2.2
  else if m.k.flag Reg.ctxReplica 0 then (m.hubRead ((v + 1) % V) (place ((v + 1) % V) + 2 ^ 24) 256).2.2
  else m

/-- DIRECTORY_WALK_DONE: the bucket reads of job `t` return. -/
def execDirectoryWalkDone (t : Nat) (s : State) : Host.Outcome State Fault Refusal :=
  s.onTurn true (fun m =>
    match m.k.job t with
    | none => m
    | some j =>
      if j.phase ≠ .walking ∨ m.k.hub.jobs.any (fun x => x.2.phase = .walking && x.2.order < j.order
          && x.2.domain = j.domain && x.2.model = j.model && x.2.key = j.key) then m
      else
        let V := s.part.vats
        let b := bucketsOf V (m.k.hashOf j.domain j.model j.key)
        let m := (m.readBucket V b.1).readBucket V b.2
        match m.k.lookupKey j.order j.domain j.model j.key with
        | some (i, c) => m.onChip (fun k => ((k.hotTouch i c).foundCtx t i c).releaseFound)
        | none =>
          if j.kind = 2 ∨ !j.mayCreate then m.onChip (fun k => (k.refuseJob t 0x20).releaseFound)
          else match m.create V j.domain j.model j.cls j.key j.evicts with
          | .ok i m => m.onChip (fun k => (k.bindJob t i true).releaseFound)
          | .refused st m => m.onChip (fun k => (k.refuseJob t st).releaseFound)
          | .wait h m => m.onChip (fun k => k.setJob t { j with evicts := some h }))

/-! ### Dispatch (R537, R542 to R545, R719, R788) -/

/-- R787, R788: jobs whose context is spilled and whose holder's ports are all down end UNAVAILABLE; the others' contexts are recalled. The
outcome of a CLOSE is fixed once it has taken its place (R549). -/
def Chip.serveSpilled (k : Chip) : Chip :=
  (k.hub.jobs.map (·.1)).foldl (fun k t =>
    match k.job t with
    | some j =>
      match k.jobCtx j with
      | some (i, c) =>
        if j.phase = .waiting ∧ j.kind ≠ 2 ∧ c.state = .spilled then
          (if (k.portTo c.holder).isNone then k.refuseJob t 0x33 else k.recall i c)
        else k
      | none => k
    | none => k) k

/-- R718: a retired core. -/
def Chip.coreRetired (k : Chip) (v c : Nat) : Bool := k.flag Reg.failState (4 * v + c)

/-- R542: the jobs that a core may be given now. -/
def Chip.readyJobs (k : Chip) (v c : Nat) : List (Nat × Job) :=
  k.hub.jobs.filter (fun j => j.2.phase = .waiting && j.2.kind ≠ 2 && !k.blocked j.2 && match k.jobCtx j.2 with
    | some x => x.2.vat = v && ownerOf x.2.die = c && (x.2.state = .live || x.2.state = .migrating) && x.2.spill ≠ .offered
    | none => false)

/-- R542: the first of them. -/
def Chip.nextJob (k : Chip) (v c : Nat) : Option (Nat × Job) :=
  (k.readyJobs v c).foldl (fun (a : Option (Nat × Job)) j => match a with
    | some b => if j.2.deadline < b.2.deadline ∨ (j.2.deadline = b.2.deadline ∧ j.2.order < b.2.order) then some j else a
    | none => some j) none

/-- R545: pages allocated ahead for a job, page by page. -/
def Mach.addAhead (md : Model) : Nat → Mach → Ctx → Nat → Option (Mach × List PageRec)
  | 0, m, _, _ => some (m, [])
  | n + 1, m, c, page =>
    match m.addPage c md page with
    | none => none
    | some (m, ps) =>
      match Mach.addAhead md n m { c with pages := c.pages ++ ps } ((page + 1) % 2 ^ 24) with
      | some (m, qs) => some (m, ps ++ qs)
      | none => none

/-- R478, R545: the pages that a context takes before a job of `n` tokens: the tail's where a full one is tried again, and those ahead. -/
def Ctx.pagesWanted (c : Ctx) (n : Nat) : List Nat :=
  let retry := c.room = .retry
  let count := if retry then 0 else c.tailCount
  (List.range ((count + n - 1) / 32 + if retry then 1 else 0)).map (fun x => (c.tail + 1 + x) % 2 ^ 24)

/-- R480: an affinage job stands on a bank where the pages that a context takes need an entry. -/
def Chip.roomWaits (k : Chip) (i : Nat) (c : Ctx) (md : Model) (n : Nat) : Bool :=
  c.room ≠ .full && (c.pagesWanted n).any (fun p => (List.range md.layers).any (fun l => k.affOnBank i (bankOf c.rot l p)))

/-- R478: a full tail: the next job is refused, each later one tries the allocation again first. -/
def Mach.retryTail (m : Mach) (c : Ctx) (md : Model) : Mach × Ctx × Bool :=
  match c.room with
  | .fits => (m, c, true)
  | .full => (m, { c with room := .retry }, false)
  | .retry =>
    match m.moveTail c md ((c.tail + 1) % 2 ^ 24) with
    | (m, c, true) => (m, c, true)
    | (m, c, false) => (m, { c with room := .retry }, false)

/-- R478, R545: a context made ready for a job of `n` tokens: a full tail retried, pages expired as though the job had committed, and
allocated ahead. -/
def Mach.makeRoom (m : Mach) (V i : Nat) (c : Ctx) (md : Model) (n : Nat) : Mach × Ctx × Option (List PageRec) :=
  match m.retryTail c md with
  | (m, c, false) => (m.setCtx V i c, c, none)
  | (m, c, true) =>
    let last := c.tailCount + n
    let ahead := (last - 1) / 32
    let (m, c) := if ahead = 0 then (m, c) else m.expireTo i c md ((c.tail + last / 32) % 2 ^ 24) (last % 32)
    match Mach.addAhead md ahead m c ((c.tail + 1) % 2 ^ 24) with
    | some (m, ps) => (m.setCtx V i { c with pages := c.pages ++ ps }, { c with pages := c.pages ++ ps }, some ps)
    | none => (m.setCtx V i c, c, none)

/-- Table 11.5: the job entry. -/
def Job.entry (j : Job) (tag : Nat) (c : Ctx) (ahead tokenAddr : Nat) : BitVec 512 :=
  let b (x : Bool) (n : Nat) : Nat := if x then 2 ^ n else 0
  entryOfBytes (leBytes 1 0x10 ++ leBytes 1 (j.cls + 16 * (c.model % 16)) ++ leBytes 2 tag ++ leBytes 4 j.handle
    ++ leBytes 1 (c.die % 4 + b j.isNew 2 + b c.sample.isSome 3) ++ leBytes 1 c.rot ++ leBytes 2 c.slot ++ leBytes 3 c.oldest
    ++ leBytes 1 c.tailCount ++ leBytes 3 c.tail ++ leBytes 1 ahead ++ leBytes 2 j.tokens.length ++ leBytes 2 0
    ++ leBytes 8 j.deadline ++ leBytes 8 tokenAddr
    ++ (if j.tokens.length ≤ 8 then j.tokens.flatMap (leBytes 2) ++ List.replicate (2 * (8 - j.tokens.length)) 0
        else List.replicate 16 0)
    ++ leBytes 8 j.accept)

/-- JOB_DISPATCH: the scheduler hands core `c` of vat `v` its next ready job. -/
def execJobDispatch (v c : Nat) (s : State) : Host.Outcome State Fault Refusal :=
  s.onTurn (s.hasCore v c) (fun m =>
    if !m.k.serving then m else
    let m := m.onChip (fun k => k.releaseFound.serveSpilled)
    let V := s.part.vats
    match m.k.nextJob v c with
    | none => m
    | some (t, j) =>
      match m.k.jobCtx j, m.k.poolCore v c with
      | some (i, cx), some pc =>
        match m.k.model cx.model with
        | none => m
        | some md =>
          if m.k.coreRetired v c then
            (if cx.state = .live ∧ (m.k.findHome md (some (cx.vat, cx.die)) (fun lay v d rot => m.k.placeAll md lay v d rot [] (m.k.keptPages cx))).isNone
              then m.onChip (fun k => k.refuseJob t 0x33) else m)
          else if m.k.hub.drain.contains (4 * v + c) ∨ !m.k.vatRuns v then m
          else if j.deadline < m.k.now ∧ j.drop then m.onChip (fun k => k.refuseJob t 0x30)
          else if m.k.hubFull v c pc.jobHoop ∨ m.k.roomWaits i cx md j.tokens.length then m
          else
            let (m, cx, room) := m.makeRoom V i cx md j.tokens.length
            match room with
            | none => m.onChip (fun k => (k.count Reg.ctxRefused 1).refuseJob t 0x24)
            | some ps =>
              let big := 8 < j.tokens.length
              let addr := if big then (pc.token + 64 * Config.tokenSlot t) % 2 ^ 37 else 0
              let m := if big then m.hubWrite v addr (j.tokens.flatMap (leBytes 2)) else m
              let e : Entry := { data := j.entry t cx ((j.tokens.length + cx.tailCount - 1) / 32) addr, last := true, fence := false
                                 poison := false, src := 5 }
              m.onChip (fun k =>
                ((k.setJob t { j with phase := .sent (4 * v + c), ahead := ps }).setCtx i { cx with sample := none }).landEntry v c
                  pc.jobHoop e)
      | _, _ => m)

/-! ### Results (R538, R540, R546 to R549) -/

/-- R545: a job that ends without committing gives back the pages allocated ahead for it. -/
def Mach.dropAhead (m : Mach) (V : Nat) (j : Job) : Mach :=
  match m.k.jobCtx j with
  | none => m
  | some (i, c) =>
    if j.ahead = [] then m
    else
      let r := m.giveUp i { c with pages := c.pages.filter (fun p => !j.ahead.contains p) } j.ahead
      r.1.setCtx V i r.2

/-- A dispatched job ends without committing. -/
def Mach.failJob (m : Mach) (V t status : Nat) : Mach :=
  match m.k.job t with
  | none => m
  | some j => (m.dropAhead V j).onChip (fun k => k.refuseJob t status)

/-- R540: every job dispatched to a core ends JOB_FAULT. -/
def Mach.failJobsOf (m : Mach) (V core : Nat) : Mach :=
  (m.k.hub.jobs.map (·.1)).foldl (fun m t => match m.k.job t with
    | some j => if j.phase = .sent core then m.failJob V t 0x32 else m
    | none => m) m

/-- R506: the update that a commit of a mirrored context sends. -/
def Mach.mirrorCommit (m : Mach) (V i : Nat) (c : Ctx) (md : Model) (tail0 count0 n : Nat) : Mach :=
  if !c.mirrored ∨ c.diverged then m
  else match m.k.mirrorStops i c with
  | some k => { m with k := k }
  | none =>
    let seq := (c.mirrorSeq + 1) % 2 ^ 32
    let pkg := m.k.getF Reg.kwMirror 15 14
    let places := (List.range n).flatMap (fun x =>
      let page := (tail0 + (count0 + x) / 32) % 2 ^ 24
      (c.pages.filter (fun p => p.page = page)).map (fun p => (p, (count0 + x) % 32)))
    let (kv, m) := places.foldl (fun (a : List TokenKv × Mach) x =>
      let y := a.2.tokenKv md c x.1 x.2
      (a.1 ++ [y.1], y.2)) ([], m)
    let r := m.k.sendMirror pkg (c.handle i) seq (.mirrorUpdate (c.hdr i seq) kv)
    if r.2 then ({ m with k := r.1 } : Mach).setCtx V i { c with mirrorSeq := seq }
    else { m with k := m.k.diverge i c pkg }

/-- R492: the shadow's pages for the `n` pages after the tail. -/
def Mach.growTo (m : Mach) (c : Ctx) (md : Model) (n : Nat) : Mach × Ctx :=
  (List.range n).foldl (fun a i => a.1.growShadow a.2 md ((c.tail + 1 + i) % 2 ^ 24)) (m, c)

/-- R476, R479, R546, R547: a context's counters after `n` tokens commit: the tail moved, pages expired, and the review. -/
def Mach.commit (m : Mach) (V i : Nat) (c : Ctx) (md : Model) (n : Nat) : Mach :=
  let total := c.tailCount + n
  let moved := total / 32
  let c0 := { c with tokens := (c.tokens + n) % 2 ^ 64, lastActive := m.k.now }
  let (m, c1, filled) :=
    if moved = 0 then (m, { c0 with tailCount := total }, false)
    else if total % 32 = 0 then
      -- the last page moved to is allocated by R476
      let g := m.growTo c0 md (moved - 1)
      let r := g.1.moveTail { g.2 with tail := (c.tail + moved - 1) % 2 ^ 24, tailCount := 32 } md ((c.tail + moved) % 2 ^ 24)
      (r.1, r.2.1, r.2.2)
    else
      let g := m.growTo c0 md moved
      (g.1, { g.2 with tail := (c.tail + moved) % 2 ^ 24, tailCount := total % 32 }, true)
  let (m, c2) := m.expireTo i c1 md c1.tail c1.tailCount
  let m := (m.setCtx V i c2).onChip (fun k => k.hotTouch i c2)
  let m := m.mirrorCommit V i c2 md c.tail c.tailCount n
  if filled ∧ c2.state = .live then
    match m.k.ctx i with
    | some c => m.review i c md
    | none => m
  else m

/-- R480: the page-index writes that a commit needs wait for an affinage job of the context on one of their banks. -/
def Chip.commitWaits (k : Chip) (i : Nat) (c : Ctx) (md : Model) (n : Nat) : Bool :=
  let total := c.tailCount + n
  let tail := (c.tail + total / 32) % 2 ^ 24
  let dead (p : PageRec) : Bool :=
    ({ c with oldest := p.page } : Ctx).oldestDead md.window (k.massPages c.model) tail (total % 32)
  let banks := (c.pages.filter dead).map (·.bank)
    ++ (if total % 32 = 0 then (List.range md.layers).map (fun l => bankOf c.rot l tail) else [])
  banks.any (k.affOnBank i)

/-- R549, R551: the status of a dispatched job whose outcome something else has settled: an abort, or the loss of its context. -/
def Job.settled (j : Job) : Option Nat := if j.aborted then some 2 else j.doom

/-- RESULT_ENTRY: the next result entry of core `c` of vat `v` reaches the hub. -/
def execResultEntry (v c : Nat) (s : State) : Host.Outcome State Fault Refusal :=
  s.onTurn (s.hasCore v c) (fun m =>
    let V := s.part.vats
    match m.k.poolCore v c with
    | none => m
    | some pc =>
      let h := pc.resultHoop
      let q := m.k.hoop v c h
      match m.k.headOf v c h with
      | [] => m
      | e :: rest =>
        if e.poison then m.onChip (fun k => if k.flag (Reg.hoopStatus v c h) 29 then k else k.notePoison v c h) else
        let bs := entryBytes e.data
        let tag := recField bs 2 4
        let take (m : Mach) : Mach := m.onChip (fun k => (k.setHoop v c h (({ q with head := rest } : Hoop).poppedBy k.now 5)).settleHoop v c h)
        let stray (m : Mach) : Mach := (take m).onChip (fun k => k.logCore 0x15 v c tag)
        match m.k.job tag with
        | none => stray m
        | some j =>
          if recField bs 0 1 ≠ 0x11 ∨ j.handle ≠ recField bs 4 8 ∨ j.phase ≠ .sent (4 * v + c) then stray m
          else match j.settled, recField bs 1 2 with
          | some st, _ => (take m).failJob V tag st
          | none, 0 =>
            match m.k.jobCtx j with
            | none => (take m).failJob V tag 0x33
            | some (i, cx) =>
              match m.k.model cx.model with
              | none => (take m).failJob V tag 0x32
              | some md =>
                let n := j.tokens.length
                if m.k.commitWaits i cx md n then m
                else
                  let m := (take m).commit V i cx md n
                  m.onChip (fun k =>
                    let k := if j.closes then k.onHub (fun hb =>
                        { hb with closes := hb.closes ++ [{ handle := j.handle, order := hb.accepted, tag := none }] }) else k
                    (k.endJob tag { status := 0, verdict := recField bs 8 16, tokens := n, closed := j.closes }).feedHub)
          | none, 1 => (take m).failJob V tag 0x31
          | none, _ => (take m).failJob V tag 0x32)

/-! ### Closes (R473, R474, R531, R532) -/

/-- A close of the context at index `i` is carried through, or waits in CLOSING for affinage jobs of its slot (R480). -/
def Mach.runClose (m : Mach) (V i : Nat) (c : Ctx) (tag : Option Nat) : Mach :=
  if m.k.hasAff i then m.setCtx V i { c with state := .closing }
  else
    let m := m.closeCtx V i c
    match tag with
    | some t => m.onChip (fun k => k.endJob t { status := 1, verdict := 0, tokens := 0, closed := true })
    | none => m

/-- R473: the first of the closes of a context that have taken their place. -/
def Chip.firstClose (k : Chip) (handle : Nat) : Option Close :=
  (k.hub.closes.filter (fun x => x.handle = handle)).foldl (fun (a : Option Close) x => match a with
    | some y => if x.order < y.order then some x else a
    | none => some x) none

/-- CONTEXT_CLOSE: the close of the context at index `i` takes its turn. -/
def execContextClose (i : Nat) (s : State) : Host.Outcome State Fault Refusal :=
  s.onTurn true (fun m =>
    match m.k.ctx i with
    | none => m
    | some c =>
      match m.k.firstClose (c.handle i) with
      | some x =>
        if m.k.jobBefore x.order i c then m else m.runClose s.part.vats i c x.tag
      | none => if c.state = .closing then m.runClose s.part.vats i c none else m)

/-- IDLE_CLOSE: the context at index `i` has been idle for longer than its class's IDLE_MS. -/
def execIdleClose (i : Nat) (s : State) : Host.Outcome State Fault Refusal :=
  s.onTurn true (fun m =>
    match m.k.ctx i with
    | none => m
    | some c =>
      let ms := m.k.getF (Reg.classIdle c.cls) 31 0
      if c.state ≠ .live ∨ ms = 0 ∨ m.k.now - c.lastActive ≤ ms * 10 ^ 6 ∨ m.k.hasJob i c ∨ m.k.closePending (c.handle i) then m
      else m.runClose s.part.vats i c none)

/-! ### Aborts (R550 to R552, R792) -/

/-- R551: one abort point over the jobs that `mine` holds of: those whose decision point is past keep their outcome, and those that waited for an
aborted job's lookup go on. -/
def Chip.abortJobs (k : Chip) (mine : Job → Bool) : Chip :=
  ((k.hub.jobs.filter (fun j => mine j.2)).foldl (fun k x =>
    let t := x.1
    let j := x.2
    match j.phase with
    | .ended => (match j.outcome with
      | some o => if o.status = 0 then k.setJob t { j with late := true } else k
      | none => k)
    | .sent _ => k.setJob t { j with aborted := true }
    | .forwarded pkg _ => (k.setJob t { j with aborted := true }).sendTo pkg (.fwdAbort j.domain j.cookie)
    | .walking => (k.setJob t { j with aborted := true }).refuseJob t 2
    | .found h => (k.setJob t { j with aborted := true, handle := h }).refuseJob t 2
    | .waiting => if j.decided then k else (k.setJob t { j with aborted := true }).refuseJob t 2) k).releaseFound

/-- JOB_ABORT: a write of JOB_ABORT with RING `r`. -/
def Chip.abortRing (k : Chip) (r : Nat) : Chip :=
  let mine (j : Job) : Bool := j.origin = .ring r && j.cookie = (k.reg Reg.jobAbortCookie).toNat
  if k.hub.jobs.any (fun j => mine j.2) then k.abortJobs mine else k.count Reg.jobAbortMiss 1

def execJobAbort (ring : Nat) (s : State) : Host.Outcome State Fault Refusal := s.onChip (ring < 16) (fun k => k.abortRing ring)

/-! ### The rings' registers (R515, R555, R558) -/

/-- SUBQ_PI_WRITE, R558. -/
def Chip.writePi (k : Chip) (r value : Nat) : Chip :=
  if k.subqSize r ≤ value then k.logPlain 0x18 (r + value % 2 ^ 16 * 2 ^ 16) else k.setF (Reg.subqPi r) 15 0 value

/-- VRING_CI_WRITE, R557, R558, R560. -/
def Chip.writeCi (k : Chip) (c value : Nat) : Chip :=
  if k.vringSize c ≤ value then k.logPlain 0x18 (c + 2 ^ 8 + value % 2 ^ 16 * 2 ^ 16) else (k.setF (Reg.vringCi c) 15 0 value).noteWait c

/-- SUBQ_ENABLE: ENABLE of ring `r` goes from 0 to 1: both indices go to zero, and a stopped ring starts again (R515, R516). -/
def Chip.enableSubq (k : Chip) (r : Nat) : Chip :=
  if k.flag (Reg.subqCfg r) 31 then k
  else (((k.raise (Reg.subqCfg r) 31).setF (Reg.subqPi r) 15 0 0).setF (Reg.subqCi r) 15 0 0).onHub
    (fun h => { h with badRings := h.badRings.filter (· ≠ r) })

/-- VRING_ENABLE: ENABLE of ring `c` goes from 0 to 1: the index is 0 and PHASE 1 (R555); a snoop in hand was for the line of the index
before. -/
def Chip.enableVring (k : Chip) (c : Nat) : Chip :=
  if k.flag (Reg.vringCfg c) 31 then k
  else ((((k.raise (Reg.vringCfg c) 31).setF (Reg.vringWi c) 15 0 0).setF (Reg.vringWi c) 16 16 1).setVring c
    { k.vring c with snoop := none }).noteWait c

def execSubqPiWrite (r : Nat) (value : BitVec 16) (s : State) : Host.Outcome State Fault Refusal :=
  s.onChip (r < 16) (fun k => k.writePi r value.toNat)
def execVringCiWrite (c : Nat) (value : BitVec 16) (s : State) : Host.Outcome State Fault Refusal :=
  s.onChip (c < 16) (fun k => k.writeCi c value.toNat)
def execSubqEnable (r : Nat) (s : State) : Host.Outcome State Fault Refusal := s.onChip (r < 16) (fun k => k.enableSubq r)
def execVringEnable (c : Nat) (s : State) : Host.Outcome State Fault Refusal := s.onChip (c < 16) (fun k => k.enableVring c)

/-! ### Writing completion records (R554 to R562, R631, R806) -/

/-- R561: ring `c`'s message, once COAL_COUNT records have been written since the last. -/
def Chip.coalesced (k : Chip) (c : Nat) : Chip :=
  let n := k.getF (Reg.vringCfg c) 15 8
  let r := k.vring c
  if n = 0 ∨ r.since < n then k else (k.setVring c { r with since := 0 }).msixSend c

/-- R561: one more record written in ring `c`. -/
def Chip.coalesce (k : Chip) (c : Nat) : Chip :=
  let r := k.vring c
  (k.setVring c { r with since := r.since + 1, firstAt := if r.since = 0 then k.now else r.firstAt }).coalesced c

/-- R611, R631: a BISnpInv under the part's BI-ID. -/
def Chip.snoopLine (k : Chip) (line : Nat) : Chip := (k.send (.biSnp k.hub.biId line)).count Reg.hostBiSent 1

/-- COMPLETION_RECORD_WRITE: the next waiting record of ring `c` is written, once there is room and, in a host-cached block with
back-invalidation in use, once the snoop of its line, sent first, is answered. -/
def execCompletionRecordWrite (c : Nat) (s : State) : Host.Outcome State Fault Refusal :=
  s.onTurn (c < 16) (fun m =>
    let V := s.part.vats
    let r := m.k.vring c
    match r.waiting with
    | [] => m
    | t :: rest =>
      match m.k.job t with
      | none => m
      | some j =>
        let o := j.outcome.getD { status := 0x32, verdict := 0, tokens := 0, closed := false }
        let wi := m.k.getF (Reg.vringWi c) 15 0
        let phase := m.k.getF (Reg.vringWi c) 16 16
        let a := m.k.vringNext c
        let cached := m.k.vringCached c
        if !m.k.serving ∨ !m.k.flag (Reg.vringCfg c) 31 then m
        else if m.k.vringFull c ∨ (cached ∧ !m.k.decoderOn 0) then m.onChip (fun k => k.noteWait c)
        else
          let line := (lookup 0 m.k.hub.decoders 0 + a) / 64
          let snooped := r.snoop.filter (fun x => x.1 = line)
          if cached ∧ m.k.flag Reg.hostLinkStatus 8 ∧ !(snooped.any (fun x => x.2.2)) then
            (if snooped.isSome then m.onChip (fun k => k.noteWait c)
             else m.onChip (fun k => (((k.setVring c { r with snoop := some (line, k.now, false) }).snoopLine line).noteWait c)))
          else
            let p := interleaved V a
            let m := m.hubWrite p.1 p.2 (j.record t phase m.k.now o)
            m.onChip (fun k =>
              let k := (k.countJob j o).setVring c { r with waiting := rest, snoop := none }
              let next := (wi + 1) % k.vringSize c
              let k := k.setF (Reg.vringWi c) 15 0 next
              let k := if next = 0 then k.setF (Reg.vringWi c) 16 16 (1 - phase) else k
              ((k.freeTag t).event c |>.coalesce c).noteWait c))

/-- BI_RESPONSE: the host's BIRsp for a line arrives. -/
def execBiResponse (line : Nat) (s : State) : Host.Outcome State Fault Refusal :=
  s.onChip true (fun k =>
    (List.range 16).foldl (fun k c =>
      let r := k.vring c
      match r.snoop with
      | some (l, at_, _) => if l = line then k.setVring c { r with snoop := some (l, at_, true) } else k
      | none => k) k)

/-- BI_TIMEOUT (R632): ring `c`'s snoop has gone unanswered for 100 µs with the link up: it is logged and sent again. -/
def execBiTimeout (c : Nat) (s : State) : Host.Outcome State Fault Refusal :=
  s.onChip (c < 16) (fun k =>
    let r := k.vring c
    match r.snoop with
    | some (l, at_, false) =>
      if k.now < at_ + 100000 ∨ k.getF Reg.hostLinkStatus 2 0 = 0 then k
      else ((k.setVring c { r with snoop := some (l, k.now, false) }).logPlain 0x17 c).snoopLine l
    | _ => k)

/-- VERDICT_COALESCE_TIMER: COAL_TIME has passed since the first record that ring `c`'s next message would tell of. -/
def execVerdictCoalesceTimer (c : Nat) (s : State) : Host.Outcome State Fault Refusal :=
  s.onChip (c < 16) (fun k =>
    let r := k.vring c
    let o := Reg.vringCfg c
    if r.since = 0 ∨ k.getF o 15 8 = 0 ∨ k.now < r.firstAt + 1000 * k.getF o 27 16 then k
    else (k.setVring c { r with since := 0 }).msixSend c)

end Sys2Proof.Machine
end

