-- ==== Sys2Proof/Machine/Slots.lean ====
section
/-!
DEFINITION. The bank arbiter and its row slots (R163 to R175), the slots of every user, the brine walker (R692 to R695), and
bank takeover (R200 to R206, R710 to R714, R840).
-/

namespace Sys2Proof.Machine

/-! ### Grants -/

/-- ROW_SLOT_GRANT: an idle bank begins the slot of the next request. -/
def execRowSlotGrant (v d b : Nat) (s : State) : Host.Outcome State Fault Refusal :=
  s.onChip (s.hasLogical v d b) (fun k =>
    let u := k.bu v d b
    if u.active.isSome || !k.vatRuns v then k else
    match u.nextSlot with
    | none => k
    | some r =>
      let k := k.setBu v d b { u with active := some r, slotQ := u.slotQ.erase r, baseRun := u.runAfter r }
      match r.cls with
      | .base => (k.count (Reg.buSlotsBase v d b) r.slots).satMax (Reg.buWaitMax v d b) 15 0 ((k.now - r.arrived) / 2)
      | .bank => k.count (Reg.buSlotsBu v d b) 1
      | _ => k)

/-! ### What a slot does at its end -/

/-- A latch after its read slot (R164, R859). -/
def latchOf (ws : List WordRead) : Latch :=
  { bytes := storeRun 0 [] 0 (ws.flatMap (·.bytes)), written := 0
    marked := ((ws.mapIdx (fun i w => if w.res.bad then 2 ^ i else 0))).sum }

/-- R171, R172, R859: the written column words of a latch stored into a row. -/
def storeLatch (dr : Dram) (v d b row : Nat) (l : Latch) : Dram :=
  ((List.range 32).filter (fun w => l.written / 2 ^ (32 * w) % 2 ^ 32 ≠ 0)).foldl
    (fun dr w => dr.putEither (bankByte v d b (1024 * row + 32 * w)) (lookupRun 0 l.bytes (32 * w) 32) (l.marked.testBit w)) dr

/-- Table 4.8: the result of an operation on one byte of the latch and one of source B. -/
def legacyByte (op : Nat) (a b : Byte) : Byte :=
  match op with
  | 3 => a &&& b | 4 => a ||| b | 5 => a ^^^ b | _ => a

/-- R210 to R212: a slot of a legacy row operation ends; the next is asked for until the last row is done. -/
def Chip.legacyEnd (k : Chip) (dr : Dram) (v d a : Nat) : Dram × Chip :=
  let l := k.legacy v d a
  if !l.busy then (dr, k) else
  let op := recField l.command 6 7
  let n := (legacySources op).getD 0
  if l.phase < n then
    let r := k.readRow dr v d (k.phys v d a) l.slotRow 4
    let bytes := r.1.flatMap (·.bytes)
    let bad := ((r.1.mapIdx (fun i w => if w.res.bad then 2 ^ i else 0))).sum
    let latch := if l.phase = 0 then (if op = 6 then bytes.map (fun x => ~~~x) else bytes) else l.latch.zipWith (legacyByte op) bytes
    (dr, (r.2.setLegacy v d a { l with phase := l.phase + 1, latch := latch, bad := Nat.lor l.bad bad }).legacySlot v d a)
  else
    let row := l.slotRow
    let data := if op = 2 then (List.replicate 128 ((l.command.drop 16).take 8)).flatten else l.latch
    let dr := (List.range 32).foldl (fun dr i =>
      k.storeAt dr v (physAddr d a (1024 * row + 32 * i)) ((data.drop (32 * i)).take 32) (l.bad.testBit i)) dr
    let l' := { l with rowsDone := l.rowsDone + 1, dataError := l.dataError || l.bad ≠ 0, phase := 0, latch := [], bad := 0 }
    let k := k.setLegacy v d a l'
    (dr, if l'.rowsDone ≤ recField l.command 14 16 then k.legacySlot v d a else k)

/-- R203: the copy asks for its next slot: a read slot in the old bank, or a write slot in the spare. -/
def Chip.copySlot (k : Chip) (v d b : Nat) (use : SlotUse) : Chip :=
  let u := k.bu v d b
  k.setBu v d b { u with slotQ := u.slotQ ++ [{ use := use, cls := .bank, row := none, arrived := k.now }] }

/-- R712: a column word copied: counted, and logged but for a correction. -/
def Chip.noteCopy (k : Chip) (v d b row word : Nat) (r : WordRead) : Chip :=
  match r.res with
  | .ce => k.satAdd (Reg.buEccCe v d b) 31 0 1
  | _ => k.noteRead v d b row word 5 r

/-- R203, R712: the takeover copies its next row into the spare. -/
def Chip.copyRow (k : Chip) (dr : Dram) (v d : Nat) : Dram × Chip :=
  let x := k.die v d
  match x.takeover with
  | none => (dr, k)
  | some t =>
    let old := x.phys t.logical
    let new := x.phys (96 + t.slot)
    let ws := (List.range 32).map (fun i => dr.word (bankByte v d old (1024 * t.nextRow + 32 * i)))
    let dr := (ws.zipIdx).foldl (fun dr w => dr.putEither (bankByte v d new (1024 * t.nextRow + 32 * w.2)) w.1.bytes w.1.res.bad) dr
    let k := (ws.zipIdx).foldl (fun k w => k.noteCopy v d old t.nextRow w.2 w.1) k
    let ue := if ws.any (fun w => w.res = .ue) then 1 else 0
    let k := k.setDie v d { k.die v d with takeover := some { t with nextRow := t.nextRow + 1, ueRows := t.ueRows + ue } }
    (dr, if t.nextRow + 1 < 65536 then k.copySlot v d old .copyRead else k)

/-- R708: a word marked by the walker joins the poison list. -/
def Chip.notePoisoned (k : Chip) (dpa : Nat) : Chip :=
  if k.hub.poison.length < 512 then { k with hub := { k.hub with poison := k.hub.poison ++ [dpa] } }
  else { k with hub := { k.hub with poisonOvf := true } }

/-- R163, R713: the slots of a copy that ends: those waiting go, one begun runs to its end. -/
def Chip.endCopy (k : Chip) (v d : Nat) (t : Takeover) : Chip :=
  let x := k.die v d
  let mine (r : SlotReq) : Bool := r.use = .copyRead || r.use = .copyWrite
  [x.phys t.logical, x.phys (96 + t.slot)].foldl (fun k b =>
    let u := k.bu v d b
    k.setBu v d b { u with
      slotQ := u.slotQ.filter (fun r => !mine r), active := u.active.map (fun r => if mine r then { r with use := .spent } else r) }) k

/-- R713: the spare receiving a copy has failed: it retires, and the takeover starts again. -/
def Chip.spareFails (k : Chip) (v d : Nat) : Chip :=
  let x := k.die v d
  match x.takeover with
  | none => k
  | some t =>
    (k.endCopy v d t).setDie v d { x with
      spares := setAt x.spares t.slot .retired, takeover := none, takeoverQ := (t.logical, t.trigger) :: x.takeoverQ }

/-- R713: physical bank `b` is the spare that a copy on its die fills, as far as row `row`. -/
def Chip.copyingInto (k : Chip) (v d b row : Nat) : Bool :=
  let x := k.die v d
  x.takeover.any (fun t => x.phys (96 + t.slot) = b && row < t.nextRow)

/-- R693: the walker has read a row: a MISADDR word is logged, and words to correct or to mark ask for a rewrite: a read slot and a write slot,
granted one after the other, in whose read slot they are decoded afresh. -/
def Chip.walkRow (k : Chip) (dr : Dram) (v d b row : Nat) : Chip :=
  let word (i : Nat) : WordRead := dr.word (bankByte v d b (1024 * row + 32 * i))
  let k := (List.range 32).foldl (fun k i => if (word i).res = .misaddr then k.noteRead v d b row i 3 (word i) else k) k
  let ws := (List.range 32).filter (fun i => (word i).res = .ce || (word i).res = .ue)
  if ws = [] then k else
  let u := k.bu v d b
  k.setBu v d b { u with slotQ := u.slotQ ++ [{ use := .rescrub row ws, cls := .base, row := some row, arrived := k.now, slots := 2 }] }

/-- R693, Table 15.2: the walker at one column word of a row, in the rewrite's read slot. -/
def Chip.walkWord (V v d b row : Nat) (a : Dram × Chip) (i : Nat) : Dram × Chip :=
  let at_ := bankByte v d b (1024 * row + 32 * i)
  let r := a.1.word at_
  let k := a.2.noteRead v d b row i 3 r
  match r.res with
  | .ce => (a.1.putWord at_ r.bytes, k.count (Reg.brineCorrected v) 1)
  | .ue =>
    let lg := (k.die v d).logicalOf b
    let k := k.count (Reg.brineMarked v) 1
    (a.1.putMarked at_ r.bytes, if lg < 96 then k.notePoisoned (windowOf V v (physAddr d lg (1024 * row + 32 * i))) else k)
  | _ => (a.1, k)

/-- R695: a bank's walk, which began at a time, has ended: a lag of more than a hundredth of PERIOD beyond it is logged. -/
def Chip.walkEnd (k : Chip) (v d b began : Nat) : Chip :=
  let period := k.getF (Reg.brineCtl v) 19 0 * 1000000000
  let lag := k.now - (began + period)
  if period / 100 < lag then
    (k.satMax (Reg.brineLagMax v) 15 0 (lag / 1000000)).logBank 0x08 v d ((k.die v d).logicalOf b) (lag / 1000000)
  else k

/-- The effect of a slot at its end (R164, R169). -/
def Chip.slotEnd (k : Chip) (dr : Dram) (V v d b : Nat) (r : SlotReq) : Dram × Chip :=
  let u := k.bu v d b
  match r.use with
  | .buRead l row =>
    let x := k.readRow dr v d b row 2
    let u := x.2.bu v d b
    (dr, x.2.setBu v d b { u with latches := setAt u.latches l (latchOf x.1) })
  | .buWrite l row => (k.hostOver (storeLatch dr v d b row (u.latch l)) v d b row, k)
  | .host h =>
    let (dr, k) := k.hostTurn dr V v h (k.now - r.arrived)
    if h.write then (dr, (k.count (Reg.vmcWrites v) 1).answer .written) else (dr, k)
  | .hostStore =>
    let x := k.vat v
    (dr, (k.setVat v { x with wq := x.wq.eraseP (fun e => e.die = d && k.phys v d e.logical = b && r.row = some e.row) }).count (Reg.vmcWrites v) 1)
  | .hubStore a o bs =>
    let m := ({ dr := dr, k := k } : Mach).bankRun v d a (bs.length / 32 + 2) o bs
    (m.k.hostOver m.dr v d b (o / 1024), m.k)
  | .dmaRead c e row ws => (dr, k.dmaReadEnd dr { v := v, c := c, e := e } row ws)
  | .dmaWrite c e row =>
    let x := k.dmaWriteEnd dr { v := v, c := c, e := e } row
    (x.2.hostOver x.1 v d b (row % 65536), x.2)
  | .rowOp a =>
    let row := (k.legacy v d a).slotRow
    let x := k.legacyEnd dr v d a
    (x.2.hostOver x.1 v d b row, x.2)
  | .copyRead =>
    match (k.die v d).takeover with
    | some t => (dr, k.copySlot v d ((k.die v d).phys (96 + t.slot)) .copyWrite)
    | none => (dr, k)
  | .copyWrite => k.copyRow dr v d
  | .scrub row began =>
    let k := k.walkRow dr v d b row
    (dr, if row = 65535 then k.walkEnd v d b began else k)
  | .rescrub row ws =>
    let ue := ws.any (fun i => (dr.word (bankByte v d b (1024 * row + 32 * i))).res = .ue)
    let x := ws.foldl (Chip.walkWord V v d b row) (dr, k)
    (x.1, if ue && k.copyingInto v d b row then x.2.spareFails v d else x.2)
  | .refresh => (dr, k)
  | .spent => (dr, k)

/-- ROW_SLOT_END (R163, R164). -/
def execRowSlotEnd (v d b : Nat) (s : State) : Host.Outcome State Fault Refusal :=
  s.onBoth (s.hasLogical v d b) (fun dr k =>
    let u := k.bu v d b
    match u.active with
    | none => (dr, k)
    | some r => (k.setBu v d b { u with active := none }).slotEnd dr s.part.vats v d b r)

/-- REFRESH (R165, Table 4.2): the bank's refresh asks for its three consecutive slots. -/
def execRefresh (v d b : Nat) (s : State) : Host.Outcome State Fault Refusal :=
  s.onVat (s.hasLogical v d b) v (fun k =>
    let u := k.bu v d b
    k.setBu v d b { u with slotQ := u.slotQ ++ [{ use := .refresh, cls := .refresh, row := none, arrived := k.now, slots := 3 }] })

/-- SCRUB_PROMOTION (R167): a scrub request that has waited 1 ms joins the base-die class, at its time of promotion. -/
def execScrubPromotion (v d b : Nat) (s : State) : Host.Outcome State Fault Refusal :=
  s.onChip (s.hasLogical v d b) (fun k =>
    let u := k.bu v d b
    k.setBu v d b { u with slotQ := u.slotQ.map (fun r =>
      if r.cls = .scrub && r.arrived + 1000000 ≤ k.now then { r with cls := .base, arrived := k.now } else r) })

/-- FENCE_TIMEOUT (R175): a fence held for its die's limit is released. -/
def execFenceTimeout (v d b : Nat) (s : State) : Host.Outcome State Fault Refusal :=
  s.onVat (s.hasLogical v d b) v (fun k =>
    let u := k.bu v d b
    if u.fenceHeld ∧ u.fenceSince + u.fenceLimit ≤ k.now then
      (k.setBu v d b { u with fenceHeld := false }).logBank 0x11 v d ((k.die v d).logicalOf b) 0
    else k)

/-! ### The brine walker -/

/-- R692: the banks a walk visits: the active ones, and the spares that calibrate or copy. -/
def Die.walked (x : Die) : List Nat :=
  (List.range 96).map x.phys ++ ((List.range 4).filter (fun q => x.spare q = .calibrating || x.spare q = .copying)).map (fun q => x.phys (96 + q))

/-- The scrub request of one bank. -/
def Chip.askScrub (k : Chip) (v d row b : Nat) : Chip :=
  let u := k.bu v d b
  k.setBu v d b { u with slotQ := u.slotQ ++ [{ use := .scrub row (k.vat v).walkAt, cls := .scrub, row := some row, arrived := k.now }] }

/-- BRINE_VISIT (R692, R694): the walker's next pass: one scrub-class request for one row of every bank it walks. -/
def execBrineVisit (v : Nat) (s : State) : Host.Outcome State Fault Refusal :=
  s.onChip (s.hasVat v) (fun k =>
    let x := k.vat v
    let interval := k.getF (Reg.brineCtl v) 19 0 * 1000000000 / 65536
    let due := match x.passAt with | some t => decide (t + interval ≤ k.now) | none => true
    if !(k.flag (Reg.brineCtl v) 31 && due && k.vatRuns v) then k
    else
      let row := k.getF (Reg.brinePos v) 15 0
      let k := k.setVat v { x with passAt := some k.now, walkAt := if row = 0 then k.now else x.walkAt }
      let k := (List.range 16).foldl (fun k d => ((k.die v d).walked).foldl (fun k b => k.askScrub v d row b) k) k
      let k := k.setF (Reg.brinePos v) 15 0 (row + 1)
      if row = 65535 then k.count (Reg.brineWalks v) 1 else k)

/-! ### Spares and takeover -/

/-- The die with the state of a spare slot set. -/
def Die.setSpare (x : Die) (q : Nat) (st : SpareState) : Die := { x with spares := setAt x.spares q st }

/-- R494: a spare leaves CALIBRATING: the shadows it held are lost. -/
def Chip.dropShadows (k : Chip) (v d q : Nat) : Chip :=
  let lose (c : Ctx) : Ctx :=
    if c.vat = v ∧ c.die = d ∧ c.spare = some q then
      { c with shadowOk := false, shadow := [], spare := none, shadowFirst := (c.tail + 1) % 2 ^ 24 }
    else c
  { k with hub := { k.hub with ctxs := k.hub.ctxs.map (fun c => (c.1, lose c.2)) } }

/-- R202: the spare slot a takeover uses. -/
def Die.takeoverSpare (x : Die) : Option Nat :=
  match (List.range 4).find? (fun q => x.spare q = .ready) with
  | some q => some q
  | none => (List.range 4).find? (fun q => x.spare q = .calibrating)

/-- R469: the records of the contexts that have changed since an earlier chip, written through. -/
def Mach.throughRecords (m : Mach) (V : Nat) (old : Chip) : Mach :=
  m.k.hub.ctxs.foldl (fun m c =>
    if (old.ctx c.1).any (fun o => o.recordBytes c.1 = c.2.recordBytes c.1) then m else m.putRecord V c.1 c.2) m

/-- R202, R710, R711, R714: the trigger at the head of a die's queue. -/
def Chip.startTakeover (k : Chip) (p : Part) (v d : Nat) : Chip :=
  let x := k.die v d
  match x.takeover, x.takeoverQ with
  | none, (a, code) :: rest =>
    match x.takeoverSpare with
    | none =>
      let k := (k.setDie v d { x with takeoverQ := rest }).logBank 0x24 v d a code
      let u := k.bu v d (x.phys a)
      let k := if code = 1 || (u.run = .fault && u.cause = BankCause.buInternal.code) then k.raise (Reg.buEccState v d (x.phys a)) 1 else k
      k.degradeDie p.lanes128 v d
    | some q =>
      let k := if x.spare q = .calibrating then (k.stopUnit v d (96 + q)).dropShadows v d q else k
      let x := k.die v d
      let t : Takeover := { logical := a, slot := q, nextRow := 0, trigger := code, ueRows := 0 }
      let k := k.setDie v d { x.setSpare q .copying with
        takeoverQ := rest, takeover := some t, zeroing := x.zeroing.filter (fun z => z.1 ≠ q) }
      ((k.logBank 0x22 v d a (q + 256 * code)).copySlot v d (x.phys a) .copyRead).freezeCal
  | _, _ => k

/-- TAKEOVER_START (R202, R469, R710, R711, R714, R805): on a part that is READY, a takeover begins; the records of contexts whose shadows it ends are
written through. -/
def execTakeoverStart (v d : Nat) (s : State) : Host.Outcome State Fault Refusal :=
  s.onTurn (s.hasDie v d) (fun m =>
    if m.k.hub.boot.cond ≠ .ready then m else (m.onChip (fun k => k.startTakeover s.part v d)).throughRecords s.part.vats m.k)

/-- Requests of the base die and the walker, which follow an active index to its new bank. -/
def SlotReq.follows (r : SlotReq) : Bool :=
  match r.use with
  | .host _ => true | .hostStore => true | .hubStore .. => true | .dmaRead .. => true | .dmaWrite .. => true | .rowOp _ => true
  | .scrub .. => true | .rescrub .. => true | .buRead .. => false | .buWrite .. => false | .copyRead => false | .copyWrite => false
  | .refresh => false | .spent => false

/-- TAKEOVER_EXCHANGE (R205, R840): every row copied, the index and the spare slot exchange their banks. A program that still runs behind either, or
a start that waits there, is stopped first (DESIGN CHOICE, log entry 77). -/
def execTakeoverExchange (v d : Nat) (s : State) : Host.Outcome State Fault Refusal :=
  s.onChip (s.hasDie v d) (fun k =>
    let x := k.die v d
    match x.takeover with
    | none => k
    | some t =>
      let old := x.phys t.logical
      let new := x.phys (96 + t.slot)
      if t.nextRow < 65536 || (k.bu v d old).active.isSome || (k.bu v d new).active.isSome then k
      else if (k.bu v d old).run = .run || (k.bu v d old).waiting.isSome then k.stopUnit v d t.logical
      else if (k.bu v d new).run = .run || (k.bu v d new).waiting.isSome then k.stopUnit v d (96 + t.slot)
      else
        let uo := k.bu v d old
        let un := k.bu v d new
        let k := k.setBu v d old { uo with slotQ := uo.slotQ.filter (fun r => !r.follows) }
        let k := k.setBu v d new { un with slotQ := un.slotQ ++ uo.slotQ.filter SlotReq.follows }
        let k := (List.range 32).foldl (fun k p => k.setReg (Reg.buPage v d new p) (k.reg (Reg.buPage v d old p))) k
        let k := k.setDie v d { x.setSpare t.slot .retired with
          bankMap := setAt (setAt x.bankMap t.logical new) (96 + t.slot) old, takeover := none }
        k.logBank 0x23 v d t.logical (t.slot + 65536 * (t.ueRows % 2 ^ 16)))

/-- SPARE_COPY_FAULT (R713): the spare receiving a copy has failed. -/
def execSpareCopyFault (v d : Nat) (s : State) : Host.Outcome State Fault Refusal := s.onChip (s.hasDie v d) (fun k => k.spareFails v d)

/-- SPARE_ZEROED (R201, R814): a spare whose bank and scratch have been written to zero enters CALIBRATING for its new
domain; the program it ran before has ended, with its last slot. -/
def execSpareZeroed (v d q : Nat) (s : State) : Host.Outcome State Fault Refusal :=
  s.onBoth (s.hasDie v d && q < 4) (fun dr k =>
    let x := k.die v d
    match x.zeroing.find? (fun z => z.1 = q) with
    | none => (dr, k)
    | some z =>
      let b := x.phys (96 + q)
      if (k.bu v d b).run = .run || (k.bu v d b).active.isSome then (dr, k) else
      let k := (k.setBu v d b { k.bu v d b with scratch := [] }).count (Reg.buSlotsBase v d b) 65536
      let x := k.die v d
      (dr.clear (bankByte v d b 0) (bankByte v d b (2 ^ 26)),
        k.setDie v d { x.setSpare q .calibrating with
          zeroing := x.zeroing.filter (fun y => y.1 ≠ q), spareDomain := setAt x.spareDomain q z.2 }))

/-- BU_CHECKER_TRIP (R710, Table 15.6): a checker of a bank unit trips: its program stops with BU_INTERNAL. -/
def execBuCheckerTrip (v d b : Nat) (s : State) : Host.Outcome State Fault Refusal :=
  s.onChip (s.hasLogical v d b) (fun k =>
    let u := k.bu v d b
    let a := (k.die v d).logicalOf b
    let k := if u.run = .run && u.ending.isNone then k.bankFault v d b .buInternal u.seq.lib u.seq.pc else k
    let w := k.bu v d b
    let k := (k.logBank 0x20 v d a (w.faultPc + if w.faultLib then 2 ^ 12 else 0)).autoTrigger v d a 1
    if (k.die v d).takeover.any (fun t => 96 + t.slot = a) then k.spareFails v d else k)

end Sys2Proof.Machine
end

