-- ==== Sys2Proof/Machine/Log.lean ====
section
/-!
DEFINITION. The error log's writer (R702 to R708, R760): coalescing, storms, a full log, interrupts and CXL event records.
-/

namespace Sys2Proof.Machine

/-- The hub's log changed. -/
def Chip.onLog (k : Chip) (f : LogState → LogState) : Chip := k.onHub (fun h => { h with log := f h.log })

/-- R707: the overflow of a CXL event log, where it has dropped a record since it was last cleared. -/
def LogState.overflow (l : LogState) (n : Nat) : Option Overflow := (l.dropped.find? (fun x => x.1 = n)).map (·.2)

/-- R703: the memory classes, whose location is the vat, die, logical index and row. -/
def memoryClass (c : Nat) : Bool := [0x01, 0x02, 0x03, 0x04, 0x08, 0x22, 0x23, 0x24].contains c

/-- R703: two occurrences of one class at one location. -/
def LogOcc.sameAs (a b : LogOcc) : Bool :=
  a.cls = b.cls &&
    if memoryClass a.cls then a.vat = b.vat && a.die = b.die && a.logical = b.logical && a.row = b.row
    else decide ({ a with time := b.time, sev := b.sev } = b)

/-- R702: the unconsumed entries. -/
def Chip.logPending (k : Chip) : Nat := (k.getF Reg.logWi 11 0 + 4096 - k.getF Reg.logRi 11 0) % 4096

/-- R703: an entry has not been consumed. -/
def Chip.logFresh (k : Chip) (i : Nat) : Bool := (i + 4096 - k.getF Reg.logRi 11 0) % 4096 < k.logPending

/-- R703: the latest entry that an occurrence coalesces into. -/
def Chip.logMatch (k : Chip) (o : LogOcc) : Option (Nat × LogEntry) :=
  k.hub.log.recent.findSome? (fun i =>
    if !k.logFresh i then none
    else match k.hub.log.ring.find? (fun e => e.1 = i) with
      | some e => if e.2.first.sameAs o then some e else none
      | none => none)

/-- R707: the CXL event log of a class: 0 Informational, 1 Warning, 2 Failure. -/
def eventLog (cls : Nat) : Option Nat :=
  match cls with
  | 0x01 => some 0
  | 0x02 | 0x03 | 0x05 | 0x27 => some 2
  | 0x04 | 0x22 | 0x23 | 0x24 | 0x25 | 0x26 => some 1
  | _ => none

/-- R707: the type of the record that an entry of a class makes. -/
def eventKind (cls : Nat) : EventKind := if cls = 0x01 ∨ cls = 0x02 ∨ cls = 0x03 ∨ cls = 0x05 then .dram else .memoryModule

/-- R707: one more record dropped by a full event log, at a time. -/
def Overflow.next (x : Option Overflow) (now : Nat) : Overflow :=
  match x with
  | none => { count := 1, first := now, last := now }
  | some x => { x with count := x.count + 1, last := now }

/-- R707: an event record for an entry; a log of 256 records drops what comes after. -/
def Chip.addEvent (k : Chip) (o : LogOcc) : Chip :=
  match eventLog o.cls with
  | none => k
  | some n => k.onLog (fun l =>
    let rs := lookup [] l.events n
    if rs.length < 256 then
      let h := l.handle % 65535 + 1
      { l with events := insert l.events n (rs ++ [{ handle := h, kind := eventKind o.cls, occ := o }]), handle := h }
    else { l with dropped := insert l.dropped n (Overflow.next (l.overflow n) k.now) })

/-- R702, R705, R706, R707, R760, R794: an entry written at LOG_WI, or counted while the log is full. -/
def Chip.newEntry (k : Chip) (o : LogOcc) : Chip :=
  let i := k.getF Reg.logWi 11 0
  if (i + 1) % 4096 = k.getF Reg.logRi 11 0 then (k.satAdd (Reg.logOvf o.cls) 15 0 1).raise Reg.logStatus 31
  else
    let k := k.setF Reg.logWi 11 0 (i + 1)
    let k := k.onLog (fun l => { l with
      ring := insert l.ring i { first := o, count := 1, last := o.time }
      recent := (i :: l.recent.filter (· ≠ i)).take 64
      owed := l.owed || decide (k.getF Reg.logCfg 1 0 ≤ o.sev) })
    let k := (k.addEvent o).event 16
    if [0x30, 0x31, 0x32, 0x34].contains o.cls then k.msix 20
    else if 0x50 ≤ o.cls && o.cls ≤ 0x56 then k.msix 21
    else k

/-- R703: an occurrence counted in the latest entry that it coalesces into. -/
def Chip.logAgain (k : Chip) (o : LogOcc) : Option Chip :=
  (k.logMatch o).map (fun e =>
    k.onLog (fun l => { l with ring := insert l.ring e.1 { e.2 with count := min 0xFFFF (e.2.count + 1), last := o.time } }))

/-- R704: the CE entries of a bank in the last millisecond, and the storm that they make. -/
def Chip.noteStorm (k : Chip) (o : LogOcc) : Chip :=
  let key := bankKey o.vat o.die o.phys
  let ts := ((lookup [] k.hub.log.ceTimes key) ++ [k.now]).filter (fun t => k.now < t + 1000000)
  let k := k.onLog (fun l => { l with ceTimes := insert l.ceTimes key ts })
  if ts.length < k.getF Reg.logCfg 15 8 then k
  else
    let k := (k.raise (Reg.buEccState o.vat o.die o.phys) 0).onLog (fun l => { l with ceTimes := erase l.ceTimes key })
    let storm : LogOcc := { occ 0x04 k.now with
      vat := o.vat, die := o.die, logical := o.logical, phys := o.phys, core := o.core, detail := ts.length }
    ((k.logAgain storm).getD (k.newEntry storm)).autoTrigger o.vat o.die o.logical 2

/-- R703 to R705: what the log writer does with an occurrence. -/
def Chip.writeLog (k : Chip) (o : LogOcc) : Chip :=
  if o.cls = 0x01 ∧ k.flag (Reg.buEccState o.vat o.die o.phys) 0 then k
  else match k.logAgain o with
  | some k => k
  | none =>
    let full := (k.getF Reg.logWi 11 0 + 1) % 4096 = k.getF Reg.logRi 11 0
    let k := k.newEntry o
    if o.cls = 0x01 ∧ !full then k.noteStorm o else k

/-- LOG_ENTRY_WRITE (R703 to R705): the writer takes the oldest waiting occurrence. -/
def execLogEntryWrite (s : State) : Host.Outcome State Fault Refusal :=
  s.onChip true (fun k =>
    match k.hub.logQ with
    | [] => k
    | o :: rest => (k.onHub (fun h => { h with logQ := rest })).writeLog o)

/-- LOG_IRQ (R706): the gap has passed with an entry to be told of: vector 16 is sent. -/
def execLogIrq (s : State) : Host.Outcome State Fault Refusal :=
  s.onChip true (fun k =>
    let late := match k.hub.log.sentAt with
      | none => true
      | some t => t + 1000 * k.getF Reg.logCfg 31 16 ≤ k.now
    if k.hub.log.owed && late then (k.onLog (fun l => { l with owed := false, sentAt := some k.now })).msixSend 16 else k)

/-- Table 15.3: the 32 bytes of an entry. -/
def LogEntry.bytes (e : LogEntry) : List Byte :=
  let o := e.first
  let place : List Byte := match o.dpa with
    | some a => leBytes 8 (a % 2 ^ 42)
    | none => leBytes 2 o.row ++ leBytes 1 (o.word % 32 + 32 * o.source) ++ leBytes 1 o.sym ++ leBytes 4 o.detail
  leBytes 1 o.cls ++ leBytes 1 (o.sev % 4) ++ leBytes 2 e.count ++ leBytes 1 (o.vat % 8 + 16 * o.die) ++ leBytes 1 (o.logical % 128)
    ++ leBytes 1 (o.phys % 128) ++ leBytes 1 (o.core % 4 + 4 * (o.stream % 8)) ++ place ++ leBytes 8 o.time ++ leBytes 8 e.last

end Sys2Proof.Machine
end

