-- ==== Sys2Proof/Machine/Failure.lean ====
section
/-!
DEFINITION. Failures and the requests of FAIL_REQ (R709 to R722): takeover and page, spare and core requests, the retirement of a
core, the loss of a vat, and errors of the hub's own memory.
-/

namespace Sys2Proof.Machine

/-! ### Stopping (R182, R718, R600) -/

/-- R182: a stream stopped: IDLE, what it issued and has not completed gone with it. -/
def Chip.stopStream (k : Chip) (v c s : Nat) : Chip :=
  let t := k.stream v c s
  k.setStream v c s { t with run := .idle, hold := none, stall := none, inflight := [], stoppedAt := k.now }

/-- Every stream of a core stopped. -/
def Chip.stopStreams (k : Chip) (v c : Nat) : Chip := (List.range 5).foldl (fun k s => k.stopStream v c s) k

/-- Every bank unit of a core's dies stopped. -/
def Chip.stopBanks (k : Chip) (v c : Nat) : Chip :=
  (List.range 4).foldl (fun k i => (List.range 100).foldl (fun k a => k.stopUnit v (4 * c + i) a) k) k

/-! ### Retirement of a core (R718, R720) -/

/-- The contexts homed on a core's dies. -/
def Chip.homedOn (k : Chip) (v c : Nat) : Nat :=
  (k.hub.ctxs.filter (fun x => x.2.vat = v && ownerOf x.2.die = c && x.2.state ≠ .spilled)).length

/-- R718: a core retired: its streams and bank units stopped, its jobs ended, its dies degraded. -/
def Mach.retireCore (m : Mach) (p : Part) (v c : Nat) : Mach :=
  if m.k.coreRetired v c then m
  else
    let m := (m.onChip (fun k => k.stopStreams v c)).failJobsOf p.vats (4 * v + c)
    m.onChip (fun k =>
      let k := (k.stopBanks v c).logCore 0x26 v c (k.homedOn v c)
      let k := (List.range 4).foldl (fun k i => k.raise (Reg.vatStatus v) (4 * c + i)) (k.raise Reg.failState (4 * v + c))
      (k.onHub (fun h => { h with caveShut := h.caveShut ++ (List.range 4).map (fun i => dieKey v (4 * c + i)) })).rebound p.lanes128)

/-- CORE_CHECKER_TRIP (R718, Table 8.17): a checker of a core's press (0), vector (1) or control (2) engine trips under a stream, which
faults CORE_INTERNAL; with AUTO_CORE the core retires. -/
def execCoreCheckerTrip (v c stream engine : Nat) (s : State) : Host.Outcome State Fault Refusal :=
  s.onMach (s.hasCore v c && stream < 5 && engine < 3) (fun m =>
    let t := m.k.stream v c stream
    let k := if t.run = .run ∨ t.run = .ending then m.k.coreFault v c stream 0x64 t.seq else m.k
    let m : Mach := { m with k := k.logStream 0x21 v c stream engine }
    if m.k.flag Reg.failPolicy 3 then m.retireCore s.part v c else m)

/-! ### Loss of a vat (R721, R722, R782) -/

/-- R721, R722: what lay in vat `e` went with the vats lost: itself, and with replicas the copy in the next vat too. -/
def Chip.lostWith (k : Chip) (V e : Nat) : Bool := (k.vat e).lost && (!k.flag Reg.ctxReplica 0 || (k.vat ((e + 1) % V)).lost)

/-- R721, R722: a context goes with vat `v`: homed there, or no copy of its record or of its directory entry is left. -/
def Chip.goesWith (k : Chip) (V v i : Nat) (c : Ctx) : Bool :=
  (c.vat = v && c.state ≠ .spilled) || k.lostWith V (i % V) || k.lostWith V (c.place.1 % V)

/-- R721: a context closed without a completion record; its unfinished jobs end UNAVAILABLE. R782: its close tells nobody. R480: where an affinage
job stands on a bank that is left, the context is CLOSING until that has ended. -/
def Mach.loseCtx (m : Mach) (V i : Nat) (c : Ctx) : Mach :=
  let m := if m.k.hasAff i ∧ c.state ≠ .spilled ∧ !(m.k.vat c.vat).lost then
      (m.setCtx V i { c with state := .closing, mirrored := false, spill := .home }).onChip (fun k => k.onHub (fun h =>
        { h with closes := h.closes.filter (fun x => x.handle ≠ c.handle i) }))
    else m.dropCtx V i c
  m.onChip (fun k => k.orphanJobs (c.handle i) 0x33)

/-- R469, R509: a migration to a vat that is lost ends, its context staying where it is. -/
def Mach.dropMigrations (m : Mach) (V v : Nat) : Mach :=
  (m.k.hub.ctxs.filter (fun c => c.2.migration.any (fun g => g.vat = v))).foldl (fun m c =>
    m.setCtx V c.1 { c.2 with state := .live, migration := none }) m

/-- R721: an access of the host that waits or runs at a bank of a lost vat. -/
def SlotReq.ofHost (r : SlotReq) : Option HostReq := match r.use with | .host h => some h | _ => none

/-- R829: the BAR0 accesses that wait for a vat just lost: a read returns zeros, a write is ignored. -/
def Chip.barsGone (k : Chip) (v : Nat) : Chip :=
  let due := k.hub.barQ.filter (fun a => a.vat = v && !a.write)
  (due.foldl (fun k a => k.answer (.bytes 0 (List.replicate a.size 0))) k).onHub (fun h => { h with barQ := h.barQ.filter (fun a => a.vat ≠ v) })

/-- R721: the host accesses that wait at the banks of a vat just lost are answered as later ones are, and what its controller still had to store is
gone. -/
def Chip.hostsGone (k : Chip) (v : Nat) : Chip :=
  k.bus.foldl (fun k u =>
    if u.1 / 1600 ≠ v then k
    else
      let left := (u.2.slotQ ++ u.2.active.toList).filterMap SlotReq.ofHost
      let k := left.foldl (fun k r => k.hostGone r.write) k
      { k with bus := insert k.bus u.1 { u.2 with
          slotQ := u.2.slotQ.filter (fun r => r.ofHost.isNone && decide (r.use ≠ .hostStore))
          active := u.2.active.filter (fun r => r.ofHost.isNone) } })
    (k.setVat v { k.vat v with wq := [] })

/-- R721: the hub declares vat `v` lost. -/
def Mach.loseVat (m : Mach) (p : Part) (v : Nat) : Mach :=
  if (m.k.vat v).lost then m
  else
    let V := p.vats
    let m := m.onChip (fun k => (((k.setVat v { k.vat v with lost := true }).raise Reg.failState (32 + v)).hostsGone v).barsGone v)
    let m := (List.range 4).foldl (fun m c => m.failJobsOf V (4 * v + c)) m
    let gone := m.k.hub.ctxs.filter (fun c => m.k.goesWith V v c.1 c.2)
    let m := gone.foldl (fun m c => m.loseCtx V c.1 c.2) m
    (m.dropMigrations V v).onChip (fun k => (k.log { occ 0x27 k.now with vat := v, detail := gone.length }).rebound p.lanes128)

/-- VAT_HEARTBEAT_LOSS (R721): a base die has not answered for 10 µs. -/
def execVatHeartbeatLoss (v : Nat) (s : State) : Host.Outcome State Fault Refusal :=
  s.onMach (s.hasVat v) (fun m => m.loseVat s.part v)

/-- BASE_DIE_INTERNAL_ERROR (R721): a base die reports an uncorrectable internal error. -/
def execBaseDieInternalError (v : Nat) (s : State) : Host.Outcome State Fault Refusal :=
  s.onMach (s.hasVat v) (fun m => m.loseVat s.part v)

/-! ### The hub's own memory (R709, R42) -/

/-- R709, R811, R851: the hub stops: its entry is written first; the links go down and FAULT# is asserted. -/
def Chip.hubStop (k : Chip) (code : Nat) : Chip :=
  let k := (k.writeLog { occ 0x2B k.now with detail := code }).linksDown
  k.onHub (fun h => { h with stopped := true, boot := { h.boot with cond := .hubStopped } })

/-- HUB_SRAM_UE (R709): an uncorrectable error in set `n` of the hot directory, whose entries leave it, or in hub structure `n`, which
stops the hub. -/
def execHubSramUe (hotdir : Bool) (n : Nat) (s : State) : Host.Outcome State Fault Refusal :=
  s.onChip true (fun k =>
    if k.hub.stopped then k
    else if hotdir then (k.onHub (fun h => { h with hot := erase h.hot (n % 2 ^ 14) })).logPlain 0x2A (n % 2 ^ 14)
    else k.hubStop n)

/-! ### Requests (FAIL_REQ, FAIL_RESULT) -/

/-- A request of FAIL_REQ: ignored while one runs, else DONE goes down until it has ended. -/
def failRequest (s : State) (f : Mach → Mach) : Host.Outcome State Fault Refusal :=
  s.onMach true (fun m => if m.k.flag Reg.failResult 30 then m else f m)

/-- The last request has ended with a code. -/
def Chip.failDone (k : Chip) (code : Nat) : Chip :=
  ((k.setF Reg.failResult 30 30 0).setF Reg.failResult 3 0 code).raise Reg.failResult 31

/-- R710, R711: a takeover asked for: it starts now, waits behind another, or finds no spare. -/
def Chip.requestTakeover (k : Chip) (V v d a : Nat) : Chip :=
  if V ≤ v ∨ 16 ≤ d ∨ 96 ≤ a then k.failDone 3
  else
    let x := k.die v d
    let waits := x.takeover.isSome || !x.takeoverQ.isEmpty
    let k' := k.trigger v d a 4
    if x.takeoverSpare.isNone ∨ ((k'.die v d).takeoverQ = x.takeoverQ ∧ 4 ≤ x.takeoverQ.length) then k'.failDone 2
    else k'.failDone (if waits then 1 else 0)

/-- TAKEOVER: FAIL_REQ kind 1. -/
def execTakeover (v d a : Nat) (s : State) : Host.Outcome State Fault Refusal :=
  failRequest s (fun m => m.onChip (fun k => k.requestTakeover s.part.vats v d a))

/-- R717: a page retired. -/
def Chip.retirePage (k : Chip) (V v ppn : Nat) : Chip :=
  if V ≤ v ∨ 49152 ≤ ppn then k.failDone 3
  else ((k.raise (Reg.retiredPages v (ppn / 32)) (ppn % 32)).log { occ 0x25 k.now with vat := v, detail := ppn }).failDone 0

/-- RETIRE_PAGE: FAIL_REQ kind 2. -/
def execRetirePage (v ppn : Nat) (s : State) : Host.Outcome State Fault Refusal :=
  failRequest s (fun m => m.onChip (fun k => k.retirePage s.part.vats v ppn))

/-- R715: the test of a RETIRED spare slot, given by its logical index, begins. -/
def Chip.requalify (k : Chip) (V v d a : Nat) : Chip :=
  if V ≤ v ∨ 16 ≤ d ∨ a < 96 ∨ 100 ≤ a then k.failDone 3
  else if (k.die v d).spare (a - 96) ≠ .retired then k.failDone 3
  else (k.setDie v d { k.die v d with requal := some (a - 96, k.now) }).raise Reg.failResult 30

/-- REQUALIFY: FAIL_REQ kind 3. -/
def execRequalify (v d a : Nat) (s : State) : Host.Outcome State Fault Refusal :=
  failRequest s (fun m => m.onChip (fun k => k.requalify s.part.vats v d a))

/-- RETIRE_CORE: FAIL_REQ kind 4. -/
def execRetireCore (v c : Nat) (s : State) : Host.Outcome State Fault Refusal :=
  failRequest s (fun m =>
    if s.part.vats ≤ v ∨ 4 ≤ c then m.onChip (fun k => k.failDone 3) else (m.retireCore s.part v c).onChip (fun k => k.failDone 0))

/-- R715: every row of a bank written with 0xAAAA_AAAA_AAAA_AAAA, the last pattern of the test. -/
def Dram.patternBank (dr : Dram) (v d b : Nat) : Dram :=
  let dr := dr.clear (bankByte v d b 0) (bankByte v d b (2 ^ 26))
  { dr with cells := storeRun 0 dr.cells (bankByte v d b 0) (List.replicate (2 ^ 26) 0xAA) }

/-- REQUALIFY_DONE (R715, R716): the test, of 15.73 ms at least, ends: with `passed`, every row is zero and the slot READY, serving no
domain; else it stays RETIRED. -/
def execRequalifyDone (v d : Nat) (passed : Bool) (s : State) : Host.Outcome State Fault Refusal :=
  s.onBoth (s.hasDie v d) (fun dr k =>
    let x := k.die v d
    match x.requal with
    | none => (dr, k)
    | some (q, at_) =>
      if k.now < at_ + 15730000 then (dr, k)
      else
        let b := x.phys (96 + q)
        let x := { x with requal := none }
        let k := k.logBank 0x29 v d (96 + q) (q + if passed then 256 else 0)
        if passed then
          (dr.clear (bankByte v d b 0) (bankByte v d b (2 ^ 26)),
            (k.setDie v d { x.setSpare q .ready with spareDomain := setAt x.spareDomain q 0 }).failDone 0)
        else (dr.patternBank v d b, (k.setDie v d x).failDone 4))

end Sys2Proof.Machine
end

