-- ==== Sys2Proof/Machine/Kwadan.lean ====
section
/-!
DEFINITION. The Kwadan link and the peer pool (spec/17_kwadan_link.md): ports, flits, mirroring, promotion, spill and job forwarding.
-/

namespace Sys2Proof.Machine

/-! ### Ports (R763, R770 to R774, R777, Table 17.2) -/

/-- A port's new state, entered now. -/
def Chip.toState (k : Chip) (p st : Nat) : Chip :=
  (k.setF (Reg.kwPortStatus p) 2 0 st).setPort p { k.port p with since := k.now }

/-- R785, R787: what a package was asked of contexts offered or spilled to it and may not have heard goes back to where it began. -/
def Chip.unsend (k : Chip) (pkg : Nat) : Chip :=
  k.onHub (fun h => { h with ctxs := h.ctxs.map (fun c => (c.1, if c.2.holder ≠ pkg then c.2 else match c.2.spill with
    | .offered => { c.2 with spill := .home }
    | .recalled => { c.2 with spill := .away }
    | _ => c.2)) })

/-- R788, R793: when the last ACTIVE port to a package is gone. -/
def Chip.notePeer (k : Chip) (pkg : Nat) : Chip :=
  if (k.portTo pkg).isSome then k.onHub (fun h => { h with peerDown := erase h.peerDown pkg })
  else (k.unsend pkg).onHub (fun h => { h with peerDown := insert h.peerDown pkg k.now })

/-- R777, R789, R792: a forwarded job without a FWD_RESULT goes out again to a package under the sequence number that it has, and the abort of an
aborted one behind it. -/
def Chip.resendJob (pkg : Nat) (k : Chip) (j : Job) : Chip :=
  match j.phase with
  | .forwarded q seq =>
    if q ≠ pkg then k
    else
      let k := k.sendTo pkg (.fwdJob j.domain seq (j.deadline - k.now) j.cookie j.cls j.source)
      let k := if j.aborted then k.sendTo pkg (.fwdAbort j.domain j.cookie) else k
      let x := k.port (k.wayTo pkg)
      -- later jobs on the port are newer than those that came to it
      if newer x.fwdSeq seq then k.setPort (k.wayTo pkg) { x with fwdSeq := seq } else k
  | _ => k

/-- R774, R777: every mirror message not acknowledged and every FWD_JOB without a FWD_RESULT goes out again to a package, in the order in which
they first did, as far as its manifest lets them. -/
def Chip.resendTo (k : Chip) (pkg : Nat) : Chip :=
  let k := (k.hub.mirrors.filter (fun m => m.pkg = pkg)).foldl (fun k m => k.sendTo pkg m.msg) k
  (orderBy (·.order) (k.hub.jobs.map (·.2))).foldl (Chip.resendJob pkg) k

/-- A port leaves ACTIVE for a state. -/
def Chip.leaveActive (k : Chip) (p st : Nat) : Chip :=
  let pkg := k.peerOfPort p
  let was := k.portState p
  let k := k.toState p st
  if was = 5 then k.notePeer pkg else k

/-- R794: KW_PORT_DOWN, with the state left. -/
def Chip.logDown (k : Chip) (p was : Nat) : Chip := k.logKw 0x50 (p + was * 2 ^ 8)

/-- R771, R790: a port that begins anew; its lanes, its forward sequences and the results sent go on. -/
def Port.again (x : Port) : Port :=
  { Port.reset with lanes := x.lanes, fwdSeq := x.fwdSeq, fwdSeen := x.fwdSeen, answers := x.answers }

/-- R771: a write of KW_PORT_CTL.ENABLE. -/
def Chip.enablePort (k : Chip) (p : Nat) (on : Bool) : Chip :=
  let was := k.portState p
  let k := k.setF (Reg.kwPortCtl p) 0 0 (if on then 1 else 0)
  if on then (if was = 0 then (k.setPort p (k.port p).again).toState p 1 else k)
  else if was = 0 then k
  else if was = 5 then (k.leaveActive p 0).logDown p was else k.toState p 0

/-- KW_PORT_ENABLE. -/
def execKwPortEnable (p : Nat) (on : Bool) (s : State) : Host.Outcome State Fault Refusal :=
  s.onChip (p < 4) (fun k => k.enablePort p on)

/-- R763: the widest width whose lanes all pass training, as KW_PORT_STATUS.WIDTH codes it, and the lanes it uses; at x1 the lowest. -/
def trainedWidth (lanes : BitVec 4) : Option (Nat × Nat) :=
  if lanes = 15 then some (2, 15)
  else if lanes &&& 3 = 3 then some (1, 3)
  else if lanes &&& 12 = 12 then some (1, 12)
  else ((List.range 4).find? (fun i => lanes.getLsbD i)).map (fun i => (0, 2 ^ i))

/-- R820, Table 18.4: the part lets a port leave DETECT. -/
def Chip.portsRun (k : Chip) : Bool := k.hub.boot.cond = .ready && !k.hub.stopped

/-- R772: this part's side of a key exchange leaves port `p`: its share, its signature and its chain. -/
def Chip.sendAuth (k : Chip) (p : Nat) : Chip := k.sendFlit p (.control (Config.authBody (Config.random k.hub.draws) k.hub.aliasKey))

/-- PORT_STATE_ADVANCE: DETECT to TRAIN, TRAIN to ALIGN at the width that the lanes which passed training give, ALIGN to AUTH. -/
def execPortStateAdvance (p : Nat) (lanes : BitVec 4) (s : State) : Host.Outcome State Fault Refusal :=
  s.onChip (p < 4) (fun k =>
    match k.portState p with
    | 1 => if (k.port p).failed ∨ !k.portsRun then k else k.toState p 2
    | 2 =>
      match trainedWidth lanes with
      | none => k
      | some w => ((k.setF (Reg.kwPortStatus p) 9 8 w.1).setPort p { k.port p with lanes := w.2 }).toState p 3
    | 3 => (k.toState p 4).sendAuth p
    | _ => k)

/-- R772: the check that fails: 1 chain, 2 owner, 3 pool, 4 SVN. -/
def Chip.authFails (k : Chip) (c : PeerCheck) : Option Nat :=
  if !c.chain then some 1
  else if k.hub.owners.getLast? ≠ some c.finger then some 2
  else if c.pool ≠ k.getF Reg.kwCfg 9 2 ∨ c.pkg = k.getF Reg.kwCfg 1 0 ∨ 4 ≤ c.pkg then some 3
  else if c.svn < k.getF Reg.rindSvn 31 16 then some 4
  else none

/-- R773: the key of the direction that package `pkg` sends in, of the exchange that the present draw goes into. -/
def Chip.linkKey (k : Chip) (pkg : Nat) : List Byte :=
  hkdf384 (leBytes 48 (Config.sharedSecret k.hub.draws).toNat) (Config.kdfInfo [leBytes 1 pkg]) 32

/-- R773: an exchange gives port `p` new keys, under which the flits of the replay buffer count from zero on. -/
def Chip.newKeys (k : Chip) (p : Nat) : Chip :=
  let x := k.port p
  (k.setPort p { x with txKey := k.linkKey (k.getF Reg.kwCfg 1 0), rxKey := k.linkKey (k.peerOfPort p), txKeyed := x.replay.length
                        rxKeyed := none }).onHub (fun h => { h with draws := h.draws + 1 })

/-- R788: a holder that can be reached again is told of the closes it missed. -/
def Chip.tellCloses (k : Chip) (pkg : Nat) : Chip :=
  let k1 := (k.hub.untold.filter (fun x => x.1 = pkg)).foldl (fun k x => k.sendTo pkg (.mirrorClose x.2)) k
  k1.onHub (fun h => { h with untold := h.untold.filter (fun x => x.1 ≠ pkg) })

/-- R770, R774, R777: a port becomes ACTIVE: the unacknowledged flits of its replay buffer leave again, the manifest goes out, and what the peer has
not acknowledged follows on the lowest port. Where no port to the peer was ACTIVE, its manifest is asked anew and that waits for it. -/
def Chip.goActive (k : Chip) (p : Nat) : Chip :=
  let pkg := k.peerOfPort p
  let k := if (k.portTo pkg).isSome then k else k.onHub (fun h => { h with peers := erase h.peers pkg })
  let k := ((((k.toState p 5).notePeer pkg).sendReplay p 0).sendOn p (.manifest k.manifest)).tellCloses pkg
  let k := if k.portTo pkg = some p then k.resendTo pkg else k
  (k.pumpPort p).serveSpilled

/-- R772: a failed exchange takes port `p` back to DETECT, where it waits for its retry. -/
def Chip.authAgain (k : Chip) (p : Nat) : Chip := (k.toState p 1).setPort p { k.port p with since := k.now, failed := true }

/-- AUTH_EXCHANGE: the exchange of R772 on port `p` ends; a part that is TAMPERED refuses it (Table 18.4). -/
def execAuthExchange (p : Nat) (c : PeerCheck) (s : State) : Host.Outcome State Fault Refusal :=
  s.onChip (p < 4) (fun k =>
    if k.portState p ≠ 4 then k
    else if k.getF Reg.rindStatus 1 0 = 3 then k.authAgain p
    else match k.authFails c with
    | some n => (k.authAgain p).logKw 0x52 (p + n * 2 ^ 8)
    | none => (((k.setPort p (k.port p).again).setF (Reg.kwPortStatus p) 11 10 c.pkg).newKeys p).goActive p)

/-- AUTH_RETRY: 1 s after a failed check. -/
def execAuthRetry (p : Nat) (s : State) : Host.Outcome State Fault Refusal :=
  s.onChip (p < 4) (fun k =>
    let x := k.port p
    if !x.failed ∨ k.portState p ≠ 1 ∨ k.now < x.since + 10 ^ 9 then k else k.setPort p { x with failed := false })

/-! ### Flits (R765 to R770, R775) -/

/-- R767: an ACKSEQ frees the replay buffer up to it. -/
def Port.acked (x : Port) (seq : Nat) : Port :=
  let n := (seq + 2 ^ 16 - x.txOldest) % 2 ^ 16
  if n < x.replay.length then { x with replay := x.replay.drop (n + 1) } else x

/-- R775: one more flit received on a channel: its credits go back after 64. -/
def Chip.credit (k : Chip) (p c : Nat) : Chip :=
  let x := k.port p
  let n := x.rxCount.getD c 0 + 1
  if n < 64 then k.setPort p { x with rxCount := setAt x.rxCount c n }
  else (k.setPort p { x with rxCount := setAt x.rxCount c 0 }).sendFlit p (.credit c n)

/-- R768: a flit that cannot be used is discarded, and a NAK names the FSEQ expected. -/
def Chip.nakNow (k : Chip) (p : Nat) : Chip := k.sendFlit p (.nak (k.port p).rxSeq)

/-- R767, R775: an ACKSEQ that came on port `p`; what waits for room may leave. -/
def Chip.takeAck (k : Chip) (p seq : Nat) : Chip := (k.setPort p ((k.port p).acked seq)).pumpPort p

/-- R765: the flits that the codewords corrected are counted. -/
def Chip.noteFec (k : Chip) (p : Nat) (errors : Nat × Nat) : Chip := if errors = (0, 0) then k else k.count (Reg.kwPortFec p) 1

/-- R765, R767, R768: a flit without a payload on an ACTIVE port: discarded where it is uncorrectable, else its ACKSEQ taken first. -/
def Chip.onFlit (k : Chip) (p : Nat) (h : FlitHead) (f : Chip → Chip) : Chip :=
  if k.portState p ≠ 5 then k
  else if uncorrectable h.errors then k.nakNow p
  else f ((k.noteFec p h.errors).takeAck p h.ackseq.toNat)

/-- ACK. -/
def execAck (p : Nat) (h : FlitHead) (s : State) : Host.Outcome State Fault Refusal := s.onChip (p < 4) (fun k => k.onFlit p h id)

/-- R770: a port retrains, its replay buffer kept. -/
def Chip.retrain (k : Chip) (p lanes : Nat) : Chip :=
  ((k.leaveActive p 6).satAdd (Reg.kwPortRetrains p) 15 0 1).logKw 0x51 (p + lanes % 16 * 2 ^ 4)

/-- R768, R770: the flits from FSEQ `seq` on leave again; the eighth time in succession for one FSEQ the port retrains. -/
def Chip.resendFrom (k : Chip) (p seq : Nat) : Chip :=
  let x := k.port p
  let n := (seq + 2 ^ 16 - x.txOldest) % 2 ^ 16
  if x.replay.length ≤ n then k
  else
    let again := if x.lastResent = seq then x.resends + 1 else 1
    let k := (k.setPort p { x with lastResent := seq, resends := again }).sendReplay p n
    if again < 8 then k else (k.setPort p { k.port p with resends := 0 }).retrain p 0

/-- NAK: the sender resends from the FSEQ named. -/
def execNak (p : Nat) (f : NakFlit) (s : State) : Host.Outcome State Fault Refusal :=
  s.onChip (p < 4) (fun k => k.onFlit p f.head (fun k => (k.satAdd (Reg.kwPortReplays p) 15 0 1).resendFrom p f.seq.toNat))

/-- CREDIT. -/
def execCredit (p channel : Nat) (f : CreditFlit) (s : State) : Host.Outcome State Fault Refusal :=
  s.onChip (p < 4 && channel < 4) (fun k => k.onFlit p f.head (fun k =>
    let x := k.port p
    (k.setPort p { x with credits := setAt x.credits channel (min 256 (x.credits.getD channel 0 + f.n.toNat)) }).pumpPort p))

/-- FLIT_ERROR: an uncorrectable flit or a CRC mismatch. -/
def execFlitError (p : Nat) (s : State) : Host.Outcome State Fault Refusal :=
  s.onChip (p < 4) (fun k => if k.portState p ≠ 5 then k else k.nakNow p)

/-- R769, R794: a DATA flit whose GCM tag fails takes the port down, which retrains with new keys. -/
def Chip.tagFails (k : Chip) (p : Nat) : Chip := (((k.logKw 0x52 (p + 5 * 2 ^ 8)).logDown p 5).retrain p 0)

/-- KW_AUTH_FAIL. -/
def execKwAuthFail (p : Nat) (s : State) : Host.Outcome State Fault Refusal :=
  s.onChip (p < 4) (fun k => if k.portState p ≠ 5 then k else k.tagFails p)

/-- RETRAIN: lanes in use lose lock. -/
def execRetrain (p : Nat) (lanes : BitVec 4) (s : State) : Host.Outcome State Fault Refusal :=
  s.onChip (p < 4) (fun k =>
    let lost := lanes.toNat &&& (k.port p).lanes
    if k.portState p ≠ 5 ∨ lost = 0 then k else k.retrain p lost)

/-- RETRAIN_END: within 20 ms the port returns to ACTIVE with new keys; after 20 ms it falls back to DETECT. -/
def execRetrainEnd (p : Nat) (s : State) : Host.Outcome State Fault Refusal :=
  s.onChip (p < 4) (fun k =>
    if k.portState p ≠ 6 then k
    else if k.portsRun ∧ k.now < (k.port p).since + 20 * 10 ^ 6 then ((k.sendAuth p).newKeys p).goActive p
    else (k.toState p 1).logDown p 6)

/-- KEY_REPLACE: after 2^40 flits under a key of either direction a new exchange replaces it, once nothing sent under it can be resent
(log entry 83); the flits that waited for it leave. -/
def execKeyReplace (p : Nat) (s : State) : Host.Outcome State Fault Refusal :=
  s.onChip (p < 4) (fun k =>
    let x := k.port p
    let tx : Bool := decide (2 ^ 40 ≤ x.txKeyed) && x.replay.isEmpty
    let rx : Bool := decide (2 ^ 40 ≤ x.rxKeyed.getD 0)
    if k.portState p ≠ 5 ∨ !(tx || rx) then k
    else
      let k := (k.sendAuth p).newKeys p
      let y := k.port p
      (k.setPort p { y with
        txKey := if tx then y.txKey else x.txKey, txKeyed := if tx then 0 else x.txKeyed
        rxKey := if rx then y.rxKey else x.rxKey, rxKeyed := if rx then none else x.rxKeyed }).pumpPort p)

/-- R774: a peer's manifest arrives on port `p`; what waited for the first since the peer could be reached follows. -/
def Chip.takeManifest (k : Chip) (p : Nat) (bs : List Byte) : Chip :=
  let pkg := k.peerOfPort p
  let first := !k.peerKnown pkg
  let k := k.onHub (fun h => { h with peers := insert h.peers pkg (manifestDomains bs) })
  if first then k.resendTo pkg else k

/-- MANIFEST_EXCHANGE: the peer's manifest arrives on port `p`, and this part's goes back. -/
def execManifestExchange (p : Nat) (manifest : List Byte) (s : State) : Host.Outcome State Fault Refusal :=
  s.onChip (p < 4) (fun k => if k.portState p ≠ 5 then k else (k.takeManifest p manifest).sendOn p (.manifest k.manifest))

/-- PORT_FAILOVER: port `p` is no longer ACTIVE, and its peer's traffic moves to the next ACTIVE port to it. -/
def execPortFailover (p : Nat) (s : State) : Host.Outcome State Fault Refusal :=
  s.onChip (p < 4) (fun k => if k.portState p = 5 then k else k.resendTo (k.peerOfPort p))

/-! ### Copies held for a peer (R778, R779, R786) -/

/-- The copy of a handle of a package. -/
def Chip.copyOf (k : Chip) (pkg handle : Nat) : Option (Nat × Ctx × Standby) :=
  k.hub.ctxs.findSome? (fun c => match c.2.standby with
    | some b => if b.pkg = pkg ∧ b.handle = handle ∧ c.2.state = .standby then some (c.1, c.2, b) else none
    | none => none)

/-- R779: page images in the geometry of a model: of its layers, every page of every layer, at its lengths. -/
def imagesFit (md : Model) (ps : List PageImage) : Bool :=
  ps.all (fun p => p.layer < md.layers && p.tier < 3 && p.data.length = pageBytes p.tier md.width && p.scales.length = scaleBytes md.width)
    && (List.range md.layers).all (fun l => ps.any (fun p => p.layer = l))

/-- An image as a page to be placed. -/
def PageImage.want (p : PageImage) : PageRec :=
  { layer := p.layer, page := p.page, tier := p.tier, opened := p.opened, bank := 0, row := 0, gran := 0, entry := 0 }

/-- Page images written at their places, with their entries. -/
def Mach.putImages (m : Mach) (v d slot : Nat) (ps : List PageRec) (is_ : List PageImage) : Mach :=
  let m := (ps.zip is_).foldl (fun m x =>
    (m.bankWrite v d x.1.bank (1024 * x.1.row) x.2.data).bankWrite v d x.1.bank (512 * x.1.gran) x.2.scales) m
  m.putIndexes v d slot ps true

/-- R471, R779: a home for page images; none without room or without the model in the same geometry. -/
def Chip.homeImages (k : Chip) (model : Nat) (is_ : List PageImage) : Option (Model × Home) :=
  match k.model model with
  | none => none
  | some md =>
    if !imagesFit md is_ then none
    else (k.findHome md none (fun lay v d rot => k.placeAll md lay v d rot [] (is_.map PageImage.want))).map (fun h => (md, h))

/-- The counters of a context from a message's header. -/
def Ctx.take (c : Ctx) (h : CtxHdr) : Ctx :=
  { c with tokens := h.tokens, tail := h.tail, tailCount := h.tailCount, oldest := h.oldest }

/-- R778, R779, R786: a STANDBY copy made; none where there is no room. -/
def Mach.holdCopy (m : Mach) (V pkg : Nat) (h : CtxHdr) (key : List Byte) (is_ : List PageImage) (spill : Bool) : Option Mach :=
  let hash := m.k.hashOf h.domain h.model key
  match m.k.nextIndex V, m.k.freeWay V hash, m.k.homeImages h.model is_ with
  | some i, some place, some (_, home) =>
    let (k, g) := m.k.takeIndex V i
    let c := (Ctx.fresh g h.domain h.model 0 key hash place home k.now).take h
    let c := { c with state := .standby
                      standby := some { pkg := pkg, handle := h.handle, seq := h.seq, reviewed := none, spill := spill, held := [], asked := false } }
    some ((({ m with k := k } : Mach).putImages c.vat c.die c.slot c.pages is_).setCtx V i c)
  | _, _, _ => none

/-- R471, R778: where a copy replaced whole goes: its own home where it fits there, else one found by R471. -/
def Chip.homeAgain (k : Chip) (i : Nat) (c : Ctx) (is_ : List PageImage) : Option Home :=
  let bare := k.setCtx i { c with pages := [] }
  match k.model c.model, k.layout c.vat c.die with
  | some md, some lay =>
    match (if imagesFit md is_ then bare.placeAll md lay c.vat c.die c.rot [] (is_.map PageImage.want) else none) with
    | some ps => some { v := c.vat, d := c.die, slot := c.slot, rot := c.rot, pages := ps }
    | none => (bare.homeImages c.model is_).map (·.2)
  | _, _ => none

/-- R778: a copy replaced whole; the messages held that are not newer than it are spent. -/
def Mach.replaceCopy (m : Mach) (V i : Nat) (c : Ctx) (b : Standby) (h : CtxHdr) (is_ : List PageImage) : Option Mach :=
  (m.k.homeAgain i c is_).map (fun home =>
    let m := (m.freePages c).putImages home.v home.d home.slot home.pages is_
    m.setCtx V i { c.take h with
      vat := home.v, die := home.d, slot := home.slot, rot := home.rot, pages := home.pages, owed := []
      standby := some { b with seq := h.seq, asked := false, held := b.held.filter (fun x => match x.2.about with
        | some y => newer h.seq y.seq
        | none => false) } })

/-- R780: an acknowledgement of a message applied. -/
def Chip.ackMirror (k : Chip) (pkg handle seq : Nat) : Chip := k.sendTo pkg (.mirrorAck [(handle, seq)])

/-- R779: NO_ROOM. -/
def Chip.noRoom (k : Chip) (pkg : Nat) (h : CtxHdr) : Chip := (k.count Reg.kwRefused 1).sendTo pkg (.spillAck h 1)

/-- R507: one token's keys and values written into a copy's open page. -/
def Mach.putKv (md : Model) (c : Ctx) (m : Mach) (t : TokenKv) : Mach :=
  match c.pages.find? (fun p => p.layer = t.layer && p.page = t.page && p.opened) with
  | none => m
  | some p =>
    let n := md.dim / 32
    let put (m : Mach) (base unit : Nat) (bs : List Byte) : Mach :=
      (List.range (2 * md.hkv)).foldl (fun m s =>
        m.bankWrite c.vat c.die p.bank (base + unit * (s * md.dim + t.place * n)) ((bs.drop (unit * n * s)).take (unit * n))) m
    put (put m (1024 * p.row) 32 t.data) (512 * p.gran) 2 t.scales

/-- The pages of a copy up to a tail, allocated. -/
def Mach.growCopy (md : Model) : Nat → Mach → Ctx → Option (Mach × Ctx)
  | 0, m, c => some (m, c)
  | n + 1, m, c =>
    match m.addPage c md ((c.tail + 1) % 2 ^ 24) with
    | none => none
    | some (m, ps) => Mach.growCopy md n m { c with pages := c.pages ++ ps, tail := (c.tail + 1) % 2 ^ 24 }

/-- R507: the pages by which an update moves a copy's tail. -/
def Ctx.moves (c : Ctx) (h : CtxHdr) : Nat := min 129 ((h.tail + 2 ^ 24 - c.tail) % 2 ^ 24)

/-- R480: an entry that an update gives a copy lies on a bank where a review's job of the copy still stands. -/
def Chip.updateWaits (k : Chip) (i : Nat) (c : Ctx) (h : CtxHdr) : Bool :=
  match k.model c.model with
  | none => false
  | some md => (List.range (c.moves h)).any (fun n =>
      (List.range md.layers).any (fun l => k.affOnBank i (bankOf c.rot l ((c.tail + 1 + n) % 2 ^ 24))))

/-- R507, R778: an update applied to a copy. -/
def Mach.applyUpdate (m : Mach) (V i : Nat) (c : Ctx) (b : Standby) (h : CtxHdr) (kv : List TokenKv) : Option Mach :=
  match m.k.model c.model with
  | none => none
  | some md =>
    match Mach.growCopy md (c.moves h) m c with
    | none => none
    | some (m, c) =>
      let m := kv.foldl (Mach.putKv md c) m
      let gone (p : PageRec) : Bool := !decide ((p.page + 2 ^ 24 - h.oldest) % 2 ^ 24 ≤ (h.tail + 2 ^ 24 - h.oldest) % 2 ^ 24)
      let r := m.giveUp i { c with pages := c.pages.filter (fun p => !gone p) } (c.pages.filter gone)
      some (r.1.setCtx V i { r.2.take h with lastActive := m.k.now, standby := some { b with seq := h.seq } })

/-- R507: a review's jobs applied to a copy. -/
def Chip.applyReview (k : Chip) (i : Nat) (c : Ctx) (jobs : List ReviewJob) : Chip :=
  match k.model c.model, k.layout c.vat c.die with
  | some md, some lay =>
    let made := jobs.foldl (fun js r =>
      match c.pages.find? (fun p => p.layer = r.layer && p.page = r.page) with
      | some p => (match k.prepare i c md lay js ⟨r.kind, p⟩ with | some j => js ++ [j] | none => js)
      | none => js) []
    k.deliver c.vat c.die (k.getF (Reg.affBounds c.model) 31 24) made
  | _, _ => k

/-- R778: a message about the copy at index `i` held for what is to come before it. -/
def Chip.hold (k : Chip) (i : Nat) (c : Ctx) (b : Standby) (x : KwMsg) : Chip :=
  k.setCtx i { c with standby := some { b with held := b.held ++ [(k.now, x)] } }

/-- R506, R778: the review of the last commit applied goes to a copy once; one that came ahead of its commit is held. R486: a copy that is CLOSING
takes none. -/
def Chip.takeReview (k : Chip) (i : Nat) (h : CtxHdr) (jobs : List ReviewJob) : Chip :=
  match k.ctx i with
  | none => k
  | some c =>
    match c.standby with
    | none => k
    | some b =>
      if c.state ≠ .standby then k
      else if newer b.seq h.seq then k.hold i c b (.mirrorReview h jobs)
      else if b.seq ≠ h.seq ∨ b.reviewed = some h.seq then k
      else
        let c := { c with standby := some { b with reviewed := some h.seq } }
        (k.setCtx i c).applyReview i c jobs

/-- R506: the reviews held of the commit that a copy has just applied. -/
def Chip.drainReviews (k : Chip) (i : Nat) : Chip :=
  match k.ctx i with
  | none => k
  | some c =>
    match c.standby with
    | none => k
    | some b =>
      let mine (x : Nat × KwMsg) : Bool := match x.2 with | .mirrorReview h _ => !newer b.seq h.seq | _ => false
      (b.held.filter mine).foldl (fun k x => match x.2 with
        | .mirrorReview h jobs => k.takeReview i h jobs
        | _ => k) (k.setCtx i { c with standby := some { b with held := b.held.filter (fun x => !mine x) } })

/-- R778: a message is the one that follows a copy's last. -/
def Standby.follows (b : Standby) (x : KwMsg) : Bool := match x with
  | .mirrorUpdate h _ | .mirrorClose h => h.seq = (b.seq + 1) % 2 ^ 32
  | _ => false

/-- R778: messages held for a gap, applied as far as they follow on. -/
def Mach.drainHeld (V i : Nat) : Nat → Mach → Mach
  | 0, m => m.onChip (fun k => k.drainReviews i)
  | fuel + 1, m =>
    let m := m.onChip (fun k => k.drainReviews i)
    match m.k.ctx i with
    | none => m
    | some c =>
      match c.standby with
      | none => m
      | some b =>
        let rest := { b with held := b.held.filter (fun x => !b.follows x.2) }
        match b.held.find? (fun x => b.follows x.2) with
        | some (_, .mirrorUpdate h kv) =>
          if m.k.updateWaits i c h then m
          else (match m.applyUpdate V i c rest h kv with
            | some m => Mach.drainHeld V i fuel (m.onChip (fun k => k.ackMirror b.pkg b.handle h.seq))
            | none => m)
        | some (_, .mirrorClose h) =>
          (m.runClose V i { c with standby := some { b with held := [] } } none).onChip (fun k => k.ackMirror b.pkg b.handle h.seq)
        | _ => m

/-! ### Messages of a mirror (R778 to R782) -/

/-- R778, R780: MIRROR_FULL for a package's context: applied whenever newer. One that would clear entries under an affinage job waits (R480). -/
def Mach.takeFull (m : Mach) (V pkg : Nat) (h : CtxHdr) (key : List Byte) (pages : List PageImage) : Option Mach :=
  match m.k.copyOf pkg h.handle with
  | some (i, c, b) =>
    if !newer b.seq h.seq then some (m.onChip (fun k => k.ackMirror pkg h.handle b.seq))
    else if m.k.hasAff i then none
    else (match m.replaceCopy V i c b h pages with
      | some m => some (Mach.drainHeld V i b.held.length (m.onChip (fun k => k.ackMirror pkg h.handle h.seq)))
      | none => some (m.onChip (fun k => k.noRoom pkg h)))
  | none =>
    match m.holdCopy V pkg h key pages false with
    | some m => some (m.onChip (fun k => k.ackMirror pkg h.handle h.seq))
    | none => some (m.onChip (fun k => k.noRoom pkg h))

/-- R778: MIRROR_UPDATE: one that is not newer is discarded, its acknowledgement sent again; one more than one newer is held. -/
def Mach.takeUpdate (m : Mach) (V pkg : Nat) (h : CtxHdr) (kv : List TokenKv) : Option Mach :=
  match m.k.copyOf pkg h.handle with
  | none => some m
  | some (i, c, b) =>
    if !newer b.seq h.seq then some (m.onChip (fun k => k.ackMirror pkg h.handle b.seq))
    else if h.seq ≠ (b.seq + 1) % 2 ^ 32 then some (m.onChip (fun k => k.hold i c b (.mirrorUpdate h kv)))
    else if m.k.updateWaits i c h then none
    else match m.applyUpdate V i c b h kv with
    | some m => some (Mach.drainHeld V i b.held.length (m.onChip (fun k => k.ackMirror pkg h.handle h.seq)))
    | none => some (m.onChip (fun k => k.noRoom pkg h))

/-- R778, R780, R782, R788: MIRROR_CLOSE: the copy is freed by R474; a mirror's in its place among the updates, a spilled context's at once. -/
def Mach.takeClose (m : Mach) (V pkg : Nat) (h : CtxHdr) : Mach :=
  let ack (m : Mach) : Mach := m.onChip (fun k => k.ackMirror pkg h.handle h.seq)
  match m.k.copyOf pkg h.handle with
  | none => ack m
  | some (i, c, b) =>
    if b.spill ∨ h.seq = (b.seq + 1) % 2 ^ 32 then ack (m.runClose V i c none)
    else if !newer b.seq h.seq then m.onChip (fun k => k.ackMirror pkg h.handle b.seq)
    else m.onChip (fun k => k.hold i c b (.mirrorClose h))

/-- R780, R781: what a package acknowledges leaves the backlog. -/
def Chip.takeAcks (k : Chip) (pkg : Nat) (pairs : List (Nat × Nat)) : Chip :=
  let done (m : MirrorOut) : Bool := m.pkg = pkg && pairs.any (fun x => x.1 = m.handle && !newer x.2 m.seq)
  k.onHub (fun h => { h with mirrors := h.mirrors.filter (fun m => !done m) })

/-- R778: the mirror asks for MIRROR_FULL of a handle. -/
def Mach.takeAsk (m : Mach) (V handle : Nat) : Mach :=
  match m.k.hub.ctxs.find? (fun c => c.2.handle c.1 = handle && c.2.mirrored && (c.2.state = .live || c.2.state = .migrating)) with
  | some (i, c) => m.sendFull V i c
  | none => m

/-- R778: the copy at index `i` has held a message for 1 ms: what follows on now is applied, and where one is held still MIRROR_FULL is asked
for. -/
def Mach.gapTimeout (m : Mach) (V i : Nat) : Mach :=
  match (m.k.ctx i).bind (·.standby) with
  | none => m
  | some b =>
    let old (x : Nat × KwMsg) : Bool := decide (x.1 + 10 ^ 6 ≤ m.k.now)
    if b.asked ∨ !b.held.any old then m
    else
      let m := Mach.drainHeld V i b.held.length m
      m.onChip (fun k => match k.ctx i with
        | none => k
        | some c => match c.standby with
          | none => k
          | some b => if !b.held.any old then k else
            (k.setCtx i { c with standby := some { b with held := b.held.filter (fun x => !old x), asked := true } }).sendTo b.pkg
              (.mirrorAsk b.handle))

/-- MIRROR_GAP_TIMEOUT. -/
def execMirrorGapTimeout (i : Nat) (s : State) : Host.Outcome State Fault Refusal :=
  s.onTurn true (fun m => m.gapTimeout s.part.vats i)

/-- R781: the MIRROR_FULLs to a package that are under way. -/
def Chip.fullsOut (k : Chip) (pkg : Nat) : Nat :=
  (k.hub.mirrors.filter (fun m => m.pkg = pkg && match m.msg with | .mirrorFull .. => true | _ => false)).length

/-- R781, R782: the mirror closes that the backlog refused go out where it has room again. -/
def Chip.sendOwed (k : Chip) : Chip :=
  k.hub.untold.foldl (fun k x =>
    if k.getF Reg.kwMirror 15 14 ≠ x.1 then k
    else
      let r := k.sendMirror x.1 x.2.handle x.2.seq (.mirrorClose x.2)
      if r.2 then r.1.onHub (fun h => { h with untold := h.untold.filter (fun y => decide (y ≠ x)) }) else k) k

/-- BACKLOG_RESEND: the backlog is below half its limit: the closes that it refused go out, and diverged contexts as MIRROR_FULL, at most MIGRATIONS
of them at once. A SPILLED context has no page here, and goes out whole when it is home again. -/
def execBacklogResend (s : State) : Host.Outcome State Fault Refusal :=
  s.onTurn true (fun m =>
    let pkg := m.k.getF Reg.kwMirror 15 14
    let due (c : Ctx) : Bool := c.diverged && (c.state = .live || c.state = .migrating) && m.k.peerTakes pkg c.domain
    if m.k.backlogLimit ≤ 2 * m.k.backlog pkg then m
    else ((m.k.hub.ctxs.filter (fun c => due c.2)).take (m.k.getF Reg.failPolicy 11 8 - m.k.fullsOut pkg)).foldl
      (fun m c => m.sendFull s.part.vats c.1 c.2) (m.onChip Chip.sendOwed))

/-! ### Promotion (R783, R784) -/

/-- R783: one copy becomes a context of this package. -/
def Mach.promote (m : Mach) (V i : Nat) (c : Ctx) : Mach :=
  let g := if c.gen = 4095 then 1 else c.gen + 1
  let c := { c with gen := g, state := .live, standby := none, mirrored := false, spill := .home }
  let m := m.onChip (fun k => k.onHub (fun h => { h with gens := insert h.gens i g }))
  (m.setCtx V i c).onChip (fun k => k.hotTouch i c)

/-- A write of KW_PROMOTE. A copy that a close has left CLOSING is no longer one. -/
def Mach.doPromote (m : Mach) (V source : Nat) (force : Bool) : Mach :=
  let finish (m : Mach) (result count : Nat) : Mach :=
    m.onChip (fun k => ((k.raise Reg.kwPromoteResult 31).setF Reg.kwPromoteResult 30 28 result).setF Reg.kwPromoteResult 20 0 count)
  let held := m.k.hub.ctxs.filter (fun c => c.2.state = .standby && match c.2.standby with | some b => b.pkg = source | none => false)
  if !force ∧ (m.k.portTo source).isSome then finish m 1 0
  else if held = [] then finish m 2 0
  else
    let m := held.foldl (fun m c => m.promote V c.1 c.2) m
    (finish m 0 held.length).onChip (fun k => k.logKw 0x55 (source + held.length * 2 ^ 8))

/-- KW_PROMOTE. -/
def execKwPromote (source : BitVec 2) (force : Bool) (s : State) : Host.Outcome State Fault Refusal :=
  s.onTurn true (fun m => m.doPromote s.part.vats source.toNat force)

/-! ### Spill (R785 to R788) -/

/-- R45, R786: SPILL_PUT: a peer's context to hold; one that is not newer than what is held is discarded. A mirror's copy becomes the spilled
context's. -/
def Mach.takePut (m : Mach) (V pkg : Nat) (h : CtxHdr) (key : List Byte) (pages : List PageImage) : Option Mach :=
  let ok (m : Mach) : Mach := m.onChip (fun k => k.sendTo pkg (.spillAck h 0))
  match m.k.copyOf pkg h.handle with
  | some (i, c, b) =>
    if !newer b.seq h.seq then some m
    else if m.k.hasAff i then none
    else (match m.replaceCopy V i c { b with spill := true, held := [] } h pages with
      | some m => some (ok m)
      | none => some (m.onChip (fun k => k.noRoom pkg h)))
  | none =>
    match m.holdCopy V pkg h key pages true with
    | some m => some (ok m)
    | none => some (m.onChip (fun k => k.noRoom pkg h))

/-- R45, R786: SPILL_RECALL is answered with SPILL_RETURN, under its sequence number; the copy stays until the source acknowledges. -/
def Mach.takeRecall (m : Mach) (V pkg : Nat) (h : CtxHdr) : Mach :=
  match m.k.copyOf pkg h.handle with
  | some (i, c, b) =>
    if !b.spill ∨ !newer b.seq h.seq then m
    else
      let x := m.images c
      (x.2.setCtx V i { c with standby := some { b with seq := h.seq } }).onChip (fun k =>
        k.sendTo pkg (.spillReturn { c.hdr i h.seq with handle := h.handle } x.1))
  | none => m

/-- R45, R787: SPILL_RETURN: the context that the recall of its sequence number asked for comes home by R471 and is LIVE, and one that is mirrored goes
out whole; where it finds no home it is recalled again later. -/
def Mach.takeReturn (m : Mach) (V pkg : Nat) (h : CtxHdr) (pages : List PageImage) : Mach :=
  match m.k.hub.ctxs.find? (fun c => c.2.handle c.1 = h.handle && c.2.state = .spilled && c.2.spill = .recalled && c.2.holder = pkg) with
  | none => m
  | some (i, c) =>
    if c.mirrorSeq ≠ h.seq then m
    else match m.k.homeImages c.model pages with
    | none => m.onChip (fun k => k.setCtx i { c with spill := .away })
    | some (_, home) =>
      let c := { c with vat := home.v, die := home.d, slot := home.slot, rot := home.rot, pages := home.pages, state := .live, spill := .home }
      let m := ((m.putImages c.vat c.die c.slot c.pages pages).setCtx V i c).onChip (fun k => k.sendTo pkg (.spillAck h 0))
      if c.mirrored then m.sendFull V i c else m

/-- R779: the mirror had no room for what it was sent of a context, which diverges. -/
def Chip.mirrorRefused (k : Chip) (pkg handle : Nat) : Chip :=
  match k.hub.ctxs.find? (fun c => c.2.handle c.1 = handle && c.2.mirrored) with
  | some (i, c) =>
    (k.onHub (fun h => { h with mirrors := h.mirrors.filter (fun m => !(m.pkg = pkg && m.handle = handle)) })).diverge i c pkg
  | none => k

/-- R785: the context with a handle that is offered to a package under a sequence number. -/
def Chip.offeredTo (k : Chip) (pkg : Nat) (h : CtxHdr) : Option (Nat × Ctx) :=
  k.hub.ctxs.find? (fun c => c.2.handle c.1 = h.handle && c.2.spill = .offered && c.2.holder = pkg && c.2.mirrorSeq = h.seq)

/-- R779, R785, R786: SPILL_ACK: the holder's answer to SPILL_PUT; to the holder, the source's answer to SPILL_RETURN; the mirror's NO_ROOM. -/
def Mach.takeSpillAck (m : Mach) (V pkg : Nat) (h : CtxHdr) (result : Nat) : Option Mach :=
  match m.k.offeredTo pkg h with
  | some (i, c) =>
    if result ≠ 0 then some (m.onChip (fun k => k.setCtx i { c with spill := .refused }))
    else if m.k.hasAff i then none
    else
      let m := m.freePages c
      let m := match m.k.model c.model with | some md => m.zeroLedger md c.model c.vat c.die c.slot | none => m
      some (m.setCtx V i { c with
        state := .spilled, spill := .away, pages := [], owed := [], shadow := [], spare := none, shadowOk := false, sample := none
        migration := none })
  | none =>
    match m.k.copyOf pkg h.handle with
    | some (i, c, b) => some (if b.spill ∧ result = 0 ∧ b.seq = h.seq then m.runClose V i c none else m)
    | none => some (if result = 0 then m else m.onChip (fun k => k.mirrorRefused pkg h.handle))

/-- SPILL_LOST: the holder of the spilled context at index `i` has been unreachable for LOST_MS: the context is closed, its jobs ending UNAVAILABLE
and a CLOSE that has taken its place CLOSED. -/
def execSpillLost (i : Nat) (s : State) : Host.Outcome State Fault Refusal :=
  s.onTurn true (fun m =>
    match m.k.ctx i with
    | none => m
    | some c =>
      match m.k.downSince c.holder with
      | none => m
      | some t =>
        if c.state ≠ .spilled ∨ m.k.now < t + m.k.getF Reg.kwSpill 15 0 * 10 ^ 6 then m
        else ((m.onChip Chip.serveSpilled).closeCtx s.part.vats i c).onChip (fun k => k.orphanJobs (c.handle i) 0x33))

/-! ### Forwarding (R789 to R793) -/

/-- R777, R790: a package's record under a sequence number has been accepted on another port than `p`, and is not to be accepted twice. -/
def Chip.fwdTwice (k : Chip) (p pkg seq : Nat) (record : List Byte) : Bool :=
  k.hub.jobs.any (fun j => (match j.2.origin with | .port q n => q ≠ p && k.peerOfPort q = pkg && n = seq | .ring _ => false)
    && j.2.source = record)

/-- R790: the result already sent for a sequence number of a package, on port `p` or for the same cookie on another. -/
def Chip.fwdAnswer (k : Chip) (p pkg seq : Nat) (record : List Byte) : Option (List Byte) :=
  (List.range 4).findSome? (fun q =>
    if k.peerOfPort q ≠ pkg then none
    else ((k.port q).answers.find? (fun a => a.1 = seq && (q = p || recField a.2 8 16 = recField record 8 16))).map (·.2))

/-- R790: a record of class `cls` from a peer, accepted as of now; one that has been accepted before is answered again with the result sent. -/
def Chip.takeJob (k : Chip) (p seq budget cls : Nat) (record : List Byte) : Chip :=
  let x := k.port p
  let pkg := k.peerOfPort p
  let bs := record.set 1 (BitVec.ofNat 8 (byteAt record 1 / 16 * 16 + cls))
  if !k.serving then k
  else match k.fwdAnswer p pkg seq bs with
  | some a => k.sendTo pkg (.fwdResult (k.classDomain cls) seq a)
  | none =>
    if !newer x.fwdSeen seq ∨ k.fwdTwice p pkg seq bs ∨ k.nextTag.isNone then k
    else (k.setPort p { x with fwdSeen := seq }).acceptRecord (.port p seq) bs (k.now + budget)

/-- R791: a forwarded job's completion record, as the peer made it. -/
def Chip.takeResult (k : Chip) (pkg seq : Nat) (bs : List Byte) : Chip :=
  match k.hub.jobs.find? (fun j => j.2.phase = .forwarded pkg seq) with
  | none => k
  | some (t, j) =>
    (k.setJob t { j with raw := bs }).endJob t
      { status := byteAt bs 2, verdict := recField bs 16 24, tokens := recField bs 28 30, closed := (byteAt bs 30).testBit 3 }

/-- R792: R550 and R551 on the jobs that a peer forwarded with a cookie. -/
def Chip.takeAbort (k : Chip) (pkg cookie : Nat) : Chip :=
  k.abortJobs (fun j => (match j.origin with | .port q _ => k.peerOfPort q = pkg | .ring _ => false) && j.cookie = cookie)

/-- FORWARD_LOST: every port to package `pkg` has been out of ACTIVE for 1 ms. -/
def execForwardLost (pkg : Nat) (s : State) : Host.Outcome State Fault Refusal :=
  s.onChip (pkg < 4) (fun k =>
    match k.downSince pkg with
    | none => k
    | some t =>
      let mine := k.hub.jobs.filter (fun j => match j.2.phase with | .forwarded q _ => q = pkg | _ => false)
      if k.now < t + 10 ^ 6 ∨ mine = [] then k
      else (mine.foldl (fun k j => k.endJob j.1 { status := 0x34, verdict := 0, tokens := 0, closed := false }) k).logKw 0x54
        (pkg + mine.length * 2 ^ 8))

/-! ### Receipt of messages (R776, Tables 17.3 and 17.4) -/

/-- Tables 17.3 and 17.4: the fields of a message about a context. -/
def readHdr (bs : List Byte) : CtxHdr :=
  { domain := byteAt bs 1, model := byteAt bs 2 % 16, handle := recField bs 4 8, seq := recField bs 8 12, tokens := recField bs 16 24
    tail := recField bs 24 27, tailCount := byteAt bs 27, oldest := recField bs 28 31 }

/-- The pages of a body, in the lengths of a model's pages. -/
def readPages (md : Model) : Nat → List Byte → List PageImage
  | 0, _ => []
  | fuel + 1, bs =>
    if bs.length < 6 then []
    else
      let tier := byteAt bs 5 % 4
      let n := pageBytes tier md.width
      let rest := bs.drop 6
      { layer := recField bs 0 2, page := recField bs 2 5, tier := tier, opened := (byteAt bs 5).testBit 2, data := rest.take n
        scales := (rest.drop n).take (scaleBytes md.width) } :: readPages md fuel (rest.drop (n + scaleBytes md.width))

/-- R506: the tokens of an update's body: their keys and values by token and layer, then their scales; the last is the last committed. -/
def readKv (md : Model) (h : CtxHdr) (body : List Byte) : List TokenKv :=
  let unit := 2 * md.hkv * (md.dim / 32)
  let n := body.length / (md.layers * unit * 34)
  (List.range n).flatMap (fun x => (List.range md.layers).map (fun l =>
    let at_ := x * md.layers + l
    let pos := (32 * h.tail + h.tailCount + 2 ^ 29 - n + x) % 2 ^ 29
    { layer := l, page := pos / 32, place := pos % 32, data := (body.drop (32 * unit * at_)).take (32 * unit)
      scales := (body.drop (32 * unit * n * md.layers + 2 * unit * at_)).take (2 * unit) }))

/-- A body as items of 8 bytes. -/
def readEights (body : List Byte) : List (List Byte) := (List.range (body.length / 8)).map (fun i => (body.drop (8 * i)).take 8)

/-- R776, Table 17.4: the message that bytes spell; one about pages in the geometry of the model that it names. -/
def Chip.readMsg (k : Chip) (bs : List Byte) : Option KwMsg :=
  let h := readHdr bs
  let body := (bs.drop 32).take (recField bs 12 16)
  let pages (body : List Byte) : List PageImage := match k.model h.model with
    | some md => readPages md body.length body
    | none => []
  match byteAt bs 0 with
  | 0x01 => some (.mirrorFull h (pages body))
  | 0x02 => some (.mirrorUpdate h (match k.model h.model with | some md => readKv md h body | none => []))
  | 0x03 => some (.mirrorReview h ((readEights body).map (fun b => { kind := byteAt b 0, layer := recField b 1 3, page := recField b 3 6 })))
  | 0x04 => some (.mirrorClose h)
  | 0x05 => some (.mirrorAck ((readEights body).map (fun b => (recField b 0 4, recField b 4 8))))
  | 0x10 => some (.spillPut h ((body.drop 1).take (byteAt body 0)) (pages (body.drop (1 + byteAt body 0))))
  | 0x11 => some (.spillRecall h)
  | 0x12 => some (.spillReturn h (pages body))
  | 0x13 => some (.spillAck h (byteAt bs 16))
  | 0x20 => some (.fwdJob h.domain h.seq (recField bs 16 20) (recField bs 20 28) (byteAt bs 28 % 16) body)
  | 0x21 => some (.fwdResult h.domain h.seq ((bs.drop 16).take 16 ++ body.take 16))
  | 0x22 => some (.fwdAbort h.domain (recField bs 16 24))
  | t =>
    if t = Config.askType.toNat then some (.mirrorAsk h.handle)
    else if t = Config.manifestType.toNat then some (.manifest body)
    else none

/-- R776: what a message that came on port `p` does; none where it waits for a job on a bank (R480). -/
def Mach.receive (m : Mach) (V p : Nat) (key : List Byte) : KwMsg → Option Mach
  | .mirrorFull h ps => m.takeFull V (m.k.peerOfPort p) h key ps
  | .mirrorUpdate h kv => m.takeUpdate V (m.k.peerOfPort p) h kv
  | .mirrorReview h js => some (m.onChip (fun k => match k.copyOf (k.peerOfPort p) h.handle with
    | some (i, _, _) => k.takeReview i h js
    | none => k))
  | .mirrorClose h => some (m.takeClose V (m.k.peerOfPort p) h)
  | .mirrorAsk handle => some (m.takeAsk V handle)
  | .mirrorAck ps => some (m.onChip (fun k => k.takeAcks (k.peerOfPort p) ps))
  | .spillPut h key ps => m.takePut V (m.k.peerOfPort p) h key ps
  | .spillRecall h => some (m.takeRecall V (m.k.peerOfPort p) h)
  | .spillReturn h ps => some (m.takeReturn V (m.k.peerOfPort p) h ps)
  | .spillAck h result => m.takeSpillAck V (m.k.peerOfPort p) h result
  | .fwdJob _ seq budget _ cls record => some (m.onChip (fun k => k.takeJob p seq budget cls record))
  | .fwdResult _ seq record => some (m.onChip (fun k => k.takeResult (k.peerOfPort p) seq record))
  | .fwdAbort _ cookie => some (m.onChip (fun k => k.takeAbort (k.peerOfPort p) cookie))
  | .manifest bs => some (m.onChip (fun k => k.takeManifest p bs))

/-- A message on port `p`, which takes it while it is ACTIVE. -/
def State.onMsg (s : State) (ok : Bool) (p : Nat) (key : List Byte) (x : KwMsg) : Host.Outcome State Fault Refusal :=
  s.onTurn ok (fun m => if m.k.portState p ≠ 5 then m else (m.receive s.part.vats p key x).getD m)

/-- MIRROR_FULL. -/
def execMirrorFull (p : Nat) (h : CtxHdr) (key : List Byte) (pages : List PageImage) (s : State) : Host.Outcome State Fault Refusal :=
  s.onMsg (p < 4) p key (.mirrorFull h pages)
/-- MIRROR_UPDATE. -/
def execMirrorUpdate (p : Nat) (h : CtxHdr) (kv : List TokenKv) (s : State) : Host.Outcome State Fault Refusal :=
  s.onMsg (p < 4) p [] (.mirrorUpdate h kv)
/-- MIRROR_REVIEW (R506, R507, R778): under the sequence number of the commit that held the review. -/
def execMirrorReview (p : Nat) (h : CtxHdr) (jobs : List ReviewJob) (s : State) : Host.Outcome State Fault Refusal :=
  s.onMsg (p < 4) p [] (.mirrorReview h jobs)
/-- MIRROR_CLOSE. -/
def execMirrorClose (p : Nat) (h : CtxHdr) (s : State) : Host.Outcome State Fault Refusal := s.onMsg (p < 4) p [] (.mirrorClose h)
/-- MIRROR_ACK: pairs of a handle and the highest sequence number applied. -/
def execMirrorAck (p : Nat) (pairs : List (Nat × Nat)) (s : State) : Host.Outcome State Fault Refusal := s.onMsg (p < 4) p [] (.mirrorAck pairs)
/-- SPILL_PUT. -/
def execSpillPut (p : Nat) (h : CtxHdr) (key : List Byte) (pages : List PageImage) (s : State) : Host.Outcome State Fault Refusal :=
  s.onMsg (p < 4) p [] (.spillPut h key pages)
/-- SPILL_RECALL. -/
def execSpillRecall (p : Nat) (h : CtxHdr) (s : State) : Host.Outcome State Fault Refusal := s.onMsg (p < 4) p [] (.spillRecall h)
/-- SPILL_RETURN. -/
def execSpillReturn (p : Nat) (h : CtxHdr) (pages : List PageImage) (s : State) : Host.Outcome State Fault Refusal :=
  s.onMsg (p < 4) p [] (.spillReturn h pages)
/-- SPILL_ACK. -/
def execSpillAck (p : Nat) (h : CtxHdr) (result : BitVec 8) (s : State) : Host.Outcome State Fault Refusal :=
  s.onMsg (p < 4) p [] (.spillAck h result.toNat)
/-- FWD_JOB. -/
def execFwdJob (p : Nat) (seq budget cls : Nat) (record : List Byte) (s : State) : Host.Outcome State Fault Refusal :=
  s.onMsg (p < 4 && cls < 16) p [] (.fwdJob 0 seq budget 0 cls record)
/-- FWD_RESULT. -/
def execFwdResult (p seq : Nat) (record : BitVec 256) (s : State) : Host.Outcome State Fault Refusal :=
  s.onMsg (p < 4) p [] (.fwdResult 0 seq (leBytes 32 record.toNat))
/-- FWD_ABORT. -/
def execFwdAbort (p : Nat) (cookie : BitVec 64) (s : State) : Host.Outcome State Fault Refusal := s.onMsg (p < 4) p [] (.fwdAbort 0 cookie.toNat)

/-! ### DATA flits (R766 to R769, R773, R776) -/

/-- R773: the count of the flit with an FSEQ under the key in use: the first that comes under it has count 0. -/
def Port.countOf (x : Port) (fseq : Nat) : Nat :=
  let back := (x.rxSeq + 2 ^ 16 - fseq) % 2 ^ 16
  match x.rxKeyed with
  | none => 0
  | some n => if back ≤ 1024 then n - back else n + (2 ^ 16 - back)

/-- R773: the count of the FSEQ expected, once a flit has come under the key. -/
def Port.keyed (x : Port) (fseq : Nat) : Option Nat :=
  let back := (x.rxSeq + 2 ^ 16 - fseq) % 2 ^ 16
  match x.rxKeyed with
  | none => if back ≤ 1024 then some back else none
  | some n => some n

/-- R767, R775, R776: a DATA flit accepted in order on port `p`: its payload joins its channel's message, and the message that it ends is answered
with the port as it then stands. -/
def Chip.acceptFlit (k : Chip) (p : Nat) (content payload : List Byte) : Chip × Option (List Byte) :=
  let x := k.port p
  let fseq := flitFseq content
  let c := flitChannel content
  let msg := (if (byteAt content 0).testBit 5 then [] else x.rxMsg.getD c []) ++ payload
  let eom := (byteAt content 0).testBit 6
  let k := k.setPort p { x with
    rxLast := some fseq, rxKeyed := (x.keyed fseq).map (· + 1), rxMsg := setAt x.rxMsg c (if eom then [] else msg) }
  ((k.credit p c).sendFlit p .ack, if eom then some msg else none)

/-- DATA_FLIT: received, checked, decrypted and delivered in order; a message that it ends has its effect. -/
def Mach.takeFlit (m : Mach) (V p : Nat) (f : DataFlit) : Mach :=
  let bs := f.content
  if m.k.portState p ≠ 5 then m
  else if uncorrectable f.errors ∨ !crcHolds bs then m.onChip (fun k => k.nakNow p)
  else
    let k := m.k.noteFec p f.errors
    let x := k.port p
    if flitType bs ≠ 1 then { m with k := k.takeAck p (flitAckseq bs) }
    else match openFlit x.rxKey (x.countOf (flitFseq bs)) bs with
    | none => { m with k := k.tagFails p }
    | some payload =>
      let k := k.takeAck p (flitAckseq bs)
      let x := k.port p
      if flitFseq bs ≠ x.rxSeq then { m with k := k.setPort p { x with rxKeyed := x.keyed (flitFseq bs) } }
      else
        let r := k.acceptFlit p bs payload
        match r.2.bind r.1.readMsg with
        | none => { m with k := r.1 }
        | some msg =>
          let key := match msg with | .mirrorFull h _ => Config.copyKey (r.1.peerOfPort p) h.handle | _ => []
          ((({ m with k := r.1 } : Mach).receive V p key msg)).getD m

/-- DATA_FLIT. -/
def execDataFlit (p : Nat) (f : DataFlit) (s : State) : Host.Outcome State Fault Refusal :=
  s.onTurn (p < 4) (fun m => m.takeFlit s.part.vats p f)

end Sys2Proof.Machine
end

