-- ==== Sys2Proof/Machine/Rind.lean ====
section
/-!
DEFINITION. The rind's requests (R654 to R672, R680 to R684): measurements and the manifest, SPDM, secured sessions, binding, DSKs,
debug grants, ownership, and IDE keys. The SPDM response and error codes are those of SPDM 1.3, which R665 names.
-/

namespace Sys2Proof.Machine

/-! ### Domains -/

/-- R671: domain `d`, where declared. -/
def Chip.domain (k : Chip) (d : Nat) : Option Domain := (k.hub.domains.find? (fun x => x.1 = d)).map (·.2)

/-- The chip with a declared domain changed. -/
def Chip.onDomain (k : Chip) (d : Nat) (f : Domain → Domain) : Chip :=
  k.onHub (fun h => { h with domains := h.domains.map (fun x => if x.1 = d then (x.1, f x.2) else x) })

/-- R657, R682: a tenant is declared. -/
def Chip.tenants (k : Chip) : Bool := k.hub.domains.any (fun x => x.1 ≠ 0)

/-- R681, R682: a core's debug scope `bit` (0 VIEW, 1 HALT, 2 MEM) is granted, by its own domain or by domain 0. -/
def Chip.scope (k : Chip) (v c bit : Nat) : Bool :=
  let has (d : Nat) : Bool := match k.domain d with
    | some x => x.grants.testBit bit
    | none => false
  has (k.core v c).domain || has 0

/-- R681, R683: the holds on every core, and on its dies, that HALT is no longer granted for are released. -/
def Chip.releaseHolds (k : Chip) : Chip :=
  let open_ (key : Nat) : Bool := k.scope (key / 4) (key % 4) 1
  { k with
    cores := k.cores.map (fun x => if open_ x.1 then x else (x.1, { x.2 with held := 0 }))
    dies := k.dies.map (fun x => if open_ (x.1 / 4) then x else (x.1, { x.2 with held := false })) }

/-- R681: every debug grant of a domain ends. -/
def Chip.revoke (k : Chip) (d : Nat) : Chip := (k.onDomain d (fun x => { x with grants := 0 })).releaseHolds

/-! ### Measurements (R660, Tables 14.2 and 14.3) -/

/-- R682, Table 14.9: domain 0 holds a debug grant. -/
def Chip.pkgDebug (k : Chip) : Bool := match k.domain 0 with
  | some x => x.grants ≠ 0
  | none => false

/-- Table 14.2: the owner slot in use, as measurement 4 gives it: 0xFF while the part is unowned, so that a claim changes it by R660 (DESIGN
CHOICE, log entry 74). -/
def Chip.ownerSlot (k : Chip) : Nat := if k.hub.owners.isEmpty then 0xFF else k.hub.owners.length - 1

/-- R655: a key of `n` bytes derived from the UDS with the inputs named. -/
def deriveKey (inputs : List (List Byte)) (n : Nat) : List Byte := hkdf384 (leBytes 32 Config.uds.toNat) (Config.kdfInfo inputs) n

/-- The bytes of an ASCII name. -/
def asciiBytes (s : String) : List Byte := s.toList.map (fun c => BitVec.ofNat 8 c.toNat)

/-- Table 14.1: the secret of DevID-E, which certifies the alias key. -/
def devIdE : List Byte := deriveKey [asciiBytes "DEVID-E"] 48

/-- Table 14.1: the secret of DevID-Q. -/
def devIdQ : List Byte := deriveKey [asciiBytes "DEVID-Q"] 32

/-- Table 14.2: measurement `i`. -/
def Chip.measure (k : Chip) (p : Part) (i : Nat) : List Byte :=
  match i with
  | 1 => leBytes 48 Config.romDigest.toNat
  | 2 => leBytes 48 (Config.firmwareDigest (k.getF Reg.rindSvn 15 0)).toNat
  | 3 => leBytes 48 (Config.patchDigest k.hub.patch k.hub.libT k.hub.libB).toNat
  | 4 => [BitVec.ofNat 8 p.vats, if p.lanes128 then 1 else 0, 0xA0, BitVec.ofNat 8 k.ownerSlot]
  | 5 => [if k.pkgDebug then 1 else 0, BitVec.ofNat 8 (k.getF Reg.rindTamper 15 8), BitVec.ofNat 8 (k.getF Reg.rindStatus 5 5), 0]
  | 6 => k.manifest
  | 7 => leBytes 8 (k.getF Reg.rindSvn 31 16)
  | _ => []

/-- R655, R660, R661: the secret of the alias key, over measurements 1, 2, 4 and 7. -/
def Chip.deriveAlias (k : Chip) (p : Part) : Chip :=
  k.onHub (fun h => { h with aliasKey := deriveKey (asciiBytes "ALIAS" :: [1, 2, 4, 7].map (k.measure p)) 48 })

/-- R666: the measurements that an index names: one, or all of them for 0xFF. -/
def Chip.measurements (k : Chip) (p : Part) (i : Nat) : List Byte :=
  if i = 255 then (List.range 7).flatMap (fun j => k.measure p (j + 1)) else k.measure p i

/-! ### SPDM (R665, R666, Table 14.4) -/

/-- An SPDM response code of its body. -/
def Chip.spdm (k : Chip) (code : Nat) (body : List Byte) : Chip := k.answer (.bytes code body)

/-- An SPDM error: 2 invalid session, 3 Busy, 5 Unspecified. -/
def Chip.spdmError (k : Chip) (e : Nat) : Chip := k.spdm 0x7F [BitVec.ofNat 8 e]

/-- R680, R709: what the part does with an SPDM request; `always` requests are answered in TAMPERED too. -/
def Chip.spdmRequest (k : Chip) (always : Bool) (f : Chip → Chip) : Chip :=
  if k.hub.stopped || k.getF Reg.rindStatus 1 0 = 0 then k
  else if k.getF Reg.rindStatus 1 0 = 3 && !always then k.spdmError 5
  else f k

/-- A response whose body SPDM 1.3 and the part's keys decide. -/
def Chip.spdmFree (k : Chip) (code : Nat) (covers : List Byte) : Chip := k.spdm code (Config.spdmBody code k.hub.aliasKey covers)

/-- GET_VERSION (R665): the part is an SPDM 1.3 responder. -/
def execGetVersion (s : State) : Host.Outcome State Fault Refusal :=
  s.onChip true (fun k => k.spdmRequest true (fun k => k.spdm 0x04 [0x13]))

/-- GET_CAPABILITIES. -/
def execGetCapabilities (s : State) : Host.Outcome State Fault Refusal :=
  s.onChip true (fun k => k.spdmRequest true (fun k => k.spdmFree 0x61 []))

/-- NEGOTIATE_ALGORITHMS (Table 14.4). -/
def execNegotiateAlgorithms (s : State) : Host.Outcome State Fault Refusal :=
  s.onChip true (fun k => k.spdmRequest true (fun k => k.spdmFree 0x63 []))

/-- GET_DIGESTS: of the chain of slot 0. -/
def execGetDigests (s : State) : Host.Outcome State Fault Refusal :=
  s.onChip true (fun k => k.spdmRequest true (fun k => k.spdmFree 0x01 devIdE))

/-- GET_CERTIFICATE of a slot (Table 14.4: slot 0 alone), from an offset. -/
def execGetCertificate (slot offset len : Nat) (s : State) : Host.Outcome State Fault Refusal :=
  s.onChip true (fun k => k.spdmRequest true (fun k =>
    if slot ≠ 0 then k.spdmError 1 else k.spdm 0x02 (((Config.spdmBody 0x02 k.hub.aliasKey devIdE).drop offset).take len)))

/-- CHALLENGE: signed by the alias key. -/
def execChallenge (nonce : BitVec 256) (s : State) : Host.Outcome State Fault Refusal :=
  s.onChip true (fun k => k.spdmRequest false (fun k => k.spdmFree 0x03 (leBytes 32 nonce.toNat)))

/-- GET_MEASUREMENTS (R666): the measurements of an index and the alias key's signature over them. -/
def execGetMeasurements (index : Nat) (s : State) : Host.Outcome State Fault Refusal :=
  s.onChip true (fun k => k.spdmRequest true (fun k =>
    let m := k.measurements s.part index
    k.spdm 0x60 (m ++ Config.spdmBody 0x60 k.hub.aliasKey m)))

/-- A secured session, by its number. -/
def Chip.session (k : Chip) (i : Nat) : Option Session := (k.hub.sessions.find? (fun x => x.1 = i)).map (·.2)

/-- The chip with a session changed. -/
def Chip.setSession (k : Chip) (i : Nat) (x : Session) : Chip := k.onHub (fun h => { h with sessions := insert h.sessions i x })

/-- KEY_EXCHANGE (R665): a session opens under the lowest free number; a fifth is answered Busy. -/
def execKeyExchange (s : State) : Host.Outcome State Fault Refusal :=
  s.onChip true (fun k => k.spdmRequest false (fun k =>
    match (List.range 4).find? (fun i => (k.session i).isNone) with
    | none => k.spdmError 3
    | some i =>
      (k.setSession i { finished := false, bound := none, nonce := none }).spdm 0x64 (BitVec.ofNat 8 i :: Config.spdmBody 0x64 k.hub.aliasKey [])))

/-- A request inside an open session. -/
def inSession (i : Nat) (s : State) (f : Session → Chip → Chip) : Host.Outcome State Fault Refusal :=
  s.onChip true (fun k => k.spdmRequest false (fun k =>
    match k.session i with
    | some x => f x k
    | none => k.spdmError 2))

/-- FINISH: the handshake of a session ends; `good` says that its verification held. -/
def execFinish (i : Nat) (good : Bool) (s : State) : Host.Outcome State Fault Refusal :=
  inSession i s (fun x k => if good then (k.setSession i { x with finished := true }).spdm 0x65 [] else k.spdmError 6)

/-- HEARTBEAT. -/
def execHeartbeat (i : Nat) (s : State) : Host.Outcome State Fault Refusal := inSession i s (fun _ k => k.spdm 0x68 [])

/-- KEY_UPDATE. -/
def execKeyUpdate (i : Nat) (s : State) : Host.Outcome State Fault Refusal := inSession i s (fun _ k => k.spdm 0x69 [])

/-- END_SESSION. -/
def execEndSession (i : Nat) (s : State) : Host.Outcome State Fault Refusal :=
  inSession i s (fun _ k => (k.onHub (fun h => { h with sessions := erase h.sessions i })).spdm 0x6C [])

/-! ### Domain requests (R667 to R672, Table 14.6) -/

/-- The statuses of Table 14.6. -/
inductive RindStatus where
  | ok | notSecure | notBound | notDeclared | badSignature | badNonce | badLength | noKey | tenantsPresent | fuseExhausted | owned
deriving DecidableEq, Repr

def RindStatus.code : RindStatus → Nat
  | .ok => 0 | .notSecure => 1 | .notBound => 2 | .notDeclared => 3 | .badSignature => 4 | .badNonce => 5 | .badLength => 6
  | .noKey => 7 | .tenantsPresent => 8 | .fuseExhausted => 9 | .owned => 10

/-- R667: the response to a rind request. -/
def Chip.rind (k : Chip) (st : RindStatus) (data : List Byte) : Chip := k.answer (.bytes st.code data)

/-- R667: a request that needs a secured session: `sec` is the session it arrives in. -/
def secured (sec : Option Nat) (s : State) (f : Nat → Session → Chip → Chip) : Host.Outcome State Fault Refusal :=
  s.onChip true (fun k => k.spdmRequest false (fun k =>
    match sec with
    | none => k.rind .notSecure []
    | some i =>
      match k.session i with
      | some x => if x.finished then f i x k else k.rind .notSecure []
      | none => k.rind .notSecure []))

/-- R669: a request that needs its session bound to a domain that `may`. -/
def boundTo (sec : Option Nat) (may : Nat → Bool) (s : State) (f : Nat → Nat → Chip → Chip) : Host.Outcome State Fault Refusal :=
  secured sec s (fun i x k =>
    match x.bound with
    | some d => if may d && (k.domain d).isSome then f i d k else k.rind .notBound []
    | none => k.rind .notBound [])

/-- The next 32 bytes of the random source. -/
def Chip.draw (k : Chip) : List Byte × Chip :=
  (leBytes 32 (Config.random k.hub.draws).toNat, k.onHub (fun h => { h with draws := h.draws + 1 }))

/-- DOMAIN_CHALLENGE (R668). -/
def execDomainChallenge (sec : Option Nat) (s : State) : Host.Outcome State Fault Refusal :=
  secured sec s (fun i x k =>
    let r := k.draw
    (r.2.setSession i { x with nonce := some r.1 }).rind .ok r.1)

/-- DOMAIN_BIND (R668): a signature by a key of algorithm `alg` (1 ECDSA P-384, 2 ML-DSA-65); `good` says that it verifies under that key
of the domain over the digest of the nonce, the session and the domain. -/
def execDomainBind (sec : Option Nat) (domain alg : Nat) (good : Bool) (s : State) : Host.Outcome State Fault Refusal :=
  secured sec s (fun i x k =>
    match k.domain domain with
    | none => k.rind .notDeclared []
    | some d =>
      if x.nonce.isNone then k.rind .badNonce []
      else
        let used := { x with nonce := none }
        if good ∧ (alg = 1 ∨ alg = 2) ∧ d.algs.testBit (alg - 1) then (k.setSession i { used with bound := some domain }).rind .ok []
        else (k.setSession i used).rind .badSignature [])

/-- A staged register value gives a page to domain `d`: a valid translation entry's or BU_PAGE entry's DOMAIN (Tables 3.7 and 4.11). -/
def pageFor (d off : Nat) (w : Word) : Bool :=
  let e := off % 0x1000000
  0x1000000 ≤ off && fld w 0 0 = 1 && (if e < 0x500000 then 0x80000 ≤ e % 0x100000 && fld w 47 40 = d else 0x800000 ≤ e && fld w 15 8 = d)

/-- R670: a transaction that is COMMITTING or APPLYING names domain `d`. -/
def Chip.txnNames (k : Chip) (d : Nat) : Bool :=
  2 ≤ k.getF Reg.ciState 1 0 && match k.hub.txn with
    | some t => t.sections.any (fun x => x.signer = d || (x.type = 1 && (x.body.getD 0 0).toNat = d)
        || (x.type = 2 && (x.body.getD 1 0).toNat = d)) || t.regs.any (fun r => r.2.signer = d || pageFor d r.1 r.2.value)
    | none => false

/-- Table 14.6: a DOMAIN_KEY_SET, DOMAIN_KEY_ERASE or DEBUG_UNLOCK performed. -/
def Chip.performRind (k : Chip) (d : Nat) (r : RindReq) : Chip :=
  if (k.domain d).isNone then k.rind .notDeclared []
  else match r with
  | .keySet key => (k.onDomain d (fun x => { x with dsk := some key })).rind .ok []
  | .keyErase => (k.onDomain d (fun x => { x with dsk := none })).rind .ok []
  | .unlock scopes =>
    if d = 0 then
      if k.tenants then k.rind .tenantsPresent [] else (k.onDomain 0 (fun x => { x with grants := 7 })).rind .ok []
    else (k.onDomain d (fun x => { x with grants := Nat.lor x.grants (scopes % 8) })).rind .ok []

/-- R670: held while a transaction names the domain, else performed. -/
def Chip.rindOrHold (k : Chip) (i d : Nat) (r : RindReq) : Chip :=
  if k.txnNames d then k.onHub (fun h => { h with heldReqs := h.heldReqs ++ [{ session := i, domain := d, req := r }] })
  else k.performRind d r

/-- R670: the transaction has ended: what it held is performed. -/
def Chip.releaseRind (k : Chip) : Chip :=
  k.hub.heldReqs.foldl (fun k r => k.performRind r.domain r.req) (k.onHub (fun h => { h with heldReqs := [] }))

/-- A tenant's domain number. -/
def isTenant (d : Nat) : Bool := d ≠ 0

/-- DOMAIN_KEY_SET (R670). -/
def execDomainKeySet (sec : Option Nat) (key : List Byte) (s : State) : Host.Outcome State Fault Refusal :=
  boundTo sec isTenant s (fun i d k => if key.length ≠ 32 then k.rind .badLength [] else k.rindOrHold i d (.keySet key))

/-- DOMAIN_KEY_ERASE (R670, R677). -/
def execDomainKeyErase (sec : Option Nat) (s : State) : Host.Outcome State Fault Refusal :=
  boundTo sec isTenant s (fun i d k => k.rindOrHold i d .keyErase)

/-- R655, R672: the blob key of a domain, derived on use. -/
def blobKey (d : Nat) (finger : List Byte) : List Byte := deriveKey [asciiBytes "BLOB", [BitVec.ofNat 8 d], finger] 32

/-- R672: the blob of a DSK: IV, the wrapped key, the tag and four zero bytes. -/
def blobOf (d : Nat) (finger iv dsk : List Byte) : List Byte :=
  let r := gcmSeal (blobKey d finger) iv [BitVec.ofNat 8 d] dsk
  iv ++ r.1 ++ r.2 ++ [0, 0, 0, 0]

/-- R672: the DSK that a blob unwraps to. -/
def unwrapBlob (d : Nat) (finger blob : List Byte) : Option (List Byte) :=
  gcmOpen (blobKey d finger) (blob.take 12) [BitVec.ofNat 8 d] ((blob.drop 12).take 32) ((blob.drop 44).take 16)

/-- DOMAIN_KEY_WRAP (R672). -/
def execDomainKeyWrap (sec : Option Nat) (s : State) : Host.Outcome State Fault Refusal :=
  boundTo sec isTenant s (fun _ d k =>
    match k.domain d with
    | none => k.rind .notDeclared []
    | some x =>
      match x.dsk with
      | none => k.rind .noKey []
      | some key => let r := k.draw; r.2.rind .ok (blobOf d x.finger (r.1.take 12) key))

/-- DEBUG_UNLOCK (R681, R682). -/
def execDebugUnlock (sec : Option Nat) (scopes : Nat) (s : State) : Host.Outcome State Fault Refusal :=
  boundTo sec (fun _ => true) s (fun i d k => k.rindOrHold i d (.unlock scopes))

/-- DEBUG_LOCK (R681). -/
def execDebugLock (sec : Option Nat) (s : State) : Host.Outcome State Fault Refusal :=
  boundTo sec (fun _ => true) s (fun _ d k => (k.revoke d).rind .ok [])

/-- PQ_QUOTE (Table 14.6): a DevID-Q signature over SHA-384 of the nonce and blocks 1 to 7. -/
def execPqQuote (nonce : BitVec 256) (s : State) : Host.Outcome State Fault Refusal :=
  s.onChip true (fun k => k.spdmRequest false (fun k =>
    k.rind .ok (Config.pqSignature devIdQ (sha384 (leBytes 32 nonce.toNat ++ k.measurements s.part 255)))))

/-- PQ_CERT (Table 14.6): up to 1,024 bytes of the DevID-Q chain from an offset. -/
def execPqCert (offset : Nat) (s : State) : Host.Outcome State Fault Refusal :=
  s.onChip true (fun k => k.spdmRequest false (fun k =>
    if Config.pqChain.length ≤ offset then k.rind .badLength [] else k.rind .ok ((Config.pqChain.drop offset).take 1024)))

/-! ### Ownership (R657, R661) -/

/-- R661, Table 14.1: measurement 4 has changed: the alias key is derived afresh, every session ends, and the keys of the owner before are no
longer domain 0's. -/
def Chip.newOwner (k : Chip) (p : Part) (finger : BitVec 384) : Chip :=
  let k := k.onHub (fun h => { h with owners := h.owners ++ [beBytes 48 finger.toNat], sessions := [] })
  ((k.onDomain 0 (fun x => { x with keys := [], algs := 0 })).deriveAlias p).rind .ok []

/-- OWNER_CLAIM (R657). -/
def execOwnerClaim (sec : Option Nat) (finger : BitVec 384) (s : State) : Host.Outcome State Fault Refusal :=
  secured sec s (fun _ _ k => if k.hub.owners ≠ [] then k.rind .owned [] else k.newOwner s.part finger)

/-- OWNER_TRANSFER (R657). -/
def execOwnerTransfer (sec : Option Nat) (finger : BitVec 384) (s : State) : Host.Outcome State Fault Refusal :=
  boundTo sec (fun d => d = 0) s (fun _ _ k =>
    if k.tenants then k.rind .tenantsPresent []
    else if 4 ≤ k.hub.owners.length then k.rind .fuseExhausted []
    else k.newOwner s.part finger)

/-! ### IDE (R684) -/

/-- R684: an IDE stream's key in place; a CXL stream's takes its mode too. -/
def IdeState.set (x : IdeState) : IdeKey → IdeState
  | .cxl skid key => { x with cxl := some (skid, key) }
  | .pcie key => { x with pcie := some key }

/-- IDE_KEY_PROGRAM (R684): the key of the CXL stream, or of the PCIe stream, programmed or refreshed over a secured session that is not
bound to a domain. -/
def execIdeKeyProgram (sec : Option Nat) (key : IdeKey) (s : State) : Host.Outcome State Fault Refusal :=
  secured sec s (fun _ x k =>
    if x.bound.isSome ∨ k.getF Reg.hostLinkStatus 2 0 = 0 then k.rind .notBound []
    else
      let k := k.onHub (fun h => { h with ide := h.ide.set key })
      (if k.hub.ide.cxl.isSome then k.setF Reg.hostLinkStatus 9 9 1 else k).rind .ok [])

/-! ### Debug writes (R683) -/

/-- The target of a debug write. -/
def Chip.dbgTarget (k : Chip) : Nat × Nat := (k.getF Reg.dbgTarget 6 4, k.getF Reg.dbgTarget 1 0)

/-- DBG_HALT (R683): the streams held of the target core; ignored where the part has no such core and without HALT. -/
def Chip.dbgHalt (k : Chip) (V mask : Nat) : Chip :=
  let t := k.dbgTarget
  if t.1 < V && k.scope t.1 t.2 1 then
    let x := k.core t.1 t.2
    let free (s : Nat) (t : Stream) : Stream := if x.held.testBit s && !mask.testBit s then { t with freedAt := k.now } else t
    (k.setCore t.1 t.2 { x with held := mask % 32, streams := x.streams.mapIdx free }).setF Reg.dbgHalt 4 0 mask
  else k

/-- DBG_HALT. -/
def execDbgHalt (mask : BitVec 5) (s : State) : Host.Outcome State Fault Refusal :=
  s.onChip true (fun k => k.dbgHalt s.part.vats mask.toNat)

/-- DBG_BU_HALT (R683): the bank units held of the target core's dies. -/
def Chip.dbgBuHalt (k : Chip) (V mask : Nat) : Chip :=
  let t := k.dbgTarget
  if t.1 < V && k.scope t.1 t.2 1 then
    ((List.range 4).foldl (fun k i => k.setDie t.1 (4 * t.2 + i) { k.die t.1 (4 * t.2 + i) with held := mask.testBit i }) k).setF Reg.dbgBuHalt 3 0 mask
  else k

/-- DBG_BU_HALT. -/
def execDbgBuHalt (mask : BitVec 4) (s : State) : Host.Outcome State Fault Refusal :=
  s.onChip true (fun k => k.dbgBuHalt s.part.vats mask.toNat)

end Sys2Proof.Machine
end

