-- ==== Sys2Proof/Machine/Images.lean ====
section
/-!
DEFINITION. The culture-image format (R566, R567, R573 to R577, R671, R674, R759, Tables 12.1 to 12.6, 14.5 and 16.5): an image read into
its sections, the first format fault, the fields out of range, and the bodies as structures.
-/

namespace Sys2Proof.Machine

/-! ### Format -/

/-- The first byte in `[lo, hi)` that is not zero. -/
def nonzeroAt (bs : List Byte) (lo hi : Nat) : Option Nat :=
  (((bs.drop lo).take (hi - lo)).findIdx? (fun b => b ≠ 0)).map (· + lo)

/-- The first fault of a list of checks. -/
def firstSome : List (Option Nat) → Option Nat
  | [] => none
  | some x :: _ => some x
  | none :: rest => firstSome rest

/-- A check: `some o` where the condition fails. -/
def need (ok : Bool) (o : Nat) : Option Nat := if ok then none else some o

/-- R567: why STAGE refuses an image before its signatures: FORMAT_BAD at an offset, or PART_MISMATCH. -/
inductive ImageFault where
  | bad (offset : Nat)
  | part
deriving DecidableEq, Repr

/-- Table 12.1: the header. MAGIC and FORMAT come before the part fields, which mean nothing in another format. -/
def headerFault (p : Part) (b : List Byte) : Option ImageFault :=
  if b.length < 64 then some (.bad b.length)
  else if b.take 4 ≠ [0x43, 0x55, 0x4C, 0x54] then some (.bad 0)
  else if recField b 4 6 ≠ 1 then some (.bad 4)
  else if byteAt b 6 ≠ p.vats ∨ byteAt b 7 % 2 ≠ (if p.lanes128 then 1 else 0) ∨ byteAt b 8 ≠ 0xA0 then some .part
  else (firstSome
    [ need (byteAt b 7 / 2 = 0) 7, nonzeroAt b 9 12
    , need (decide (1 ≤ recField b 16 20 ∧ recField b 16 20 ≤ 4096)) 16, nonzeroAt b 20 24
    , need (decide (recField b 24 32 = b.length)) 24, nonzeroAt b 32 64 ]).map .bad

/-- The number of bits set in the low 64 bits of a number. -/
def popCount (n : Nat) : Nat := ((List.range 64).filter (fun i => n.testBit i)).length

/-- Table 12.4: the reserved fields of a POOL body's core record at `o`. -/
def coreRecordFault (b : List Byte) (o : Nat) : Option Nat :=
  firstSome ([need (byteAt b (o + 1) / 16 = 0) (o + 1), nonzeroAt b (o + 3) (o + 8)]
    ++ (List.range 4).map (fun i => nonzeroAt b (o + 32 + 16 * i + 11) (o + 32 + 16 * i + 16)))

/-- R574: where an OCDATA body's records end wrongly, from `o` on. -/
def ocDataFault (b : List Byte) : Nat → Nat → Option Nat
  | 0, _ => none
  | fuel + 1, o =>
    if b.length ≤ o then none
    else if b.length < o + 8 then some o
    else
      let n := recField b (o + 4) (o + 8)
      if b.length < o + 8 + n then some (o + 4) else ocDataFault b fuel (o + 8 + n)

/-- R567: the first fault in a section's body, as an offset in the body; `none` with a wrong LENGTH is what `bodyLength` tells. -/
def bodyFault (type : Nat) (b : List Byte) : Option Nat :=
  match type with
  | 0x01 => firstSome [need (byteAt b 1 / 16 = 0) 1, nonzeroAt b 2 8, nonzeroAt b 105 112, nonzeroAt b 2124 2128]
  | 0x02 => firstSome ([nonzeroAt b 2 4, nonzeroAt b 16 64]
      ++ (List.range (popCount (recField b 8 16))).map (fun i => coreRecordFault b (64 + 96 * i)))
  | 0x03 => firstSome [need (byteAt b 2 / 64 = 0) 2, nonzeroAt b 11 12, nonzeroAt b 36 40, nonzeroAt b 48 64]
  | 0x04 => firstSome [need (byteAt b 0 / 16 = 0) 0, need (byteAt b 1 / 2 = 0) 1, nonzeroAt b 11 32]
  | 0x05 => firstSome ((List.range (b.length / 16)).map (fun i => nonzeroAt b (16 * i + 4) (16 * i + 8)))
  | 0x06 => nonzeroAt b 4 8
  | 0x07 => ocDataFault b b.length 0
  | 0x08 => firstSome [need (byteAt b 2 / 32 = 0) 2, need (byteAt b 3 / 8 = 0) 3, nonzeroAt b 12 16, nonzeroAt b 24 32]
  | 0x0F => firstSome [need (decide (byteAt b 0 = 1 ∨ byteAt b 0 = 2)) 0, nonzeroAt b 1 8, if byteAt b 0 = 2 then nonzeroAt b 3317 3320 else none]
  | _ => none

/-- R567: the body length that a section's type and body ask for is the one it has. -/
def bodyLength (type : Nat) (b : List Byte) : Bool :=
  match type with
  | 0x01 => b.length = 2128
  | 0x02 => 64 ≤ b.length && b.length = 64 + 96 * popCount (recField b 8 16)
  | 0x03 => 64 ≤ b.length && b.length = 64 + (28 + recField b 40 48 + 7) / 8 * 8
  | 0x04 => b.length = 32
  | 0x05 => b.length % 16 = 0
  | 0x06 => 264 ≤ b.length && b.length = 264 + 8 * recField b 0 4
  | 0x08 => b.length = 32
  | 0x0F => b.length = (if byteAt b 0 = 2 then 3320 else 104)
  | _ => true

/-- Table 12.3: the types of sections. -/
def knownType (t : Nat) : Bool := (1 ≤ t && t ≤ 9) || t = 0x0F

/-- R566, R567: `n` sections from `pos` on, or the offset of the first fault. -/
def parseSections (b : List Byte) : Nat → Nat → Except Nat (List Section)
  | 0, pos => if pos = b.length then .ok [] else .error pos
  | n + 1, pos =>
    let h := (b.drop pos).take 32
    let len := recField h 8 16
    let body := (b.drop (pos + 32)).take len
    let type := byteAt h 0
    match firstSome
      [ need (decide (pos + 32 ≤ b.length)) pos, need (knownType type) pos, need (byteAt h 2 / 32 = 0) (pos + 2)
      , need (byteAt h 3 / 16 = 0) (pos + 3), (nonzeroAt h 4 8).map (· + pos)
      , need (len % 8 = 0 && decide (pos + 32 + len ≤ b.length)) (pos + 8), need (bodyLength type body) (pos + 8)
      , (nonzeroAt h 16 32).map (· + pos), (bodyFault type body).map (· + (pos + 32)) ] with
    | some o => .error o
    | none =>
      match parseSections b n (pos + 32 + len) with
      | .error o => .error o
      | .ok rest => .ok ({ type := type, signer := byteAt h 1, vat := byteAt h 2 % 8, core := byteAt h 2 / 8 % 4, index := byteAt h 3 % 16
                           at_ := pos + 32, body := body } :: rest)

/-- R566, R567: an image as its IMAGE_SEQ and sections. -/
def parseImage (p : Part) (b : List Byte) : Except ImageFault (Nat × List Section) :=
  match headerFault p b with
  | some f => .error f
  | none =>
    match parseSections b (recField b 16 20) 64 with
    | .error o => .error (.bad o)
    | .ok secs => .ok (recField b 12 16, secs)

/-- R569: the bytes of an image that a signer's SIGNATURE covers: the header and the signer's other sections, in order. -/
def signedBytes (image : List Byte) (secs : List Section) (signer : Nat) : List Byte :=
  image.take 64 ++ (secs.filter (fun x => x.signer = signer && x.type ≠ 0x0F)).flatMap (fun x =>
    (image.drop (x.at_ - 32)).take (32 + x.body.length))

/-! ### Bodies -/

/-- A section's target core, 4v + c. -/
def Section.target (x : Section) : Nat := 4 * x.vat + x.core

/-- Table 12.4: a die's row layout, at `o`. -/
def layoutAt (b : List Byte) (o : Nat) : DieLayout :=
  { pidx := recField b o (o + 2), pageFirst := recField b (o + 2) (o + 4), pageLast := recField b (o + 4) (o + 6)
    scaleFirst := recField b (o + 6) (o + 8), scaleLast := recField b (o + 8) (o + 10), calSpares := byteAt b (o + 10) }

/-- Table 12.4: the core record at `o` of core `core`. -/
def poolCoreAt (b : List Byte) (core o : Nat) : PoolCore :=
  { core := core, jobHoop := byteAt b o % 16, resultHoop := byteAt b o / 16, affHoop := byteAt b (o + 1) % 16
    weightPages := byteAt b (o + 2), weightVa := recField b (o + 8) (o + 16), ledger := recField b (o + 16) (o + 24)
    token := recField b (o + 24) (o + 32), dies := (List.range 4).map (fun i => layoutAt b (o + 32 + 16 * i)) }

/-- Table 12.4: a POOL body, with its number. -/
def Section.pool (x : Section) : Nat × Pool :=
  let b := x.body
  let cores := (List.range 64).filter (fun i => (recField b 8 16).testBit i)
  (byteAt b 0, { domain := byteAt b 1, spillGbps := recField b 4 8, at_ := x.at_
                 cores := cores.mapIdx (fun n c => poolCoreAt b c (64 + 96 * n)) })

/-- Table 12.5: a MODEL body, with its index. -/
def Section.model (x : Section) : Nat × Model :=
  let b := x.body
  (byteAt b 0 % 16,
   { signer := x.signer, pool := byteAt b 1 % 16, layers := byteAt b 2 % 16 + 1, spill := (byteAt b 2).testBit 4, flush := (byteAt b 2).testBit 5
     hkv := byteAt b 3 % 8 + 1, g := byteAt b 3 / 8 % 8 + 1, dsel := byteAt b 3 / 64, window := recField b 4 6
     pagesPerBank := byteAt b 6, waves := byteAt b 7, batch := byteAt b 8, tps := byteAt b 9, pipe := byteAt b 10
     press := recField b 12 16, vec64 := recField b 16 20, vec128 := recField b 20 24, wbLayer := recField b 24 28
     spillLayer := recField b 28 32, attnToken := recField b 32 36, weightBytes := recField b 40 48, at_ := x.at_ })

/-- Table 12.6: a CLASS body, with its class. -/
def Section.classLoad (x : Section) : Nat × ClassLoad :=
  let b := x.body
  (byteAt b 0 % 16, { signer := x.signer, migrate := (byteAt b 1).testBit 0, nMax := recField b 2 4, rate := recField b 4 8
                      skew := recField b 8 10, depth := byteAt b 10 })

/-- R572: the entries of a REGS body. -/
def Section.entries (x : Section) : List (Nat × Nat) :=
  (List.range (x.body.length / 16)).map (fun i => (recField x.body (16 * i) (16 * i + 4), recField x.body (16 * i + 8) (16 * i + 16)))

/-- R573: the words of a PROGRAM body, and its starting scalars. -/
def Section.words (x : Section) : List Word :=
  (List.range (recField x.body 0 4)).map (fun i => BitVec.ofNat 64 (recField x.body (264 + 8 * i) (272 + 8 * i)))
def Section.scalars (x : Section) : List Word :=
  (List.range 32).map (fun i => BitVec.ofNat 64 (recField x.body (8 + 8 * i) (16 + 8 * i)))

/-- R574: the records of an OCDATA body from `o` on: offset and bytes. -/
def ocRecords (b : List Byte) : Nat → Nat → List (Nat × List Byte)
  | 0, _ => []
  | fuel + 1, o =>
    if b.length < o + 8 then []
    else
      let n := recField b (o + 4) (o + 8)
      (recField b o (o + 4), (b.drop (o + 8)).take n) :: ocRecords b fuel (o + 8 + n)
def Section.records (x : Section) : List (Nat × List Byte) := ocRecords x.body x.body.length 0

/-- R574, R585: the first field of an OCDATA record that is out of range, from body offset `o` on: an operand-cache offset that is no multiple
of 64, or a length that is no multiple of 8 or that the body does not hold. A record past 4 MB is admission's (Table 12.10, OC_BYTES). -/
def ocDataRange (b : List Byte) : Nat → Nat → Option Nat
  | 0, _ => none
  | fuel + 1, o =>
    if b.length < o + 8 then none
    else
      let at_ := recField b o (o + 4)
      let n := recField b (o + 4) (o + 8)
      if at_ % 64 ≠ 0 then some o
      else if n % 8 ≠ 0 ∨ b.length < o + 8 + n then some (o + 4)
      else ocDataRange b fuel (o + 8 + n)

/-- Table 14.5: a DOMAIN body's number, TEARDOWN, keys and their fingerprint (R656), algorithms and blob. -/
structure DomainBody where
  domain   : Nat
  teardown : Bool
  keys     : List Byte
  finger   : List Byte
  algs     : Nat
  blob     : Option (List Byte)
deriving DecidableEq, Repr

def Section.domainBody (x : Section) : DomainBody :=
  let b := x.body
  let f := byteAt b 1
  { domain := byteAt b 0, teardown := f.testBit 0, keys := (b.drop 8).take 2056, finger := sha384 ((b.drop 8).take 2056), algs := f / 2 % 4
    blob := if f.testBit 3 then some ((b.drop 2064).take 64) else none }

/-- Table 16.5: the LCK fields that a POWER body stages, by register. -/
def Section.power (x : Section) : List (Nat × Nat) :=
  let b := x.body
  [ (Reg.pwrPolicy, recField b 8 10 * 2 ^ 16 + (byteAt b 3 / 4 % 2) * 2 ^ 12 + (byteAt b 3 / 2 % 2) * 2 ^ 11 + (byteAt b 3 % 2) * 2 ^ 10
      + byteAt b 2 % 32)
  , (Reg.pwrWarm, byteAt b 4), (Reg.pwrTempCfg, byteAt b 6 * 2 ^ 8 + byteAt b 5)
  , (Reg.pwrPaceCfg, byteAt b 7 * 2 ^ 16 + recField b 10 12), (Reg.pwrWeight, recField b 16 24) ]

/-! ### Ranges (Table 12.9, check 2) -/

/-- The first field of a die layout out of range. -/
def layoutRange (b : List Byte) (o : Nat) : Option Nat :=
  firstSome [need (decide (recField b o (o + 2) ≤ 63488)) o, need (decide (byteAt b (o + 10) ≤ 4)) (o + 10)]

/-- The first field of a core record out of range. -/
def coreRange (b : List Byte) (o : Nat) : Option Nat :=
  let wp := byteAt b (o + 2)
  let va := recField b (o + 8) (o + 16)
  firstSome ([need (decide (1 ≤ wp ∧ wp ≤ 64)) (o + 2), need (decide (va % 2 ^ 21 = 0 ∧ va + wp * 2 ^ 21 ≤ 2 ^ 37)) (o + 8)]
    ++ (List.range 4).map (fun i => layoutRange b (o + 32 + 16 * i)))

/-- A number lies in a range. -/
def within (lo hi n : Nat) : Bool := lo ≤ n && n ≤ hi

/-- The first field of a section out of the range its table gives, as an image byte offset. -/
def Section.range (x : Section) (V : Nat) : Option Nat :=
  let b := x.body
  let head := need (decide (x.vat < V)) (x.at_ - 30)
  (match x.type with
  | 0x02 => firstSome ([need (within 0 15 (byteAt b 0)) 0, need (within 1 255 (byteAt b 1)) 1, need (within 1 512 (recField b 4 8)) 4
      , need (recField b 8 16 / 2 ^ (4 * V) = 0) 8] ++ (List.range (popCount (recField b 8 16))).map (fun i => coreRange b (64 + 96 * i)))
  | 0x03 => firstSome [need (within 0 15 (byteAt b 0)) 0, need (within 0 15 (byteAt b 1)) 1, need (within 0 7 (byteAt b 2 % 16)) 2
      , need (within 1 4 (byteAt b 6)) 6, need (within 1 64 (byteAt b 7)) 7, need (within 1 128 (byteAt b 8)) 8
      , need (within 1 64 (byteAt b 9)) 9, need (within 1 2 (byteAt b 10)) 10]
  | 0x04 => firstSome [need (within 1 4096 (recField b 2 4)) 2, need (within 0x100 0x1000 (recField b 8 10)) 8, need (within 1 16 (byteAt b 10)) 10]
  | 0x06 => need (decide (1 ≤ recField b 0 4)) 0
  | 0x07 => ocDataRange b b.length 0
  | 0x08 => firstSome [need (within 1 16 (byteAt b 2 % 32)) 2, need (decide (byteAt b 5 ≤ 105)) 5, need (decide (byteAt b 6 < byteAt b 5)) 6
      , need (within 1 64 (byteAt b 7)) 7
      , firstSome ((List.range V).map (fun v => need (byteAt b (16 + v) ≠ 0) (16 + v)))]
  | _ => none).map (· + x.at_) <|> (if x.type = 0x06 ∨ x.type = 0x07 then head else none)

/-- The bits of a register that are LCK. -/
def RegRow.lck (r : RegRow) : Nat := ((r.fields.filter (fun f => f.acc = .lck)).map (fun f => (2 ^ (f.hi + 1 - f.lo) - 1) * 2 ^ f.lo)).sum

/-- The registers with an LCK field whose values have a stated range. -/
def lckRange (V off : Nat) (w : Word) : Bool :=
  let f := fld w
  if off < 0x1000000 then
    let model := 0x200100 ≤ off && off < 0x200500
    let cls := 0x303000 ≤ off && off < 0x303400
    let e := off % 64
    if 0x400000 ≤ off ∧ off < 0x430000 then f 5 4 ≤ 1
    else if off = Reg.ctxCfg then f 3 0 ≤ 12
    else if 0x200040 ≤ off ∧ off < 0x2000C0 then f 36 0 % 2 ^ 24 = 0
    else if model ∧ e = 0x08 then 1 ≤ f 31 24
    else if model ∧ e = 0x10 then within 1 12 (f 31 24)
    else if model ∧ e = 0x14 then 1 ≤ f 23 16
    else if 0x301000 ≤ off ∧ off < 0x301400 ∧ e = 0x08 then within 8 16 (f 4 0)
    else if 0x302000 ≤ off ∧ off < 0x302400 ∧ e = 0x08 then within 6 16 (f 4 0)
    else if cls ∧ e = 0x00 then within 5000 100000000 (f 26 0)
    else if cls ∧ e = 0x04 then f 27 26 ≤ 2 && f 25 24 ≤ 2
    else if off = Reg.failPolicy then 1 ≤ f 11 8
    else if off = Reg.pwrPolicy then within 1 16 (f 4 0)
    else if off = Reg.pwrTempCfg then f 7 0 ≤ 105 && f 15 8 < f 7 0
    else if off = Reg.pwrPaceCfg then within 1 64 (f 23 16)
    else if off = Reg.pwrWeight then (List.range V).all (fun v => f (8 * v + 7) (8 * v) ≠ 0)
    else if off = Reg.kwMirror then 1 ≤ f 11 0
    else if off = Reg.tsvCalCfg then within 1 20 (f 23 16) && within 10 10000 (f 15 0)
    else true
  else
    let e := off % 0x1000000
    if e < 0x100000 then (if e = 0x4000 then 60 ≤ f 19 0 else true)
    else if e < 0x500000 then
      let o := e % 0x100000
      if 0x80000 ≤ o then f 35 20 ≤ 49151 && f 5 4 ≤ 1
      else if 0x800 ≤ o ∧ o < 0xA00 ∧ o % 32 = 0 then f 10 0 ≤ 1024 && (f 29 29 = 0 || f 28 24 = 0)
      else if o = 0xAC0 then within 10 31 (f 4 0)
      else true
    else
      let o := e % 0x20000
      if o < 0x19000 then f 5 4 ≤ 1
      else if o = 0x1C010 then within 1 1000 (f 9 0)
      else true

/-- R13: the unit whose block holds a BAR0 offset exists on the part, and the host block, if it is one. -/
def offsetOnPart (V off : Nat) : Bool :=
  if off < 0x1000000 then !(0x400000 + 4 * (6144 * V) ≤ off && off < 0x430000) else off / 0x1000000 - 1 < V

/-- R572: the LCK bits of the register at a BAR0 offset; zero where no register with an LCK field begins there. -/
def lckAt (V off : Nat) : Nat :=
  if !offsetOnPart V off then 0
  else match regOver off with
    | some (s, r) => if s = off then r.lck else 0
    | none => 0

end Sys2Proof.Machine
end

