-- ==== Sys2Proof/Machine/Staging.lean ====
section
/-!
DEFINITION. The staged state (R570 to R572, R625 to R627, R671, R676): sections taken into a transaction, the state that a COMMIT would put in
force, who owns each LCK field and each host block, and the cores that a COMMIT switches (R596).
-/

namespace Sys2Proof.Machine

/-! ### Staging -/

/-- The later of two sections with one key replaces the earlier (R570): a domain, pool, model, class, core's PROGRAM, POWER or LIBPATCH.
OCDATA sections lie over one another. -/
def Section.key (x : Section) : Option (Nat × Nat) :=
  match x.type with
  | 1 | 2 | 3 | 4 => some (x.type, byteAt x.body 0)
  | 6 => some (6, x.target)
  | 8 => some (8, 0)
  | 9 => some (9, 0)
  | _ => none

/-- A register value staged. -/
def Txn.putReg (t : Txn) (off value signer : Nat) : Txn :=
  { t with regs := insert t.regs off { value := BitVec.ofNat 64 value, signer := signer } }

/-- R570: one section staged. -/
def Txn.take (t : Txn) (x : Section) : Txn :=
  match x.type with
  | 5 => x.entries.foldl (fun t e => t.putReg e.1 e.2 x.signer) t
  | 8 =>
    let t := x.power.foldl (fun t e => t.putReg e.1 e.2 x.signer) t
    { t with sections := t.sections.filter (fun y => y.key ≠ x.key) ++ [x] }
  | 0x0F => t
  | _ => { t with sections := t.sections.filter (fun y => y.key = none || y.key ≠ x.key) ++ [x] }

/-- The staged sections of a type. -/
def Txn.of (t : Txn) (type : Nat) : List Section := t.sections.filter (fun x => x.type = type)

/-- Entries laid over a table. -/
def overlay {α : Type} (base new : List (Nat × α)) : List (Nat × α) := new.foldl (fun t e => insert t e.1 e.2) base

/-! ### The state that a COMMIT would put in force -/

/-- R671, R664: the domains declared: CHAIN is zeros at a declaration, and a domain declared anew keeps its DSK, grants and CHAIN. -/
def Chip.stagedDomains (k : Chip) (t : Txn) : List (Nat × Domain) :=
  let secs := (t.of 1).map Section.domainBody
  let gone := (secs.filter (·.teardown)).map (·.domain)
  let add (ds : List (Nat × Domain)) (b : DomainBody) : List (Nat × Domain) :=
    let old := (ds.find? (fun x => x.1 = b.domain)).map (·.2)
    let base : Domain := old.getD { keys := [], finger := [], algs := 0, chain := List.replicate 48 0, dsk := none, grants := 0 }
    insert ds b.domain { base with keys := b.keys, finger := b.finger, algs := b.algs }
  (((secs.filter (fun b => !b.teardown)).foldl add k.hub.domains)).filter (fun x => !gone.contains x.1)

/-- The pools: one whose CORES is empty is removed. -/
def Chip.stagedPools (k : Chip) (t : Txn) : List (Nat × Pool) :=
  (overlay k.hub.pools ((t.of 2).map Section.pool)).filter (fun p => !p.2.cores.isEmpty)

/-- The models: one in force whose pool is removed goes with it. -/
def Chip.stagedModels (k : Chip) (t : Txn) : List (Nat × Model) :=
  let new := (t.of 3).map Section.model
  (overlay k.hub.models new).filter (fun m =>
    new.any (fun n => n.1 = m.1) || (k.stagedPools t).any (fun p => p.1 = m.2.pool))

/-- R572: a register with its staged LCK fields. -/
def Chip.stageReg (V : Nat) (k : Chip) (r : Nat × StagedReg) : Chip :=
  let m := BitVec.ofNat 64 (lckAt V r.1)
  if m = 0 then k else k.setReg r.1 ((k.reg r.1 &&& ~~~m) ||| (r.2.value &&& m))

/-- R570: the staged state before R627. -/
def Chip.overlaid (k : Chip) (V : Nat) (t : Txn) : Chip :=
  let k' := t.regs.foldl (Chip.stageReg V) k
  k'.onHub (fun h => { h with
    pools := k.stagedPools t, models := k.stagedModels t, classes := overlay h.classes ((t.of 4).map Section.classLoad)
    domains := k.stagedDomains t })

/-! ### Pages, blocks and their owners -/

/-- A valid translation or BU_PAGE entry: its register, the page it names, its DOMAIN and ATTR, and whether it is a BU_PAGE entry. -/
structure MapEntry where
  off    : Nat
  vat    : Nat
  ppn    : Nat
  domain : Nat
  attr   : Nat
  bank   : Bool
deriving DecidableEq, Repr

/-- The map entry of a register, where it is a valid one; a spare's bank lies outside the address space (R201). -/
def Chip.mapEntry (k : Chip) (V off : Nat) (w : Word) : Option MapEntry :=
  let v := off / 0x1000000 - 1
  let e := off % 0x1000000
  if off < 0x1000000 ∨ V ≤ v ∨ fld w 0 0 = 0 then none
  else if 0x100000 ≤ e ∧ e < 0x500000 ∧ 0x80000 ≤ e % 0x100000 then
    some { off := off, vat := v, ppn := fld w 35 20, domain := fld w 47 40, attr := fld w 5 4, bank := false }
  else if 0x800000 ≤ e ∧ e < 0xA00000 ∧ e % 0x20000 < 0x19000 ∧ 0x100 ≤ e % 0x400 ∧ e % 0x400 < 0x180 then
    let d := (e - 0x800000) / 0x20000
    let a := (k.die v d).logicalOf (e % 0x20000 / 0x400)
    if a < 96 then
      some { off := off, vat := v, ppn := 32 * (96 * d + a) + (e % 0x400 - 0x100) / 4, domain := fld w 15 8, attr := fld w 5 4, bank := true }
    else none
  else none

/-- Every valid map entry. -/
def Chip.mapEntries (k : Chip) (V : Nat) : List MapEntry := k.regs.filterMap (fun r => k.mapEntry V r.1 r.2)

/-- The tenants that valid entries name for the pages of each block (R625, R626). -/
def Chip.blockDomains (k : Chip) (V : Nat) : List (Nat × Nat) :=
  ((k.mapEntries V).filter (fun e => e.ppn < 49152)).map (fun e => (blockOf V e.vat e.ppn, e.domain))

/-- R626: the owner of a block. -/
def ownerIn (owners : List (Nat × Nat)) (b : Nat) : Nat := ((owners.find? (fun x => x.1 = b)).map (·.2)).getD 0

/-- R627: blocks newly given to a tenant lose HR and HW, unless a section of that tenant stages them. -/
def Chip.hideNew (k' k : Chip) (V : Nat) (t : Txn) : Chip :=
  let new := k'.blockDomains V
  let old := k.blockDomains V
  (new.eraseDups).foldl (fun k' x =>
    if x.2 = 0 ∨ ownerIn old x.1 = x.2 ∨ (t.regs.any (fun r => r.1 = Reg.hostBlock x.1 && r.2.signer = x.2)) then k'
    else k'.setF (Reg.hostBlock x.1) 2 1 0) k'

/-- R570, R627: the state that the transaction's COMMIT would put in force. -/
def Chip.staged (k : Chip) (V : Nat) (t : Txn) : Chip := (k.overlaid V t).hideNew k V t

/-- The domain of a core: that of its pool, else 0. -/
def Chip.poolDomain (k : Chip) (core : Nat) : Nat :=
  ((k.hub.pools.find? (fun p => p.2.cores.any (fun c => c.core = core))).map (fun p => p.2.domain)).getD 0

/-- The domain of a model: that of its pool, else 0. -/
def Chip.modelDomain (k : Chip) (m : Nat) : Nat :=
  match k.model m with
  | some md => ((k.pool md.pool).map (·.domain)).getD 0
  | none => 0

/-- Table 12.7: the owner of the LCK fields of the register at a BAR0 offset, holding `w` in the staged state. -/
def Chip.lckOwner (k' : Chip) (owners : List (Nat × Nat)) (off : Nat) (w : Word) : Nat :=
  if off < 0x1000000 then
    if 0x400000 ≤ off ∧ off < 0x430000 then ownerIn owners ((off - 0x400000) / 4)
    else if 0x200100 ≤ off ∧ off < 0x200500 then k'.modelDomain ((off - 0x200100) / 64)
    else if 0x303000 ≤ off ∧ off < 0x303400 ∧ off % 64 < 16 then k'.modelDomain (k'.classModel ((off - 0x303000) / 64))
    else 0
  else
    let v := off / 0x1000000 - 1
    let e := off % 0x1000000
    if 0x100000 ≤ e ∧ e < 0x500000 then k'.poolDomain (4 * v + (e / 0x100000 - 1))
    else if 0x800000 ≤ e ∧ e % 0x20000 < 0x19000 then fld w 15 8
    else 0

/-! ### What changes -/

/-- The registers whose LCK fields the transaction changes. -/
def Chip.changedRegs (k k' : Chip) (t : Txn) : List Nat :=
  (t.regs.map (·.1)).filter (fun o => k.reg o ≠ k'.reg o)

/-- The core that a register change switches (R596): its own core's block, its die's BU_PAGE or DIE_FENCE_TIMEOUT. -/
def coreOfReg (off : Nat) : Option Nat :=
  if off < 0x1000000 then none
  else
    let v := off / 0x1000000 - 1
    let e := off % 0x1000000
    if 0x100000 ≤ e ∧ e < 0x500000 then some (4 * v + (e / 0x100000 - 1))
    else if 0x800000 ≤ e ∧ e < 0xA00000 then some (4 * v + (e - 0x800000) / 0x20000 / 4)
    else none

/-- The slot whose HOOP_CFG a register is. -/
def hoopReg (off : Nat) : Option (Nat × Nat × Nat) :=
  let e := off % 0x1000000
  let o := e % 0x100000
  if 0x1000000 ≤ off ∧ 0x100000 ≤ e ∧ e < 0x500000 ∧ 0x800 ≤ o ∧ o < 0xA00 ∧ o % 32 = 0 then
    some (off / 0x1000000 - 1, e / 0x100000 - 1, (o - 0x800) / 32)
  else none

/-- The peer cores of a slot, before and after a change of its HOOP_CFG. -/
def hoopPeers (k k' : Chip) (off : Nat) : List Nat :=
  match hoopReg off with
  | some (v, c, h) => [k, k'].filterMap (fun x => (x.peerOf v c h).map (fun p => 4 * p.1 + p.2.1))
  | none => []

/-- R596: the cores that a COMMIT switches, in ascending order. -/
def Chip.switchedBy (k k' : Chip) (V : Nat) (t : Txn) : List Nat :=
  let regs := k.changedRegs k' t
  let poolsOf (p : Nat) : List Nat := [k, k'].flatMap (fun x => match x.pool p with
    | some q => q.cores.map (·.core)
    | none => [])
  let all := ((t.of 6) ++ (t.of 7)).map Section.target ++ regs.filterMap coreOfReg ++ regs.flatMap (hoopPeers k k')
    ++ (List.range (4 * V)).filter (fun c => k.poolDomain c ≠ k'.poolDomain c)
    ++ ((t.of 2).map (fun x => byteAt x.body 0)).flatMap poolsOf
    ++ ((t.of 3).map (fun x => byteAt x.body 1 % 16)).flatMap poolsOf
    ++ (t.of 3).flatMap (fun x => match k.model x.model.1 with
        | some md => poolsOf md.pool
        | none => [])
    ++ (if (t.of 9).isEmpty then [] else List.range (4 * V))
  (List.range (4 * V)).filter (fun c => all.contains c)

end Sys2Proof.Machine
end

