-- ==== Sys2Proof/Machine/Validate.lean ====
section
/-!
DEFINITION. Validation (R585 to R587, R571 to R575, R595, R605, R625, R658, R671 to R673, R676, R678, R717, Tables 12.8, 12.9 and 12.12): the
checks on the staged state in order, and the first that fails.
-/

namespace Sys2Proof.Machine

/-- Table 12.8: how an operation of CI_CTL ends, with its detail. -/
structure CiResult where
  code   : Nat
  detail : Nat
  domain : Nat
  offset : Nat
  need   : Nat
  have_  : Nat
  short  : Nat
deriving DecidableEq, Repr

/-- A result with no detail. -/
def CiResult.of (code : Nat) : CiResult := { code := code, detail := 0, domain := 0, offset := 0, need := 0, have_ := 0, short := 0 }

def ciOk : CiResult := CiResult.of 0x00
def signatureBad (d : Nat) : CiResult := { CiResult.of 0x06 with domain := d }
def fieldRange (o : Nat) : CiResult := { CiResult.of 0x07 with offset := o }
def domainConflict (o : Nat) : CiResult := { CiResult.of 0x08 with offset := o }
def hoopGraph (o : Nat) : CiResult := { CiResult.of 0x09 with offset := o }
def placement (d : Nat) : CiResult := { CiResult.of 0x0A with detail := d }
def resourceShort (code n h : Nat) : CiResult := { CiResult.of 0x10 with detail := code, need := n, have_ := h }

/-- The first refusal of a list of checks. -/
def firstRefusal : List (Option CiResult) → Option CiResult
  | [] => none
  | some r :: _ => some r
  | none :: rest => firstRefusal rest

/-- What a COMMIT is checked on: the part, the state in force, the transaction, the staged state, and the owners of its blocks. -/
structure Check where
  part   : Part
  k      : Chip
  t      : Txn
  k'     : Chip
  owners : List (Nat × Nat)

/-- The check of a transaction. -/
def checkOf (p : Part) (k : Chip) (t : Txn) : Check :=
  let k' := k.staged p.vats t
  { part := p, k := k, t := t, k' := k', owners := k'.blockDomains p.vats }

/-! ### Check 1: authority and seals -/

/-- R658: domain 0's section agrees with the owner slot in use. -/
def Check.owner (x : Check) : Option CiResult :=
  match x.k'.domain 0, x.k.hub.owners.getLast? with
  | some d, some f => if d.finger = f then none else some (signatureBad 0)
  | _, _ => some (signatureBad 0)

/-- R571: every changed field carries its owner's authority. -/
def Check.authority (x : Check) : Option CiResult :=
  firstRefusal (x.t.regs.map (fun r =>
    let w := x.k'.reg r.1
    let own := x.k'.lckOwner x.owners r.1 w
    if x.k.reg r.1 = w ∨ r.2.signer = own then none else some (signatureBad (if own = 0 then r.2.signer else own))))

/-- Table 12.3: the signers of sections that carry what a tenant owns. -/
def Check.signers (x : Check) : Option CiResult :=
  let want (y : Section) : Option Nat :=
    match y.type with
    | 3 => some (((x.k'.pool (y.model.2.pool)).map (·.domain)).getD y.signer)
    | 4 => some (x.k'.modelDomain (x.k'.classModel y.classLoad.1))
    | 6 | 7 => some (x.k'.poolDomain y.target)
    | _ => none
  firstRefusal (x.t.sections.map (fun y => match want y with
    | some d => if d ≠ 0 ∧ d = y.signer then none else some (signatureBad y.signer)
    | none => none))

/-- R672: the DSK that a domain's blob restores. -/
def Check.blobKey (x : Check) (d : Nat) : Option (List Byte) :=
  match (((x.t.of 1).map Section.domainBody).find? (fun b => b.domain = d)) with
  | some b => b.blob.bind (fun bl => unwrapBlob d b.finger bl)
  | none => none

/-- R670, R672: the DSK of a domain at the apply. -/
def Check.dsk (x : Check) (d : Nat) : Option (List Byte) :=
  match (x.k.domain d).bind (·.dsk) with
  | some key => some key
  | none => x.blobKey d

/-- R672: every blob unwraps, to the DSK held where one is. -/
def Check.blobs (x : Check) : Option CiResult :=
  firstRefusal (((x.t.of 1).map Section.domainBody).map (fun b =>
    match b.blob with
    | none => none
    | some _ =>
      match x.blobKey b.domain with
      | none => some (signatureBad b.domain)
      | some key => if ((x.k.domain b.domain).bind (·.dsk)).getD key = key then none else some (signatureBad b.domain)))

/-- Table 12.2: a section's header as it stood in its image. -/
def Section.header (x : Section) : List Byte :=
  [BitVec.ofNat 8 x.type, BitVec.ofNat 8 x.signer, BitVec.ofNat 8 (x.vat + 8 * x.core), BitVec.ofNat 8 x.index, 0, 0, 0, 0]
    ++ leBytes 8 x.body.length ++ List.replicate 16 0

/-- R673: the weights that a MODEL section seals, under a DSK. -/
def Section.weights (x : Section) (key : List Byte) : Option (List Byte) :=
  let n := recField x.body 40 48
  let sealed := x.body.drop 64
  gcmOpen key (sealed.take 12) (x.header ++ x.body.take 64) ((sealed.drop 12).take n) ((sealed.drop (12 + n)).take 16)

/-- R673: every MODEL section opens under its domain's DSK. -/
def Check.seals (x : Check) : Option CiResult :=
  firstRefusal ((x.t.of 3).map (fun y =>
    match x.dsk y.signer with
    | none => some (signatureBad y.signer)
    | some key => if (y.weights key).isSome then none else some (signatureBad y.signer)))

/-! ### Check 2: ranges -/

/-- R572 and the tables of the bodies. -/
def Check.ranges (x : Check) : Option CiResult :=
  firstRefusal (x.t.regs.map (fun r =>
      let m := lckAt x.part.vats r.1
      let v := r.2.value
      if m ≠ 0 ∧ v &&& ~~~(BitVec.ofNat 64 m) = 0 ∧ lckRange x.part.vats r.1 v then none else some (fieldRange r.1))
    ++ x.t.sections.map (fun y => (y.range x.part.vats).map fieldRange))

/-! ### Check 3: one domain each -/

/-- R671: a tenant is declared in the staged state. -/
def Check.declared (x : Check) (d : Nat) : Bool := d ≠ 0 && (x.k'.domain d).isSome

/-- The joined OUT slots of the staged state: vat, core, slot and peer. -/
def Check.slots (x : Check) : List (Nat × Nat × Nat) :=
  (List.range (4 * x.part.vats)).flatMap (fun i => (List.range 16).map (fun h => (i / 4, i % 4, h)))

/-- R654, R671, R678: a tenant whose keys would change while it stays declared: its key ends at teardown alone, and an image that tears it down
may not declare it (DEDUCED, log entry 48). -/
def Check.rekeyed (x : Check) (y : Section) : Bool :=
  let b := y.domainBody
  !b.teardown && b.domain ≠ 0 && match x.k.domain b.domain with
    | some d => d.finger ≠ b.finger
    | none => false

/-- R654, R678: no tenant takes other keys, and no image declares what it tears down. -/
def Check.redeclared (x : Check) : Option CiResult :=
  firstRefusal ((x.t.of 1).map (fun y => if x.rekeyed y then some (domainConflict y.at_) else none)
    ++ x.t.images.map (fun i => i.clash.map domainConflict))

/-- Each core, page and model has one domain that is declared, and each hoop pair lies in one. -/
def Check.domains (x : Check) : Option CiResult :=
  let pools := x.k'.hub.pools
  let twice (i : Nat) : Bool := 1 < ((pools.filter (fun p => p.2.cores.any (fun c => c.core = i))).map (fun p => p.2.domain)).eraseDups.length
  let es := x.k'.mapEntries x.part.vats
  let clash (e : MapEntry) : Bool := es.any (fun f => f.vat = e.vat && f.ppn = e.ppn && f.domain ≠ e.domain && f.off < e.off)
  firstRefusal (pools.map (fun p => if p.2.cores.any (fun c => twice c.core) then some (domainConflict p.2.at_) else none)
    ++ pools.map (fun p => if x.declared p.2.domain then none else some (domainConflict (p.2.at_ + 1)))
    ++ es.map (fun e => if x.declared e.domain && !clash e then none else some (domainConflict e.off))
    ++ x.slots.map (fun s =>
      let g := x.k'.hoopCfg s.1 s.2.1 s.2.2
      if g.route = 2 ∧ !g.hub ∧ x.k'.poolDomain (4 * s.1 + s.2.1) ≠ x.k'.poolDomain (4 * g.vat + g.core) then
        some (domainConflict (Reg.hoopCfg s.1 s.2.1 s.2.2))
      else none))

/-! ### Check 4: pages and blocks -/

/-- The pages that a run of bytes of a vat touches. -/
def pagesIn (lo n : Nat) : List Nat := if n = 0 then [] else (List.range ((lo % 2 ^ 21 + n + 2 ^ 21 - 1) / 2 ^ 21)).map (fun i => lo / 2 ^ 21 + i)

/-- The pages, in every active bank of a die, that a run of rows touches. -/
def rowPages (d first last : Nat) : List Nat :=
  if last < first then [] else
  (List.range 96).flatMap (fun a =>
    (List.range (last / 2048 + 1 - first / 2048)).map (fun i => 32 * (96 * d + a) + first / 2048 + i))

/-- R488: the bytes of a core's ledger region for the models of a pool. -/
def Chip.ledgerBytes (k : Chip) (pool : Nat) : Nat :=
  ((k.hub.models.filter (fun m => m.2.pool = pool)).map (fun m =>
    2 * (4 * 16384 * m.2.layers * (32 * k.getF (Reg.affCull m.1) 31 24)))).foldl max 0

/-- R595: the pages that the weights of a pool's models take on a core: its weight pages, and under SPILL those beyond them. -/
def Chip.weightSpan (k : Chip) (pool : Nat) (c : PoolCore) : Nat :=
  ((k.hub.models.filter (fun m => m.2.pool = pool && m.2.spill)).map (fun m => ceilDiv m.2.weightBytes (2 ^ 21))).foldl max c.weightPages

/-- R676: the pages of a core that hold its tenant's weights, spilled ones among them, page indexes, page and scale areas, ledger, token buffers
and hoop spill regions. A pool without a model has no ledger (DEDUCED, log entry 46). -/
def Chip.tenantPages (k : Chip) (pool : Nat) (c : PoolCore) : List Nat :=
  let v := c.core / 4
  let n := c.core % 4
  let weights := (List.range (k.weightSpan pool c)).filterMap (fun i =>
    let e := k.trans v n (c.weightVa / 2 ^ 21 + i)
    if e.valid then some e.ppn else none)
  let areas := (c.dies.zipIdx).flatMap (fun x =>
    let d := 4 * n + x.2
    rowPages d x.1.pidx (x.1.pidx + 2047) ++ rowPages d x.1.pageFirst x.1.pageLast ++ rowPages d x.1.scaleFirst x.1.scaleLast)
  let spill := (List.range 16).flatMap (fun h =>
    let g := k.hoopCfg v n h
    if g.hasHead ∧ 0 < g.spill then pagesIn (k.getF (Reg.hoopSpillBase v n h) 36 0) (1024 * g.spill) else [])
  weights ++ areas ++ spill ++ pagesIn c.ledger (k.ledgerBytes pool) ++ pagesIn c.token 64

/-- R675: a block is sealed for a domain. -/
def Check.isSealed (x : Check) (b d : Nat) : Bool :=
  let o := Reg.hostBlock b
  x.k'.flag o 0 && x.k'.getF o 2 1 = 0 && ownerIn x.owners b = d

/-- R464, R469: a vat names a directory and a context-record region: the two bases differ. -/
def Chip.hasDirectory (k : Chip) (v : Nat) : Bool := k.getF (Reg.dirBase v) 36 0 ≠ k.getF (Reg.ctxTableBase v) 36 0

/-- The bytes of a directory or context-record region (R464, R469, R722). -/
def Chip.regionBytes (k : Chip) : Nat := if k.flag Reg.ctxReplica 0 then 2 ^ 25 else 2 ^ 24

/-- R586, R625, R676. -/
def Check.blocks (x : Check) : Option CiResult :=
  let V := x.part.vats
  let es := x.k'.mapEntries V
  let odd (e : MapEntry) : Bool := e.bank && es.any (fun f => !f.bank && f.vat = e.vat && f.ppn = e.ppn && (f.attr ≠ e.attr || f.domain ≠ e.domain))
  let split (b d : Nat) : Bool := x.owners.any (fun o => o.1 = b && o.2 ≠ d)
  let tenant := x.k'.hub.pools.flatMap (fun p => p.2.cores.flatMap (fun c =>
    ((x.k'.tenantPages p.1 c).map (blockOf V (c.core / 4))).eraseDups.map (fun b => (b, p.2.domain))))
  let dirs := (List.range V).flatMap (fun v =>
    if x.k'.hasDirectory v then
      (pagesIn (x.k'.getF (Reg.dirBase v) 36 0) x.k'.regionBytes ++ pagesIn (x.k'.getF (Reg.ctxTableBase v) 36 0) x.k'.regionBytes).map (blockOf V v)
    else [])
  firstRefusal (es.map (fun e => if odd e then some (domainConflict e.off) else none)
    ++ es.map (fun e =>
      let b := blockOf V e.vat e.ppn
      if x.k'.getF (Reg.hostBlock b) 5 4 = e.attr ∧ !split b e.domain then none else some (domainConflict (Reg.hostBlock b)))
    ++ tenant.map (fun y => if x.isSealed y.1 y.2 then none else some (domainConflict (Reg.hostBlock y.1)))
    ++ dirs.map (fun b => if x.k'.getF (Reg.hostBlock b) 2 1 = 0 then none else some (domainConflict (Reg.hostBlock b))))

/-! ### Check 5: hoops -/

/-- R587, R408, R410, R413: one slot's place in the hoop graph. -/
def Check.slotOk (x : Check) (v c h : Nat) : Bool :=
  let g := x.k'.hoopCfg v c h
  let p := x.k'.hoopCfg g.vat g.core g.slot
  let namers := x.slots.filter (fun s =>
    let q := x.k'.hoopCfg s.1 s.2.1 s.2.2
    q.route = 2 && !q.hub && q.vat = v && q.core = c && q.slot = h)
  let base := x.k'.getF (Reg.hoopSpillBase v c h) 36 0
  let last := base + 1024 * g.spill - 1
  let page := (x.k'.mapEntries x.part.vats).filter (fun e => e.vat = v && e.ppn = base / 2 ^ 21)
  let out := if g.route = 2 ∧ !g.hub then
      decide (g.vat < x.part.vats) && p.route = 3 && !p.hub && p.vat = v && p.core = c && p.slot = h
    else true
  let into := if g.route = 3 ∧ !g.hub then namers.length = 1 else true
  let region := if g.hasHead ∧ 0 < g.spill then
      base % 1024 = 0 && base / 2 ^ 21 = last / 2 ^ 21 && !page.isEmpty
        && page.all (fun e => e.domain = x.k'.poolDomain (4 * v + c) && e.attr = 1)
    else true
  out && into && region && !(g.route = 2 && 0 < g.spill)

/-- R587: the hub-peered slots that a pool's core names. -/
def Check.coreHoops (x : Check) (c : PoolCore) : Option CiResult :=
  let at_ (h route : Nat) : Option CiResult :=
    let g := x.k'.hoopCfg (c.core / 4) (c.core % 4) h
    if g.route = route ∧ g.hub then none else some (hoopGraph (Reg.hoopCfg (c.core / 4) (c.core % 4) h))
  firstRefusal [at_ c.jobHoop 3, at_ c.affHoop 3, at_ c.resultHoop 2]

/-- R587. -/
def Check.hoops (x : Check) : Option CiResult :=
  firstRefusal (x.slots.map (fun s =>
      if (x.k'.hoopCfg s.1 s.2.1 s.2.2).route = 0 ∨ x.slotOk s.1 s.2.1 s.2.2 then none else some (hoopGraph (Reg.hoopCfg s.1 s.2.1 s.2.2)))
    ++ x.k'.hub.pools.flatMap (fun p => p.2.cores.map x.coreHoops))

/-! ### Check 6: placement -/

/-- Table 5.1: a model's geometry. -/
def Model.geometryOk (m : Model) : Bool :=
  within 1 8 m.hkv && within 1 8 m.g && within 1 16 (m.hkv * m.g) && decide (m.dsel < 3) && within 32 512 m.width

/-- R575, R595: the weights of a model on a core: its weight pages map, readable, to pages of the core's own dies; and the bytes beyond
them, under SPILL, to other dies of the vat in the model's domain. -/
def Check.weightsMapped (x : Check) (m : Model) (dom : Nat) (c : PoolCore) : Bool :=
  let v := c.core / 4
  let n := c.core % 4
  let own (p : Nat) : Bool := p / (32 * 96) / 4 = n
  let e (i : Nat) : PageEntry := x.k'.trans v n (c.weightVa / 2 ^ 21 + i)
  let pages := ceilDiv m.weightBytes (2 ^ 21)
  (List.range c.weightPages).all (fun i => (e i).valid && (e i).read && (own (e i).ppn || m.spill))
    && (!m.spill || (List.range (pages - c.weightPages)).all (fun i =>
      let q := e (c.weightPages + i)
      q.valid && q.read && q.domain = dom && !own q.ppn))

/-- Table 12.9, check 6, with R717's. -/
def Check.placed (x : Check) : Option CiResult :=
  let ms := x.k'.hub.models
  firstRefusal (ms.map (fun m => if m.2.geometryOk && (x.k'.pool m.2.pool).isSome then none else some (placement m.1))
    ++ (List.range 16).map (fun c =>
      if !x.k'.classOn c then none
      else match x.k'.classPlan c with
        | some p => if p.load.signer = x.k'.modelDomain p.index then none else some (placement c)
        | none => some (placement c))
    ++ x.k'.hub.pools.flatMap (fun p =>
      if ms.any (fun m => m.2.pool = p.1) then
        (ms.filter (fun m => m.2.pool = p.1)).flatMap (fun m =>
          p.2.cores.map (fun c => if x.weightsMapped m.2 p.2.domain c then none else some (placement m.1)))
      else p.2.cores.map (fun c => if (List.range c.weightPages).all (fun i =>
            let e := x.k'.trans (c.core / 4) (c.core % 4) (c.weightVa / 2 ^ 21 + i)
            e.valid && e.read && e.ppn / (32 * 96) / 4 = c.core % 4) then none else some (placement p.1)))
    ++ (x.k'.mapEntries x.part.vats).map (fun e =>
      if x.k.retired e.vat e.ppn then some { placement 0 with offset := e.off } else none))

/-! ### Check 7: live contexts -/

/-- Table 12.12: a model's geometry, WINDOW or MASS_PAGES changes. -/
def Check.reshaped (x : Check) (i : Nat) : Bool :=
  match x.k.model i, x.k'.model i with
  | some a, some b => a.hkv ≠ b.hkv || a.g ≠ b.g || a.dsel ≠ b.dsel || a.layers ≠ b.layers || a.window ≠ b.window
      || x.k.getF (Reg.affCull i) 31 24 ≠ x.k'.getF (Reg.affCull i) 31 24
  | _, _ => false

/-- Table 12.12: a context's die leaves its model's pool, or its rows shrink past a page of the context. -/
def Check.displaced (x : Check) (c : Ctx) : Bool :=
  c.state ≠ .spilled && match x.k'.model c.model with
  | none => false
  | some m =>
    match x.k'.layout c.vat c.die with
    | none => true
    | some l =>
      let old := x.k.layout c.vat c.die
      !(x.k'.poolDies m).contains (c.vat, c.die) || (old.map (·.pidx)) ≠ some l.pidx
        || c.pages.any (fun p => p.row < l.pageFirst || l.pageLast + 1 < p.row + m.rows p.tier
          || p.gran < 2 * l.scaleFirst || 2 * (l.scaleLast + 1) < p.gran + m.granules)

/-- Table 12.12: a context's model and domain stay. -/
def Check.keeps (x : Check) (c : Ctx) : Bool := (x.k'.model c.model).isSome && (x.k'.domain c.domain).isSome

/-- Table 12.12: its model closes its contexts (CTX_POLICY FLUSH). -/
def Check.flushes (x : Check) (c : Ctx) : Bool := match x.k'.model c.model with
  | some m => m.flush
  | none => false

/-- R606: a context that the drain moves before the quiet point can come. -/
def Check.moves (x : Check) (c : Ctx) : Bool := x.keeps c && !x.flushes c && x.displaced c

/-- Table 12.12: a context that the apply closes, one that FORCE has kept from moving among them. -/
def Check.closes (x : Check) (c : Ctx) : Bool :=
  let home := 4 * c.vat + ownerOf c.die
  !x.keeps c || x.displaced c || (c.state ≠ .spilled && x.k.poolDomain home ≠ x.k'.poolDomain home)
    || (x.flushes c && ((x.t.of 3).any (fun y => y.model.1 = c.model) || x.reshaped c.model))

/-- Table 12.12: KEEP refuses a change of geometry, WINDOW or MASS_PAGES of a model with live contexts. -/
def Check.live (x : Check) : Option CiResult :=
  firstRefusal (x.k'.hub.models.map (fun m =>
    let n := (x.k.hub.ctxs.filter (fun c => c.2.model = m.1)).length
    if !m.2.flush ∧ x.reshaped m.1 ∧ 0 < n then some { CiResult.of 0x0B with detail := m.1, need := n } else none))

/-- R585: validation. -/
def Check.validate (x : Check) : Option CiResult :=
  firstRefusal [ x.owner, x.authority, x.signers, x.blobs, x.seals, x.ranges, x.redeclared, x.domains, x.blocks, x.hoops, x.placed, x.live ]

end Sys2Proof.Machine
end

