-- ==== Sys2Proof/Machine/Resets.lean ====
section
/-!
DEFINITION. Resets, supplies, boot and tamper (spec/18_reset_boot_calibration.md; R659, R677 to R680).
-/

namespace Sys2Proof.Machine

/-! ### Registers across a reset (R17, Table 18.2) -/

/-- The bits of a field. -/
def RegField.mask (f : RegField) : Nat := (2 ^ (f.hi + 1 - f.lo) - 1) * 2 ^ f.lo

/-- Table 18.2: a field that a reset keeps: one that reads Cave, and at a package reset an LCK or sticky field. -/
def RegField.kept (package : Bool) (f : RegField) : Bool := f.cave || (package && (f.acc = .lck || f.acc = .sticky))

/-- The bits of the register at a BAR0 offset that a reset keeps; the fused SVN lies in fuses (Table 14.9). -/
def keptBits (package : Bool) (o : Nat) : Nat :=
  if o = Reg.rindSvn then 0xFFFF0000
  else match regOver o with
    | some (s, r) => if s = o then ((r.fields.filter (RegField.kept package)).map RegField.mask).sum else 0
    | none => 0

/-- The register file after a reset. -/
def Chip.resetRegs (k : Chip) (package : Bool) : List (Nat × Word) :=
  k.regs.filterMap (fun x =>
    let m := BitVec.ofNat 64 (keptBits package x.1)
    let w := (x.2 &&& m) ||| (resetAt x.1 &&& ~~~m)
    if w = resetAt x.1 then none else some (x.1, w))

/-- Table 16.3: the greatest and the least value of the cap range, in watts. -/
def Part.maxWatts (p : Part) : Nat := if p.vats = 2 then 220 else if p.vats = 4 then 400 else 750
def Part.minWatts (p : Part) : Nat := if p.vats = 2 then 90 else if p.vats = 4 then 160 else 300

/-- The reset values that the part and the reset's cause decide (Tables 16.7 and 18.8), and R718: dies degraded for the lifetime of the
cave. -/
def Chip.startRegs (k : Chip) (p : Part) (cause : Nat) : Chip :=
  let k := (k.setF Reg.pwrCap 15 0 p.maxWatts).setF Reg.bootStatus 2 0 cause
  k.hub.caveShut.foldl (fun k d => k.raise (Reg.vatStatus (d / 16)) (d % 16)) k

/-- The error log across a reset (R702): its entries stay, what is owed to the host does not. -/
def LogState.kept (l : LogState) : LogState := { LogState.empty with ring := l.ring, recent := l.recent }

/-- Table 18.2: the hub after a power-on reset: the cave and the fuses keep what they hold. -/
def Hub.powerOn (h : Hub) : Hub :=
  { Hub.reset with
    log := h.log.kept, owners := h.owners, caveShut := h.caveShut, tenantSeen := h.tenantSeen, draws := h.draws
    straps := h.straps }

/-- Table 18.2: the part after a power-on reset. -/
def Chip.powerOn (k : Chip) (p : Part) : Chip :=
  ({ regs := k.resetRegs false, bus := [], cores := [], dies := [], vats := [], hub := k.hub.powerOn } : Chip).startRegs p 1

/-! ### Package reset (R799, R802 to R805, R584) -/

/-- R802: a slot already begun runs to its end. -/
def Mach.endSlots (m : Mach) (V : Nat) : Mach :=
  m.k.bus.foldl (fun m x =>
    let v := x.1 / 1600
    let d := x.1 / 100 % 16
    let b := x.1 % 100
    match (m.k.bu v d b).active with
    | none => m
    | some r => let y := (m.k.setBu v d b { m.k.bu v d b with active := none }).slotEnd m.dr V v d b r; { dr := y.1, k := y.2 }) m

/-- R805: a die across a package reset: its map and its spares stay, but for a copy, which will start again. -/
def Die.packageReset (x : Die) : Die :=
  let q := match x.takeover with | some t => (t.logical, t.trigger) :: x.takeoverQ | none => x.takeoverQ
  { Die.reset with
    bankMap := x.bankMap, spares := x.spares.map (fun s => if s = .copying then .ready else s), spareDomain := x.spareDomain
    zeroing := x.zeroing, takeoverQ := q
    legacy := x.legacy.map (fun l => (l.1, { LegacyLine.reset with lastSeq := l.2.lastSeq })) }

/-- R677: a domain that has lost its key and its grants. -/
def Domain.locked (x : Domain) : Domain := { x with dsk := none, grants := 0 }

/-- Table 18.2: the hub after a package reset. The state in force stays, but for programs and patch (R804). -/
def Hub.packageReset (h : Hub) : Hub :=
  { Hub.reset with
    time := h.time, logQ := h.logQ, log := h.log.kept, owners := h.owners, caveShut := h.caveShut, tenantSeen := h.tenantSeen
    draws := h.draws, pools := h.pools, models := h.models, classes := h.classes, ctxs := h.ctxs, gens := h.gens
    domains := h.domains.map (fun d => (d.1, d.2.locked))
    out := h.out, straps := h.straps
    boot := { BootState.start with
      cond := .held, heldAt := h.time, firstApply := true, thermTrip := h.boot.thermTrip, faultPin := h.boot.faultPin } }

/-- Table 18.2: a core after a package reset. -/
def Core.packageReset (x : Core) : Core := { Core.reset with domain := x.domain, enrolled := x.enrolled }

/-- R802: every vat enters self-refresh. -/
def Chip.selfRefresh (k : Chip) (V : Nat) : Chip := (List.range V).foldl (fun k v => k.setPower v .asleep) k

/-- R799, R802: a package reset begins. A tampered part stays so until power-on reset (R679). -/
def Mach.packageReset (m : Mach) (p : Part) (cause : Nat) : Mach :=
  let m := m.endSlots p.vats
  let st := m.k.getF Reg.rindStatus 1 0
  m.onChip (fun k =>
    let k' : Chip :=
      { regs := k.resetRegs true, bus := [], cores := k.cores.map (fun c => (c.1, c.2.packageReset))
        dies := k.dies.map (fun d => (d.1, d.2.packageReset)), vats := [], hub := k.hub.packageReset }
    let k' := (k'.startRegs p cause).selfRefresh p.vats
    if st = 3 then k'.setF Reg.rindStatus 1 0 3 else k')

/-- R584: a trigger of a package reset: deferred behind an apply. -/
def Mach.resetTrigger (m : Mach) (p : Part) (cause : Nat) : Mach :=
  if m.k.getF Reg.ciState 1 0 = 3 ∧ m.k.alive then
    m.onChip (fun k => k.onHub (fun h => { h with boot := { h.boot with deferred := h.boot.deferred.or (some (cause, h.time)) } }))
  else m.packageReset p cause

/-- R584, R802: a package reset that an apply has deferred, once the apply has ended or a tamper has abandoned it. -/
def Mach.deferredReset (m : Mach) (p : Part) : Mach :=
  match m.k.hub.boot.deferred with
  | none => m
  | some (cause, at_) => (m.onChip (fun k => k.writeLog { occ 0x65 k.now with detail := (k.now - at_) / 1000 })).packageReset p cause

/-- Supplies are good and no trip holds the part. -/
def Chip.resettable (k : Chip) : Bool := k.alive || k.hub.boot.cond = .hubStopped

/-- What happens to the part's supplies, reset inputs and cave, over DRAM and the chip. -/
def State.onPartMach (s : State) (f : Mach → Mach) : Host.Outcome State Fault Refusal :=
  s.onPart (fun dr k => let m := f { dr := dr, k := k }; (m.dr, m.k))

/-- PERST_ASSERT (R799): also while a register or sideband reset still holds the part, which then lasts until PERST# is deasserted. -/
def execPerstAssert (s : State) : Host.Outcome State Fault Refusal :=
  s.onPartMach (fun m => if m.k.resettable ∨ m.k.hub.boot.cond = .held then m.resetTrigger s.part 2 else m)

/-- The key of PKG_RESET. -/
def resetKey : Nat := 0x7A3C0E91

/-- PKG_RESET (Table 18.8): a write of the register. -/
def execPkgReset (key : BitVec 32) (s : State) : Host.Outcome State Fault Refusal :=
  s.onMach true (fun m => if key.toNat = resetKey ∧ m.k.flag Reg.bootCfg 0 then m.resetTrigger s.part 3 else m)

/-- SIDEBAND_PKG_RESET (Table 18.5, R850). -/
def execSidebandPkgReset (w : SidebandWrite) (s : State) : Host.Outcome State Fault Refusal :=
  s.onPartMach (fun m =>
    if w.pec ∧ w.key.toNat = resetKey ∧ m.k.flag Reg.bootCfg 1 ∧ m.k.resettable then m.resetTrigger s.part 4 else m)

/-- The part's boot state changed. -/
def Chip.onBoot (k : Chip) (f : BootState → BootState) : Chip := k.onHub (fun h => { h with boot := f h.boot })

/-- PACKAGE_RESET_END (R799): PERST# goes up, or a millisecond has passed; the boot begins. -/
def execPackageResetEnd (s : State) : Host.Outcome State Fault Refusal :=
  s.onPartMach (fun m => m.onChip (fun k =>
    let b := k.hub.boot
    if b.cond = .held ∧ (k.getF Reg.bootStatus 2 0 = 2 ∨ b.heldAt + 1000000 ≤ k.now) then
      k.onBoot (fun b => { b with cond := .booting, endAt := k.now, stageAt := k.now })
    else k))

/-! ### Supplies and the cave (R727, R796 to R798) -/

/-- The part stops, its links down, DRAM and everything in progress lost (R752, R753, R798). -/
def Mach.halt (m : Mach) (cond : Condition) : Mach :=
  { dr := { cells := [], marks := [] }
    k := m.k.linksDown.onHub (fun h => { h with stopped := true, boot := { h.boot with cond := cond } }) }

/-- R851: FAULT# asserted until the next power-on reset. -/
def Chip.assertFault (k : Chip) : Chip := k.onBoot (fun b => { b with faultPin := true })

/-- R851: FAULT# as the board sees it; a stopped hub asserts it too. -/
def Chip.faultOut (k : Chip) : Bool := k.hub.boot.faultPin || decide (k.hub.boot.cond = .hubStopped)

/-- SUPPLY_LOSS (R798, Table 20.3): a main supply, of a group from 2 to 7 + V, leaves its limits. -/
def execSupplyLoss (group : BitVec 4) (s : State) : Host.Outcome State Fault Refusal :=
  if group.toNat < 2 ∨ 8 + s.part.vats ≤ group.toNat then .fault .noSuchUnit
  else s.onPartMach (fun m =>
    if m.k.hub.boot.cond = .off ∨ m.k.hub.boot.cond = .cave then m
    else (m.onChip (fun k => (k.writeLog { occ 0x66 k.now with detail := group.toNat }).assertFault)).halt .cave)

/-- STANDBY_SUPPLY_LOSS (R796): the whole part stops, cave included. -/
def execStandbySupplyLoss (s : State) : Host.Outcome State Fault Refusal := s.onPartMach (fun m => m.halt .off)

/-- CAVE_RESET (R796, R17, R850): the standby supply returns: every Cave field is zero; the fuses keep what they hold; the address straps are
sampled. -/
def execCaveReset (s : State) : Host.Outcome State Fault Refusal :=
  s.onPartMach (fun m =>
    if m.k.hub.boot.cond ≠ .off then m
    else
      let svn := m.k.getF Reg.rindSvn 31 16
      let hub : Hub := { Hub.reset with
        owners := m.k.hub.owners, draws := m.k.hub.draws, stopped := true, straps := s.part.straps
        boot := { BootState.start with cond := .cave } }
      let k : Chip := { regs := [], bus := [], cores := [], dies := [], vats := [], hub := hub }
      { m with k := k.setF Reg.rindSvn 31 16 svn })

/-- POWER_ON_RESET (R797, R801): the first deassertion of PERST# after every main supply has come within its limits, having left them. DRAM holds what a
byte that nothing has written reads as. -/
def execPowerOnReset (s : State) : Host.Outcome State Fault Refusal :=
  s.onPartMach (fun m =>
    if m.k.hub.boot.cond = .cave then { dr := { cells := [], marks := [] }, k := m.k.powerOn s.part }
    else m)

/-! ### Boot (R659, R660, R677, R803, R807 to R811) -/

/-- The boot follows a power-on reset. -/
def Chip.poweredOn (k : Chip) : Bool := k.getF Reg.bootStatus 2 0 = 1

/-- Table 18.3: the least and the greatest duration of a stage, in microseconds. -/
def stageTimes (stage : Nat) (poweredOn : Bool) : Nat × Nat :=
  match stage with
  | 0 => (100, 200)
  | 1 => (25000, 70000)
  | 2 => (3000, 5000)
  | 3 => if poweredOn then (35000, 50000) else (1000, 2000)
  | 4 => (3930, 8000)
  | _ => (1000, 4000)

/-- BOOT_STATUS.STAGE. -/
def Chip.stage (k : Chip) : Nat := k.getF Reg.bootStatus 11 8

/-- The part boots, at a stage of Table 18.3 whose least duration has passed. -/
def Chip.bootsAt (k : Chip) (stage : Nat) : Bool :=
  k.hub.boot.cond = .booting && k.stage = stage && decide (k.hub.boot.stageAt + 1000 * (stageTimes stage k.poweredOn).1 ≤ k.now)

/-- The part boots, at a stage whose duration, which the part decides within the table's bounds, has passed. -/
def Chip.stageOver (k : Chip) (stage : Nat) : Bool :=
  let t := stageTimes stage k.poweredOn
  k.hub.boot.cond = .booting && k.stage = stage
    && decide (k.hub.boot.stageAt + 1000 * t.1 + Config.bootNs k.hub.boot.endAt stage % (1000 * (t.2 - t.1) + 1) ≤ k.now)

/-- R807: the next stage begins. -/
def Chip.toStage (k : Chip) (n : Nat) : Chip := (k.setF Reg.bootStatus 11 8 n).onBoot (fun b => { b with stageAt := k.now })

/-- R659: why the boot ROM refuses a slot, as Table 18.7 codes it; none where it takes it. -/
def FwSlot.refused (f : FwSlot) (fused : Nat) : Option Nat :=
  match f with
  | .verified svn => if svn < fused then some 2 else none
  | .badSignature _ => some 1
  | .unreadable => some 3

/-- The security version of a slot. -/
def FwSlot.svn : FwSlot → Nat
  | .verified n => n | .badSignature n => n | .unreadable => 0

/-- R655, R660: stage 2 has ended: the measurements, the alias key and the directory hash key stand. -/
def Chip.measured (k : Chip) (p : Part) : Chip :=
  ((k.deriveAlias p).onHub (fun h => { h with hashKey := Config.hashKey h.draws, draws := h.draws + 1 })).toStage 3

/-- R807: the stages of the boot that no command ends: the boot ROM's start, the measurements, and, after a package reset, the vats' exit from
self-refresh with the recalibration of their TSV lanes. -/
def Chip.bootTick (k : Chip) (p : Part) : Chip :=
  if k.stageOver 0 then k.toStage 1
  else if k.stageOver 2 then k.measured p
  else if !k.poweredOn && k.stageOver 3 then ((List.range p.vats).foldl (fun k v => k.setPower v .awake) k).toStage 5
  else k

/-- R659: the firmware of a slot has been verified, and runs. -/
def Chip.runFirmware (k : Chip) (slot : Nat) (f : FwSlot) : Chip :=
  ((k.setF Reg.bootStatus 4 4 slot).setF Reg.rindSvn 15 0 f.svn).toStage 2

/-- R659, R808, R679: no slot holds firmware that the boot ROM takes; a tampered part stays so. -/
def Chip.noFirmware (k : Chip) : Chip :=
  let k := k.setF Reg.bootStatus 11 8 7
  ((if k.getF Reg.rindStatus 1 0 = 3 then k else k.setF Reg.rindStatus 1 0 2).assertFault).onBoot (fun b => { b with cond := .failed })

/-- FIRMWARE_VERIFY (R659, R808): stage 1 ends. -/
def execFirmwareVerify (slot0 slot1 : FwSlot) (s : State) : Host.Outcome State Fault Refusal :=
  s.onChip true (fun k =>
    if !k.bootsAt 1 then k
    else
      let fused := k.getF Reg.rindSvn 31 16
      match slot0.refused fused with
      | none => k.runFirmware 0 slot0
      | some why =>
        let k := k.writeLog { occ 0x61 k.now with detail := why * 256 }
        match slot1.refused fused with
        | none => k.runFirmware 1 slot1
        | some _ => k.noFirmware)

/-- DIE_TRAINING (R809): stage 3 of a power-on reset ends; the dies named by their keys have failed twice. -/
def execDieTraining (failed : List Nat) (s : State) : Host.Outcome State Fault Refusal :=
  s.onMach true (fun m =>
    if !(m.k.bootsAt 3 && m.k.poweredOn && !m.k.hub.boot.trained) then m
    else
      let m := (failed.filter (fun d => d / 16 < s.part.vats)).foldl (fun m d =>
        (m.onChip (fun k => k.writeLog { occ 0x62 k.now with vat := d / 16, die := d % 16 })).loseVat s.part (d / 16)) m
      m.onChip (fun k => (if k.hub.tenantSeen then k.toStage 4 else k).onBoot (fun b => { b with trained := true })))

/-- R677: the write slots that a zeroisation of whole banks takes. -/
def Chip.scrubSlots (k : Chip) (V : Nat) : Chip :=
  (List.range (16 * V)).foldl (fun k d => (List.range 100).foldl (fun k b => k.count (Reg.buSlotsBase (d / 16) (d % 16) b) 65536) k) k

/-- BOOT_SCRUB (R677, R678): every row of every bank is zero. -/
def execBootScrub (s : State) : Host.Outcome State Fault Refusal :=
  s.onMach true (fun m =>
    if !m.k.bootsAt 4 ∨ m.k.hub.boot.scrubbed then m
    else
      { dr := { cells := [], marks := [] }
        k := (((m.k.scrubSlots s.part.vats).raise Reg.rindStatus 5).onHub (fun h => { h with tenantSeen := false })).onBoot
          (fun b => { b with scrubbed := true }) })

/-- R677, R813: zero written over a run of a vat's physical addresses, in its active banks: each row takes a base-die write slot. -/
def Mach.zeroRange (m : Mach) (v p n : Nat) : Mach :=
  (pagesIn p n).foldl (fun m g =>
    let lo := max p (g * 2 ^ 21)
    let hi := min (p + n) ((g + 1) * 2 ^ 21)
    if 49152 ≤ g then m
    else
      let b := bankAddr lo
      let wipe (dr : Dram) (ph : Nat) : Dram := dr.clear (bankByte v b.die ph b.byte) (bankByte v b.die ph b.byte + (hi - lo))
      let rows := (b.byte % 1024 + (hi - lo) + 1023) / 1024
      { dr := (m.k.writePlaces v b.die b.idx (b.byte / 1024)).foldl wipe m.dr
        k := m.k.count (Reg.buSlotsBase v b.die (m.k.phys v b.die b.idx)) rows }) m

/-- R464, R469, R803, R813: the directory and context-record regions of a vat. -/
def Chip.ctxRegions (k : Chip) (v : Nat) : List (Nat × Nat) :=
  if k.hasDirectory v then [(k.getF (Reg.dirBase v) 36 0, k.regionBytes), (k.getF (Reg.ctxTableBase v) 36 0, k.regionBytes)] else []

/-- DIRECTORY_CLEAR (R461, R474, R803): after a package reset every context is closed, and every index holds generation 0. -/
def execDirectoryClear (s : State) : Host.Outcome State Fault Refusal :=
  s.onMach true (fun m =>
    if !m.k.bootsAt 5 ∨ m.k.hub.boot.cleared then m
    else
      let m := m.k.hub.ctxs.foldl (fun m c => if c.2.state = .spilled then m else m.freePages c.2) m
      let m := (List.range s.part.vats).foldl (fun m v => (m.k.ctxRegions v).foldl (fun m r => m.zeroRange v r.1 r.2) m) m
      m.onChip (fun k =>
        (k.onHub (fun h => { h with ctxs := [], nextIdx := 0, freed := [], gens := [] })).onBoot (fun b => { b with cleared := true })))

/-- The stages before READY have run. -/
def Chip.bootDone (k : Chip) : Bool :=
  let b := k.hub.boot
  b.cond = .booting &&
    if k.poweredOn then b.trained && (b.scrubbed || !k.hub.tenantSeen) else b.cleared

/-- BOOT_READY (R807, R810, R822). -/
def execBootReady (s : State) : Host.Outcome State Fault Refusal :=
  s.onChip true (fun k =>
    if !k.bootDone then k
    else
      let ns := k.now - k.hub.boot.endAt
      let k := k.writeLog { occ 0x60 k.now with detail := k.getF Reg.bootStatus 2 0 + (roundDiv ns 1000000).toNat * 256 }
      let k := ((k.raise Reg.bootStatus 31).setF Reg.bootStatus 11 8 6).setF Reg.bootTime 31 0 (roundDiv ns 1000).toNat
      (if k.getF Reg.rindStatus 1 0 = 3 then k else k.setF Reg.rindStatus 1 0 1).onBoot (fun b => { b with cond := .ready }))

/-! ### Tamper (R679, R680) -/

/-- R679: keys, grants and sessions erased, and every operation in progress abandoned. -/
def Chip.eraseKeys (k : Chip) : Chip :=
  k.onHub (fun h => { h with
    domains := h.domains.map (fun d => (d.1, d.2.locked)), sessions := [], heldReqs := [], ide := IdeState.off, aliasKey := [], hashKey := 0
    txn := none, drain := [], zeroBlocks := [] })

/-- R679: every stream and bank unit of the part stopped. -/
def Chip.stopAll (k : Chip) (V : Nat) : Chip :=
  (List.range (4 * V)).foldl (fun k n => (k.stopStreams (n / 4) (n % 4)).stopBanks (n / 4) (n % 4)) k

/-- R679: what would still write DRAM after the zeroisation is gone: the slots asked for, host writes not yet stored, and row operations. -/
def Chip.dropSlots (k : Chip) : Chip :=
  { k with
    bus := k.bus.map (fun b => (b.1, { b.2 with slotQ := [], active := none }))
    vats := k.vats.map (fun v => (v.1, { v.2 with wq := [] }))
    dies := k.dies.map (fun d => (d.1, { d.2 with zeroing := [], legacy := d.2.legacy.map (fun l => (l.1, { LegacyLine.reset with lastSeq := l.2.lastSeq })) })) }

/-- TAMPER: the causes, as RIND_TAMPER's bits: mesh, supply, clock, cold. -/
def execTamper (causes : BitVec 4) (s : State) : Host.Outcome State Fault Refusal :=
  s.onPartMach (fun m =>
    if m.k.hub.boot.cond = .off ∨ causes = 0 then m
    else
      let k := (((m.k.eraseKeys).stopAll s.part.vats).dropSlots).assertFault
      let k := (List.range 4).foldl (fun k p => k.enablePort p false) k
      let k := (List.range 4).foldl (fun k i => if causes.getLsbD i then k.raise Reg.rindTamper i else k) k
      let k := (k.satAdd Reg.rindTamper 15 8 1).setF Reg.rindStatus 1 0 3
      let k := (((k.setF Reg.ciState 1 0 0).setF Reg.ciState 5 4 0).setF Reg.hostLinkStatus 9 9 0).setReg Reg.rindZero 0
      ({ dr := { cells := [], marks := [] }, k := k } : Mach).deferredReset s.part)

end Sys2Proof.Machine
end

