-- ==== Sys2Proof/Machine/Supply.lean ====
section
/-!
DEFINITION. The power cap as it is written (R740, R743, R744, R760), and the waking of a vat (R730, R731).
-/

namespace Sys2Proof.Machine

/-! ### The cap -/

/-- PWR_STATUS.CAUSE: THERMAL goes before CAP (R749). -/
def Chip.capCause (k : Chip) : Nat := if k.hub.pwr.thermal ≠ [] then 2 else if k.hub.pwr.capCause then 1 else 0

/-- CAP_UNMET is set. -/
def Chip.capUnmet (k : Chip) : Bool := k.flag Reg.pwrStatus 31

/-- The arbiter's own state changed. -/
def Chip.onPwr (k : Chip) (f : PowerCtl → PowerCtl) : Chip := k.onHub (fun h => { h with pwr := f h.pwr })

/-- Table 16.6, R760: PWR_STATUS after a cause has come or gone: an entry into CAP_UNMET is counted and logged, an exit logged. -/
def Chip.noteCap (k : Chip) : Chip :=
  let was := k.capUnmet
  let c := k.capCause
  let k := (k.setF Reg.pwrStatus 31 31 (if c = 0 then 0 else 1)).setF Reg.pwrStatus 30 29 c
  let cap := k.getF Reg.pwrCap 15 0
  if c ≠ 0 ∧ !was then
    (k.count Reg.pwrCapUnmetN 1).logPlain 0x30 (cap + c * 2 ^ 16 + k.getF Reg.pwrStatus 15 0 % 2 ^ 14 * 2 ^ 18)
  else if c = 0 ∧ was then k.logPlain 0x31 cap
  else k

/-- R743: a cap written: above the maximum it is the maximum; below the minimum CAP_UNMET is set at once; within the range, a CAP_UNMET
that a cap below the minimum had set goes. -/
def Chip.writeCap (k : Chip) (p : Part) (w : Nat) : Chip :=
  let old := k.getF Reg.pwrCap 15 0
  let k := k.setF Reg.pwrCap 15 0 (min w p.maxWatts)
  if w < p.minWatts then (k.onPwr (fun x => { x with capCause := true })).noteCap
  else if old < p.minWatts then (k.onPwr (fun x => { x with capCause := false, above := 0, below := 0 })).noteCap
  else k

/-! ### Sleep (R729 to R731, Table 16.11) -/

/-- WAKE_REQUEST (R730): a request for vat `v` is waiting. -/
def execWakeRequest (v : Nat) (s : State) : Host.Outcome State Fault Refusal := s.onChip (s.hasVat v) (fun k => k.wake v)

/-- VAT_ASLEEP (R728, R736): the entry into self-refresh has ended. -/
def execVatAsleep (v : Nat) (s : State) : Host.Outcome State Fault Refusal :=
  s.onChip (s.hasVat v) (fun k => if (k.vat v).power = .entering then k.setPower v .asleep else k)

end Sys2Proof.Machine
end

