-- ==== Sys2Proof/Machine/Admit.lean ====
section
/-!
DEFINITION. Admission (R588 to R595, R606, Table 12.10): the resource checks in the table's order, then the deadline of each enabled class.
-/

namespace Sys2Proof.Machine

/-- R595: the bytes of a model's weights that lie beyond a core's own weight pages. -/
def Model.spilled (m : Model) : Nat := if m.spill then m.layers * m.spillLayer else 0

/-- A shortage of Table 12.10, where there is one. -/
def shortOf (code n h : Nat) : Option CiResult := if n ≤ h then none else some (resourceShort code n h)

/-- R606, Table 12.12: a context that the apply leaves open, moved or not. -/
def Check.stays (x : Check) (c : Ctx) : Bool := !x.closes c || x.moves c

/-- Table 12.10, code 0x01. -/
def Check.weightsShort (_x : Check) (left : Chip) : Option CiResult :=
  firstRefusal (left.hub.models.flatMap (fun m => match left.pool m.2.pool with
    | some p => p.cores.map (fun c => shortOf 0x01 (m.2.weightBytes - m.2.spilled) (c.weightPages * 2 ^ 21))
    | none => []))

/-- Table 12.10, codes 0x02 and 0x03: the sections that the transaction stages for a core. -/
def Check.cacheShort (x : Check) : Option CiResult :=
  firstRefusal ((x.t.of 7).map (fun y => shortOf 0x02 ((y.records.map (fun r => r.1 + r.2.length)).foldl max 0) (2 ^ 22)))
def Check.storeShort (x : Check) : Option CiResult :=
  firstRefusal ((x.t.of 6).map (fun y => shortOf 0x03 (recField y.body 0 4) 8192))

/-- Table 12.10, code 0x04. -/
def Check.stepShort (x : Check) (left : Chip) : Option CiResult :=
  firstRefusal (left.hub.models.map (fun m => match left.pool m.2.pool with
    | some p => if p.cores.isEmpty then shortOf 0x04 (ceilDiv (left.tokenLoad m.1) 256) 0
      else (left.tokensShort x.part.lanes128 m.1 m.2 p).map (fun r => resourceShort 0x04 r.1 r.2)
    | none => none))

/-- The pool of a context's model in the staged state. -/
def Check.poolOf (x : Check) (c : Ctx) : Option Nat := (x.k'.model c.model).map (·.pool)

/-- The contexts of a pool that the apply leaves open. -/
def Check.kept (x : Check) (pool : Nat) : List Ctx :=
  (x.k.hub.ctxs.map (·.2)).filter (fun c => c.state ≠ .spilled && x.stays c && x.poolOf c = some pool)

/-- Table 12.10, code 0x05. -/
def Check.slotsShort (x : Check) (left : Chip) : Option CiResult :=
  firstRefusal (left.hub.pools.map (fun p => shortOf 0x05 (x.kept p.1).length (16384 * (left.openDies p.2).length)))

/-- The rows of a page of a context. -/
def Check.rowsOf (x : Check) (c : Ctx) (p : PageRec) : Nat := match x.k'.model c.model with
  | some m => m.rows p.tier
  | none => 0

/-- Table 12.10, code 0x06: on each bank, the rows of the pages that stay there, with an even share of those that R606 moves. -/
def Check.rowsShort (x : Check) (left : Chip) : Option CiResult :=
  firstRefusal (left.hub.pools.flatMap (fun p =>
    let kept := x.kept p.1
    let moved := ((kept.filter x.moves).flatMap (fun c => c.pages.map (x.rowsOf c))).sum
    let share := ceilDiv moved (96 * (left.openDies p.2).length)
    p.2.cores.flatMap (fun c => (c.dies.zipIdx).flatMap (fun l =>
      let v := c.core / 4
      let d := 4 * (c.core % 4) + l.2
      let here := (kept.filter (fun c => !x.moves c && c.vat = v && c.die = d)).flatMap (fun c => c.pages.map (fun q => (q.bank, x.rowsOf c q)))
      (List.range 96).map (fun b =>
        shortOf 0x06 (((here.filter (fun q => q.1 = b)).map (·.2)).sum + share) (l.1.pageLast + 1 - l.1.pageFirst))))))

/-- Table 12.10, code 0x07. -/
def Check.tsvShort (x : Check) (left : Chip) : Option CiResult :=
  firstRefusal ((List.range x.part.vats).map (fun v => shortOf 0x07 (left.tsvLoad x.part.lanes128 v) (2 * 10 ^ 12)))

/-- Table 12.10, code 0x08. -/
def Check.sparesShort (x : Check) (left : Chip) : Option CiResult :=
  firstRefusal (left.hub.pools.flatMap (fun p => p.2.cores.flatMap (fun c => (c.dies.zipIdx).map (fun l =>
    let die := x.k.die (c.core / 4) (4 * (c.core % 4) + l.2)
    shortOf 0x08 l.1.calSpares ((List.range 4).filter (fun q => die.spare q = .ready || die.spare q = .calibrating)).length))))

/-- R592: the class whose bound exceeds its deadline. -/
def Check.late (x : Check) (left : Chip) : Option CiResult :=
  firstRefusal (left.classPlans.map (fun p =>
    let b := left.boundOf x.part.lanes128 p
    let d := left.getF (Reg.classCfg p.cls) 26 0
    if b ≤ d then none
    else some { CiResult.of 0x11 with detail := p.cls, need := b, have_ := d, short := b - d }))

/-- R588: admission, on the units that the part has left (R720). -/
def Check.verdict (x : Check) : Option CiResult :=
  let left := x.k'.withoutLost
  firstRefusal [ x.weightsShort left, x.cacheShort, x.storeShort, x.stepShort left, x.slotsShort left, x.rowsShort left, x.tsvShort left
               , x.sparesShort left, x.late left ]

end Sys2Proof.Machine
end

