-- ==== Sys2Proof/Machine/Culture.lean ====
section
/-!
DEFINITION. The culture-image transaction up to its quiet point (R568 to R585, R596 to R600, R603, R606, R657, R746, R811, R680): CI_CTL's
operations, the drain, and the migrations that a drain or a failure asks for.
-/

namespace Sys2Proof.Machine

/-! ### CI_STATE and CI_RESULT (R578 to R582, Table 12.15) -/

/-- CI_STATE.STATE: 0 IDLE, 1 OPEN, 2 COMMITTING, 3 APPLYING. -/
def Chip.ciState (k : Chip) : Nat := k.getF Reg.ciState 1 0

/-- CI_STATE.PHASE: 0 VALIDATING, 1 ADMITTING, 2 DRAINING. -/
def Chip.ciPhase (k : Chip) : Nat := k.getF Reg.ciState 5 4

/-- CI_STATE written. -/
def Chip.ciTo (k : Chip) (state phase : Nat) : Chip := (k.setF Reg.ciState 1 0 state).setF Reg.ciState 5 4 phase

/-- An operation ends with a result, in a state. -/
def Chip.ciEnd (k : Chip) (r : CiResult) (state : Nat) : Chip :=
  let k := (((k.setF Reg.ciResult 7 0 r.code).setF Reg.ciResult 15 8 r.detail).setF Reg.ciResult 23 16 r.domain).raise Reg.ciResult 31
  let k := ((k.setReg Reg.ciOffset (BitVec.ofNat 64 r.offset)).setReg Reg.ciNeed (BitVec.ofNat 64 r.need)).setReg Reg.ciHave (BitVec.ofNat 64 r.have_)
  let k := k.setF Reg.ciShortNs 31 0 r.short
  let k := if r.code = 0x00 ∨ r.code = 0x13 then k else k.count Reg.ciRefused 1
  (k.ciTo state 0).msix 17

/-- R579, R680, R811: a write of CI_CTL that is ignored. -/
def Chip.ciIgnore (k : Chip) : Chip := k.raise Reg.ciState 8

/-- R579, R680, R811: no operation may start now. -/
def Chip.ciShut (k : Chip) : Bool := !k.serving || k.getF Reg.rindStatus 1 0 = 3 || decide (2 ≤ k.ciState)

/-- R578: an operation that asks for an OPEN transaction. -/
def Mach.ciOpen (m : Mach) (f : Txn → Mach → Mach) : Mach :=
  if m.k.ciShut then m.onChip Chip.ciIgnore
  else match m.k.hub.txn with
    | some t => if m.k.ciState = 1 then f t m else m.onChip (fun k => k.ciEnd (CiResult.of 0x01) 0)
    | none => m.onChip (fun k => k.ciEnd (CiResult.of 0x01) 0)

/-- R570, R578: BEGIN. -/
def Chip.begin (k : Chip) : Chip :=
  if k.ciShut then k.ciIgnore
  else if k.ciState = 0 then (k.onHub (fun h => { h with txn := some Txn.fresh })).ciEnd ciOk 1
  else k.ciEnd (CiResult.of 0x02) k.ciState

/-- BEGIN. -/
def execBegin (s : State) : Host.Outcome State Fault Refusal := s.onChip true Chip.begin

/-! ### STAGE (R567 to R569, R580, R657, R671) -/

/-- The bytes of a run of the interleaved window, as the hub reads them. -/
def Mach.windowRun (V : Nat) : Nat → Mach → Nat → Nat → List Byte × Mach
  | 0, m, _, _ => ([], m)
  | fuel + 1, m, a, n =>
    if n = 0 then ([], m)
    else
      let x := interleaved V a
      let c := min n (1024 - a % 1024)
      let r := m.hubRead x.1 x.2 c
      let rest := Mach.windowRun V fuel r.2.2 (a + c) (n - c)
      (r.1 ++ rest.1, rest.2)

/-- A domain's algorithms, as its last DOMAIN section of the image or of the transaction declares them, else as it stands in force. An image that
tears the domain down is judged by the keys that the domain has until then (R678). -/
def Chip.keyAlgs (k : Chip) (t : Txn) (secs : List Section) (d : Nat) : Option Nat :=
  let declared := ((secs.filter (fun x => x.type = 1)).map Section.domainBody).filter (fun b => !b.teardown)
  match (((t.of 1).map Section.domainBody) ++ declared).reverse.find? (fun b => b.domain = d) with
  | some b => if b.teardown then none else some b.algs
  | none => (k.domain d).map (·.algs)

/-- R569: the first domain whose sections are not validly signed. The verdicts are those of the image's SIGNATURE sections, in order. -/
def Chip.unsigned (k : Chip) (t : Txn) (secs : List Section) (verdicts : List Bool) : Option Nat :=
  let sigs := (secs.filter (fun x => x.type = 0x0F)).mapIdx (fun i x => (x, verdicts.getD i false))
  let good (d : Nat) : Bool :=
    match sigs.filter (fun s => s.1.signer = d) with
    | [s] => s.2 && (match k.keyAlgs t secs d with
        | some algs => algs.testBit (byteAt s.1.body 0 - 1)
        | none => false)
    | _ => false
  ((secs.map (·.signer)).eraseDups).find? (fun d => !good d)

/-- Table 12.7: the register of a LCK field that a tenant may come to own: of a core, of a bank's BU_PAGE, of a model or a class, of a block. -/
def tenantReg (o : Nat) : Bool :=
  decide (0x200100 ≤ o ∧ o < 0x200500) || (decide (0x303000 ≤ o ∧ o < 0x303400) && decide (o % 64 < 16)) || decide (0x400000 ≤ o ∧ o < 0x430000)
    || (decide (0x1000000 ≤ o) && (let e := o % 0x1000000
        decide (0x100000 ≤ e ∧ e < 0x500000) || (decide (0x800000 ≤ e) && decide (e % 0x20000 < 0x19000))))

/-- Table 12.3: the domain that must sign a section, in the state staged with its image, where that state says: `none` where no pool, model
or page owns yet what the section sets, which COMMIT then judges (DEDUCED, log entry 45). -/
def Check.mustSign (x : Check) (y : Section) : Option Nat :=
  let tenant (d : Nat) : Option Nat := if d = 0 then none else some d
  match y.type with
  | 1 | 2 | 8 => some 0
  | 3 => tenant (((x.k'.pool y.model.2.pool).map (·.domain)).getD 0)
  | 4 => tenant (x.k'.modelDomain (x.k'.classModel y.classLoad.1))
  | 5 => (y.entries.find? (fun e =>
      let d := x.k'.lckOwner x.owners e.1 (BitVec.ofNat 64 e.2)
      d ≠ y.signer && (d ≠ 0 || !tenantReg e.1))).map (fun e => x.k'.lckOwner x.owners e.1 (BitVec.ofNat 64 e.2))
  | 6 | 7 => tenant (x.k'.poolDomain y.target)
  | _ => none

/-- R662: a patch that the rind verifies, of a security version not below the fused one. -/
def Chip.patchOk (k : Chip) (y : Section) (verified : Bool) : Bool :=
  verified && decide (k.getF Reg.rindSvn 31 16 ≤ Config.patchVersion y.body)

/-- Table 12.3: the types of the sections that a tenant signs. -/
def Section.tenants (y : Section) : Bool := y.type = 3 || y.type = 4 || y.type = 6 || y.type = 7

/-- R569, R662, Table 12.3: the domain named for the first section that carries a signer it may not have, or a patch refused. -/
def Check.wrongSigner (x : Check) (secs : List Section) (patch : Bool) : Option Nat :=
  secs.findSome? (fun y =>
    if y.type = 9 then (if x.k.patchOk y patch then none else some 0)
    else if y.tenants && y.signer = 0 then some 0
    else match x.mustSign y with
      | some d => if d = y.signer then none else some y.signer
      | none => none)

/-- R678: a section declares, places or reassigns domain `d`: a DOMAIN section that does not tear it down, its POOL, a page or a block given to
it, or a section under its signature. -/
def Section.serves (y : Section) (d : Nat) : Bool :=
  match y.type with
  | 1 => !y.domainBody.teardown && y.domainBody.domain = d
  | 2 => y.pool.2.domain = d && !y.pool.2.cores.isEmpty
  | 5 => y.signer = d || y.entries.any (fun e =>
      let o := e.1 % 0x1000000
      decide (0x1000000 ≤ e.1) && bitsAt e.2 0 0 = 1
        && ((decide (0x100000 ≤ o ∧ o < 0x500000 ∧ 0x80000 ≤ o % 0x100000) && bitsAt e.2 47 40 = d)
          || (decide (0x800000 ≤ o ∧ o % 0x20000 < 0x19000) && bitsAt e.2 15 8 = d)))
  | 0x0F => false
  | _ => y.signer = d

/-- R678: where an image that tears a domain down also declares, places or reassigns it. -/
def clashOf (secs : List Section) : Option Nat :=
  let gone := ((secs.filter (fun x => x.type = 1)).map Section.domainBody).filter (·.teardown)
  (secs.find? (fun y => gone.any (fun b => y.serves b.domain))).map (·.at_)

/-- R567 to R569, R580, R658: one image staged. -/
def Txn.stage (t : Txn) (p : Part) (k : Chip) (image : List Byte) (verdicts : List Bool) (patch : Bool) : Sum CiResult Txn :=
  if k.hub.owners = [] then .inl (signatureBad 0) else
  match parseImage p image with
  | .error (.bad o) => .inl { CiResult.of 0x03 with offset := o }
  | .error .part => .inl (CiResult.of 0x04)
  | .ok (seq, secs) =>
    let old := k.getF Reg.ciSeq 31 0
    if !newer old seq || t.images.any (fun i => !newer i.seq seq) then .inl { CiResult.of 0x05 with need := seq, have_ := old }
    else
      let t' := secs.foldl Txn.take t
      match (checkOf p k t').wrongSigner secs patch, k.unsigned t secs verdicts with
      | some d, _ => .inl (signatureBad d)
      | none, some d => .inl (signatureBad d)
      | none, none =>
        let t := t'
        let digest (d : Nat) : Nat × List Byte := (d, sha384 (signedBytes image secs d))
        .inr { t with images := t.images ++ [{ seq := seq, signed := ((secs.map (·.signer)).eraseDups).map digest, clash := clashOf secs }] }

/-- R580: STAGE. -/
def Mach.stage (m : Mach) (p : Part) (verdicts : List Bool) (patch : Bool) : Mach :=
  m.ciOpen (fun t m =>
    let a := m.k.getF Reg.ciStageAddr 36 0
    let n := m.k.getF Reg.ciStageLen 31 0
    let r := Mach.windowRun p.vats (n / 1024 + 2) m a n
    match t.stage p r.2.k r.1 verdicts patch with
    | .inl e => r.2.onChip (fun k => k.ciEnd e 1)
    | .inr t => r.2.onChip (fun k => (k.onHub (fun h => { h with txn := some t })).ciEnd ciOk 1))

/-- STAGE: the verdicts on the image's SIGNATURE sections, in order, and on its LIBPATCH section are the rind's. -/
def execStage (verdicts : List Bool) (patch : Bool) (s : State) : Host.Outcome State Fault Refusal :=
  s.onTurn true (fun m => m.stage s.part verdicts patch)

/-! ### COMMIT, up to the drain (R581, R585, R588, R596, R597, R603, R746) -/

/-- The failures of the part, as R603 compares them. -/
def Chip.shape (k : Chip) (V : Nat) : List Nat :=
  k.getF Reg.failState 63 0 :: (List.range (16 * V)).flatMap (fun d => (List.range 4).map (fun q => ((k.die (d / 16) (d % 16)).spare q).code))

/-- R581: the COMMIT is refused: the transaction is OPEN again, and what the drain held goes on. -/
def Chip.refuseCommit (k : Chip) (r : CiResult) : Chip :=
  ((k.onHub (fun h => { h with drain := [] })).ciEnd r 1).releaseRind.feedHub

/-- R597: the drain begins. -/
def Chip.startDrain (k : Chip) (x : Check) : Chip :=
  let cores := x.k.switchedBy x.k' x.part.vats x.t
  let t := { x.t with since := k.now, switched := cores, shape := k.shape x.part.vats }
  (k.onHub (fun h => { h with txn := some t, drain := cores })).ciTo 2 2

/-- R588, R746: admission, once CAP_UNMET is clear. -/
def Chip.admission (k : Chip) (p : Part) (t : Txn) : Chip :=
  if k.capUnmet then k.ciTo 2 1
  else
    let x := checkOf p k t
    match x.verdict with
    | some r => k.refuseCommit r
    | none => k.startDrain x

/-- R746: a COMMIT that waits in admission goes on, where it may. -/
def Chip.resumeAdmission (k : Chip) (p : Part) : Chip :=
  match k.hub.txn with
  | some t => if k.ciState = 2 ∧ k.ciPhase = 1 ∧ !k.capUnmet then k.admission p t else k
  | none => k

/-- R581: COMMIT. -/
def Mach.commitImage (m : Mach) (p : Part) (force : Bool) : Mach :=
  m.ciOpen (fun t m => m.onChip (fun k =>
    let t := { t with force := force }
    let k := (k.onHub (fun h => { h with txn := some t })).ciTo 2 0
    match (checkOf p k t).validate with
    | some r => k.refuseCommit r
    | none => k.admission p t))

/-- COMMIT. -/
def execCommit (force : Bool) (s : State) : Host.Outcome State Fault Refusal := s.onMach true (fun m => m.commitImage s.part force)

/-- R578, R582: ROLLBACK of an OPEN transaction, or of a COMMIT before its quiet point. -/
def Chip.rollback (k : Chip) : Chip :=
  let drop (k : Chip) : Chip := k.onHub (fun h => { h with txn := none, drain := [] })
  if !k.serving || k.getF Reg.rindStatus 1 0 = 3 || k.ciState = 3 then k.ciIgnore
  else match k.ciState with
  | 0 => k.ciEnd (CiResult.of 0x01) 0
  | 1 => (drop k).ciEnd ciOk 0
  | _ => ((drop k).ciEnd (CiResult.of 0x13) 0).releaseRind.feedHub

/-- ROLLBACK. -/
def execRollback (s : State) : Host.Outcome State Fault Refusal := s.onChip true Chip.rollback

/-! ### The quiet point (R598, R606) -/

/-- The jobs dispatched to a core. -/
def Chip.jobsAt (k : Chip) (core : Nat) : Nat := (k.hub.jobs.filter (fun j => j.2.phase = .sent core)).length

/-- The affinage jobs delivered to a core and not ended. -/
def Chip.affsAt (k : Chip) (core : Nat) : Nat :=
  (k.hub.affs.filter (fun j => match k.ctx j.ctx with
    | some c => 4 * c.vat + ownerOf c.die = core
    | none => false)).length - ((k.hub.feed.filter (fun x => x.core = core)).map (·.jobs.length)).sum

/-- R598: a stream that is quiet: IDLE, or waiting for the hub's next entry. -/
def Chip.streamQuiet (k : Chip) (v c s : Nat) : Bool :=
  let t := k.stream v c s
  t.run = .idle || (match t.stall with
    | some st => st.kind = 2 && (k.hoopCfg v c st.index).route = 3 && (k.hoopCfg v c st.index).hub
    | none => false)

/-- R598: a core is quiet. -/
def Chip.coreQuiet (k : Chip) (core : Nat) : Bool :=
  let v := core / 4
  let c := core % 4
  let moving (f : InFlight) : Bool := match f with | .xfer .. => true | .sread .. => true | _ => false
  k.jobsAt core = 0 && k.affsAt core = 0
    && (List.range 5).all (fun s => k.streamQuiet v c s && !((k.stream v c s).inflight.any moving))
    && (List.range 4).all (fun i =>
      let x := k.die v (4 * c + i)
      x.cmds = [] && x.writes = [] && x.starts = [] && x.merge.isNone && x.mergeQ = []
        && (List.range 100).all (fun b => let u := k.bu v (4 * c + i) b; u.run ≠ .run && u.waiting.isNone))

/-- R606: no context is left that the drain moves. -/
def Check.movesDone (x : Check) : Bool := x.k.hub.ctxs.all (fun c => !x.moves c.2)

/-- R598, R599: every switched core is quiet. -/
def Check.quiet (x : Check) : Bool := x.t.switched.all x.k.coreQuiet && x.movesDone

/-! ### Migrations (R509 to R511, R597, R606, R714, R718, R719) -/

/-- The COMMIT that drains, as it is checked now. -/
def Mach.draining (m : Mach) (p : Part) : Option Check :=
  match m.k.hub.txn with
  | some t => if m.k.ciState = 2 ∧ m.k.ciPhase = 2 then some (checkOf p m.k t) else none
  | none => none

/-- The rows and granules that two layouts of a die have in common. -/
def DieLayout.meet (a b : DieLayout) : DieLayout :=
  { a with pageFirst := max a.pageFirst b.pageFirst, pageLast := min a.pageLast b.pageLast
           scaleFirst := max a.scaleFirst b.scaleFirst, scaleLast := min a.scaleLast b.scaleLast }

/-- R475, R606: during a drain a migration places its pages where the state in force and the staged state both have them. -/
def Mach.narrower (m : Mach) (p : Part) (v d : Nat) (lay : DieLayout) : DieLayout :=
  match (m.draining p).bind (fun x => x.k'.layout v d) with
  | some l => lay.meet l
  | none => lay

/-- R510: the state of a context when its migration has ended. -/
def Ctx.settledState (c : Ctx) : CtxState := if c.state = .standby then .standby else .live

/-- MIGRATION_SWITCH (R510, R606): after the copy, the home of the context at index `i` changes, no job of it being dispatched and no affinage job of
it queued or running on a bank; what a drain keeps back is withdrawn. -/
def execMigrationSwitch (i : Nat) (s : State) : Host.Outcome State Fault Refusal :=
  s.onTurn true (fun m =>
    match m.k.ctx i with
    | none => m
    | some c =>
      match c.migration, m.k.model c.model with
      | some g, some md =>
        let busy := m.k.hub.jobs.any (fun j => j.2.handle = c.handle i && (match j.2.phase with | .sent _ => true | _ => false))
        if busy ∨ m.k.hub.affs.any (fun j => j.ctx = i && !m.k.jobHeld j) ∨ 32 * (m.k.now - g.since) < g.bytes then m
        else match m.catchUp c md g (m.narrower s.part g.vat g.die) with
        | none =>
          (m.clearSlot g.vat g.die g.slot (List.range 96)).setCtx s.part.vats i { c with state := c.settledState, migration := none }
        | some (m, pages, pairs) =>
          let m := m.onChip (·.withdraw i)
          let m := pairs.foldl (fun m x => m.copyPage md c.vat c.die g.vat g.die x.1 x.2) m
          let m := m.putIndexes g.vat g.die g.slot pages true
          let m := m.zeroLedger md c.model g.vat g.die g.slot
          let m := m.freePages { c with migration := none }
          m.setCtx s.part.vats i { c with
            state := c.settledState, vat := g.vat, die := g.die, slot := g.slot, rot := g.rot, pages := pages, migration := none
            shadow := [], spare := none, shadowOk := false, shadowFirst := (c.tail + 1) % 2 ^ 24, sample := none }
      | _, _ => m)

/-- R597: a drain holds a core, so nothing moves into or out of its dies but what the COMMIT moves. -/
def Chip.drains (k : Chip) (v d : Nat) : Bool := k.hub.drain.contains (4 * v + ownerOf d)

/-- R475, R606: where a context that the COMMIT moves may go: a die of its model's pool that stays with its page index, inside the limits in
force and the staged ones. -/
def Check.homeFor (x : Check) (c : Ctx) (md : Model) (keep : List PageRec) : Option Home :=
  match x.k'.model c.model with
  | none => none
  | some new =>
    x.k.findHome md (some (c.vat, c.die)) (fun lay v d rot =>
      match x.k'.layout v d with
      | some l => if (x.k'.poolDies new).contains (v, d) && l.pidx = lay.pidx then x.k.placeAll md (lay.meet l) v d rot [] keep else none
      | none => none)

/-- MIGRATION_START (R509, R606, R719): the hub begins to move the context at index `i`: off rows that a COMMIT takes away, or, off a failing
die, to empty a vat, to balance dies or at the host's request, to a die that R471 gives. -/
def execMigrationStart (i : Nat) (s : State) : Host.Outcome State Fault Refusal :=
  s.onTurn true (fun m =>
    let k := m.k
    match k.ctx i with
    | none => m
    | some c =>
      match k.model c.model with
      | none => m
      | some md =>
        let keep := k.keptPages c
        let staged := m.draining s.part
        let home : Option Home :=
          if staged.any (fun x => x.moves c) then staged.bind (fun x => x.homeFor c md keep)
          else if (c.state = .live || k.dieShut c.vat c.die) && !k.drains c.vat c.die then
            k.findHome md (some (c.vat, c.die)) (fun lay v d rot => if k.drains v d then none else k.placeAll md lay v d rot [] keep)
          else none
        match home with
        | some h => if k.mayMigrate c then m.startMigration s.part.vats i c md h keep else m
        | none => m)

end Sys2Proof.Machine
end

