-- ==== Sys2Proof/Machine/Apply.lean ====
section
/-!
DEFINITION. The apply (R334, R337, R444 to R449, R540, R573 to R576, R599 to R606, R663, R664, R672, R677, R678, R682, R802, R804, R813 to
R816, R865): what the quiet point begins, and the apply cycle.
-/

namespace Sys2Proof.Machine

/-! ### Blocks and regions -/

/-- The eight pages of a host block: vat and PPN (R624). -/
def blockPages (V b : Nat) : List (Nat × Nat) :=
  (List.range 8).map (fun j => let a := interleaved V (b * 2 ^ 24 + 1024 * j); (a.1, a.2 / 2 ^ 21))

/-- Table 14.7: the blocks whose owner changes from a tenant to any other. -/
def Check.freedBlocks (x : Check) : List Nat :=
  let old := x.k.blockDomains x.part.vats
  ((old.map (·.1)).eraseDups).filter (fun b => ownerIn old b ≠ 0 && ownerIn x.owners b ≠ ownerIn old b)

/-- R677: a block written zero. -/
def Mach.zeroBlock (m : Mach) (V b : Nat) : Mach := (blockPages V b).foldl (fun m p => m.zeroRange p.1 (p.2 * 2 ^ 21) (2 ^ 21)) m

/-- R488: the ledger regions that the pools of a chip name: vat, address and bytes. -/
def Chip.ledgerRegions (k : Chip) : List (Nat × Nat × Nat) :=
  k.hub.pools.flatMap (fun p => p.2.cores.map (fun c => (c.core / 4, c.ledger, k.ledgerBytes p.1)))

/-- R464, R469, R488: the directory, context-record and ledger regions that a chip names. -/
def Chip.namedRegions (k : Chip) (V : Nat) : List (Nat × Nat × Nat) :=
  (List.range V).flatMap (fun v => (k.ctxRegions v).map (fun r => (v, r.1, r.2))) ++ k.ledgerRegions

/-- R813: a region that the state in force did not name, or as far as it did not, written zero. -/
def Mach.zeroNew (m : Mach) (V : Nat) (k' : Chip) : Mach :=
  let old := m.k.namedRegions V
  (k'.namedRegions V).foldl (fun m r =>
    let had := ((old.filter (fun o => o.1 = r.1 && o.2.1 = r.2.1)).map (fun o => o.2.2)).foldl max 0
    if r.2.2 ≤ had then m else m.zeroRange r.1 (r.2.1 + had) (r.2.2 - had)) m

/-! ### Weights (R576, R673) -/

/-- The weights of a model written into the weight pages of one core, as the staged translations place them. -/
def Mach.putWeights (m : Mach) (k' : Chip) (c : PoolCore) (bytes : List Byte) : Mach :=
  (List.range (ceilDiv bytes.length (2 ^ 21))).foldl (fun m i =>
    let e := k'.trans (c.core / 4) (c.core % 4) (c.weightVa / 2 ^ 21 + i)
    if e.valid then m.hubWrite (c.core / 4) (e.ppn * 2 ^ 21) ((bytes.drop (i * 2 ^ 21)).take (2 ^ 21)) else m) m

/-- R576: one copy of the weights of each MODEL section for every core of its pool. -/
def Mach.placeWeights (m : Mach) (x : Check) : Mach :=
  (x.t.of 3).foldl (fun m y =>
    match (x.dsk y.signer).bind y.weights, x.k'.pool y.model.2.pool with
    | some bytes, some p => p.cores.foldl (fun m c => m.putWeights x.k' c bytes) m
    | _, _ => m) m

/-! ### Switching a core: the streams that end (R182, R444 to R449, R270, R600) -/

/-- A core's arrivals at the hub layer barriers go with its streams. -/
def Chip.leaveBars (k : Chip) (core : Nat) : Chip :=
  k.onHub (fun h => { h with bars := h.bars.map (fun b => (b.1, { b.2 with arrived := b.2.arrived.filter (fun a => a.1 ≠ core) })) })

/-- R446: the objects of a core that differ from their baseline. -/
def Core.leaks (x : Core) : List Nat := (List.range 48).filter (fun n => x.object n ≠ lookup 0 x.baseline n)

/-- R444 to R446: what the mode in force before the apply does with the values the ending streams left. -/
def Chip.endSync (k : Chip) (core : Nat) : Chip :=
  let v := core / 4
  let c := core % 4
  let x := k.core v c
  if k.flag (Reg.syncCtl v c) 0 then k.setCore v c { x with sync := [], syncLast := [] }
  else
    let bad := x.leaks
    if bad = [] then k
    else
      let k := bad.foldl (fun k n => k.raise (Reg.syncLeakMask v c) n) k
      (k.logCore 0x12 v c bad.length).setCore v c { x with sync := [], syncLast := [] }

/-- What a die's base die still holds for the streams of a domain that has left its core: commands, starts and completions unreported, merges. -/
def Chip.dropCommands (k : Chip) (v d : Nat) : Chip :=
  k.setDie v d { k.die v d with cmds := [], writes := [], starts := [], posts := [], merge := none, mergeQ := [], held := false }

/-- R270, R449, R337, R654: the clears of a core whose domain changes; the starting scalars of the old domain's PROGRAM, the press's weight tile and
a debug hold (R681) go too. What its base dies had not yet done or reported for the old domain is dropped, so that CPL stays empty (DESIGN
CHOICE, log entry 73). -/
def Chip.clearCore (k : Chip) (core : Nat) : Chip :=
  let v := core / 4
  let c := core % 4
  let k := (List.range 16).foldl (fun k h => k.flushHoop v c h) k
  let k := (List.range 4).foldl (fun k i => k.dropCommands v (4 * c + i)) k
  let k := k.onHub (fun h => { h with scalars := h.scalars.filter (fun e => e.1 ≠ core) })
  let x := k.core v c
  k.setCore v c { x with
    oc := [], ocMarks := [], acc := [], accT := Core.reset.accT, tile := none, vregs := [], vrs := [], sregs := List.replicate 32 0
    pstore := [], pstoreBad := [], cpl := [], sync := [], syncLast := [], held := 0 }

/-- R596: the domain of a core changes. -/
def Check.rehomed (x : Check) (core : Nat) : Bool := x.k.poolDomain core ≠ x.k'.poolDomain core

/-- R601: the streams of a switched core stop, and what they leave is judged or cleared. -/
def Check.leave (x : Check) (k : Chip) (core : Nat) : Chip :=
  let k := (k.stopStreams (core / 4) (core % 4)).leaveBars core
  if x.rehomed core then k.clearCore core else k.endSync core

/-! ### The quiet point (R582, R599 to R601, R677) -/

/-- Table 12.12: the contexts that the apply closes; a job of one that is not dispatched ends NO_CONTEXT. -/
def Mach.closeFor (m : Mach) (x : Check) : Mach :=
  (x.k.hub.ctxs.filter (fun c => x.closes c.2)).foldl (fun m c =>
    match m.k.ctx c.1 with
    | none => m
    | some cur =>
      (m.closeCtx x.part.vats c.1 cur).onChip (fun k => (k.count Reg.ciClosed 1).orphanJobs (cur.handle c.1) 0x20)) m

/-- Table 14.7: the tenants that the transaction tears down. -/
def Check.torn (x : Check) : List Nat := (((x.t.of 1).map Section.domainBody).filter (·.teardown)).map (·.domain)

/-- R677: the blocks under zeroisation, as RIND_ZERO shows them. -/
def Chip.zeroing (k : Chip) (bs : List Nat) : Chip :=
  ((k.onHub (fun h => { h with zeroBlocks := bs })).setF Reg.rindZero 31 31 (if bs = [] then 0 else 1)).setF Reg.rindZero 15 0 (min bs.length 65535)

/-- R601, R603, R677: the apply begins: everything that comes before the apply cycle. -/
def Mach.beginApply (m : Mach) (x : Check) : Mach :=
  let V := x.part.vats
  let m := m.onChip (fun k => k.ciTo 3 0)
  let m := m.onChip (fun k => x.t.switched.foldl x.leave k)
  let m := x.t.switched.foldl (fun m c => m.failJobsOf V c) m
  let m := m.closeFor x
  let m := m.onChip (fun k => x.torn.foldl (fun k d => (k.onDomain d (fun y => { y with dsk := none })).revoke d) k)
  let blocks := x.freedBlocks
  let m := m.onChip (fun k => k.zeroing blocks)
  let m := blocks.foldl (fun m b => m.zeroBlock V b) m
  (m.zeroNew V x.k').placeWeights x

/-- R599, R603: a quiet point: admission is repeated where the part has failed since, and the apply begins. -/
def Mach.quietPoint (m : Mach) (x : Check) : Mach :=
  if x.t.shape ≠ m.k.shape x.part.vats then
    match x.verdict with
    | some r => m.onChip (fun k => k.refuseCommit r)
    | none => m.beginApply x
  else m.beginApply x

/-- R730: the vats that the apply touches: those of the switched cores, of the blocks zeroised and of the regions newly named. -/
def Check.touches (x : Check) : List Nat :=
  let V := x.part.vats
  let old := x.k.namedRegions V
  let regions := (x.k'.namedRegions V).filter (fun r => !old.contains r)
  let blocks : List (Nat × Nat) := x.freedBlocks.flatMap (blockPages V)
  let vats : List Nat := x.t.switched.map (· / 4) ++ blocks.map Prod.fst ++ regions.map Prod.fst
  vats.eraseDups

/-- R599, R730: the quiet point, once every vat that the apply touches is awake. -/
def Mach.quietIn (m : Mach) (x : Check) : Mach :=
  match x.touches.filter (fun v => (m.k.vat v).power ≠ .awake && !(m.k.vat v).lost) with
  | [] => m.quietPoint x
  | vs => m.onChip (fun k => vs.foldl Chip.wake k)

/-- QUIET_POINT (R599). -/
def execQuietPoint (s : State) : Host.Outcome State Fault Refusal :=
  s.onTurn true (fun m => match m.draining s.part with
    | some x => if x.quiet then m.quietIn x else m
    | none => m)

/-- QUIET_TIMEOUT (R600): CI_QUIET_TIMEOUT after the drain's start. -/
def execQuietTimeout (s : State) : Host.Outcome State Fault Refusal :=
  s.onTurn true (fun m => match m.draining s.part with
    | none => m
    | some x =>
      if m.k.now < x.t.since + 1000 * m.k.getF Reg.ciQuietTimeout 15 0 then m
      else if x.t.force then
        let m := m.onChip (fun k => x.t.switched.foldl (fun k c => (k.stopStreams (c / 4) (c % 4)).stopBanks (c / 4) (c % 4)) k)
        m.quietIn x
      else m.onChip (fun k => k.refuseCommit { CiResult.of 0x12 with need := (x.t.switched.map k.jobsAt).sum }))

/-! ### The apply cycle (R602) -/

/-- R664: E, the digest of domain 0's direct writes. -/
def Txn.writesDigest (t : Txn) : List Byte :=
  sha384 (t.writes.flatMap (fun w => leBytes 4 w.1 ++ [0, 0, 0, 0] ++ leBytes 8 w.2.toNat))

/-- R664: the CHAIN of a domain after the apply. -/
def Txn.chain (t : Txn) (d : Nat) (chain : List Byte) : List Byte :=
  let c := t.images.foldl (fun c i => match i.signed.find? (fun s => s.1 = d) with
    | some s => sha384 (c ++ s.2)
    | none => c) chain
  if d = 0 ∧ t.writes ≠ [] then sha384 (c ++ t.writesDigest) else c

/-- R664, R670, R672, R677, R678, R682: the domains at the apply cycle. -/
def Chip.applyDomains (k : Chip) (x : Check) : Chip :=
  let each (d : Nat × Domain) : Nat × Domain :=
    (d.1, { d.2 with chain := x.t.chain d.1 d.2.chain, dsk := if d.1 = 0 then none else x.dsk d.1 })
  let free (s : Nat × Session) : Nat × Session :=
    if s.2.bound.any x.torn.contains then (s.1, { s.2 with bound := none }) else s
  let k := k.onHub (fun h => { h with domains := h.domains.map each, sessions := h.sessions.map free })
  if k.tenants then
    let k := if k.pkgDebug then k.revoke 0 else k
    k.onHub (fun h => { h with tenantSeen := true })
  else k

/-- R573, R574, R337: the program store, starting scalars and operand-cache records of a core. -/
def Chip.loadCore (k : Chip) (x : Check) (core : Nat) : Chip :=
  let v := core / 4
  let c := core % 4
  let k := match (x.t.of 6).find? (fun y => y.target = core) with
    | none => k
    | some y =>
      let ws := (y.words.mapIdx (fun i w => (i, w))).filter (fun e => e.2 ≠ 0)
      (k.setCore v c { k.core v c with pstore := ws, pstoreBad := [] }).onHub (fun h => { h with
        scalars := insert h.scalars core y.scalars, programmed := core :: h.programmed.filter (· ≠ core) })
  ((x.t.of 7).filter (fun y => y.target = core)).foldl (fun k y =>
    k.setCore v c (y.records.foldl (fun z r => z.ocWrite r.1 r.2 false) (k.core v c))) k

/-- R865: the hoops whose HOOP_CFG or HOOP_SPILL_BASE the COMMIT changes, flushed as both configurations join them. -/
def Chip.flushChanged (k : Chip) (old : Chip) (V : Nat) : Chip :=
  let slots := (List.range (4 * V)).flatMap (fun n => (List.range 16).map (fun h => (n / 4, n % 4, h)))
  let changed (s : Nat × Nat × Nat) : Bool :=
    old.reg (Reg.hoopCfg s.1 s.2.1 s.2.2) ≠ k.reg (Reg.hoopCfg s.1 s.2.1 s.2.2)
      || old.reg (Reg.hoopSpillBase s.1 s.2.1 s.2.2) ≠ k.reg (Reg.hoopSpillBase s.1 s.2.1 s.2.2)
  (slots.filter changed).foldl (fun k s =>
    let k := k.flushHoop s.1 s.2.1 s.2.2
    match old.peerOf s.1 s.2.1 s.2.2 with
    | some p => k.flushSlot p.1 p.2.1 p.2.2
    | none => k) k

/-- R444 to R446: the new mode with the new streams. -/
def Chip.startSync (k : Chip) (core : Nat) : Chip :=
  let v := core / 4
  let c := core % 4
  let x := k.core v c
  if k.flag (Reg.syncCtl v c) 0 then k.setCore v c { x with sync := [], syncLast := [] } else k.setCore v c { x with baseline := x.sync }

/-- R337: the streams of a core start; a retired core's, and those of a lost vat, stay IDLE (R718, R721). -/
def Chip.startCore (k : Chip) (core : Nat) : Chip :=
  let v := core / 4
  let c := core % 4
  let k := k.startSync core
  let x := k.core v c
  let off := k.coreRetired v c || (k.vat v).lost
  let start (i : Nat) : Stream :=
    let o := Reg.streamEntry v c i
    if k.flag o 31 && !off then { Stream.idle with run := .run, seq := Sequencer.start (k.getF o 12 0) } else { Stream.idle with stoppedAt := k.now }
  k.setCore v c { x with
    streams := (List.range 5).map start, routine := Routine.fresh, domain := k.poolDomain core
    sregs := lookup (List.replicate 32 0) k.hub.scalars core
    enrolled := (Config.hubBarriers (k.getF Reg.ciCommits 47 0) core).toNat }

/-- R814, R815: one spare slot leaves CALIBRATING. -/
def Chip.dropSpare (k : Chip) (v d q : Nat) : Chip :=
  let x := k.die v d
  if x.spare q = .calibrating then
    let k := (k.stopUnit v d (96 + q)).dropShadows v d q
    k.setDie v d ((k.die v d).setSpare q .ready)
  else k.setDie v d { x with zeroing := x.zeroing.filter (fun z => z.1 ≠ q) }

/-- R814: the slots of a die in CALIBRATING, or on their way there. -/
def Die.calibrators (x : Die) : List Nat := (List.range 4).filter (fun q => x.spare q = .calibrating || x.zeroing.any (fun z => z.1 = q))

/-- R814, R815: the spare slots of a die brought to its CAL_SPARES. -/
def Chip.setSpares (k : Chip) (old : Chip) (v d : Nat) : Chip :=
  let core := 4 * v + ownerOf d
  let dom := k.poolDomain core
  let want := if dom = 0 then 0 else match k.layout v d with
    | some l => l.calSpares
    | none => 0
  let k := if old.poolDomain core = dom then k else (k.die v d).calibrators.foldl (fun k q => k.dropSpare v d q) k
  let have_ := (k.die v d).calibrators
  let k := ((have_.drop want).reverse).foldl (fun k q => k.dropSpare v d q) k
  let x := k.die v d
  let more := ((List.range 4).filter (fun q => x.spare q = .ready && !x.calibrators.contains q)).take (want - have_.length)
  more.foldl (fun k q =>
    let x := k.die v d
    if x.spareDomain.getD q 0 = dom then k.setDie v d (x.setSpare q .calibrating)
    else k.setDie v d { x with zeroing := x.zeroing ++ [(q, dom)] }) k

/-- R503, R601, R816: AFF_AGE set from AFF_START for the models that the transaction places, and for every model at the first apply cycle after a
package reset, and every model's brought within the bounds then in force. -/
def Chip.startAges (k : Chip) (t : Txn) : Chip :=
  let placed (i : Nat) : Bool := k.hub.boot.firstApply || (t.of 3).any (fun y => y.model.1 = i)
  k.hub.models.foldl (fun k m =>
    (if placed m.1 then k.setReg (Reg.affAge m.1) (k.reg (Reg.affStart m.1)) else k).clipAges m.1) k

/-- R592, R608, R720: the bounds of the classes. -/
def Chip.setBounds (k : Chip) (lanes128 : Bool) : Chip :=
  (List.range 16).foldl (fun k c => if k.classOn c then k else (k.setF (Reg.classBound c) 31 0 0).setF (Reg.classState c) 1 0 0) (k.rebound lanes128)

/-- R759: PWR_CAP takes CAP_W. -/
def Chip.applyPower (k : Chip) (p : Part) (t : Txn) : Chip :=
  (t.of 8).foldl (fun k y => k.writeCap p (recField y.body 0 2)) k

/-- R357, R662: the patch applied and its entry tables. -/
def Chip.applyPatch (k : Chip) (t : Txn) : Chip :=
  (t.of 9).foldl (fun k y => k.onHub (fun h => { h with
    patch := y.body, libT := Config.patchEntries false y.body, libB := Config.patchEntries true y.body
    patchT := Config.patchWords false y.body, patchB := Config.patchWords true y.body, libBadT := [], libBadB := [] })) k

/-- R601, R602: what the apply cycle puts in force, but for the transaction's end. -/
def Chip.putInForce (k : Chip) (x : Check) : Chip :=
  let V := x.part.vats
  let n := (x.t.images.map (·.seq)).foldl (fun a b => if newer a b then b else a) (k.getF Reg.ciSeq 31 0)
  let new := (x.k'.applyPower x.part x.t).applyPatch x.t
  let new := (((new.setF Reg.ciSeq 31 0 n).count Reg.ciCommits 1).applyDomains x).flushChanged k V
  let new := (List.range (4 * V)).foldl (fun k c => k.loadCore x c) new
  let new := (new.startAges x.t).setBounds x.part.lanes128
  let new := (List.range (16 * V)).foldl (fun n d => n.setSpares k (d / 16) (d % 16)) new
  let new := (x.t.switched.foldl Chip.startCore new).freezeCal.zeroing []
  let new := (List.range 4).foldl (fun k p => if k.portState p = 5 then k.sendOn p (.manifest k.manifest) else k) new
  (List.range V).foldl (fun k v => if k.flag Reg.pwrWarm v then k.wake v else k) new

/-- R602: the transaction ends. -/
def Chip.endTxn (k : Chip) : Chip :=
  (((k.onHub (fun h => { h with txn := none, drain := [], boot := { h.boot with firstApply := false } })).ciEnd ciOk 0).releaseRind).feedHub

/-- APPLY_CYCLE (R602). -/
def execApplyCycle (s : State) : Host.Outcome State Fault Refusal :=
  s.onTurn true (fun m =>
    match m.k.hub.txn with
    | none => m
    | some t =>
      if m.k.ciState ≠ 3 then m
      else ((m.onChip (fun k => (k.putInForce (checkOf s.part k t)).endTxn.noteWaits)).throughRecords s.part.vats m.k).deferredReset s.part)

end Sys2Proof.Machine
end

