-- ==== Sys2Proof/Machine/HostLink.lean ====
section
/-!
DEFINITION. The host link itself: training, configuration requests, link resets, HDM decoders and the memory-device mailbox
(R609 to R617, R707, R708, R806, R810, R811).
-/

namespace Sys2Proof.Machine

/-! ### Training and resets -/

/-- A time after the last reset's end has passed, in nanoseconds (R810). -/
def Chip.sinceReset (k : Chip) (t : Nat) : Bool := decide (k.hub.boot.endAt + t ≤ k.now)

/-- Table 13.1: a rate code (1 to 3), a width code (0 to 2) and a flit mode that the link supports together: 64 GT/s runs only in 256-byte
flit mode, of which latency-optimised is a form. -/
def linkMode (rate width : Nat) (flit256 latopt : Bool) : Bool :=
  decide (1 ≤ rate) && decide (rate ≤ 3) && decide (width ≤ 2) && (flit256 || (rate != 3 && !latopt))

/-- R611: HOST_LINK_STATUS.BI reads that BI is enabled for decoder 0, which has committed, on a link in 256-byte flit mode. -/
def Chip.noteBi (k : Chip) : Chip :=
  k.setF Reg.hostLinkStatus 8 8 (k.hub.biOn && k.flag Reg.hostLinkStatus 6 && k.hub.decoders.any (fun d => d.1 = 0)).toNat

/-- HOST_LINK_TRAINED (R810, Table 13.8): training ends, 5 ms after the reset ends at the earliest. -/
def execHostLinkTrained (rate width : Nat) (flit256 latopt : Bool) (s : State) : Host.Outcome State Fault Refusal :=
  s.onChip true (fun k =>
    if !(k.sinceReset 5000000 && linkMode rate width flit256 latopt) then k
    else
      ((((k.setF Reg.hostLinkStatus 2 0 rate).setF Reg.hostLinkStatus 5 4 width).setF Reg.hostLinkStatus 6 6 flit256.toNat).setF
        Reg.hostLinkStatus 7 7 latopt.toNat).noteBi)

/-- R806: the MSI-X table at its reset value. -/
def Chip.clearMsix (k : Chip) : Chip := { k with regs := k.regs.filter (fun x => x.1 < 0x30000 || 0x30200 ≤ x.1) }

/-- LINK_RESET (R632, R806): hot reset, link disable or link loss. HOST_LINK_STATUS reads a link that is down, without IDE and without BI; no
answer to a snoop sent before it will come. -/
def execLinkReset (s : State) : Host.Outcome State Fault Refusal :=
  s.onChip true (fun k =>
    ((k.clearMsix.setF Reg.hostLinkStatus 9 0 0).onHub (fun h => { h with
      ide := IdeState.off, sessions := [], decoders := [], uncommitted := [], biOn := false, biId := 0
      vrings := h.vrings.map (fun r => (r.1, { r.2 with snoop := none })) })).noteWaits)

/-! ### Configuration space (R612, R810) -/

/-- R612: the device ID. -/
def Part.deviceId (p : Part) : Nat := 0x0B00 + p.vats + (if p.lanes128 then 0x100 else 0)

/-- The doublewords of the PCIe Device Capabilities and of the DVSEC for CXL devices (log entry 13). -/
def pcieCaps : Nat := 17 + Config.pcieCapability % 46
def cxlDvsec : Nat := 64 + Config.cxlDvsec % 900

/-- A doubleword of configuration space (R612, R800, R810, Table 13.1): the device ID, class code and revision ID, BAR0 of 256 MB, 64-bit and
prefetchable, no other BAR, no INTx pin, no Function Level Reset and no CXL Reset; Memory_Info_Valid, Memory_Active and a Memory_Active_Timeout of
1 s; each where PCIe 6.0 and CXL 3.1 place it (log entry 13). -/
def Chip.configWord (k : Chip) (p : Part) (n : Nat) : BitVec 32 :=
  if n = 0 then BitVec.ofNat 32 (p.deviceId * 65536 + (Config.configSpace 0).toNat % 65536)
  else if n = 2 then BitVec.ofNat 32 (0x050210 * 256 + 0xA0)
  else if n = 4 then BitVec.ofNat 32 ((Config.configSpace 4).toNat / 2 ^ 28 * 2 ^ 28 + 0xC)
  else if 6 ≤ n ∧ n ≤ 9 then 0
  else if n = 15 then Config.configSpace 15 &&& 0xFFFF00FF
  else if n = pcieCaps then Config.configSpace n &&& 0xEFFFFFFF
  else if n = cxlDvsec + 2 then Config.configSpace n &&& 0xFF7FFFFF
  else if n = cxlDvsec + 7 then
    (Config.configSpace n &&& 0xFFFF1FFC) ||| BitVec.ofNat 32 ((k.sinceReset 40000000).toNat + 2 * (decide (k.hub.boot.cond = .ready)).toNat)
  else Config.configSpace n

/-- CONFIG_REQUEST (R810): a read of doubleword `n`: Request Retry Status before 40 ms. -/
def execConfigRequest (n : BitVec 10) (s : State) : Host.Outcome State Fault Refusal :=
  s.onChip true (fun k =>
    k.answer (if k.sinceReset 40000000 then .word ((k.configWord s.part n.toNat).setWidth 64) else .retry))

/-! ### HDM decoders (R611, R616, R617, R811) -/

/-- R616: the layout that decoder `n` must have. -/
def Part.decoderFits (p : Part) (n skip size ways : Nat) : Bool :=
  decide (ways = 1) &&
    match n with
    | 0 => decide (skip = 0 ∧ size = capacity p.vats)
    | 1 => decide (skip = 2 ^ 40 - capacity p.vats ∧ size = capacity p.vats)
    | 2 => decide (skip = 2 ^ 40 - capacity p.vats ∧ size = 2 ^ 28)
    | _ => false

/-- R616: the DPA skip and the size of decoder `n`. -/
def Part.decoderSpan (p : Part) (n : Nat) : Nat × Nat :=
  match n with
  | 0 => (0, capacity p.vats)
  | 1 => (2 ^ 40 - capacity p.vats, capacity p.vats)
  | _ => (2 ^ 40 - capacity p.vats, 2 ^ 28)

/-- What CXL 3.1's registers of HDM decoder `n` show of the model's state at an offset in the decoder's 32 bytes: the mask of the bits known, and
their values: base, size and DPA skip of a committed decoder; of its control register Interleave Ways, Commit, Committed, Error Not Committed and
BI (PRESUMED, log entry 18). -/
def Chip.decoderWord (k : Chip) (p : Part) (n e : Nat) : Nat × Nat :=
  let span := p.decoderSpan n
  match k.hub.decoders.find? (fun d => d.1 = n) with
  | some d =>
    let low (x : Nat) : Nat × Nat := (0xF0000000, x % 2 ^ 32)
    let high (x : Nat) : Nat × Nat := (0xFFFFFFFF, x / 2 ^ 32)
    match e with
    | 0x00 => low d.2 | 0x04 => high d.2
    | 0x08 => low span.2 | 0x0C => high span.2
    | 0x10 => (0x2EF0, 2 ^ 9 + 2 ^ 10 + 2 ^ 13 * (n = 0 && k.hub.biOn).toNat)
    | 0x14 => low span.1 | 0x18 => high span.1
    | _ => (0, 0)
  | none => if e = 0x10 then (0xC00, 2 ^ 11 * (k.hub.uncommitted.contains n).toNat) else (0, 0)

/-- R707: the CXL event logs that hold records, as the bits of CXL 3.1's event status. -/
def Chip.eventStatus (k : Chip) : Nat :=
  ((List.range 4).map (fun n => if lookup [] k.hub.log.events n = [] then 0 else 2 ^ n)).sum

/-- The bits of a doubleword of the CXL component and device registers that show the model's state, and their values: the HDM decoders, BI Enable
of the BI Decoder capability, and the mode of the CXL IDE stream (R611, R616, R684); the event logs that hold records, a mailbox that is never busy,
and media that are ready once the part is (R613, R707, R810). -/
def Chip.cxlKnown (k : Chip) (p : Part) (o : Nat) : Nat × Nat :=
  let comp (n : Nat) : Nat := 0x10000 + 16 * (n % 2000)
  let dev (n : Nat) : Nat := 0x18000 + 16 * (n % 2000)
  let hdm := comp Config.hdmCapability + 0x10
  if hdm ≤ o ∧ o < hdm + 0x80 then k.decoderWord p ((o - hdm) / 32) ((o - hdm) % 32)
  else if o = comp Config.biCapability + 4 then (2, 2 * k.hub.biOn.toNat)
  else if o = comp Config.ideCapability + 8 then
    let c := (Config.ideCode (k.hub.ide.cxl.map (·.1))).toNat
    (0xFF, c + 16 * c)
  else if o = dev Config.deviceStatus then (0xF, k.eventStatus)
  else if o = dev Config.mailbox + 4 then (1, 0)
  else if o = dev Config.memoryStatus then (0xC, 4 * (decide (k.hub.boot.cond = .ready)).toNat)
  else (0, 0)

/-- Table 13.6: a byte of the CXL component and device registers: what shows the model's state, over bits that the spec gives no value. -/
def Chip.cxlByte (k : Chip) (p : Part) (o : Nat) : Byte :=
  let r := k.cxlKnown p (o / 4 * 4)
  let s := 8 * (o % 4)
  let m := BitVec.ofNat 8 (r.1 / 2 ^ s)
  (Config.cxlByte o k.now &&& ~~~m) ||| (BitVec.ofNat 8 (r.2 / 2 ^ s) &&& m)

/-- HDM_DECODER_COMMIT (R611, R616, R811): decoder `n` at an HPA base; of decoder 0, `bi` is the BI-ID under which the BI Decoder capability
enables BI, where it does. The answer is 0 for Committed and 1 for Error Not Committed, which leaves the decoder uncommitted. -/
def execHdmDecoderCommit (n base skip size ways : Nat) (bi : Option Nat) (s : State) : Host.Outcome State Fault Refusal :=
  s.onChip true (fun k =>
    let ok : Bool := k.hub.boot.cond = .ready && s.part.decoderFits n skip size ways
    let k := k.onHub (fun h =>
      if ok then { h with decoders := insert h.decoders n base, uncommitted := h.uncommitted.filter (· ≠ n), resp := .code 0 }
      else { h with decoders := erase h.decoders n, uncommitted := if n < 4 then n :: h.uncommitted.filter (· ≠ n) else h.uncommitted
                    resp := .code 1 })
    if n = 0 then (k.onHub (fun h => { h with biOn := bi.isSome, biId := bi.getD 0 })).noteBi else k)

/-! ### The mailbox (R613, R614, R707, R708) -/

/-- Bytes of an answer that the spec gives no value, from place `i` on. -/
def freeBytes (op time : Nat) : Nat → Nat → List Byte
  | _, 0 => []
  | i, n + 1 => Config.mailboxByte op time i :: freeBytes op time (i + 1) n

/-- R613: the commands supported, by the opcodes that CXL 3.1 gives them. -/
def mailboxOps : List Nat := [0x0001, 0x0100, 0x0101, 0x0400, 0x0401, 0x4000, 0x4200, 0x4300]

/-- The Command Effects Log: an opcode and its effect for each command. -/
def celBytes : List Byte := mailboxOps.flatMap (fun n => leBytes 2 n ++ leBytes 2 (Config.celEffect n).toNat)

/-- CXL 3.1's identifier of the Command Effects Log. -/
def celUuid : List Byte := beBytes 16 0x0da9c0b5bf414b788f7996b1623b3f17

/-- IDENTIFY (R613, R612): CXL 3.1's 18 bytes; the spec gives the device ID. -/
def execIdentify (s : State) : Host.Outcome State Fault Refusal :=
  s.onChip true (fun k =>
    k.answer (.bytes 0 (freeBytes 0x0001 k.now 0 2 ++ leBytes 2 s.part.deviceId ++ freeBytes 0x0001 k.now 4 14)))

/-- IDENTIFY_MEMORY_DEVICE (R614): all the capacity is volatile, none persistent, and no partition can be changed; CXL 3.1 counts in
256 MB. -/
def execIdentifyMemoryDevice (s : State) : Host.Outcome State Fault Refusal :=
  s.onChip true (fun k =>
    let units := capacity s.part.vats / 2 ^ 28
    k.answer (.bytes 0 (freeBytes 0x4000 k.now 0 16 ++ leBytes 8 units ++ leBytes 8 units ++ leBytes 8 0 ++ leBytes 8 0 ++
      freeBytes 0x4000 k.now 48 21)))

/-- GET_SUPPORTED_LOGS (R613): the Command Effects Log alone. -/
def execGetSupportedLogs (s : State) : Host.Outcome State Fault Refusal :=
  s.onChip true (fun k => k.answer (.bytes 0 (leBytes 8 1 ++ celUuid ++ leBytes 4 celBytes.length)))

/-- GET_LOG (R613): bytes of the Command Effects Log. Get Log for any other log is not supported. -/
def execGetLog (cel : Bool) (offset len : Nat) (s : State) : Host.Outcome State Fault Refusal :=
  s.onChip true (fun k =>
    if !cel then k.answer (.code 3)
    else if offset + len ≤ celBytes.length then k.answer (.bytes 0 ((celBytes.drop offset).take len))
    else k.answer (.code 2))

/-- GET_EVENT_RECORDS (R707): the records of a CXL event log (0 Informational, 1 Warning, 2 Failure, 3 Fatal), oldest first, and its
overflow. -/
def execGetEventRecords (log : Nat) (s : State) : Host.Outcome State Fault Refusal :=
  s.onChip true (fun k =>
    if 4 ≤ log then k.answer (.code 2)
    else
      let l := k.hub.log
      k.answer (.events (lookup [] l.events log) (l.overflow log)))

/-- R707: a CXL event log with its records replaced and its overflow over. -/
def Chip.setEvents (k : Chip) (log : Nat) (rs : List EventRec) : Chip :=
  (k.onLog (fun l => { l with events := insert l.events log rs, dropped := erase l.dropped log })).answer (.code 0)

/-- CLEAR_EVENT_RECORDS (R707): the oldest records, named by their handles in order, or, where the log has overflowed, all of them. The error
log keeps its entries. -/
def execClearEventRecords (log : Nat) (all : Bool) (handles : List Nat) (s : State) : Host.Outcome State Fault Refusal :=
  s.onChip true (fun k =>
    let rs := lookup [] k.hub.log.events log
    if 4 ≤ log then k.answer (.code 2)
    else if all then (if (k.hub.log.overflow log).isNone then k.answer (.code 2) else k.setEvents log [])
    else if (rs.take handles.length).map EventRec.handle = handles then k.setEvents log (rs.drop handles.length)
    else k.answer (.code 0xE))

/-- GET_HEALTH_INFO (R613): CXL 3.1's 18 bytes, to which the spec gives no value. -/
def execGetHealthInfo (s : State) : Host.Outcome State Fault Refusal :=
  s.onChip true (fun k => k.answer (.bytes 0 (freeBytes 0x4200 k.now 0 18)))

/-- GET_POISON_LIST (R708): the words that the walker has marked since the list was last read. -/
def execGetPoisonList (s : State) : Host.Outcome State Fault Refusal :=
  s.onChip true (fun k =>
    k.onHub (fun h => { h with resp := .poisoned h.poison h.poisonOvf, poison := [], poisonOvf := false }))

/-- MAILBOX_UNSUPPORTED (R613): any other command. -/
def execMailboxUnsupported (s : State) : Host.Outcome State Fault Refusal := s.onChip true (fun k => k.answer (.code 3))

end Sys2Proof.Machine
end

