-- ==== Sys2Proof/Machine/Power.lean ====
section
/-!
DEFINITION. The power arbiter, heat, sleep, droop and the recalibration of TSV lanes (R728, R733, R735 to R760, R817, R818).
-/

namespace Sys2Proof.Machine

/-- PWR_CAP_WRITE (R743, R746). -/
def execPwrCapWrite (w : BitVec 16) (s : State) : Host.Outcome State Fault Refusal :=
  s.onChip true (fun k => (k.writeCap s.part w.toNat).resumeAdmission s.part)

/-! ### A vat's mode and limit (R726, R733, R736) -/

/-- The vat is awake. -/
def Chip.awake (k : Chip) (v : Nat) : Bool := (k.vat v).power = .awake && !(k.vat v).lost

/-- VAT_PWR.LIMIT, and CORE_PRESS_ISSUE.LIMIT of the vat's cores with it (R736). -/
def Chip.limitOf (k : Chip) (v : Nat) : Nat := k.getF (Reg.vatPwr v) 20 16
def Chip.setLimit (k : Chip) (v n : Nat) : Chip :=
  (List.range 4).foldl (fun k c => k.setF (Reg.corePressIssue v c) 4 0 n) (k.setF (Reg.vatPwr v) 20 16 n)

/-- VAT_PWR.MODE, and CORE_CLOCK.MODE of the vat's cores with it (R726): 0 nominal, 1 boost, 2 fixed-frequency. -/
def Chip.boosted (k : Chip) (v : Nat) : Bool := k.getF (Reg.vatPwr v) 29 28 = 1
def Chip.setMode (k : Chip) (v n : Nat) : Chip :=
  (List.range 4).foldl (fun k c => k.setF (Reg.coreClock v c) 1 0 n) (k.setF (Reg.vatPwr v) 29 28 n)

/-- R747: a vat's temperature. -/
def Chip.tempOf (k : Chip) (v : Nat) : Int := signedOf 8 (k.getF (Reg.vatTemp v) 7 0)

/-- THROTTLE_TEMP. -/
def Chip.throttleTemp (k : Chip) : Nat := k.getF Reg.pwrTempCfg 7 0

/-- R748: thermal throttling applies to a vat. -/
def Chip.throttled (k : Chip) (v : Nat) : Bool := k.hub.pwr.throttled.contains v || k.hub.pwr.hubHot

/-- R748: the heat that throttles a vat is there now, so its limit still falls. -/
def Chip.hotNow (k : Chip) (v : Nat) : Bool :=
  decide ((k.throttleTemp : Int) ≤ k.tempOf v) || (k.hub.pwr.hubHot && decide ((k.throttleTemp : Int) ≤ k.hub.pwr.hubTemp))

/-- R749: every sensor of the vat is below THROTTLE_TEMP − 2 °C. -/
def Chip.cool (k : Chip) (v : Nat) : Bool := decide (k.tempOf v < (k.throttleTemp : Int) - 2)

/-- R733: what boost needs besides the arbiter's grant. -/
def Chip.mayBoost (k : Chip) (v : Nat) : Bool :=
  !k.flag Reg.pwrPolicy 10 && k.flag Reg.pwrPolicy 11 && decide (k.tempOf v < k.getF Reg.pwrTempCfg 15 8) && !k.throttled v

/-! ### Shares and loans (R737, R738, R757) -/

/-- The arbiter's view at a tick: the chip, the vats of the part, and the reading. -/
structure Arbiter where
  k    : Chip
  vats : Nat
  r    : PowerReading

/-- The measured power of a vat. -/
def Arbiter.at_ (x : Arbiter) (v : Nat) : VatDraw := x.r.vats.getD v { draw := 0, avg := 0, step := 0, boost := 0 }

/-- The awake vats. -/
def Arbiter.awake (x : Arbiter) : List Nat := (List.range x.vats).filter x.k.awake

/-- R737: the weight of a vat, and the sum over the awake vats but one. -/
def Arbiter.weight (x : Arbiter) (v : Nat) : Nat := x.k.getF Reg.pwrWeight (8 * v + 7) (8 * v)
def Arbiter.weights (x : Arbiter) (but : Option Nat) : Nat := ((x.awake.filter (fun v => some v ≠ but)).map x.weight).sum

/-- R54, R737, R757, R758: the share of an awake vat, with all that pacing adds and the most that any barrier takes. -/
def Arbiter.share (x : Arbiter) (v : Nat) : Nat :=
  let away := (((List.range x.vats).filter (fun u => !x.k.awake u)).map (fun u => (x.at_ u).draw)).sum
  let budget := 10 * x.k.getF Reg.pwrCap 15 0 - x.r.hub - away
  let paced := x.k.hub.bars.map (fun b => lookup 0 b.2.added v)
  (roundDiv (budget * x.weight v) (x.weights none) + (paced.map (max 0)).sum + (paced.foldl min 0)).toNat

/-- R738: what an awake vat lends: it stands at limit 16 and in the fastest mode it may have. -/
def Arbiter.lent (x : Arbiter) (v : Nat) : Nat :=
  if x.k.limitOf v = 16 ∧ (x.k.boosted v ∨ !x.k.mayBoost v) then x.share v - (x.at_ v).draw else 0

/-- R54, R738: a vat's share plus its loans. -/
def Arbiter.allowance (x : Arbiter) (v : Nat) : Nat :=
  x.share v + ((x.awake.filter (· ≠ v)).map (fun u => (roundDiv (x.lent u * x.weight v) (x.weights (some u))).toNat)).sum

/-! ### Pacing (R755 to R758) -/

/-- PRESS_LIMIT_FLOOR. -/
def Chip.pressLow (k : Chip) : Nat := k.getF Reg.pwrPolicy 4 0

/-- R756: a paced vat is taken out of boost, and its limit is lowered by one, not below the floor; the power released with it. -/
def Arbiter.giveUp (x : Arbiter) (v : Nat) (k : Chip) : Chip × Nat :=
  let a : Chip × Nat := if k.boosted v then (k.setMode v 0, (x.at_ v).boost) else (k, 0)
  if k.pressLow < k.limitOf v then (a.1.setLimit v (k.limitOf v - 1), a.2 + (x.at_ v).step) else a

/-- R758: the steps by which barriers other than `b` have asked vat `v` to be lowered: the greatest. -/
def Chip.askedBy (k : Chip) (b v : Nat) : Nat := ((k.hub.bars.filter (fun y => y.1 ≠ b)).map (fun y => lookup 0 y.2.asked v)).foldl max 0

/-- HBAR_PACE as a barrier's additions have it. -/
def Chip.showPace (k : Chip) (b : Nat) : Chip :=
  let bits (p : Int → Bool) : Nat := (((k.bar b).added.filter (fun a => p a.2 && a.1 < 8)).map (fun a => 2 ^ a.1)).sum
  (k.setF (Reg.hbarPace b) 15 8 (bits (fun a => decide (a < 0)))).setF (Reg.hbarPace b) 7 0 (bits (fun a => decide (0 < a)))

/-- R756, R758: barrier `b` asks for one more step of vat `v`: the chip, what the barrier takes from each vat, the steps that it has asked for, the
power released in fact, and the vats lowered in this tick. A step that another barrier has asked for already lowers nothing. -/
structure Pacing where
  k     : Chip
  added : List (Nat × Int)
  asked : List (Nat × Nat)
  gain  : Nat
  done  : List Nat

def Arbiter.askStep (x : Arbiter) (b : Nat) (c : Pacing) (v : Nat) : Pacing :=
  let n := lookup 0 c.asked v + 1
  let took (g : Nat) : List (Nat × Int) := insert c.added v (lookup 0 c.added v - (g : Int))
  if n ≤ c.k.askedBy b v then { c with added := took (x.at_ v).step, asked := insert c.asked v n }
  else if c.done.contains v then c
  else
    let g := x.giveUp v c.k
    { k := g.1, added := took g.2, asked := insert c.asked v n, gain := c.gain + g.2, done := v :: c.done }

/-- R756, R758: one barrier paced; `done` are the vats that this tick has already lowered. -/
def Arbiter.paceOne (x : Arbiter) (a : Chip × List Nat) (b : Nat) : Chip × List Nat :=
  let k := a.1
  let y := k.bar b
  let n := max 1 (k.getF Reg.pwrPaceCfg 23 16)
  let limit := k.getF Reg.pwrPaceCfg 15 0
  if !k.flag Reg.pwrPolicy 12 ∨ (y.added ≠ [] ∧ y.lastAt + 1000000 ≤ k.now) then
    ((k.setBar b { y with added := [], asked := [] }).showPace b, a.2)
  else if y.since < n ∨ k.getF (Reg.hbarSkew b) 31 0 ≤ limit then a
  else
    let vats := ((k.enrolled b).map (· / 4)).eraseDups
    let slack (v : Nat) : Nat := leastSlack (y.episodes.take n) v
    let slow := vats.filter (fun v => limit < slack v && k.awake v)
    match (orderBy slack vats).head? with
    | none => a
    | some needy =>
      let r := slow.foldl (x.askStep b) { k := k, added := y.added, asked := y.asked, gain := 0, done := a.2 }
      let added := (insert r.added needy (lookup 0 r.added needy + (r.gain : Int))).filter (fun e => e.2 ≠ 0)
      ((r.k.setBar b { y with added := added, asked := r.asked, since := 0 }).showPace b, r.done)

/-! ### The arbiter's step for a vat (R739, R741, R744, R748, R749) -/

/-- One step of an awake vat's mode and limit. -/
def Arbiter.adjust (x : Arbiter) (v : Nat) (k : Chip) : Chip :=
  let l := k.limitOf v
  let low := k.pressLow
  let fixed := k.flag Reg.pwrPolicy 10
  let b := k.boosted v && k.mayBoost v
  let mode (k : Chip) (boost : Bool) : Chip := k.setMode v (if fixed then 2 else if boost then 1 else 0)
  let a := x.allowance v
  let d := (x.at_ v).draw
  if l < low ∧ k.cool v then (mode k (b && !k.throttled v)).setLimit v (l + 1)
  else if k.throttled v then
    let k := mode k false
    let least := if k.hub.pwr.thermal.contains v && !k.cool v then 1 else low
    let due := k.hotNow v && decide (lookup 0 k.hub.pwr.loweredAt v + 10000 ≤ k.now)
    if due ∧ least < l then (k.setLimit v (l - 1)).onPwr (fun p => { p with loweredAt := insert p.loweredAt v k.now })
    else if a < d ∧ low < l then k.setLimit v (l - 1)
    else k
  else if l < low then (mode k b).setLimit v (l + 1)
  else if k.hub.pwr.capCause then
    if b ∨ l ≤ low then mode k false else (mode k false).setLimit v (l - 1)
  else if a < d then
    if b then mode k false else if low < l then (mode k false).setLimit v (l - 1) else mode k false
  else if l < 16 then
    if d + (x.at_ v).step ≤ a then (mode k b).setLimit v (l + 1) else mode k b
  else mode k (b || (k.mayBoost v && decide (d + (x.at_ v).boost ≤ a)))

/-- R736, R749: the vats with cause THERMAL, which a vat keeps until it is cool and its limit back at the floor, and since when each has stood hot at
the floor. -/
def Chip.noteHeat (k : Chip) (V : Nat) : Chip :=
  let t := k.throttleTemp
  let hot (v : Nat) : Bool := decide ((t : Int) + 5 ≤ k.tempOf v) && decide (k.limitOf v ≤ k.pressLow)
  let since := ((List.range V).filter hot).map (fun v => (v, lookup k.now k.hub.pwr.hotSince v))
  let new := (since.filter (fun e => e.2 + 100000 ≤ k.now)).map (·.1)
  let stay := k.hub.pwr.thermal.filter (fun v => !k.cool v || decide (k.limitOf v < k.pressLow))
  k.onPwr (fun p => { p with hotSince := since, thermal := (stay ++ new).eraseDups })

/-- R744, R745: cause CAP, by the 100 windows of a microsecond that make one of 100 µs, and by ten such. -/
def Arbiter.noteCause (x : Arbiter) (k : Chip) (p : Part) : Chip :=
  let cap := k.getF Reg.pwrCap 15 0
  let low := (x.awake).all (fun v => k.limitOf v ≤ k.pressLow && !k.boosted v)
  let tooMuch := decide (10 * cap < x.r.pkg)
  let above := if low && tooMuch then k.hub.pwr.above + 1 else 0
  let below := if k.hub.pwr.capCause && !tooMuch && decide (p.minWatts ≤ cap) then k.hub.pwr.below + 1 else 0
  let cause := if k.hub.pwr.capCause then decide (below < 1000) else decide (100 ≤ above)
  k.onPwr (fun q => { q with capCause := cause, above := if cause then 0 else above, below := if cause then below else 0 })

/-! ### Idle vats (R728) -/

/-- R187: no bank unit of a vat runs or holds a pending start. -/
def Chip.banksIdle (k : Chip) (v : Nat) : Bool :=
  k.bus.all (fun x => x.1 / 1600 ≠ v || (x.2.run ≠ .run && x.2.waiting.isNone && x.2.slotQ = [] && x.2.active.isNone))

/-- R728: a vat is idle. -/
def Chip.vatIdle (k : Chip) (v : Nat) : Bool :=
  let moving (f : InFlight) : Bool := match f with | .xfer .. => true | .sread .. => true | _ => false
  k.banksIdle v
    && (List.range 4).all (fun c => (List.range 5).all (fun s => k.streamQuiet v c s && !((k.stream v c s).inflight.any moving)))
    && (List.range 16).all (fun d =>
      let x := k.die v d
      x.cmds = [] && x.writes = [] && x.merge.isNone && x.mergeQ = [] && x.takeover.isNone && x.legacy.all (fun l => !l.2.busy))
    && (k.vat v).wq = []
    && k.hub.ctxs.all (fun c => match c.2.migration with
      | some g => g.vat ≠ v && c.2.vat ≠ v
      | none => true)
    && k.hub.barQ.all (fun a => a.vat ≠ v)

/-- R728: the vats idle now, each since when: taken at every nanosecond of the hub timestamp. -/
def Chip.noteIdle (k : Chip) (V : Nat) : Chip :=
  let idle := (List.range V).filter (fun v => k.awake v && k.vatIdle v)
  k.onPwr (fun p => { p with idleSince := idle.map (fun v => (v, lookup k.now p.idleSince v)) })

/-! ### The tick (R736) -/

/-- R54: a reading in tenths of a watt as whole watts, to nearest even. -/
def wholeWatts (n : Nat) : Nat := min 65535 (roundDiv n 10).toNat

/-- The readings shown: PWR_STATUS.PKG_W, PWR_PKG_MAX, PWR_ENERGY and VAT_PWR.W. -/
def Arbiter.show_ (x : Arbiter) : Chip :=
  let k := x.k
  let w := wholeWatts x.r.pkg
  let k := (k.setF Reg.pwrStatus 15 0 w).satMax Reg.pwrPkgMax 15 0 w
  let e := k.hub.pwr.energy + x.r.hub + ((List.range x.vats).map (fun v => (x.at_ v).draw)).sum
  let k := (k.count Reg.pwrEnergy (e / 10000)).onPwr (fun p => { p with energy := e % 10000, tickAt := some k.now })
  (List.range x.vats).foldl (fun k v => k.setF (Reg.vatPwr v) 15 0 (wholeWatts (x.at_ v).avg)) k

/-- ARBITER_TICK (R728, R733, R736 to R749, R756): one microsecond or more after the last. -/
def execArbiterTick (r : PowerReading) (s : State) : Host.Outcome State Fault Refusal :=
  s.onChip true (fun k =>
    if k.hub.pwr.tickAt.any (fun t => k.now < t + 1000) then k
    else
      let V := s.part.vats
      let k := ({ k := k, vats := V, r := r } : Arbiter).show_
      let x : Arbiter := { k := k, vats := V, r := r }
      let paced := (List.range 16).foldl x.paceOne (k, [])
      let x : Arbiter := { x with k := paced.1 }
      let k := (x.awake.filter (fun v => !paced.2.contains v)).foldl (fun k v => x.adjust v k) paced.1
      let k := (x.noteCause (k.noteHeat V) s.part).noteCap
      k.resumeAdmission s.part)

/-- VAT_SLEEP (R728): a vat idle for SLEEP_IDLE_US enters sleep. -/
def execVatSleep (v : Nat) (s : State) : Host.Outcome State Fault Refusal :=
  s.onChip (s.hasVat v) (fun k =>
    let us := k.getF Reg.pwrPolicy 31 16
    let since := k.hub.pwr.idleSince.any (fun e => e.1 = v && e.2 + 1000 * us ≤ k.now)
    if us ≠ 0 ∧ k.awake v ∧ !k.flag Reg.pwrWarm v ∧ since ∧ k.vatIdle v then k.setPower v .entering else k)

/-- DROOP (R735): at boost, one core cycle of vat `v` is stretched. -/
def execDroop (v : Nat) (s : State) : Host.Outcome State Fault Refusal :=
  s.onChip (s.hasVat v) (fun k => if k.boosted v && k.awake v then k.count (Reg.vatStretch v) 1 else k)

/-! ### Heat (R747 to R753) -/

/-- The hottest of some readings. -/
def hottest (l : List Int) : Int := match l with
  | [] => 0
  | x :: xs => xs.foldl max x

/-- R747, R748: a vat's temperature, and the start or the end of its throttling. -/
def Chip.noteTemp (k : Chip) (v : Nat) (t : Int) : Chip :=
  let k := k.setF (Reg.vatTemp v) 7 0 (bitsOf 8 t)
  let k := if decide (signedOf 8 (k.getF (Reg.vatTemp v) 15 8) < t) then k.setF (Reg.vatTemp v) 15 8 (bitsOf 8 t) else k
  let lim := k.throttleTemp
  let on := k.hub.pwr.throttled.contains v
  if !on ∧ (lim : Int) ≤ t then
    (k.onPwr (fun p => { p with throttled := v :: p.throttled })).log { occ 0x32 k.now with
      vat := v, detail := bitsOf 8 t + 256 * k.limitOf v }
  else if on ∧ t < (lim : Int) - 2 then k.onPwr (fun p => { p with throttled := p.throttled.filter (· ≠ v) })
  else k

/-- R748: the hub's hottest reading. -/
def Chip.noteHub (k : Chip) (t : Int) : Chip :=
  let lim := k.throttleTemp
  let on := k.hub.pwr.hubHot
  let k := k.onPwr (fun p => { p with hubTemp := t })
  if !on ∧ (lim : Int) ≤ t then (k.onPwr (fun p => { p with hubHot := true })).logPlain 0x32 (bitsOf 8 t)
  else if on ∧ t < (lim : Int) - 2 then k.onPwr (fun p => { p with hubHot := false })
  else k

/-- R750: a die's two readings in DIE_TEMP, and the start or the end of its hot refresh. -/
def Chip.noteDie (k : Chip) (v d : Nat) (a b : Int) : Chip :=
  let key := dieKey v d
  let o := Reg.dieTemp v d
  let k := (k.setF o 7 0 (bitsOf 8 a)).setF o 15 8 (bitsOf 8 b)
  let t := max a b
  let on := k.hub.pwr.hotDies.contains key
  if !on ∧ 85 ≤ t then
    ((k.setF o 16 16 1).onPwr (fun p => { p with hotDies := key :: p.hotDies })).log { occ 0x34 k.now with vat := v, die := d, detail := bitsOf 8 t }
  else if on ∧ t < 83 then (k.setF o 16 16 0).onPwr (fun p => { p with hotDies := p.hotDies.filter (· ≠ key) })
  else k

/-- R748, R750: VAT_PWR.THROTTLED and HOTREF. -/
def Chip.showHeat (k : Chip) (v : Nat) : Chip :=
  let hot := k.hub.pwr.hotDies.any (fun d => d / 16 = v)
  (k.setF (Reg.vatPwr v) 27 27 (if k.throttled v then 1 else 0)).setF (Reg.vatPwr v) 26 26 (if hot then 1 else 0)

/-- THERMAL_SAMPLE (R747, R748, R750): every sensor, one microsecond or more after the last sample. -/
def execThermalSample (r : HeatReading) (s : State) : Host.Outcome State Fault Refusal :=
  s.onChip true (fun k =>
    if k.hub.pwr.sampleAt.any (fun t => k.now < t + 1000) then k
    else
      let k := (k.onPwr (fun p => { p with sampleAt := some k.now })).noteHub (hottest (r.hub.take 4))
      (List.range s.part.vats).foldl (fun k v =>
        let x := (r.vats.getD v []).take 36
        let k := k.noteTemp v (hottest x)
        ((List.range 16).foldl (fun k d => k.noteDie v d (x.getD (2 * d) 0) (x.getD (2 * d + 1) 0)) k).showHeat v) k)

/-- PWR_TRIP's SENSOR bits. -/
def sensorCode (hub : Bool) (v die index : Nat) : Nat := (if hub then 2 ^ 15 else v * 2 ^ 12 + die * 2 ^ 7) + index

/-- THERMAL_TRIP (R752, R753): a sensor reads 110 °C or more: of the hub, or of a DRAM core die or the base die (16) of a vat. -/
def execThermalTrip (hub : Bool) (v die index temp : Nat) (s : State) : Host.Outcome State Fault Refusal :=
  let sensors := if hub || die = 16 then 4 else 2
  if !((hub || (s.hasVat v && die ≤ 16)) && index < sensors) then .fault .noSuchUnit
  else s.onPartMach (fun m =>
    if temp < 110 ∨ !(m.k.alive || m.k.hub.boot.cond = .held || m.k.hub.boot.cond = .hubStopped) then m
    else
      let code := sensorCode hub v die index
      let k := ((m.k.setF Reg.pwrTrip 15 0 code).setF Reg.pwrTrip 23 16 (min temp 255)).raise Reg.pwrTrip 31
      let k := k.writeLog { occ 0x33 k.now with detail := code + min temp 255 * 2 ^ 16 }
      ({ m with k := k.assertFault.onBoot (fun b => { b with thermTrip := true }) } : Mach).halt .tripped)

/-! ### TSV lanes (R817, R818) -/

/-- R818: the recalibration of a data lane has failed; a lane that is retired already carries nothing. -/
def Chip.laneFails (k : Chip) (p : Part) (v d lane : Nat) : Chip :=
  let o := Reg.dieTsv v d
  let k := k.setF o 7 0 lane
  let used := k.getF o 9 8
  let x := k.die v d
  let note (k : Chip) (cls : Nat) : Chip := k.log { occ cls k.now with vat := v, die := d, detail := lane % 256 }
  if x.lanesOut.contains lane then k
  else if used < 2 then note ((k.setDie v d { x with lanesOut := x.lanesOut ++ [lane] }).setF o 9 8 (used + 1)) 0x63
  else (note k 0x64).degradeDie p.lanes128 v d

/-- TSV_CALIBRATION (R817, R818): a pass over the lanes of die `d` of vat `v` at a temperature; `failed` are the lanes whose recalibration
fails. -/
def execTsvCalibration (v d : Nat) (temp : Int) (failed : List (BitVec 8)) (s : State) : Host.Outcome State Fault Refusal :=
  s.onChip (s.hasDie v d) (fun k =>
    let x := k.die v d
    let due := decide (x.calAt + k.getF Reg.tsvCalCfg 15 0 * 1000000 ≤ k.now)
    let moved := decide (k.getF Reg.tsvCalCfg 23 16 ≤ (temp - x.calTemp).natAbs)
    if !due && !moved then k
    else
      let k := (k.setDie v d { x with calAt := k.now, calTemp := temp }).wrapAdd (Reg.dieTsv v d) 31 16 1
      failed.foldl (fun k l => k.laneFails s.part v d l.toNat) k)

end Sys2Proof.Machine
end

