-- ==== Sys2Proof/Machine/RegView.lean ====
section
/-!
DEFINITION. What a BAR0 read returns (R5, R12, R20, R648, R824, R826, R829, R830): the registers whose fields show state that the model holds
elsewhere, over the register file, and the bytes at an offset.
-/

namespace Sys2Proof.Machine

/-! ### Fields over a register -/

/-- A register word with fields, given by their bits and values. -/
def setFs (w : Word) (fs : List (Nat × Nat × Nat)) : Word := fs.foldl (fun w f => putFld w f.1 f.2.1 f.2.2) w

/-- Which member of a family of registers, `n` of them from `base` on at a stride, an offset names. -/
def memberAt (base step n o : Nat) : Option Nat :=
  if base ≤ o ∧ (o - base) % step = 0 ∧ (o - base) / step < n then some ((o - base) / step) else none

/-! ### The tensor-core block (Tables 6.7, 7.10, 9.7 to 9.9) -/

/-- CORE_STATUS: a stream's state: 0 IDLE, 1 RUN, 2 WAIT where its next instruction is held, 3 FAULT. -/
def Chip.streamCode (k : Chip) (v c s : Nat) : Nat :=
  let t := k.stream v c s
  match t.run with
  | .idle => 0
  | .fault => 3
  | .run | .ending => if t.hold.isSome || (k.stallOf v c s).isSome then 2 else 1

/-- R346, R347: the fields of a loop nest: FOREVER from bit `hi` on, DEPTH. -/
def nestFields (q : Sequencer) (hi calls : Nat) : List (Nat × Nat × Nat) :=
  [(hi + 3, hi, ((q.loops.zipIdx).map (fun l => if l.1.forever then 2 ^ l.2 else 0)).sum), (calls + 3, calls, q.frames.length), (2, 0, q.loops.length)]

/-- Iteration index and latched count of depth `l`. -/
def iterOf (q : Sequencer) (l : Nat) : Nat := match q.loops[l]? with | some x => x.li | none => 0
def countOf (q : Sequencer) (l : Nat) : Nat := match q.loops[l]? with | some x => if x.forever then 0 else x.count | none => 0

/-- A stream's block, from +0x400 + s × 0x40. -/
def Chip.streamReg (k : Chip) (v c s e : Nat) (w : Word) : Word :=
  let q := (k.stream v c s).seq
  if e = 0x04 then setFs w [(13, 13, q.lib.toNat), (12, 0, q.pc)]
  else if e = 0x08 then setFs w (nestFields q 12 4)
  else if 0x10 ≤ e ∧ e < 0x20 then setFs w [(31, 0, iterOf q ((e - 0x10) / 4))]
  else if 0x20 ≤ e ∧ e < 0x30 then setFs w [(31, 0, countOf q ((e - 0x20) / 4))]
  else w

/-- R15, R279, R290, R291, R652: the count of what no command makes, by the register that shows it: what software last wrote there, or the reset
value, and a free number counted since (log entry 67). -/
def Chip.timed (k : Chip) (o : Nat) : Nat :=
  let e := lookup (0, k.hub.boot.endAt) k.hub.counted o
  if k.now ≤ e.2 then e.1 else e.1 + Config.timedCount o (k.now - e.2)

/-- A 48-bit count over a register's stored WRAP. -/
def wideCount (w : Word) (n : Nat) : Word := setFs (if 2 ^ 48 ≤ n then putFld w 63 63 1 else w) [(47, 0, n)]

/-- A register of the tensor-core block at block offset `e`, over its stored word. -/
def Chip.coreReg (k : Chip) (p : Part) (v c e : Nat) (w : Word) : Word :=
  let x := k.core v c
  if e = 0 then setFs w [(8, 8, p.lanes128.toNat), (6, 4, v), (1, 0, c)]
  else if e = 4 then setFs w ((31, 24, x.domain) :: (List.range 5).map (fun s => (2 * s + 1, 2 * s, k.streamCode v c s)))
  else if e = 0x20 || e = 0x28 || e = 0x30 then wideCount w (k.timed (coreBase v c + e))
  else if e = 0x60 then setFs w [(15, 0, min 65535 (k.timed (coreBase v c + e)))]
  else if 0x40 ≤ e ∧ e < 0x50 then
    let t := x.accT.getD ((e - 0x40) / 4) (false, 0)
    setFs w [(8, 8, t.1.toNat), (7, 0, t.2.toNat)]
  else if e = 0x100 ∨ e = 0x120 then
    let n := (e - 0x100) / 32
    match k.transfer v c n with
    | some (_, _, _, _, rows) => setFs w [(23, 16, rows.asked.length), (0, 0, 1)]
    | none => setFs w [(23, 16, 0), (0, 0, 0)]
  else if 0x400 ≤ e ∧ e < 0x540 then k.streamReg v c ((e - 0x400) / 64) (e % 64) w
  else if 0x600 ≤ e ∧ e < 0x780 then
    let n := (e - 0x600) / 8
    if !k.scope v c 0 then 0
    else if e % 8 = 0 then
      let waits (s : Nat) : Bool := match (x.stream s).hold with | some (.watch a) => a.obj = n | _ => false
      setFs w [(20, 16, ((List.range 5).map (fun s => if waits s then 2 ^ s else 0)).sum), (15, 0, x.object n)]
    else match lookup none x.syncLast n with
      | some l => setFs w [(31, 31, 1), (26, 24, l.stream), (13, 13, l.lib.toNat), (12, 0, l.pc)]
      | none => 0
  else if 0x800 ≤ e ∧ e < 0xA00 ∧ e % 32 = 4 then
    let h := (e - 0x800) / 32
    let q := x.hoop h
    -- R408: both slots of a joined pair show the one hoop (DEDUCED, log entry 23).
    let p := match k.peerOf v c h with
      | some (a, b, d) => k.hoop a b d
      | none => q
    setFs w [(31, 31, (k.hoopFlushing v c h).toNat), (30, 30, (q.openBy.isSome || p.openBy.isSome).toNat), (28, 26, q.lastPush),
      (25, 23, q.lastPop), (14, 0, k.hoopDepth v c h)]
  else if e = 0xA00 then setFs w [(10, 0, x.cpl.length)]
  else if 0xA90 ≤ e ∧ e < 0xAB8 then
    let s := (e - 0xA90) / 8
    match k.stallOf v c s with
    | none => 0
    | some st =>
      if e % 8 = 0 then setFs w [(11, 9, k.stallParty v c s st), (8, 0, k.resOf v c s)]
      else setFs w [(31, 0, min (2 ^ 32 - 1) (k.coreCycles v c (k.now - st.since)))]
  else w

/-! ### The die block (Tables 4.11, 4.12, 7.11, 19.6) -/

/-- BU_STATUS.STATE: 0 IDLE, 1 RUN, 2 FAULT. -/
def Bu.stateCode (u : Bu) : Nat :=
  match u.run with
  | .idle => 0 | .run | .ending => 1 | .fault => 2

/-- A register of physical bank `b`'s block, over its stored word. -/
def Chip.buReg (k : Chip) (v d b e : Nat) (w : Word) : Word :=
  let u := k.bu v d b
  let x := k.die v d
  let a := x.logicalOf b
  if e = 0x00 then setFs w [(18, 16, if a < 96 then 0 else (x.spare (a - 96)).code), (14, 8, a), (6, 0, b)]
  else if e = 0x04 then
    setFs w [(31, 16, u.completions), (15, 8, u.cause), (4, 4, (x.takeover.any (fun t => t.logical = a)).toNat), (3, 3, u.fenceHeld.toNat)
      , (2, 2, u.waiting.isSome.toNat), (1, 0, u.stateCode)]
  else if e = 0x08 then setFs w [(12, 12, u.seq.lib.toNat), (11, 0, u.seq.pc)]
  else if e = 0x0C then setFs w [(12, 12, u.faultLib.toNat), (11, 0, u.faultPc)]
  else if e = 0x10 then setFs w [(31, 31, u.fenceValid.toNat), (15, 0, u.fenceFirst)]
  else if e = 0x14 then setFs w [(16, 0, u.fenceRows)]
  else if e = 0x18 then setFs w [(15, 0, u.wheyRx)]
  else if e = 0x1C then setFs w [(18, 16, u.wheyQ.length), (15, 0, u.wheyTx)]
  else if 0x80 ≤ e ∧ e < 0xC0 then
    if u.stateCode = 1 || !k.scope v (ownerOf d) 0 then 0 else setFs w [(31, 0, (u.sregs.getD ((e - 0x80) / 4) 0).toNat)]
  else if e = 0x34 then setFs w (nestFields u.seq 8 4)
  else if 0x180 ≤ e ∧ e < 0x190 then setFs w [(31, 0, iterOf u.seq ((e - 0x180) / 4))]
  else if 0x190 ≤ e ∧ e < 0x1A0 then setFs w [(31, 0, countOf u.seq ((e - 0x190) / 4))]
  else w

/-- A register of a die's common block, over its stored word. With no copy in progress DIE_TAKEOVER reads zero (DESIGN CHOICE, log entry 79). -/
def Chip.dieReg (k : Chip) (v d e : Nat) (w : Word) : Word :=
  let x := k.die v d
  if e = 0x00 then setFs w [(5, 4, ownerOf d), (3, 0, d)]
  else if e = 0x04 then setFs w ((List.range 4).map (fun q => (3 * q + 2, 3 * q, (x.spare q).code)))
  else if e = 0x08 then
    match x.takeover with
    | none => 0
    | some t => setFs w [(31, 31, 1), (30, 24, t.logical), (17, 16, t.slot), (15, 0, t.nextRow)]
  else if e = 0x34 then setFs w [(15, 0, x.startSeq)]
  else if 0x100 ≤ e ∧ e < 0x290 then setFs w [(6, 0, x.phys ((e - 0x100) / 4))]
  else w

/-- A register of a base die's common block, over its stored word. -/
def Chip.vatReg (k : Chip) (p : Part) (v e : Nat) (w : Word) : Word :=
  if e = 0 then setFs w [(8, 8, p.lanes128.toNat), (6, 4, v)]
  else if e = 0x120 then setFs w [(8, 0, (k.vat v).wq.length)]
  else match memberAt 0x3000 16 16 e with
    | some d =>
      let x := k.die v d
      -- A command that waits on an idle lane is the lane's next merge: it shows as BUSY, not as QUEUED (DEDUCED from R252's two places).
      let idle := x.merge.isNone && !x.mergeQ.isEmpty
      setFs w [(31, 31, (x.merge.isSome || idle).toNat), (25, 24, x.mergeQ.length - idle.toNat), (15, 0, x.mergeSeq)]
    | none => w

/-! ### The hub block -/

/-- Tables 15.4, 16.6, 17.6 and 18.7: the error-log classes. -/
def namedClass (c : Nat) : Bool :=
  (decide (0x01 ≤ c) && decide (c ≤ 0x08)) || (decide (0x10 ≤ c) && decide (c ≤ 0x18)) || (decide (0x20 ≤ c) && decide (c ≤ 0x2B)) ||
  (decide (0x30 ≤ c) && decide (c ≤ 0x34)) || (decide (0x50 ≤ c) && decide (c ≤ 0x56)) || (decide (0x60 ≤ c) && decide (c ≤ 0x66))

/-- Table 14.9: RIND_DOMAIN_d. -/
def Chip.domainWord (k : Chip) (d : Nat) : Word :=
  match k.domain d with
  | none => 0
  | some x => setFs 0 [(31, 31, 1), (30, 30, x.dsk.isSome.toNat), (9, 8, x.algs), (2, 0, x.grants)]

/-- Table 14.9: DBG_OC_DATA. -/
def Chip.ocData (k : Chip) (V : Nat) : Word :=
  let t := k.dbgTarget
  if t.1 < V && k.scope t.1 t.2 2 then BitVec.ofNat 64 (leNat ((k.core t.1 t.2).ocBytes (k.getF Reg.dbgOcAddr 21 3 * 8) 8)) else 0

/-- R777: the port that carries a peer's mirror messages: its lowest ACTIVE one, or, with none, the lowest in RETRAIN, where they wait. -/
def Chip.carrier (k : Chip) (pkg : Nat) : Option Nat :=
  (k.portTo pkg).or ((List.range 4).find? (fun p => k.portState p = 6 && k.peerOfPort p = pkg))

/-- A register of the hub block at offset `o`, over its stored word. -/
def Chip.hubReg (k : Chip) (p : Part) (o : Nat) (w : Word) : Word :=
  if o = Reg.hubId then setFs w [(23, 16, 0xA0), (8, 8, p.lanes128.toNat), (3, 0, p.vats)]
  else if o = Reg.hubCap then setFs w [(31, 24, 4 * p.vats), (20, 0, 131072 * p.vats)]
  else if o = Reg.hubMem then setFs w [(39, 0, capacity p.vats)]
  else if o = Reg.hostRetry then setFs w [(15, 0, min 65535 (k.timed o))]
  else if o = Reg.hubTime then BitVec.ofNat 64 k.now
  else if o = Reg.ctxStatus then setFs w [(20, 0, k.hub.ctxs.length)]
  else if o = Reg.jobStatus then setFs w [(16, 0, k.hub.jobs.length)]
  else if o = Reg.logStatus then setFs w [(11, 0, k.logPending)]
  else if o = Reg.logSuppressed then
    let all := (List.range (1600 * p.vats)).filter (fun b => k.flag (Reg.buEccState (b / 1600) (b / 100 % 16) (b % 100)) 0)
    setFs w [(13, 0, all.length)]
  else if o = Reg.rindStatus then
    setFs w [(18, 16, (k.hub.sessions.filter (fun x => x.2.finished)).length), (8, 8, k.pkgDebug.toNat), (4, 4, (!k.hub.owners.isEmpty).toNat)]
  else if o = Reg.rindZero then
    let scrub := k.hub.boot.cond = .booting && k.stage = 4 && !k.hub.boot.scrubbed
    setFs w [(31, 31, (k.flag o 31 || scrub || k.dies.any (fun d => !d.2.zeroing.isEmpty)).toNat)]
  else if o = Reg.rindOwner then setFs w [(7, 4, 2 ^ k.hub.owners.length - 1), (1, 0, k.hub.owners.length - 1)]
  else if o = Reg.dbgOcData then k.ocData p.vats
  else if o = Reg.kwStandby then setFs w [(20, 0, (k.hub.ctxs.filter (fun c => c.2.state = .standby)).length)]
  else match memberAt 0x200118 0x40 16 o with
  | some m => setFs w [(1, 0, match k.model m with | none => 0 | some md => if k.calFrozen md then 2 else 1)]
  | none => match memberAt 0x302014 0x40 16 o with
  | some c => setFs w [(15, 0, min 65535 (k.vring c).waiting.length)]
  | none => match memberAt 0x500400 4 256 o with
  | some d => k.domainWord d
  | none => match memberAt 0x800120 0x40 4 o with
  | some q => setFs w [(31, 0, if k.carrier (k.peerOfPort q) = some q then (roundDiv (k.backlog (k.peerOfPort q)) 1024).toNat else 0)]
  | none => match memberAt 0x600200 4 128 o with
  | some c => if namedClass c then w else 0
  | none => w

/-- The value of the register that begins at a BAR0 offset. -/
def Chip.view (k : Chip) (p : Part) (o : Nat) : Word :=
  let w := k.reg o
  if o < 0x1000000 then k.hubReg p o w
  else
    let v := o / 0x1000000 - 1
    let e := o % 0x1000000
    if e < 0x100000 then k.vatReg p v e w
    else if e < 0x500000 then k.coreReg p v (e / 0x100000 - 1) (e % 0x100000) w
    else if e < 0x800000 then w
    else
      let d := (e - 0x800000) / 0x20000
      let f := e % 0x20000
      if f < 0x19000 then k.buReg v d (f / 0x400) (f % 0x400) w
      else k.dieReg v d (f - 0x1C000) w

/-! ### Bytes -/

/-- Where the register over a byte of BAR0 begins, and its bytes (R12, R13, R20; the entries of the error log hold 32 bytes). -/
def regSpan (V o : Nat) : Option (Nat × Nat) :=
  if !offsetOnPart V o || (decide (0x700100 + 32 * V ≤ o) && decide (o < 0x700200)) then none
  else if 0x610000 ≤ o ∧ o < 0x630000 then some (o / 32 * 32, 32)
  else match regOver o with
    | some (s, r) => some (s, if r.wide then 8 else 4)
    | none => none

/-- One byte of BAR0: of a register, of the CXL registers, or zero (R20). -/
def Chip.barByte (k : Chip) (p : Part) (o : Nat) : Byte :=
  match regSpan p.vats o with
  | some (s, 32) => match k.hub.log.ring.find? (fun e => e.1 = (s - 0x610000) / 32) with
    | some e => e.2.bytes.getD (o - s) 0
    | none => 0
  | some (s, _) => ((k.view p s) >>> (8 * (o - s))).setWidth 8
  | none => if 0x10000 ≤ o ∧ o < 0x20000 then k.cxlByte p o else 0

/-- R824, Table 13.5: `n` bytes from `o` on lie within one block. -/
def inOneBlock (o n : Nat) : Bool :=
  if o < 0x1000000 then decide (o + n ≤ 0x1000000) else decide (n ≤ 0x100000) && (regTableAt o).2 == (regTableAt (o + n - 1)).2

/-- R824: a read of `n` bytes, a power of two, is naturally aligned, lies within one block, and lies within each register it touches or covers it
whole. -/
def readFits (V o n : Nat) : Bool :=
  (List.range 28).any (fun i => n == 2 ^ i) && o % n == 0 && inOneBlock o n &&
    (List.range n).all (fun i => match regSpan V (o + i) with
      | none => true
      | some (s, w) => (decide (s ≤ o) && decide (o + n ≤ s + w)) || (decide (o ≤ s) && decide (s + w ≤ o + n)))

/-- R825, Table 19.1: HUB_BAD_ACCESS keeps its first record. -/
def Chip.badAccess (k : Chip) (write : Bool) (o : Nat) : Chip :=
  if k.flag Reg.hubBadAccess 31 then k.raise Reg.hubBadAccess 29
  else (((k.setF Reg.hubBadAccess 30 30 write.toNat).setF Reg.hubBadAccess 27 0 o)).raise Reg.hubBadAccess 31

/-- The vat of the part whose block holds a BAR0 offset. -/
def vatOfOffset (V o : Nat) : Option Nat := if 0x1000000 ≤ o ∧ o / 0x1000000 - 1 < V then some (o / 0x1000000 - 1) else none

/-- R829: the offset lies in a lost vat's block. -/
def Chip.lostBlock (k : Chip) (V o : Nat) : Bool := match vatOfOffset V o with | some v => (k.vat v).lost | none => false

/-- R730, R828: the vat that must wake before a BAR0 access to its block can be made. -/
def Chip.sleeper (k : Chip) (V o : Nat) : Option Nat :=
  match vatOfOffset V o with
  | some v => if (k.vat v).power = .awake then none else some v
  | none => none

/-- R730: a BAR0 access waits, and its vat wakes. -/
def Chip.holdBar (k : Chip) (a : BarReq) : Chip := (k.wake a.vat).onHub (fun h => { h with barQ := h.barQ ++ [a] })

/-- R648, R824, R829: a BAR0 read of `n` bytes, answered. -/
def Chip.barAnswer (k : Chip) (p : Part) (o n : Nat) : Chip :=
  if k.lostBlock p.vats o then k.answer (.bytes 0 (List.replicate n 0))
  else if readFits p.vats o n then k.answer (.bytes 0 ((List.range n).map (fun i => k.barByte p (o + i))))
  else (k.badAccess false o).answer (.bytes 0 (List.replicate n 0))

/-- R730, R828: a BAR0 read of `n` bytes, which waits for a sleeping vat. -/
def Chip.barRead (k : Chip) (p : Part) (o n : Nat) : Chip :=
  match k.sleeper p.vats o with
  | some v =>
    if k.lostBlock p.vats o then k.barAnswer p o n
    else (k.holdBar { vat := v, offset := o, size := n, write := false, full := true, value := 0 }).answer .none
  | none => k.barAnswer p o n

/-- BAR0_READ_REFUSED (R824): a read of BAR0; one that is well formed is answered. -/
def execBar0ReadRefused (o : BitVec 28) (n : Nat) (s : State) : Host.Outcome State Fault Refusal :=
  s.onChip true (fun k => k.barRead s.part o.toNat n)

/-- BAR0_READ_WAKE (R828, R730): a read of BAR0, which wakes the vat of its block and is answered once the vat is awake. -/
def execBar0ReadWake (o : BitVec 28) (n : Nat) (s : State) : Host.Outcome State Fault Refusal :=
  s.onChip true (fun k => k.barRead s.part o.toNat n)

end Sys2Proof.Machine
end

