-- ==== Sys2Proof/Machine/RegWrite.lean ====
section
/-!
DEFINITION. What a BAR0 write does (R15, R18 to R20, R570, R571, R583, R811, R825 to R830): each field by its access type, and the registers
whose writing acts.
-/

namespace Sys2Proof.Machine

/-- The bits of a register's fields of some access types. -/
def RegRow.bitsOf (r : RegRow) (f : Access → Bool) : Nat := ((r.fields.filter (fun x => f x.acc)).map RegField.mask).sum

/-- The RW bits whose writing does what the field names in place of storing the bits. -/
def actingBits (o : Nat) : Nat :=
  if (memberAt 0x301008 0x40 16 o).isSome || (memberAt 0x302008 0x40 16 o).isSome then 2 ^ 31
  else if (memberAt 0x30100C 0x40 16 o).isSome || (memberAt 0x302010 0x40 16 o).isSome then 0xFFFF
  else if o = Reg.pwrCap then 0xFFFF
  else if (memberAt 0x800100 0x40 4 o).isSome then 1
  else if o = Reg.dbgHalt then 0x1F
  else if o = Reg.dbgBuHalt then 0xF
  else 0

/-- Table 0.3: RW fields take the bits written, and a 1 clears a W1C or sticky bit. -/
def Chip.putPlain (k : Chip) (o : Nat) (r : RegRow) (w : Word) : Chip :=
  let rw := BitVec.ofNat 64 (r.bitsOf (· = .rw) - (r.bitsOf (· = .rw) &&& actingBits o))
  let clr := BitVec.ofNat 64 (r.bitsOf (fun a => a = .w1c || a = .sticky))
  k.setReg o (((k.reg o &&& ~~~rw) ||| (w &&& rw)) &&& ~~~(w &&& clr))

/-- The bits of the register at a BAR0 offset that a write sets as they are (RW). -/
def rwAt (o : Nat) : Nat := match regOver o with
  | some (_, r) => r.bitsOf (· = .rw)
  | none => 0

/-- R18, R570 to R572, R583: the LCK fields of a register written: staged with domain 0's authority while a transaction is OPEN, else ignored
and logged. The value is staged without the bits of the register's RW fields, which the write has set; COMMIT judges what else lies outside
the LCK fields (DEDUCED from R572, log entry 19). -/
def Chip.putLocked (k : Chip) (V o : Nat) (w : Word) : Chip :=
  let m := lckAt V o
  if m = 0 then k
  else match k.hub.txn with
    | some t =>
      if k.ciState = 1 then
        let x := w &&& ~~~(BitVec.ofNat 64 (rwAt o))
        k.onHub (fun h => { h with txn := some { t.putReg o x.toNat 0 with writes := t.writes ++ [(o, x)] } })
      else k.logPlain 0x10 o
    | none => k.logPlain 0x10 o

/-- CI_CTL (Table 12.15): the rind's verdicts on what STAGE reads are free. An OP that the table does not name asks for nothing; while no
operation may start, its write too is ignored with IGNORED (R579). -/
def Mach.writeCiCtl (m : Mach) (p : Part) (w : Word) : Mach :=
  match fld w 2 0 with
  | 1 => m.onChip Chip.begin
  | 2 => m.stage p ((List.range 4096).map (Config.verdict m.k.now)) (Config.verdict m.k.now 4096)
  | 3 => m.commitImage p (fld w 8 8 = 1)
  | 4 => m.onChip Chip.rollback
  | _ => if m.k.ciShut then m.onChip Chip.ciIgnore else m

/-- FAIL_REQ (Table 15.9); a KIND that it does not name asks for nothing. -/
def Mach.writeFailReq (m : Mach) (p : Part) (w : Word) : Mach :=
  let v := fld w 6 4
  let d := fld w 10 7
  let a := fld w 17 11
  let c := fld w 19 18
  if m.k.flag Reg.failResult 30 then m
  else match fld w 3 0 with
    | 1 => m.onChip (fun k => k.requestTakeover p.vats v d a)
    | 2 => m.onChip (fun k => k.retirePage p.vats v (fld w 35 20))
    | 3 => m.onChip (fun k => k.requalify p.vats v d a)
    | 4 => if p.vats ≤ v then m.onChip (fun k => k.failDone 3) else (m.retireCore p v c).onChip (fun k => k.failDone 0)
    | _ => m

/-- R651: a vector unmasked with its pending bit set sends its message. -/
def Chip.unmask (k : Chip) (n : Nat) : Chip :=
  if k.flag (Reg.msixCtl n) 0 || !k.flag Reg.msixPba n || (k.flag Reg.rindCfg 0 && !k.flag Reg.hostLinkStatus 9) then k
  else (k.setF Reg.msixPba n n 0).msixSend n

/-- The hub registers whose writing acts, after their other fields. -/
def Mach.hubAct (m : Mach) (p : Part) (o : Nat) (w : Word) : Mach :=
  if o = Reg.ciCtl then m.writeCiCtl p w
  else if o = Reg.failReq then m.writeFailReq p w
  else if o = Reg.pkgReset then (if w.toNat = resetKey ∧ m.k.flag Reg.bootCfg 0 then m.resetTrigger p 3 else m)
  else if o = Reg.kwPromote then m.doPromote p.vats (fld w 1 0) (fld w 8 8 = 1)
  else m.onChip (fun k =>
    if o = Reg.jobAbort then k.abortRing (fld w 3 0)
    else if o = Reg.pwrCap then (k.writeCap p (fld w 15 0)).resumeAdmission p
    else if o = Reg.dbgHalt then k.dbgHalt p.vats (fld w 4 0)
    else if o = Reg.dbgBuHalt then k.dbgBuHalt p.vats (fld w 3 0)
    else match memberAt 0x301008 0x40 16 o with
    | some r => if fld w 31 31 = 1 then k.enableSubq r else k.setF o 31 31 0
    | none => match memberAt 0x30100C 0x40 16 o with
    | some r => k.writePi r (fld w 15 0)
    | none => match memberAt 0x302008 0x40 16 o with
    | some c => (if fld w 31 31 = 1 then k.enableVring c else k.setF o 31 31 0).coalesced c
    | none => match memberAt 0x302010 0x40 16 o with
    | some c => k.writeCi c (fld w 15 0)
    | none => match memberAt 0x800100 0x40 4 o with
    | some q => k.enablePort q (fld w 0 0 = 1)
    | none => match memberAt 0x3000C 16 32 o with
    | some n => k.unmask n
    | none => if (memberAt 0x302014 0x40 16 o).isSome then k.noteWaits else k)

/-- R827: a greatest depth that software lowers takes the depth that the hardware measures in that cycle. -/
def Chip.remeasure (k : Chip) (o : Nat) : Chip :=
  let v := o / 0x1000000 - 1
  let e := o % 0x1000000
  if e = 0x120 then k.satMax o 24 16 (k.vat v).wq.length
  else if 0x100000 ≤ e ∧ e < 0x500000 then
    match memberAt 0x818 32 16 (e % 0x100000) with
    | some h => k.satMax o 14 0 (k.hoopDepth v (e / 0x100000 - 1) h)
    | none => k
  else k

/-- R15: the counters of what no command makes, HOST_RETRY and those of a core: a write sets CE_COUNT or COUNT, and clears WRAP. -/
def Chip.recount (k : Chip) (o : Nat) (w : Word) : Chip :=
  let put (n : Nat) : Chip := k.onHub (fun h => { h with counted := insert h.counted o (n, k.now) })
  let e := o % 0x1000000
  let core := decide (0x1000000 ≤ o ∧ 0x100000 ≤ e ∧ e < 0x500000)
  let f := e % 0x100000
  if o = Reg.hostRetry ∨ (core ∧ f = 0x60) then put (fld w 15 0)
  else if core ∧ (f = 0x20 ∨ f = 0x28 ∨ f = 0x30) ∧ fld w 63 63 = 1 then put (k.timed o % 2 ^ 48)
  else k

/-- A write of the register that begins at a BAR0 offset. -/
def Mach.writeReg (m : Mach) (p : Part) (o : Nat) (r : RegRow) (w : Word) : Mach :=
  let m := m.onChip (fun k => ((k.putPlain o r w).putLocked p.vats o w).recount o w)
  if o < 0x1000000 then m.hubAct p o w else m.onChip (fun k => k.remeasure o)

/-- The registers that a write of `n` bytes touches. -/
def touched (V o n : Nat) : List (Nat × Nat) := ((List.range n).filterMap (fun i => regSpan V (o + i))).eraseDups

/-- R825, R829: a BAR0 write of `n` bytes, with all its byte enables set or not, made. -/
def Mach.barPut (m : Mach) (p : Part) (o n : Nat) (full : Bool) (w : Word) : Mach :=
  if m.k.lostBlock p.vats o then m
  else
    match touched p.vats o n with
    | [] => if full ∧ (n = 4 ∨ n = 8) ∧ o % n = 0 then m else m.onChip (fun k => k.badAccess true o)
    | [(s, b)] =>
      if full ∧ s = o ∧ b = n then
        match regOver o with
        | some (_, r) => m.writeReg p o r w
        | none => m
      else m.onChip (fun k => k.badAccess true o)
    | _ => m.onChip (fun k => k.badAccess true o)

/-- R730: a BAR0 write, which waits for a sleeping vat. -/
def Mach.barWrite (m : Mach) (p : Part) (o n : Nat) (full : Bool) (w : Word) : Mach :=
  match m.k.sleeper p.vats o with
  | some v =>
    if m.k.lostBlock p.vats o then m
    else m.onChip (fun k => k.holdBar { vat := v, offset := o, size := n, write := true, full := full, value := w })
  | none => m.barPut p o n full w

/-- R730: the BAR0 accesses that have waited for vat `v`, made in their order. -/
def Mach.serveBars (m : Mach) (p : Part) (v : Nat) : Mach :=
  let due := m.k.hub.barQ.filter (fun a => a.vat = v)
  let m := m.onChip (fun k => k.onHub (fun h => { h with barQ := h.barQ.filter (fun a => a.vat ≠ v) }))
  due.foldl (fun m a => if a.write then m.barPut p a.offset a.size a.full a.value else m.onChip (fun k => k.barAnswer p a.offset a.size)) m

/-- VAT_AWAKE (R730, R731): the wake ends, and what waited proceeds. -/
def execVatAwake (v : Nat) (s : State) : Host.Outcome State Fault Refusal :=
  s.onMach (s.hasVat v) (fun m =>
    if (m.k.vat v).power = .waking then (m.onChip (fun k => (k.setPower v .awake).feedHub)).serveBars s.part v else m)

/-- REGISTER_WRITE (R15, R18 to R20, R825): a BAR0 write of `size` bytes at an offset; `full` says that all its byte enables are set. -/
def execRegisterWrite (o : BitVec 28) (size : Nat) (full : Bool) (value : Word) (s : State) : Host.Outcome State Fault Refusal :=
  s.onMach true (fun m => m.barWrite s.part o.toNat size full value)

end Sys2Proof.Machine
end

