-- ==== Sys2Proof/Machine/Sideband.lean ====
section
/-!
DEFINITION. The cave's sideband reads (R821, Table 18.5), served while the standby supply is within its limits.
-/

namespace Sys2Proof.Machine

/-- R850: the SMBus address of the part. -/
def Chip.sidebandAddress (k : Chip) : Nat := 0x5C + k.hub.straps.toNat

/-- A sideband read: answered wherever the cave runs. -/
def State.onCave (s : State) (f : Chip → Word) : Host.Outcome State Fault Refusal :=
  s.onPart (fun dr k => (dr, if k.hub.boot.cond = .off then k else k.answer (.word (f k))))

/-- One bit of a status byte. -/
def statusBit (b : Bool) (i : Nat) : Nat := if b then 2 ^ i else 0

/-- Table 18.5, CAVE_STATUS. -/
def Chip.caveStatus (k : Chip) : Nat :=
  let c := k.hub.boot.cond
  statusBit (c ≠ .off && c ≠ .cave) 0 + statusBit (c = .ready) 1 + statusBit (k.getF Reg.pwrTrip 31 31 = 1) 2 +
    statusBit (c = .hubStopped) 3 + statusBit (k.getF Reg.rindStatus 1 0 = 3) 4 + statusBit k.hub.tenantSeen 5 + statusBit (c = .failed) 6

/-- CAVE_STATUS (Table 18.5). -/
def execCaveStatus (s : State) : Host.Outcome State Fault Refusal := s.onCave (fun k => BitVec.ofNat 64 k.caveStatus)

/-- TRIP (Table 18.5): PWR_TRIP. -/
def execTrip (s : State) : Host.Outcome State Fault Refusal := s.onCave (fun k => k.reg Reg.pwrTrip)

/-- LOG (Table 18.5): LOG_WI, LOG_RI and LOG_STATUS.FULL. -/
def execLog (s : State) : Host.Outcome State Fault Refusal :=
  s.onCave (fun k => BitVec.ofNat 64
    (k.getF Reg.logWi 11 0 + 4096 * k.getF Reg.logRi 11 0 + statusBit (k.flag Reg.logStatus 31) 24))

/-- TAMPER (Table 18.5): RIND_TAMPER. -/
def execSidebandTamper (s : State) : Host.Outcome State Fault Refusal := s.onCave (fun k => k.reg Reg.rindTamper)

end Sys2Proof.Machine
end

