-- ==== Sys2Proof/Machine/Dispatch.lean ====
section
/-!
DEFINITION. One arm for each command.
-/

namespace Sys2Proof.Machine

/-- The effect of a command on everything but the queue. -/
def exec (i : Instr) (s : State) : Host.Outcome State Fault Refusal :=
  match i with
  | .nop u ops => Sys2Proof.Machine.execNop u ops s
  | .halt u ops => Sys2Proof.Machine.execHalt u ops s
  | .loop u ops => Sys2Proof.Machine.execLoop u ops s
  | .callL u ops => Sys2Proof.Machine.execCallL u ops s
  | .callR u ops => Sys2Proof.Machine.execCallR u ops s
  | .ljmp u ops => Sys2Proof.Machine.execLjmp u ops s
  | .ret u ops => Sys2Proof.Machine.execRet u ops s
  | .bar u ops => Sys2Proof.Machine.execBar u ops s
  | .aiset u ops => Sys2Proof.Machine.execAiset u ops s
  | .aistep u ops => Sys2Proof.Machine.execAistep u ops s
  | .skipZ u ops => Sys2Proof.Machine.execSkipZ u ops s
  | .mov u ops => Sys2Proof.Machine.execMov u ops s
  | .lui u ops => Sys2Proof.Machine.execLui u ops s
  | .lui2 u ops => Sys2Proof.Machine.execLui2 u ops s
  | .add u ops => Sys2Proof.Machine.execAdd u ops s
  | .sub u ops => Sys2Proof.Machine.execSub u ops s
  | .mul u ops => Sys2Proof.Machine.execMul u ops s
  | .and u ops => Sys2Proof.Machine.execAnd u ops s
  | .or u ops => Sys2Proof.Machine.execOr u ops s
  | .xor u ops => Sys2Proof.Machine.execXor u ops s
  | .shl u ops => Sys2Proof.Machine.execShl u ops s
  | .shr u ops => Sys2Proof.Machine.execShr u ops s
  | .sar u ops => Sys2Proof.Machine.execSar u ops s
  | .min u ops => Sys2Proof.Machine.execMin u ops s
  | .max u ops => Sys2Proof.Machine.execMax u ops s
  | .slt u ops => Sys2Proof.Machine.execSlt u ops s
  | .seq u ops => Sys2Proof.Machine.execSeq u ops s
  | .ld u ops => Sys2Proof.Machine.execLd u ops s
  | .st u ops => Sys2Proof.Machine.execSt u ops s
  | .bload u ops => Sys2Proof.Machine.execBload u ops s
  | .bstart u ops => Sys2Proof.Machine.execBstart u ops s
  | .bstop u ops => Sys2Proof.Machine.execBstop u ops s
  | .bcast u ops => Sys2Proof.Machine.execBcast u ops s
  | .swrite u ops => Sys2Proof.Machine.execSwrite u ops s
  | .sread u ops => Sys2Proof.Machine.execSread u ops s
  | .merge u ops => Sys2Proof.Machine.execMerge u ops s
  | .hbar u ops => Sys2Proof.Machine.execHbar u ops s
  | .pass u ops => Sys2Proof.Machine.execPass u ops s
  | .pclr u ops => Sys2Proof.Machine.execPclr u ops s
  | .vchain u ops => Sys2Proof.Machine.execVchain u ops s
  | .vsmax u ops => Sys2Proof.Machine.execVsmax u ops s
  | .vset u ops => Sys2Proof.Machine.execVset u ops s
  | .vrsclr u ops => Sys2Proof.Machine.execVrsclr u ops s
  | .xfer u ops => Sys2Proof.Machine.execXfer u ops s
  | .signal u ops => Sys2Proof.Machine.execSignal u ops s
  | .signalApplied v c mask => Sys2Proof.Machine.execSignalApplied v c mask s
  | .wait u ops => Sys2Proof.Machine.execWait u ops s
  | .poll u ops => Sys2Proof.Machine.execPoll u ops s
  | .hmov u ops => Sys2Proof.Machine.execHmov u ops s
  | .hpush u ops => Sys2Proof.Machine.execHpush u ops s
  | .hpop u ops => Sys2Proof.Machine.execHpop u ops s
  | .fence u ops => Sys2Proof.Machine.execFence u ops s
  | .hflush u ops => Sys2Proof.Machine.execHflush u ops s
  | .brd u ops => Sys2Proof.Machine.execBrd u ops s
  | .bwr u ops => Sys2Proof.Machine.execBwr u ops s
  | .bcpy u ops => Sys2Proof.Machine.execBcpy u ops s
  | .bdot u ops => Sys2Proof.Machine.execBdot u ops s
  | .balu u ops => Sys2Proof.Machine.execBalu u ops s
  | .bexp u ops => Sys2Proof.Machine.execBexp u ops s
  | .bred u ops => Sys2Proof.Machine.execBred u ops s
  | .bquant u ops => Sys2Proof.Machine.execBquant u ops s
  | .bdec u ops => Sys2Proof.Machine.execBdec u ops s
  | .bwsend u ops => Sys2Proof.Machine.execBwsend u ops s
  | .bwstat u ops => Sys2Proof.Machine.execBwstat u ops s
  | .hoopEntryAtHead v c h => Sys2Proof.Machine.execHoopEntryAtHead v c h s
  | .hoopPushLands v c t => Sys2Proof.Machine.execHoopPushLands v c t s
  | .hoopMiddleGroup v c h write => Sys2Proof.Machine.execHoopMiddleGroup v c h write s
  | .hubBarrierComplete b => Sys2Proof.Machine.execHubBarrierComplete b s
  | .stallReport v c => Sys2Proof.Machine.execStallReport v c s
  | .pressPassComplete v c => Sys2Proof.Machine.execPressPassComplete v c s
  | .dmaTransferComplete v c e => Sys2Proof.Machine.execDmaTransferComplete v c e s
  | .dmaUnitFault v c e => Sys2Proof.Machine.execDmaUnitFault v c e s
  | .chainComplete v c => Sys2Proof.Machine.execChainComplete v c s
  | .scratchReadComplete v c => Sys2Proof.Machine.execScratchReadComplete v c s
  | .buStartArrival v d => Sys2Proof.Machine.execBuStartArrival v d s
  | .pendingStartBegin v d a => Sys2Proof.Machine.execPendingStartBegin v d a s
  | .buProgramEnd v d a => Sys2Proof.Machine.execBuProgramEnd v d a s
  | .buCompletionPost v d => Sys2Proof.Machine.execBuCompletionPost v d s
  | .buPstoreLoad v d => Sys2Proof.Machine.execBuPstoreLoad v d s
  | .tsvWriteLand v d => Sys2Proof.Machine.execTsvWriteLand v d s
  | .mergeBegin v d => Sys2Proof.Machine.execMergeBegin v d s
  | .mergeComplete v d => Sys2Proof.Machine.execMergeComplete v d s
  | .wheyGrant v d => Sys2Proof.Machine.execWheyGrant v d s
  | .wheyLand v d => Sys2Proof.Machine.execWheyLand v d s
  | .rowSlotGrant v d b => Sys2Proof.Machine.execRowSlotGrant v d b s
  | .rowSlotEnd v d b => Sys2Proof.Machine.execRowSlotEnd v d b s
  | .refresh v d b => Sys2Proof.Machine.execRefresh v d b s
  | .scrubPromotion v d b => Sys2Proof.Machine.execScrubPromotion v d b s
  | .fenceTimeout v d b => Sys2Proof.Machine.execFenceTimeout v d b s
  | .arm v d a body => Sys2Proof.Machine.execArm v d a body s
  | .fire v d a body => Sys2Proof.Machine.execFire v d a body s
  | .legacyBadKey v d a => Sys2Proof.Machine.execLegacyBadKey v d a s
  | .armLapsed v d a => Sys2Proof.Machine.execArmLapsed v d a s
  | .rowOperationDone v d a => Sys2Proof.Machine.execRowOperationDone v d a s
  | .takeoverStart v d => Sys2Proof.Machine.execTakeoverStart v d s
  | .takeoverExchange v d => Sys2Proof.Machine.execTakeoverExchange v d s
  | .spareCopyFault v d => Sys2Proof.Machine.execSpareCopyFault v d s
  | .spareZeroed v d q => Sys2Proof.Machine.execSpareZeroed v d q s
  | .buCheckerTrip v d b => Sys2Proof.Machine.execBuCheckerTrip v d b s
  | .coreCheckerTrip v c stream engine => Sys2Proof.Machine.execCoreCheckerTrip v c stream engine s
  | .cxlMemRead line => Sys2Proof.Machine.execCxlMemRead line s
  | .cxlMemWrite line data poison => Sys2Proof.Machine.execCxlMemWrite line data poison s
  | .cxlMemPartialWrite line data enables poison => Sys2Proof.Machine.execCxlMemPartialWrite line data enables poison s
  | .hdmDecoderCommit n base skip size ways bi => Sys2Proof.Machine.execHdmDecoderCommit n base skip size ways bi s
  | .biResponse line => Sys2Proof.Machine.execBiResponse line s
  | .biTimeout c => Sys2Proof.Machine.execBiTimeout c s
  | .linkReset => Sys2Proof.Machine.execLinkReset s
  | .configRequest n => Sys2Proof.Machine.execConfigRequest n s
  | .identify => Sys2Proof.Machine.execIdentify s
  | .identifyMemoryDevice => Sys2Proof.Machine.execIdentifyMemoryDevice s
  | .getSupportedLogs => Sys2Proof.Machine.execGetSupportedLogs s
  | .getLog cel offset len => Sys2Proof.Machine.execGetLog cel offset len s
  | .getEventRecords log => Sys2Proof.Machine.execGetEventRecords log s
  | .clearEventRecords log all handles => Sys2Proof.Machine.execClearEventRecords log all handles s
  | .getHealthInfo => Sys2Proof.Machine.execGetHealthInfo s
  | .getPoisonList => Sys2Proof.Machine.execGetPoisonList s
  | .mailboxUnsupported => Sys2Proof.Machine.execMailboxUnsupported s
  | .getVersion => Sys2Proof.Machine.execGetVersion s
  | .getCapabilities => Sys2Proof.Machine.execGetCapabilities s
  | .negotiateAlgorithms => Sys2Proof.Machine.execNegotiateAlgorithms s
  | .getDigests => Sys2Proof.Machine.execGetDigests s
  | .getCertificate slot offset len => Sys2Proof.Machine.execGetCertificate slot offset len s
  | .challenge nonce => Sys2Proof.Machine.execChallenge nonce s
  | .getMeasurements index => Sys2Proof.Machine.execGetMeasurements index s
  | .keyExchange => Sys2Proof.Machine.execKeyExchange s
  | .finish x good => Sys2Proof.Machine.execFinish x good s
  | .heartbeat x => Sys2Proof.Machine.execHeartbeat x s
  | .keyUpdate x => Sys2Proof.Machine.execKeyUpdate x s
  | .endSession x => Sys2Proof.Machine.execEndSession x s
  | .domainChallenge sec => Sys2Proof.Machine.execDomainChallenge sec s
  | .domainBind sec domain alg good => Sys2Proof.Machine.execDomainBind sec domain alg good s
  | .domainKeySet sec key => Sys2Proof.Machine.execDomainKeySet sec key s
  | .domainKeyErase sec => Sys2Proof.Machine.execDomainKeyErase sec s
  | .domainKeyWrap sec => Sys2Proof.Machine.execDomainKeyWrap sec s
  | .debugUnlock sec scopes => Sys2Proof.Machine.execDebugUnlock sec scopes s
  | .debugLock sec => Sys2Proof.Machine.execDebugLock sec s
  | .pqQuote nonce => Sys2Proof.Machine.execPqQuote nonce s
  | .pqCert offset => Sys2Proof.Machine.execPqCert offset s
  | .ownerClaim sec finger => Sys2Proof.Machine.execOwnerClaim sec finger s
  | .ownerTransfer sec finger => Sys2Proof.Machine.execOwnerTransfer sec finger s
  | .ideKeyProgram sec key => Sys2Proof.Machine.execIdeKeyProgram sec key s
  | .begin => Sys2Proof.Machine.execBegin s
  | .stage verdicts patch => Sys2Proof.Machine.execStage verdicts patch s
  | .commit force => Sys2Proof.Machine.execCommit force s
  | .rollback => Sys2Proof.Machine.execRollback s
  | .quietPoint => Sys2Proof.Machine.execQuietPoint s
  | .applyCycle => Sys2Proof.Machine.execApplyCycle s
  | .quietTimeout => Sys2Proof.Machine.execQuietTimeout s
  | .jobAbort ring => Sys2Proof.Machine.execJobAbort ring s
  | .subqPiWrite r value => Sys2Proof.Machine.execSubqPiWrite r value s
  | .subqEnable r => Sys2Proof.Machine.execSubqEnable r s
  | .vringEnable c => Sys2Proof.Machine.execVringEnable c s
  | .vringCiWrite c value => Sys2Proof.Machine.execVringCiWrite c value s
  | .takeover v d a => Sys2Proof.Machine.execTakeover v d a s
  | .retirePage v ppn => Sys2Proof.Machine.execRetirePage v ppn s
  | .requalify v d a => Sys2Proof.Machine.execRequalify v d a s
  | .requalifyDone v d passed => Sys2Proof.Machine.execRequalifyDone v d passed s
  | .retireCore v c => Sys2Proof.Machine.execRetireCore v c s
  | .kwPromote source force => Sys2Proof.Machine.execKwPromote source force s
  | .pkgReset key => Sys2Proof.Machine.execPkgReset key s
  | .pwrCapWrite w => Sys2Proof.Machine.execPwrCapWrite w s
  | .kwPortEnable p on => Sys2Proof.Machine.execKwPortEnable p on s
  | .dbgHalt mask => Sys2Proof.Machine.execDbgHalt mask s
  | .dbgBuHalt mask => Sys2Proof.Machine.execDbgBuHalt mask s
  | .registerWrite o size full value => Sys2Proof.Machine.execRegisterWrite o size full value s
  | .bar0ReadRefused o n => Sys2Proof.Machine.execBar0ReadRefused o n s
  | .bar0ReadWake o n => Sys2Proof.Machine.execBar0ReadWake o n s
  | .recordAccept r => Sys2Proof.Machine.execRecordAccept r s
  | .directoryWalkDone t => Sys2Proof.Machine.execDirectoryWalkDone t s
  | .jobDispatch v c => Sys2Proof.Machine.execJobDispatch v c s
  | .resultEntry v c => Sys2Proof.Machine.execResultEntry v c s
  | .contextClose x => Sys2Proof.Machine.execContextClose x s
  | .idleClose x => Sys2Proof.Machine.execIdleClose x s
  | .completionRecordWrite c => Sys2Proof.Machine.execCompletionRecordWrite c s
  | .verdictCoalesceTimer c => Sys2Proof.Machine.execVerdictCoalesceTimer c s
  | .affinageJobResult n status => Sys2Proof.Machine.execAffinageJobResult n status s
  | .migrationStart x => Sys2Proof.Machine.execMigrationStart x s
  | .migrationSwitch x => Sys2Proof.Machine.execMigrationSwitch x s
  | .calComparison record => Sys2Proof.Machine.execCalComparison record s
  | .portStateAdvance p lanes => Sys2Proof.Machine.execPortStateAdvance p lanes s
  | .authExchange p c => Sys2Proof.Machine.execAuthExchange p c s
  | .authRetry p => Sys2Proof.Machine.execAuthRetry p s
  | .dataFlit p f => Sys2Proof.Machine.execDataFlit p f s
  | .ack p h => Sys2Proof.Machine.execAck p h s
  | .nak p f => Sys2Proof.Machine.execNak p f s
  | .credit p channel f => Sys2Proof.Machine.execCredit p channel f s
  | .flitError p => Sys2Proof.Machine.execFlitError p s
  | .kwAuthFail p => Sys2Proof.Machine.execKwAuthFail p s
  | .retrain p lanes => Sys2Proof.Machine.execRetrain p lanes s
  | .keyReplace p => Sys2Proof.Machine.execKeyReplace p s
  | .manifestExchange p manifest => Sys2Proof.Machine.execManifestExchange p manifest s
  | .portFailover p => Sys2Proof.Machine.execPortFailover p s
  | .mirrorFull p h key pages => Sys2Proof.Machine.execMirrorFull p h key pages s
  | .mirrorUpdate p h kv => Sys2Proof.Machine.execMirrorUpdate p h kv s
  | .mirrorReview p h jobs => Sys2Proof.Machine.execMirrorReview p h jobs s
  | .mirrorClose p h => Sys2Proof.Machine.execMirrorClose p h s
  | .mirrorAck p pairs => Sys2Proof.Machine.execMirrorAck p pairs s
  | .mirrorGapTimeout x => Sys2Proof.Machine.execMirrorGapTimeout x s
  | .backlogResend => Sys2Proof.Machine.execBacklogResend s
  | .spillPut p h key pages => Sys2Proof.Machine.execSpillPut p h key pages s
  | .spillRecall p h => Sys2Proof.Machine.execSpillRecall p h s
  | .spillReturn p h pages => Sys2Proof.Machine.execSpillReturn p h pages s
  | .spillAck p h result => Sys2Proof.Machine.execSpillAck p h result s
  | .spillLost x => Sys2Proof.Machine.execSpillLost x s
  | .fwdJob p seq budget cls record => Sys2Proof.Machine.execFwdJob p seq budget cls record s
  | .fwdResult p seq record => Sys2Proof.Machine.execFwdResult p seq record s
  | .fwdAbort p cookie => Sys2Proof.Machine.execFwdAbort p cookie s
  | .forwardLost pkg => Sys2Proof.Machine.execForwardLost pkg s
  | .arbiterTick r => Sys2Proof.Machine.execArbiterTick r s
  | .thermalSample r => Sys2Proof.Machine.execThermalSample r s
  | .vatSleep v => Sys2Proof.Machine.execVatSleep v s
  | .wakeRequest v => Sys2Proof.Machine.execWakeRequest v s
  | .vatAwake v => Sys2Proof.Machine.execVatAwake v s
  | .droop v => Sys2Proof.Machine.execDroop v s
  | .thermalTrip hub v die index temp => Sys2Proof.Machine.execThermalTrip hub v die index temp s
  | .brineVisit v => Sys2Proof.Machine.execBrineVisit v s
  | .logEntryWrite => Sys2Proof.Machine.execLogEntryWrite s
  | .logIrq => Sys2Proof.Machine.execLogIrq s
  | .vatHeartbeatLoss v => Sys2Proof.Machine.execVatHeartbeatLoss v s
  | .hubSramUe hotdir n => Sys2Proof.Machine.execHubSramUe hotdir n s
  | .caveReset => Sys2Proof.Machine.execCaveReset s
  | .powerOnReset => Sys2Proof.Machine.execPowerOnReset s
  | .supplyLoss group => Sys2Proof.Machine.execSupplyLoss group s
  | .perstAssert => Sys2Proof.Machine.execPerstAssert s
  | .firmwareVerify slot0 slot1 => Sys2Proof.Machine.execFirmwareVerify slot0 slot1 s
  | .dieTraining failed => Sys2Proof.Machine.execDieTraining failed s
  | .bootScrub => Sys2Proof.Machine.execBootScrub s
  | .directoryClear => Sys2Proof.Machine.execDirectoryClear s
  | .bootReady => Sys2Proof.Machine.execBootReady s
  | .tsvCalibration v d temp failed => Sys2Proof.Machine.execTsvCalibration v d temp failed s
  | .tamper causes => Sys2Proof.Machine.execTamper causes s
  | .caveStatus => Sys2Proof.Machine.execCaveStatus s
  | .trip => Sys2Proof.Machine.execTrip s
  | .log => Sys2Proof.Machine.execLog s
  | .sidebandTamper => Sys2Proof.Machine.execSidebandTamper s
  | .sidebandPkgReset w => Sys2Proof.Machine.execSidebandPkgReset w s
  | .standbySupplyLoss => Sys2Proof.Machine.execStandbySupplyLoss s
  | .packageResetEnd => Sys2Proof.Machine.execPackageResetEnd s
  | .hostLinkTrained rate width flit256 latopt => Sys2Proof.Machine.execHostLinkTrained rate width flit256 latopt s
  | .retrainEnd p => Sys2Proof.Machine.execRetrainEnd p s
  | .baseDieInternalError v => Sys2Proof.Machine.execBaseDieInternalError v s
  | .vatAsleep v => Sys2Proof.Machine.execVatAsleep v s

end Sys2Proof.Machine
end

