-- ==== Sys2Proof/Machine/Idle.lean ====
section
/-!
DEFINITION. What passes while no command waits (DESIGN CHOICE, log entry 2): one nanosecond of the hub timestamp (R564, R725), the hub's queued hoop
entries that can move, the stages of a boot that end by themselves (R807), and the vats that stay idle (R728).
-/

namespace Sys2Proof.Machine

/-- R725, Table 16.1: the main supplies are up, so the hub clock runs. -/
def Condition.powered : Condition → Bool
  | .off | .cave | .tripped => false
  | .booting | .ready | .failed | .held | .hubStopped => true

/-- One nanosecond later. -/
def Chip.tick (k : Chip) (p : Part) : Chip :=
  if !k.hub.boot.cond.powered then k
  else
    let k := k.onHub (fun h => { h with time := h.time + 1 })
    if k.alive then (k.feedHub.bootTick p).noteIdle p.vats else k

/-- One nanosecond passes. -/
def State.tick (s : State) : State := { s with k := s.k.tick s.part }

end Sys2Proof.Machine
end

