-- ==== Sys2Proof/WellFormed.lean ====
section
/-!
DEFINITION. What a well-formed command is on a part of `V` vats: it names units that the part has (R13), and its other operands lie within the
widths that the spec gives them. Operands given as bit vectors have their width by their type.
-/

namespace Sys2Proof

open Sys2Proof.Machine

/-- Tensor core `c` of vat `v` exists. -/
def hasCore (V v c : Nat) : Bool := decide (v < V) && decide (c < 4)

/-- Die `d` of vat `v` exists. -/
def hasDie (V v d : Nat) : Bool := decide (v < V) && decide (d < 16)

/-- The unit that issues an instruction exists: a stream of a core, or the bank unit behind a logical index. -/
def IssueUnit.onPart (V : Nat) : IssueUnit → Bool
  | .core v c s => hasCore V v c && decide (s < 5)
  | .bank v d a => hasDie V v d && decide (a < 100)

/-- R665: a secured session is one of four, and a rind request may come outside them. -/
def secOk (sec : Option Nat) : Bool := match sec with | some i => decide (i < 4) | none => true

/-- A BAR0 access of the link holds 1, 2, 4 or 8 bytes, or a read up to 64. -/
def accessSize (n : Nat) : Bool := [1, 2, 4, 8, 16, 32, 64].contains n

/-- Table 17.3: the fields of a message header fit their bytes. -/
def hdrOk (h : CtxHdr) : Bool :=
  decide (h.domain < 256) && decide (h.model < 16) && decide (h.handle < 2 ^ 32) && decide (h.seq < 2 ^ 32) && decide (h.tokens < 2 ^ 64) &&
  decide (h.tail < 2 ^ 24) && decide (h.tailCount < 256) && decide (h.oldest < 2 ^ 24)

/-- A page of a message: its layer, number and tier. -/
def pageOk (x : PageImage) : Bool := decide (x.layer < 256) && decide (x.page < 2 ^ 24) && decide (x.tier < 4)

/-- A well-formed command. -/
def Instr.wellFormed (V : Nat) : Instr → Bool
  | .nop u _ => u.onPart V
  | .halt u _ => u.onPart V
  | .loop u _ => u.onPart V
  | .callL u _ => u.onPart V
  | .callR u _ => u.onPart V
  | .ljmp u _ => u.onPart V
  | .ret u _ => u.onPart V
  | .bar u _ => u.onPart V
  | .aiset u _ => u.onPart V
  | .aistep u _ => u.onPart V
  | .skipZ u _ => u.onPart V
  | .mov u _ => u.onPart V
  | .lui u _ => u.onPart V
  | .lui2 u _ => u.onPart V
  | .add u _ => u.onPart V
  | .sub u _ => u.onPart V
  | .mul u _ => u.onPart V
  | .and u _ => u.onPart V
  | .or u _ => u.onPart V
  | .xor u _ => u.onPart V
  | .shl u _ => u.onPart V
  | .shr u _ => u.onPart V
  | .sar u _ => u.onPart V
  | .min u _ => u.onPart V
  | .max u _ => u.onPart V
  | .slt u _ => u.onPart V
  | .seq u _ => u.onPart V
  | .ld u _ => u.onPart V
  | .st u _ => u.onPart V
  | .bload u _ => u.onPart V
  | .bstart u _ => u.onPart V
  | .bstop u _ => u.onPart V
  | .bcast u _ => u.onPart V
  | .swrite u _ => u.onPart V
  | .sread u _ => u.onPart V
  | .merge u _ => u.onPart V
  | .hbar u _ => u.onPart V
  | .pass u _ => u.onPart V
  | .pclr u _ => u.onPart V
  | .vchain u _ => u.onPart V
  | .vsmax u _ => u.onPart V
  | .vset u _ => u.onPart V
  | .vrsclr u _ => u.onPart V
  | .xfer u _ => u.onPart V
  | .signal u _ => u.onPart V
  | .signalApplied v c _ => hasCore V v c
  | .wait u _ => u.onPart V
  | .poll u _ => u.onPart V
  | .hmov u _ => u.onPart V
  | .hpush u _ => u.onPart V
  | .hpop u _ => u.onPart V
  | .fence u _ => u.onPart V
  | .hflush u _ => u.onPart V
  | .brd u _ => u.onPart V
  | .bwr u _ => u.onPart V
  | .bcpy u _ => u.onPart V
  | .bdot u _ => u.onPart V
  | .balu u _ => u.onPart V
  | .bexp u _ => u.onPart V
  | .bred u _ => u.onPart V
  | .bquant u _ => u.onPart V
  | .bdec u _ => u.onPart V
  | .bwsend u _ => u.onPart V
  | .bwstat u _ => u.onPart V
  | .hoopEntryAtHead v c _ => hasCore V v c
  | .hoopPushLands v c t => hasCore V v c && decide (t < 5)
  | .hoopMiddleGroup v c _ _ => hasCore V v c
  | .hubBarrierComplete _ => true
  | .stallReport v c => hasCore V v c
  | .pressPassComplete v c => hasCore V v c
  | .dmaTransferComplete v c _ => hasCore V v c
  | .dmaUnitFault v c _ => hasCore V v c
  | .chainComplete v c => hasCore V v c
  | .scratchReadComplete v c => hasCore V v c
  | .buStartArrival v d => hasDie V v d
  | .pendingStartBegin v d a => hasDie V v d && decide (a < 100)
  | .buProgramEnd v d a => hasDie V v d && decide (a < 100)
  | .buCompletionPost v d => hasDie V v d
  | .buPstoreLoad v d => hasDie V v d
  | .tsvWriteLand v d => hasDie V v d
  | .mergeBegin v d => hasDie V v d
  | .mergeComplete v d => hasDie V v d
  | .wheyGrant v d => hasDie V v d
  | .wheyLand v d => hasDie V v d
  | .rowSlotGrant v d b => hasDie V v d && decide (b < 100)
  | .rowSlotEnd v d b => hasDie V v d && decide (b < 100)
  | .refresh v d b => hasDie V v d && decide (b < 100)
  | .scrubPromotion v d b => hasDie V v d && decide (b < 100)
  | .fenceTimeout v d b => hasDie V v d && decide (b < 100)
  | .arm v d a _ => hasDie V v d && decide (a < 96)
  | .fire v d a _ => hasDie V v d && decide (a < 96)
  | .legacyBadKey v d a => hasDie V v d && decide (a < 96)
  | .armLapsed v d a => hasDie V v d && decide (a < 96)
  | .rowOperationDone v d a => hasDie V v d && decide (a < 96)
  | .takeoverStart v d => hasDie V v d
  | .takeoverExchange v d => hasDie V v d
  | .spareCopyFault v d => hasDie V v d
  | .spareZeroed v d q => hasDie V v d && decide (q < 4)
  | .buCheckerTrip v d b => hasDie V v d && decide (b < 100)
  | .coreCheckerTrip v c stream engine => hasCore V v c && decide (stream < 5) && decide (engine < 3)
  | .cxlMemRead _ => true
  | .cxlMemWrite _ _ _ => true
  | .cxlMemPartialWrite _ _ _ _ => true
  | .hdmDecoderCommit n base skip size _ _ => decide (n < 4) && decide (base < 2 ^ 64) && decide (skip < 2 ^ 64) && decide (size < 2 ^ 64)
  | .biResponse line => decide (line < 2 ^ 58)
  | .biTimeout c => decide (c < 16)
  | .linkReset => true
  | .configRequest _ => true
  | .identify => true
  | .identifyMemoryDevice => true
  | .getSupportedLogs => true
  | .getLog _ offset len => decide (offset < 2 ^ 32) && decide (len < 2 ^ 32)
  | .getEventRecords n => decide (n < 256)
  | .clearEventRecords n _ handles => decide (n < 256) && decide (handles.length < 256) && handles.all (fun h => decide (h < 2 ^ 16))
  | .getHealthInfo => true
  | .getPoisonList => true
  | .mailboxUnsupported => true
  | .getVersion => true
  | .getCapabilities => true
  | .negotiateAlgorithms => true
  | .getDigests => true
  | .getCertificate slot offset len => decide (slot < 16) && decide (offset < 2 ^ 32) && decide (len < 2 ^ 32)
  | .challenge _ => true
  | .getMeasurements index => decide (index < 256)
  | .keyExchange => true
  | .finish i _ => decide (i < 4)
  | .heartbeat i => decide (i < 4)
  | .keyUpdate i => decide (i < 4)
  | .endSession i => decide (i < 4)
  | .domainChallenge sec => secOk sec
  | .domainBind sec domain alg _ => secOk sec && decide (domain < 256) && decide (alg < 256)
  | .domainKeySet sec _ => secOk sec
  | .domainKeyErase sec => secOk sec
  | .domainKeyWrap sec => secOk sec
  | .debugUnlock sec scopes => secOk sec && decide (scopes < 8)
  | .debugLock sec => secOk sec
  | .pqQuote _ => true
  | .pqCert offset => decide (offset < 2 ^ 32)
  | .ownerClaim sec _ => secOk sec
  | .ownerTransfer sec _ => secOk sec
  | .ideKeyProgram sec key => secOk sec && decide ((match key with | .cxl _ b => b.length | .pcie b => b.length) = 32)
  | .begin => true
  | .stage _ _ => true
  | .commit _ => true
  | .rollback => true
  | .quietPoint => true
  | .applyCycle => true
  | .quietTimeout => true
  | .jobAbort ring => decide (ring < 16)
  | .subqPiWrite r _ => decide (r < 16)
  | .subqEnable r => decide (r < 16)
  | .vringEnable c => decide (c < 16)
  | .vringCiWrite c _ => decide (c < 16)
  | .takeover v d a => decide (v < 8) && decide (d < 16) && decide (a < 128)
  | .retirePage v ppn => decide (v < 8) && decide (ppn < 2 ^ 16)
  | .requalify v d a => decide (v < 8) && decide (d < 16) && decide (a < 128)
  | .requalifyDone v d _ => hasDie V v d
  | .retireCore v c => decide (v < 8) && decide (c < 4)
  | .kwPromote _ _ => true
  | .pkgReset _ => true
  | .pwrCapWrite _ => true
  | .kwPortEnable p _ => decide (p < 4)
  | .dbgHalt _ => true
  | .dbgBuHalt _ => true
  | .registerWrite _ size _ _ => accessSize size
  | .bar0ReadRefused _ n => accessSize n
  | .bar0ReadWake _ n => accessSize n
  | .recordAccept r => decide (r < 16)
  | .directoryWalkDone t => decide (t < 65536)
  | .jobDispatch v c => hasCore V v c
  | .resultEntry v c => hasCore V v c
  | .contextClose i => decide (i < 131072 * V)
  | .idleClose i => decide (i < 131072 * V)
  | .completionRecordWrite c => decide (c < 16)
  | .verdictCoalesceTimer c => decide (c < 16)
  | .affinageJobResult _ _ => true
  | .migrationStart i => decide (i < 131072 * V)
  | .migrationSwitch i => decide (i < 131072 * V)
  | .calComparison _ => true
  | .portStateAdvance p _ => decide (p < 4)
  | .authExchange p c => decide (p < 4) && decide (c.finger.length = 48) && decide (c.pkg < 4)
  | .authRetry p => decide (p < 4)
  | .dataFlit p f => decide (p < 4) && decide (f.content.length = 256)
  | .ack p _ => decide (p < 4)
  | .nak p _ => decide (p < 4)
  | .credit p channel _ => decide (p < 4) && decide (channel < 4)
  | .flitError p => decide (p < 4)
  | .kwAuthFail p => decide (p < 4)
  | .retrain p _ => decide (p < 4)
  | .keyReplace p => decide (p < 4)
  | .manifestExchange p bs => decide (p < 4) && decide (8 ≤ bs.length) && decide (bs.length = 8 + 104 * (bs.getD 4 0).toNat)
  | .portFailover p => decide (p < 4)
  | .mirrorFull p h _ pages => decide (p < 4) && hdrOk h && pages.all pageOk
  | .mirrorUpdate p h _ => decide (p < 4) && hdrOk h
  | .mirrorReview p h _ => decide (p < 4) && hdrOk h
  | .mirrorClose p h => decide (p < 4) && hdrOk h
  | .mirrorAck p pairs => decide (p < 4) && pairs.all (fun x => decide (x.1 < 2 ^ 32) && decide (x.2 < 2 ^ 32))
  | .mirrorGapTimeout i => decide (i < 131072 * V)
  | .backlogResend => true
  | .spillPut p h _ pages => decide (p < 4) && hdrOk h && pages.all pageOk
  | .spillRecall p h => decide (p < 4) && hdrOk h
  | .spillReturn p h pages => decide (p < 4) && hdrOk h && pages.all pageOk
  | .spillAck p h _ => decide (p < 4) && hdrOk h
  | .spillLost i => decide (i < 131072 * V)
  | .fwdJob p q budget cls _ => decide (p < 4) && decide (q < 2 ^ 32) && decide (budget < 2 ^ 32) && decide (cls < 16)
  | .fwdResult p q _ => decide (p < 4) && decide (q < 2 ^ 32)
  | .fwdAbort p _ => decide (p < 4)
  | .forwardLost pkg => decide (pkg < 4)
  | .arbiterTick r => decide (r.vats.length = V)
  | .thermalSample r => decide (r.hub.length = 4) && decide (r.vats.length = V) && r.vats.all (fun t => decide (t.length = 36))
  | .vatSleep v => decide (v < V)
  | .wakeRequest v => decide (v < V)
  | .vatAwake v => decide (v < V)
  | .droop v => decide (v < V)
  | .thermalTrip hub v die index _ => (hub || (decide (v < V) && decide (die ≤ 16))) && decide (index < (if hub || die == 16 then 4 else 2))
  | .brineVisit v => decide (v < V)
  | .logEntryWrite => true
  | .logIrq => true
  | .vatHeartbeatLoss v => decide (v < V)
  | .hubSramUe _ _ => true
  | .caveReset => true
  | .powerOnReset => true
  | .supplyLoss g => decide (2 ≤ g.toNat) && decide (g.toNat < 8 + V)
  | .perstAssert => true
  | .firmwareVerify _ _ => true
  | .dieTraining failed => failed.all (fun d => decide (d < 16 * V))
  | .bootScrub => true
  | .directoryClear => true
  | .bootReady => true
  | .tsvCalibration v d _ _ => hasDie V v d
  | .tamper _ => true
  | .caveStatus => true
  | .trip => true
  | .log => true
  | .sidebandTamper => true
  | .sidebandPkgReset _ => true
  | .standbySupplyLoss => true
  | .packageResetEnd => true
  | .hostLinkTrained rate width _ _ => decide (rate < 4) && decide (width < 3)
  | .retrainEnd p => decide (p < 4)
  | .baseDieInternalError v => decide (v < V)
  | .vatAsleep v => decide (v < V)

end Sys2Proof
end

