-- ==== Sys2Proof/Safety.lean ====
section
/-!
DEFINITION. What counts as a safe state and a safe step, and the terms in which the statements say when a command can take effect: a unit that
stands at an instruction, the instruction words of the Spaith commands, and the commands that reach the chip alone.
-/

namespace Sys2Proof.Safety

open Sys2Proof.Machine

/-! ### Safe states and steps -/

/-- DRAM holds its canonical form. -/
def dramOk (s : State) : Prop := Memory.wf s.dram = true

/-- Every command that waits is well formed on the part. -/
def queueOk (s : State) : Prop := s.pending.all (fun c => c.wellFormed s.part.vats) = true

/-- A safe state: DRAM in its canonical form, and a queue that names only units of the part. -/
def ok (s : State) : Prop := dramOk s ∧ queueOk s

/-- A step that neither stops with a fault nor is refused. -/
def stepsOn (s : State) : Prop := ∃ t, step s = .next t

/-- The state with its chip replaced: nothing else of it changes. -/
def withK (s : State) (k : Chip) : State := { s with k := k }

/-- DRAM and the chip of a state. -/
def machOf (s : State) : Mach := { dr := s.dram, k := s.k }

/-- The state with its DRAM and chip replaced. -/
def withM (s : State) (m : Mach) : State := { s with dram := m.dr, k := m.k }

/-- The state after a command of the hub: as `m`, where the arbiters grant every access to a row that this takes, and else as it was, with the vats
that sleep asked to wake. -/
def turned (s : State) (m : Mach) : State := withM s ((machOf s).orWait m)

/-- Tensor cores, dies, bank units and vats are as they were: only registers and the hub have changed. -/
def unitsKept (k k' : Chip) : Prop := k'.cores = k.cores ∧ k'.dies = k.dies ∧ k'.bus = k.bus ∧ k'.vats = k.vats

/-- Only the hub has changed. -/
def hubOnly (k k' : Chip) : Prop := k'.regs = k.regs ∧ unitsKept k k'

/-- Only the registers named have changed, beside the hub. -/
def regsOnly (k k' : Chip) (named : Nat → Prop) : Prop := (∀ o, ¬ named o → k'.reg o = k.reg o) ∧ unitsKept k k'

/-- Everything but the chip is as it was. -/
def chipOnly (s t : State) : Prop := t.part = s.part ∧ t.pending = s.pending ∧ t.dram = s.dram

/-! ### Instructions -/

/-- The unit, the opcode (Tables 7.5 to 8.16) and the operand bits of an instruction; the other commands are no instructions. -/
def spaith : Instr → Option (IssueUnit × Nat × BitVec 56)
  | .nop u ops => some (u, 0x01, ops)
  | .halt u ops => some (u, 0x02, ops)
  | .loop u ops => some (u, 0x03, ops)
  | .callL u ops => some (u, 0x04, ops)
  | .callR u ops => some (u, 0x05, ops)
  | .ljmp u ops => some (u, 0x06, ops)
  | .ret u ops => some (u, 0x07, ops)
  | .bar u ops => some (u, 0x08, ops)
  | .aiset u ops => some (u, 0x09, ops)
  | .aistep u ops => some (u, 0x0A, ops)
  | .skipZ u ops => some (u, 0x0B, ops)
  | .mov u ops => some (u, 0x20, ops)
  | .lui u ops => some (u, 0x21, ops)
  | .lui2 u ops => some (u, 0x22, ops)
  | .add u ops => some (u, 0x23, ops)
  | .sub u ops => some (u, 0x24, ops)
  | .mul u ops => some (u, 0x25, ops)
  | .and u ops => some (u, 0x26, ops)
  | .or u ops => some (u, 0x27, ops)
  | .xor u ops => some (u, 0x28, ops)
  | .shl u ops => some (u, 0x29, ops)
  | .shr u ops => some (u, 0x2A, ops)
  | .sar u ops => some (u, 0x2B, ops)
  | .min u ops => some (u, 0x2C, ops)
  | .max u ops => some (u, 0x2D, ops)
  | .slt u ops => some (u, 0x2E, ops)
  | .seq u ops => some (u, 0x2F, ops)
  | .ld u ops => some (u, 0x30, ops)
  | .st u ops => some (u, 0x31, ops)
  | .bload u ops => some (u, 0x40, ops)
  | .bstart u ops => some (u, 0x41, ops)
  | .bstop u ops => some (u, 0x42, ops)
  | .bcast u ops => some (u, 0x43, ops)
  | .swrite u ops => some (u, 0x44, ops)
  | .sread u ops => some (u, 0x45, ops)
  | .merge u ops => some (u, 0x46, ops)
  | .hbar u ops => some (u, 0x47, ops)
  | .pass u ops => some (u, 0x60, ops)
  | .pclr u ops => some (u, 0x61, ops)
  | .vchain u ops => some (u, 0x80, ops)
  | .vsmax u ops => some (u, 0x81, ops)
  | .vset u ops => some (u, 0x82, ops)
  | .vrsclr u ops => some (u, 0x83, ops)
  | .xfer u ops => some (u, 0xA0, ops)
  | .signal u ops => some (u, 0xC0, ops)
  | .wait u ops => some (u, 0xC1, ops)
  | .poll u ops => some (u, 0xC2, ops)
  | .hmov u ops => some (u, 0xC3, ops)
  | .hpush u ops => some (u, 0xC4, ops)
  | .hpop u ops => some (u, 0xC5, ops)
  | .fence u ops => some (u, 0xC6, ops)
  | .hflush u ops => some (u, 0xC7, ops)
  | .brd u ops => some (u, 0xE0, ops)
  | .bwr u ops => some (u, 0xE1, ops)
  | .bcpy u ops => some (u, 0xE2, ops)
  | .bdot u ops => some (u, 0xE3, ops)
  | .balu u ops => some (u, 0xE4, ops)
  | .bexp u ops => some (u, 0xE5, ops)
  | .bred u ops => some (u, 0xE6, ops)
  | .bquant u ops => some (u, 0xE7, ops)
  | .bdec u ops => some (u, 0xE8, ops)
  | .bwsend u ops => some (u, 0xE9, ops)
  | .bwstat u ops => some (u, 0xEA, ops)
  | _ => none

/-- Table 8.1: the opcode of a function of two sources. -/
def scalarOpcode : ScalarFn → Nat
  | .add => 0x23 | .sub => 0x24 | .mul => 0x25 | .and => 0x26 | .or => 0x27 | .xor => 0x28 | .shl => 0x29
  | .shr => 0x2A | .sar => 0x2B | .min => 0x2C | .max => 0x2D | .slt => 0x2E | .seq => 0x2F

/-- The instruction of a function of two sources. -/
def scalarInstr : ScalarFn → IssueUnit → BitVec 56 → Instr
  | .add => .add | .sub => .sub | .mul => .mul | .and => .and | .or => .or | .xor => .xor | .shl => .shl
  | .shr => .shr | .sar => .sar | .min => .min | .max => .max | .slt => .slt | .seq => .seq

/-! ### Units that stand at an instruction -/

/-- Stream `t` of core `(v, c)` stands at the instruction `op` with `ops`: the unit exists, its stream may issue, the fetch gives that word,
its class is one the stream may issue (Table 7.3), and no earlier instruction of the stream holds it (R315, R373). -/
def coreAt (s : State) (v c t op : Nat) (ops : BitVec 56) : Prop :=
  s.hasUnit (.core v c t) = true ∧ s.k.alive = true ∧ s.k.canIssue v c t = true ∧ classOkCore op t = true ∧
  s.k.fetch false (s.k.stream v c t).seq (s.k.core v c).pstore (s.k.core v c).pstoreBad op ops = .ok ∧
  s.k.orderHeld v c t op ops = false

/-- The chip as an instruction of the stream finds it: in the library space a word other than RET ends the contract of a pending routine. -/
def entered (k : Chip) (v c t : Nat) : Chip :=
  let x := k.stream v c t
  if x.seq.lib then k.setStream v c t { x with seq := { x.seq with routine := none } } else k

/-- The bank unit behind logical index `a` stands at the instruction. -/
def bankAt (s : State) (v d a op : Nat) (ops : BitVec 56) : Prop :=
  let b := s.k.phys v d a
  let u := s.k.bu v d b
  s.hasUnit (.bank v d a) = true ∧ s.k.alive = true ∧ s.k.bankCanIssue v d b = true ∧ classOkBank op = true ∧
  s.k.fetch true u.seq u.pstore u.pstoreBad op ops = .ok

/-- The chip as an instruction of the bank unit of physical bank `b` finds it. -/
def enteredBank (k : Chip) (v d b : Nat) : Chip :=
  let u := k.bu v d b
  if u.seq.lib then k.setBu v d b { u with seq := { u.seq with routine := none } } else k

/-- The unit may issue. -/
def unitReady (s : State) : IssueUnit → Bool
  | .core v c t => s.k.canIssue v c t
  | .bank v d a => s.k.bankCanIssue v d (s.k.phys v d a)

/-- The fetch of an instruction of the unit. -/
def unitFetch (s : State) (u : IssueUnit) (op : Nat) (ops : BitVec 56) : Fetched :=
  match u with
  | .core v c t => s.k.fetch false (s.k.stream v c t).seq (s.k.core v c).pstore (s.k.core v c).pstoreBad op ops
  | .bank v d a =>
    let x := s.k.bu v d (s.k.phys v d a)
    s.k.fetch true x.seq x.pstore x.pstoreBad op ops

/-- The chip after a bank unit's instruction that left the bank unit as `u`: its sequencer steps on. -/
def bankStepped (k : Chip) (v d b : Nat) (u : Bu) : Chip := k.setBu v d b { u with seq := u.seq.advance }

/-- The hub runs and the unit exists. -/
def live (s : State) (exists_ : Bool) : Prop := exists_ = true ∧ s.k.alive = true

/-- The hub runs, the unit exists, and the vat it belongs to is awake and runs (R725, R730). -/
def liveOn (s : State) (exists_ : Bool) (v : Nat) : Prop := live s exists_ ∧ s.k.vatRuns v = true

/-- The state with a hub that answers, its chip otherwise as `k`. -/
def answered (s : State) (k : Chip) (r : Response) : State := { s with k := k.answer r }

/-! ### Shapes of commands -/

/-- Commands whose effect may store to DRAM or change what a bank holds; every other command reaches the chip alone. -/
def writesDram : Instr → Bool
  | .ret _ _ => true
  | .hoopMiddleGroup _ _ _ _ => true
  | .rowSlotEnd _ _ _ => true
  | .spareZeroed _ _ _ => true
  | .coreCheckerTrip _ _ _ _ => true
  | .cxlMemRead _ => true
  | .cxlMemWrite _ _ _ => true
  | .cxlMemPartialWrite _ _ _ _ => true
  | .stage _ _ => true
  | .commit _ => true
  | .quietPoint => true
  | .applyCycle => true
  | .quietTimeout => true
  | .takeover _ _ _ => true
  | .takeoverStart _ _ => true
  | .retirePage _ _ => true
  | .requalify _ _ _ => true
  | .requalifyDone _ _ _ => true
  | .retireCore _ _ => true
  | .kwPromote _ _ => true
  | .pkgReset _ => true
  | .registerWrite _ _ _ _ => true
  | .recordAccept _ => true
  | .directoryWalkDone _ => true
  | .jobDispatch _ _ => true
  | .resultEntry _ _ => true
  | .contextClose _ => true
  | .idleClose _ => true
  | .completionRecordWrite _ => true
  | .affinageJobResult _ _ => true
  | .migrationStart _ => true
  | .migrationSwitch _ => true
  | .mirrorFull _ _ _ _ => true
  | .mirrorUpdate _ _ _ => true
  | .mirrorReview _ _ _ => true
  | .mirrorAck _ _ => true
  | .mirrorGapTimeout _ => true
  | .dataFlit _ _ => true
  | .fwdJob _ _ _ _ _ => true
  | .fwdResult _ _ _ => true
  | .fwdAbort _ _ => true
  | .vatAwake _ => true
  | .mirrorClose _ _ => true
  | .backlogResend => true
  | .spillPut _ _ _ _ => true
  | .spillRecall _ _ => true
  | .spillReturn _ _ _ => true
  | .spillAck _ _ _ => true
  | .spillLost _ => true
  | .thermalTrip _ _ _ _ _ => true
  | .vatHeartbeatLoss _ => true
  | .caveReset => true
  | .powerOnReset => true
  | .supplyLoss _ => true
  | .perstAssert => true
  | .dieTraining _ => true
  | .bootScrub => true
  | .directoryClear => true
  | .tamper _ => true
  | .sidebandPkgReset _ => true
  | .standbySupplyLoss => true
  | .packageResetEnd => true
  | .baseDieInternalError _ => true
  | _ => false

/-- Commands that the running hub, a vat or a core performs (Table 18.4); the others are what happens to supplies, reset inputs, the cave and
the sideband. -/
def needsHub : Instr → Bool
  | .thermalTrip _ _ _ _ _ => false
  | .caveReset => false
  | .powerOnReset => false
  | .supplyLoss _ => false
  | .perstAssert => false
  | .tamper _ => false
  | .caveStatus => false
  | .trip => false
  | .log => false
  | .sidebandTamper => false
  | .sidebandPkgReset _ => false
  | .standbySupplyLoss => false
  | .packageResetEnd => false
  | _ => true

/-- The vat whose core or bank clock makes a command come about (R725, R730). -/
def clockOf : Instr → Option Nat
  | .signalApplied v _ _ => some v
  | .hoopEntryAtHead v _ _ => some v
  | .hoopPushLands v _ _ => some v
  | .hoopMiddleGroup v _ _ _ => some v
  | .stallReport v _ => some v
  | .pressPassComplete v _ => some v
  | .dmaTransferComplete v _ _ => some v
  | .dmaUnitFault v _ _ => some v
  | .chainComplete v _ => some v
  | .scratchReadComplete v _ => some v
  | .buStartArrival v _ => some v
  | .pendingStartBegin v _ _ => some v
  | .buProgramEnd v _ _ => some v
  | .buCompletionPost v _ => some v
  | .buPstoreLoad v _ => some v
  | .tsvWriteLand v _ => some v
  | .mergeBegin v _ => some v
  | .mergeComplete v _ => some v
  | .wheyGrant v _ => some v
  | .wheyLand v _ => some v
  | .refresh v _ _ => some v
  | .fenceTimeout v _ _ => some v
  | _ => none

end Sys2Proof.Safety
end

