-- ==== Sys2Proof/Certificates/Slice0/Obligations.lean ====
section
/-!
DEFINITION. The statements for the provers. Where a statement rests on a reading or choice of the model, its docstring names the log entry.
-/

open Sys2Proof Sys2Proof.Machine Sys2Proof.Safety

/-! ### The machine as a whole -/

/-- The step law: with a command at the front of the queue, a step is that command's effect on the state with the rest of the queue. -/
def Obligations.StepRunsTheFrontCommand : Prop :=
  ∀ (s : State) (c : Instr) (rest : List Instr), s.pending = c :: rest → step s = exec c { s with pending := rest }

/-- With no command waiting a step lets a nanosecond pass (the model's choice, log entry 2), where the main supplies are up (Table 16.1): the hub
timestamp advances by one. While the hub runs, the entries that it has queued for hoops move where they can, a boot's stage that is over ends (R807),
and the vats that are idle are noted (R728). The queue, the part and DRAM stay as they are; without supplies nothing passes at all. -/
def Obligations.EmptyQueueLetsTimePass : Prop :=
  ∀ s : State, s.pending = [] →
    step s = .next s.tick ∧ chipOnly s s.tick ∧
    (s.k.hub.boot.cond.powered = false → s.tick = s) ∧
    (s.k.hub.boot.cond.powered = true → s.tick.k.now = s.k.now + 1 ∧
      let k := s.k.onHub (fun h => { h with time := h.time + 1 })
      (s.k.alive = false → s.tick.k = k) ∧
      (s.k.alive = true → s.tick.k = (k.feedHub.bootTick s.part).noteIdle s.part.vats ∧
        ∀ v, (lookup 0 s.tick.k.hub.pwr.idleSince v ≠ 0 → (k.feedHub.bootTick s.part).vatIdle v = true)))

/-- R2 to R4: no step changes which part it is; and a step takes at most the front command from the queue. -/
def Obligations.StepKeepsThePartAndTheQueue : Prop :=
  ∀ s t : State, step s = .next t → t.part = s.part ∧ t.pending = s.pending.tail

/-- DRAM keeps its canonical form: whatever command runs, if it answers a next state, addresses still rise and no byte equal to what an unlisted
address reads as is listed. -/
def Obligations.StepKeepsDramCanonical : Prop :=
  ∀ s t : State, Memory.wf s.dram = true → step s = .next t → Memory.wf t.dram = true

/-- Reset meets the invariant of DRAM, and its queue is empty. -/
def Obligations.ResetIsCanonical : Prop :=
  Memory.wf State.reset.dram = true ∧ State.reset.pending = [] ∧ ∀ a, State.reset.dram.byte a = 0

/-- R13: a command that names only units of the part always answers a next state: no well-formed command stops the model. -/
def Obligations.WellFormedCommandsRun : Prop :=
  ∀ (s : State) (c : Instr), c.wellFormed s.part.vats = true → ∃ t, exec c s = .next t

/-- Commands that reach the chip alone leave DRAM as it is, every byte of it: all but those that store to it or to a bank. -/
def Obligations.ChipCommandsLeaveDram : Prop :=
  ∀ (s t : State) (c : Instr), writesDram c = false → exec c s = .next t → t.dram = s.dram

/-- Table 18.4: while the hub does not run, a command that reaches the hub, a vat or a core does nothing. R725, R730: neither does one that the core or
bank clock of a vat makes, while the vat sleeps or is lost. -/
def Obligations.NothingRunsWithoutTheHub : Prop :=
  ∀ (s : State) (c : Instr), c.wellFormed s.part.vats = true →
    (s.k.alive = false → needsHub c = true → exec c s = .next s) ∧
    (∀ v, clockOf c = some v → s.k.vatRuns v = false → exec c s = .next s)

/-- Safe states step on: from a state whose DRAM is canonical and whose waiting commands name only units of the part, a step never stops, and the
state it answers is such a state again. -/
def Obligations.SafeStatesStepOn : Prop :=
  ∀ s : State, ok s → ∃ t, step s = .next t ∧ ok t

/-! ### Spaith instructions: issue -/

/-- R315, R683, R725: an instruction whose unit may not issue (its stream or bank unit does not run, is held, waits, or has no clock) does nothing,
and neither does one that is not the word its unit stands at. R352, R335, R330: a stream with nothing incomplete that fetches beyond its store
faults with PC_RANGE, on a word that fails its check with PSTORE_CHECK, and on a reserved opcode with ILLEGAL_INSTR; a bank unit ends with its own
code of each. Whatever instruction is claimed. R330, Table 7.3: an instruction of a class that its stream, or a bank unit, may not issue raises
ILLEGAL_INSTR. -/
def Obligations.UnissuableInstructionsStop : Prop :=
  (∀ (i : Instr) (u : IssueUnit) (op : Nat) (ops : BitVec 56) (s : State), spaith i = some (u, op, ops) →
    live s (s.hasUnit u) → unitReady s u = false ∨ unitFetch s u op ops = .other → exec i s = .next s) ∧
  (∀ (i : Instr) (op : Nat) (ops : BitVec 56) (s : State),
    (∀ v c t, spaith i = some (.core v c t, op, ops) → live s (s.hasUnit (.core v c t)) → s.k.canIssue v c t = true → s.k.quiet v c t = true →
      let q := (s.k.stream v c t).seq
      (unitFetch s (.core v c t) op ops = .pcRange → exec i s = .next (withK s (s.k.coreFault v c t 0x52 q))) ∧
      (unitFetch s (.core v c t) op ops = .check → exec i s = .next (withK s (s.k.coreFault v c t 0x51 q))) ∧
      (unitFetch s (.core v c t) op ops = .illegal → exec i s = .next (withK s (s.k.coreFault v c t 0x50 q)))) ∧
    (∀ v d a, spaith i = some (.bank v d a, op, ops) → live s (s.hasUnit (.bank v d a)) → unitReady s (.bank v d a) = true →
      let b := s.k.phys v d a
      let q := (s.k.bu v d b).seq
      (unitFetch s (.bank v d a) op ops = .pcRange → exec i s = .next (withK s (s.k.bankFault v d b .pcRange q.lib q.pc))) ∧
      (unitFetch s (.bank v d a) op ops = .check → exec i s = .next (withK s (s.k.bankFault v d b .pstoreCheck q.lib q.pc))) ∧
      (unitFetch s (.bank v d a) op ops = .illegal → exec i s = .next (withK s (s.k.bankFault v d b .illegal q.lib q.pc))))) ∧
  (∀ (i : Instr) (op : Nat) (ops : BitVec 56) (s : State),
    (∀ v c t, spaith i = some (.core v c t, op, ops) → live s (s.hasUnit (.core v c t)) → s.k.canIssue v c t = true → s.k.quiet v c t = true →
      unitFetch s (.core v c t) op ops = .ok → classOkCore op t = false →
      exec i s = .next (withK s (s.k.coreFault v c t 0x50 (s.k.stream v c t).seq))) ∧
    (∀ v d a, spaith i = some (.bank v d a, op, ops) → live s (s.hasUnit (.bank v d a)) → unitReady s (.bank v d a) = true →
      unitFetch s (.bank v d a) op ops = .ok → classOkBank op = false →
      let b := s.k.phys v d a
      exec i s = .next (withK s (s.k.bankFault v d b .illegal (s.k.bu v d b).seq.lib (s.k.bu v d b).seq.pc))))

/-- R311, R313, Table 6.8: a fault stops its stream, and CORE_FAULT and CORE_FAULT_PC keep the first record: the cause, the stream and its
program counter while VALID is 0; with VALID at 1 the record stays and OVERRUN is set. Nothing else of the core, and no other register, changes. -/
def Obligations.FirstFaultRecordIsKept : Prop :=
  ∀ (k : Chip) (v c t code : Nat) (q : Sequencer), t < (k.core v c).streams.length → code < 256 → t < 5 → q.pc < 8192 →
    let n := k.coreFault v c t code q
    let o := Reg.coreFault v c
    (n.stream v c t).run = .fault ∧ (n.stream v c t).inflight = [] ∧ (n.stream v c t).hold = none ∧
    (n.stream v c t).seq = q ∧ n.core v c = (k.core v c).setStream t (n.stream v c t) ∧
    (k.flag o 31 = false → n.getF o 7 0 = code ∧ n.getF o 10 8 = t ∧ n.flag o 31 = true ∧
      n.getF (Reg.coreFaultPc v c) 12 0 = q.pc ∧ n.getF (Reg.coreFaultPc v c) 13 13 = q.lib.toNat ∧ n.flag o 30 = k.flag o 30) ∧
    (k.flag o 31 = true → n.flag o 30 = true ∧ n.getF o 7 0 = k.getF o 7 0 ∧ n.getF o 10 8 = k.getF o 10 8 ∧
      n.reg (Reg.coreFaultPc v c) = k.reg (Reg.coreFaultPc v c)) ∧
    (∀ r, r ≠ o → r ≠ Reg.coreFaultPc v c → n.reg r = k.reg r) ∧ n.hub = k.hub ∧ n.bus = k.bus ∧ n.dies = k.dies

/-! ### Flow instructions -/

/-- R344 to R350: what follows an instruction. At an address where no open level ends the next address follows; where the innermost level ends,
it loops back to its first instruction with LI one higher while its count (or FOREVER) says so; otherwise it closes, and the level outside it
is judged at the same instruction. -/
def Obligations.LoopsCloseFromTheInside : Prop :=
  ∀ (q : Sequencer) (outer : List LoopLevel) (l : LoopLevel),
    (q.loops = [] → q.advance = { q with pc := q.pc + 1 }) ∧
    (q.loops = outer ++ [l] → l.last ≠ q.pc → q.advance = { q with pc := q.pc + 1 }) ∧
    (q.loops = outer ++ [l] → l.last = q.pc → (l.forever = true ∨ l.li + 1 < l.count) →
      q.advance = { q with loops := outer ++ [{ l with li := l.li + 1 }], pc := l.first }) ∧
    (q.loops = outer ++ [l] → l.last = q.pc → l.forever = false → l.count ≤ l.li + 1 →
      q.advance = ({ q with loops := outer } : Sequencer).advance)

/-- NOP, HALT, LOOP, CALL_L, CALL_R, LJMP, AISET, AISTEP and SKIP_Z on a tensor-core stream that stands at them (Table 7.5): each completes with its
effect on the stream's sequencer, and nothing else of the part changes. AISET from an operand, and SKIP_Z on a hoop: the popped value is the base,
or decides the skip. -/
def Obligations.FlowOnAStream : Prop :=
  (∀ (s : State) (v c t : Nat) (ops : BitVec 56),
    let k := entered s.k v c t
    let q := (k.stream v c t).seq
    let put (q' : Sequencer) : Chip := k.setStream v c t { k.stream v c t with seq := q' }
    (coreAt s v c t 0x01 ops → ops = 0 → exec (.nop (.core v c t) ops) s = .next (withK s (k.advanceCore v c t))) ∧
    (coreAt s v c t 0x02 ops → ops = 0 →
      exec (.halt (.core v c t) ops) s = .next (withK s ((k.haltStream v c t).issued v c t))) ∧
    (∀ q', coreAt s v c t 0x03 ops → reservedZero ops useL = true → (lForm ops).cnt < 0x20 →
      ((lForm ops).forever = true → (lForm ops).cnt = 0) →
      (q.loop false (lForm ops) (k.endValue v c t (lForm ops).cnt).toNat = .advance q' →
        exec (.loop (.core v c t) ops) s = .next (withK s ((put q').advanceCore v c t))) ∧
      (q.loop false (lForm ops) (k.endValue v c t (lForm ops).cnt).toNat = .goto q' →
        exec (.loop (.core v c t) ops) s = .next (withK s ((put q').issued v c t)))) ∧
    (∀ q', coreAt s v c t 0x04 ops → reservedZero ops useTarget = true → q.call false false (cTarget ops) none = .goto q' →
      exec (.callL (.core v c t) ops) s = .next (withK s ((put q').issued v c t))) ∧
    (∀ q', coreAt s v c t 0x05 ops → reservedZero ops (0xFF * 2 ^ 40) = true → q.callR k false (cTarget ops) = .goto q' →
      exec (.callR (.core v c t) ops) s = .next (withK s ((put q').issued v c t))) ∧
    (∀ q', coreAt s v c t 0x06 ops → reservedZero ops (0xFF * 2 ^ 40) = true → q.ljmp k false (cTarget ops) = .goto q' →
      exec (.ljmp (.core v c t) ops) s = .next (withK s ((put q').issued v c t))) ∧
    (coreAt s v c t 0x09 ops → reservedZero ops useAiset = true → (aForm ops).src = false → (aForm ops).a = 0 →
      exec (.aiset (.core v c t) ops) s =
        .next (withK s ((put (q.setBase (aForm ops).k (BitVec.ofInt 64 (signedOf 32 (aForm ops).imm)))).advanceCore v c t))) ∧
    (coreAt s v c t 0x0A ops → reservedZero ops useAistep = true →
      exec (.aistep (.core v c t) ops) s =
        .next (withK s ((put (q.setStep (aForm ops).k (aForm ops).level (BitVec.ofNat 32 (aForm ops).imm))).advanceCore v c t))) ∧
    (coreAt s v c t 0x0B ops → reservedZero ops useA = true → q.lib = true → hoopEnd (qForm ops).a = false →
      k.popOk v c t (qForm ops).a = true →
      exec (.skipZ (.core v c t) ops) s = .next (withK s
        (if k.endValue v c t (qForm ops).a = 0 then (put q.advance.advance).issued v c t else (put q).advanceCore v c t)))) ∧
  (∀ (s : State) (v c t : Nat) (ops : BitVec 56) (d : BitVec 512) (k1 : Chip),
    let k := entered s.k v c t
    let put (q' : Sequencer) : Chip := k1.setStream v c t { k1.stream v c t with seq := q' }
    (coreAt s v c t 0x09 ops → reservedZero ops useAiset = true → (aForm ops).src = true → (aForm ops).imm = 0 →
      k.popOk v c t (aForm ops).a = true → k.popEnd v c t (aForm ops).a = .done d k1 →
      exec (.aiset (.core v c t) ops) s =
        .next (withK s ((put ((k1.stream v c t).seq.setBase (aForm ops).k (entryWord d))).advanceCore v c t))) ∧
    (coreAt s v c t 0x0B ops → reservedZero ops useA = true → (k.stream v c t).seq.lib = true →
      k.popOk v c t (qForm ops).a = true → k.popEnd v c t (qForm ops).a = .done d k1 →
      exec (.skipZ (.core v c t) ops) s = .next (withK s
        (if entryWord d = 0 then (put (k1.stream v c t).seq.advance.advance).issued v c t
         else (put (k1.stream v c t).seq).advanceCore v c t))))

/-- RET (R338, R361): with a frame it pops it; without one the stream halts, IDLE once nothing it issued is incomplete; on a bank unit the program
ends DONE. A pending library routine is not part of this statement. R359 to R361: a call and the RET that pops its frame leave the sequencer as one
that has stepped past the call: its loop levels, AI registers and return stack restored, whatever the callee did to its own loops and AI registers.
-/
def Obligations.RetUndoesTheCallOrHalts : Prop :=
  (∀ (s : State) (q' : Sequencer),
    (∀ v c t, coreAt s v c t 0x07 0 → (s.k.stream v c t).seq.routine = none →
      ((s.k.stream v c t).seq.ret = some q' → exec (.ret (.core v c t) 0) s =
        .next (withK s ((s.k.setStream v c t { s.k.stream v c t with seq := q' }).issued v c t))) ∧
      ((s.k.stream v c t).seq.frames = [] → exec (.ret (.core v c t) 0) s = .next (withK s ((s.k.haltStream v c t).issued v c t)))) ∧
    (∀ v d a, bankAt s v d a 0x07 0 → (s.k.bu v d (s.k.phys v d a)).seq.routine = none →
      let b := s.k.phys v d a
      let u := s.k.bu v d b
      (u.seq.ret = some q' → exec (.ret (.bank v d a) 0) s = .next (withK s (s.k.setBu v d b { u with seq := q' }))) ∧
      (u.seq.frames = [] → exec (.ret (.bank v d a) 0) s = .next (withK s (s.k.setBu v d b { u with ending := some .done }))))) ∧
  (∀ (q q' : Sequencer) (bank lib : Bool) (pc : Nat) (r : Option Nat), q.call bank lib pc r = .goto q' →
    q'.loops = [] ∧ q'.lib = lib ∧ q'.pc = pc ∧ q'.frames.length = q.frames.length + 1 ∧ q.frames.length < (if bank then 2 else 4) ∧
    (∀ n, n < 8 → (q'.ais.getD n AiReg.zero).base.toNat = q.ai (if bank then 32 else 64) n ∧
      (q'.ais.getD n AiReg.zero).steps = (q.ais.getD n AiReg.zero).steps) ∧
    ∀ (ls : List LoopLevel) (as : List AiReg) (lib' : Bool) (pc' : Nat) (r' : Option Nat),
      ({ q' with loops := ls, ais := as, lib := lib', pc := pc', routine := r' } : Sequencer).ret = some q.advance)

/-- The flow instructions on a bank unit (Table 7.5): its sequencer alone changes; HALT lets the program end DONE. -/
def Obligations.FlowOnABankUnit : Prop :=
  ∀ (s : State) (v d a : Nat) (ops : BitVec 56),
    let b := s.k.phys v d a
    let k := enteredBank s.k v d b
    let u := k.bu v d b
    let w := if (aForm ops).src then (u.endValue (aForm ops).a).zeroExtend 64 else BitVec.ofNat 64 (bitsOf 32 (signedOf 32 (aForm ops).imm))
    (bankAt s v d a 0x01 ops → ops = 0 → exec (.nop (.bank v d a) ops) s = .next (withK s (bankStepped k v d b u))) ∧
    (bankAt s v d a 0x02 ops → ops = 0 → exec (.halt (.bank v d a) ops) s = .next (withK s (k.setBu v d b { u with ending := some .done }))) ∧
    (∀ q', bankAt s v d a 0x03 ops → reservedZero ops useL = true → (lForm ops).cnt < 0x10 →
      ((lForm ops).forever = true → (lForm ops).cnt = 0) →
      (u.seq.loop true (lForm ops) (u.endValue (lForm ops).cnt).toNat = .advance q' →
        exec (.loop (.bank v d a) ops) s = .next (withK s (bankStepped k v d b { u with seq := q' }))) ∧
      (u.seq.loop true (lForm ops) (u.endValue (lForm ops).cnt).toNat = .goto q' →
        exec (.loop (.bank v d a) ops) s = .next (withK s (k.setBu v d b { u with seq := q' })))) ∧
    (∀ q', bankAt s v d a 0x04 ops → reservedZero ops useTarget = true → cTarget ops < 512 → u.seq.call true false (cTarget ops) none = .goto q' →
      exec (.callL (.bank v d a) ops) s = .next (withK s (k.setBu v d b { u with seq := q' }))) ∧
    (∀ q', bankAt s v d a 0x05 ops → reservedZero ops (0xFF * 2 ^ 40) = true → u.seq.callR k true (cTarget ops) = .goto q' →
      exec (.callR (.bank v d a) ops) s = .next (withK s (k.setBu v d b { u with seq := q' }))) ∧
    (∀ q', bankAt s v d a 0x06 ops → reservedZero ops (0xFF * 2 ^ 40) = true → u.seq.ljmp k true (cTarget ops) = .goto q' →
      exec (.ljmp (.bank v d a) ops) s = .next (withK s (k.setBu v d b { u with seq := q' }))) ∧
    (bankAt s v d a 0x09 ops → reservedZero ops useAiset = true →
      (if (aForm ops).src then bankPopOk (aForm ops).a && decide ((aForm ops).imm = 0) else decide ((aForm ops).a = 0)) = true →
      exec (.aiset (.bank v d a) ops) s = .next (withK s (bankStepped k v d b { u with seq := u.seq.setBase (aForm ops).k w }))) ∧
    (bankAt s v d a 0x0A ops → reservedZero ops useAistep = true →
      exec (.aistep (.bank v d a) ops) s = .next (withK s
        (bankStepped k v d b { u with seq := u.seq.setStep (aForm ops).k (aForm ops).level (BitVec.ofNat 32 (aForm ops).imm) }))) ∧
    (bankAt s v d a 0x0B ops → reservedZero ops useA = true → u.seq.lib = true → bankPopOk (qForm ops).a = true →
      exec (.skipZ (.bank v d a) ops) s = .next (withK s
        (if u.endValue (qForm ops).a = 0 then k.setBu v d b { u with seq := u.seq.advance.advance } else bankStepped k v d b u)))

/-! ### Scalar instructions -/

/-- Table 8.1, R378, R318, R271: the functions of two sources against integer arithmetic, at width `w`: sums, differences and products wrap modulo
2^w, shifts take their amount modulo `w`, comparisons are of two's-complement values. ADD to SEQ (R378): on CTL, of popped operands A and B, D takes
the function of A and B plus the sign-extended immediate; on a bank unit the same of its registers at 32 bits. Nothing but the ends named and the
sequencer changes; no flag does. -/
def Obligations.ScalarArithmeticWraps : Prop :=
  (∀ (w : Nat) (a b : BitVec w), 1 < w →
    (ScalarFn.add.eval a b).toNat = (a.toNat + b.toNat) % 2 ^ w ∧
    ((ScalarFn.sub.eval a b).toNat + b.toNat) % 2 ^ w = a.toNat ∧
    (ScalarFn.mul.eval a b).toNat = a.toNat * b.toNat % 2 ^ w ∧
    (∀ i, (ScalarFn.and.eval a b).toNat.testBit i = (a.toNat.testBit i && b.toNat.testBit i)) ∧
    (∀ i, (ScalarFn.or.eval a b).toNat.testBit i = (a.toNat.testBit i || b.toNat.testBit i)) ∧
    (∀ i, (ScalarFn.xor.eval a b).toNat.testBit i = (a.toNat.testBit i != b.toNat.testBit i)) ∧
    (ScalarFn.shl.eval a b).toNat = a.toNat * 2 ^ (b.toNat % w) % 2 ^ w ∧
    (ScalarFn.shr.eval a b).toNat = a.toNat / 2 ^ (b.toNat % w) ∧
    (ScalarFn.sar.eval a b).toInt = a.toInt / 2 ^ (b.toNat % w) ∧
    (ScalarFn.min.eval a b).toInt = min a.toInt b.toInt ∧
    (ScalarFn.max.eval a b).toInt = max a.toInt b.toInt ∧
    (ScalarFn.slt.eval a b).toNat = (if a.toInt < b.toInt then 1 else 0) ∧
    (ScalarFn.seq.eval a b).toNat = (if a.toNat = b.toNat then 1 else 0)) ∧
  (∀ (f : ScalarFn) (s : State) (ops : BitVec 56), reservedZero ops (useD + useA + useB + useI) = true →
    let q := qForm ops
    (∀ v c, coreAt s v c 0 (scalarOpcode f) ops →
      let k := entered s.k v c 0
      k.popOk v c 0 q.a = true → k.popOk v c 0 q.b = true → k.pushOk v c 0 q.d = true → k.pushReady v c 0 q.d = true →
      k.supplies v c 0 q.b (if q.a = q.b then 2 else 1) = true →
      ∀ x y k1 k2, k.popEnd v c 0 q.a = .done x k1 → k1.popEnd v c 0 q.b = .done y k2 →
        exec (scalarInstr f (.core v c 0) ops) s =
          .next (withK s ((k2.pushEnd v c 0 q.d (f.eval (entryWord x) (entryWord y + BitVec.ofInt 64 q.simm))).advanceCore v c 0))) ∧
    (∀ v d a, bankAt s v d a (scalarOpcode f) ops → bankPopOk q.a = true → bankPopOk q.b = true → bankPushOk q.d = true →
      let b := s.k.phys v d a
      let k := enteredBank s.k v d b
      let u := k.bu v d b
      exec (scalarInstr f (.bank v d a) ops) s = .next (withK s
        (bankStepped k v d b (u.pushEnd q.d (f.eval (u.endValue q.a) (u.endValue q.b + BitVec.ofInt 32 q.simm)))))))

/-- MOV, LUI and LUI2 (Table 8.1): the popped operand plus the sign-extended immediate, plus it shifted left by 24, or plus its low 16 bits shifted
left by 48. LD and ST (R379): eight bytes of the operand cache at pop(A) + sext(IMM) + AIX, or four bytes of the bank unit's address space; one
check that fails stops the stream with its cause. -/
def Obligations.MovesLoadsAndStores : Prop :=
  (∀ (s : State) (ops : BitVec 56),
    let q := qForm ops
    (∀ v c,
      let k := entered s.k v c 0
      k.popOk v c 0 q.a = true → k.pushOk v c 0 q.d = true → k.pushReady v c 0 q.d = true →
      ∀ x k1, k.popEnd v c 0 q.a = .done x k1 →
        (coreAt s v c 0 0x20 ops → reservedZero ops (useD + useA + useI) = true → exec (.mov (.core v c 0) ops) s =
          .next (withK s ((k1.pushEnd v c 0 q.d (entryWord x + BitVec.ofInt 64 q.simm)).advanceCore v c 0))) ∧
        (coreAt s v c 0 0x21 ops → reservedZero ops (useD + useA + useI) = true → exec (.lui (.core v c 0) ops) s =
          .next (withK s ((k1.pushEnd v c 0 q.d (entryWord x + BitVec.ofNat 64 (q.imm * 2 ^ 24))).advanceCore v c 0))) ∧
        (coreAt s v c 0 0x22 ops → reservedZero ops (useD + useA + 0xFFFF) = true → exec (.lui2 (.core v c 0) ops) s =
          .next (withK s ((k1.pushEnd v c 0 q.d (entryWord x + BitVec.ofNat 64 (bitsAt q.imm 15 0 * 2 ^ 48))).advanceCore v c 0)))) ∧
    (∀ v d a, bankPopOk q.a = true → bankPushOk q.d = true → reservedZero ops (useD + useA + useI) = true →
      let b := s.k.phys v d a
      let k := enteredBank s.k v d b
      let u := k.bu v d b
      (bankAt s v d a 0x20 ops → exec (.mov (.bank v d a) ops) s =
        .next (withK s (bankStepped k v d b (u.pushEnd q.d (u.endValue q.a + BitVec.ofInt 32 q.simm))))) ∧
      (bankAt s v d a 0x21 ops → exec (.lui (.bank v d a) ops) s =
        .next (withK s (bankStepped k v d b (u.pushEnd q.d (u.endValue q.a + BitVec.ofNat 32 (q.imm * 2 ^ 24)))))))) ∧
  (∀ (s : State) (ops : BitVec 56),
    let q := qForm ops
    (∀ v c,
      let k := entered s.k v c 0
      ∀ x k1, k.popEnd v c 0 q.a = .done x k1 → k.popOk v c 0 q.a = true →
        let a := q.address (k1.stream v c 0).seq 64 (entryWord x).toNat
        (coreAt s v c 0 0x30 ops → reservedZero ops (useD + useA + useX + useI) = true → k.pushOk v c 0 q.d = true → k.pushReady v c 0 q.d = true →
          ((k1.core v c).ocCheck a 8 8 true = none → exec (.ld (.core v c 0) ops) s =
            .next (withK s ((k1.pushEnd v c 0 q.d (BitVec.ofNat 64 (leNat ((k1.core v c).ocBytes a 8)))).advanceCore v c 0))) ∧
          ((k1.core v c).ocCheck a 8 8 true = some .ocAlign → s.k.quiet v c 0 = true → exec (.ld (.core v c 0) ops) s =
            .next (withK s (k.coreFault v c 0 0x44 (s.k.stream v c 0).seq)))) ∧
        (∀ y k2, coreAt s v c 0 0x31 ops → reservedZero ops (useD + useA + useB + useX + useI) = true → k.popOk v c 0 q.b = true →
          q.d = endZero → k.supplies v c 0 q.b (if q.a = q.b then 2 else 1) = true → k1.popEnd v c 0 q.b = .done y k2 →
          let a2 := q.address (k2.stream v c 0).seq 64 (entryWord x).toNat
          (k2.core v c).ocCheck a2 8 8 false = none → exec (.st (.core v c 0) ops) s =
            .next (withK s ((k2.inOrder v c 0 (.store a2 (leBytes 8 (entryWord y).toNat))).advanceCore v c 0)))) ∧
    (∀ v d a, bankPopOk q.a = true →
      let b := s.k.phys v d a
      let k := enteredBank s.k v d b
      let u := k.bu v d b
      let at_ := q.address u.seq 32 (u.endValue q.a).toNat
      (∀ bs, bankAt s v d a 0x30 ops → reservedZero ops (useD + useA + useX + useI) = true → bankPushOk q.d = true → u.read at_ 4 4 = .ok bs →
        exec (.ld (.bank v d a) ops) s = .next (withK s (bankStepped k v d b (u.pushEnd q.d (BitVec.ofNat 32 (leNat bs)))))) ∧
      (∀ u', bankAt s v d a 0x31 ops → reservedZero ops (useD + useA + useB + useX + useI) = true → bankPopOk q.b = true → q.d = endZero →
        u.write at_ 4 (leBytes 4 (u.endValue q.b).toNat) = .ok u' →
        exec (.st (.bank v d a) ops) s = .next (withK s (bankStepped k v d b u'))) ∧
      (bankAt s v d a 0x30 ops → reservedZero ops (useD + useA + useX + useI) = true → bankPushOk q.d = true → u.read at_ 4 4 = .fault .align →
        exec (.ld (.bank v d a) ops) s = .next (withK s (k.bankFault v d b .align (s.k.bu v d b).seq.lib (s.k.bu v d b).seq.pc)))))

/-- R278, R279, R305: the operand cache reads back what was written, byte by byte, and every other byte stays; a word written whole loses its
uncorrectable mark, and an access is refused beyond the cache, off its alignment, or on a marked word. -/
def Obligations.OperandCacheReadsBack : Prop :=
  ∀ (x : Core) (a : Nat) (bs : List Byte), canonical 0 x.oc = true →
    (x.ocWrite a bs false).ocBytes a bs.length = bs ∧
    (∀ b, b < a ∨ a + bs.length ≤ b → (x.ocWrite a bs false).ocByte b = x.ocByte b) ∧
    canonical 0 (x.ocWrite a bs false).oc = true ∧
    (a % 8 = 0 → bs.length % 8 = 0 → canonical 0 x.ocMarks = true → (x.ocWrite a bs false).ocBad a bs.length = none) ∧
    (∀ n al, (x.ocCheck a n al false = none ↔ a + n ≤ 2 ^ 22 ∧ a % al = 0)) ∧
    (∀ n al w, a + n ≤ 2 ^ 22 → a % al = 0 → x.ocBad a n = some w → x.ocCheck a n al true = some .ocUncorrectable) ∧
    (∀ n al, 2 ^ 22 < a + n → x.ocCheck a n al true = some .ocRange) ∧
    (∀ n al, a + n ≤ 2 ^ 22 → a % al ≠ 0 → x.ocCheck a n al true = some .ocAlign)

/-- R320 to R323, R326, R431: what a pop of an end gives. A register end (a scalar, AI, LI or ZERO) gives its value and changes nothing; a hoop end
whose head holds nothing for the stream stalls, and while another stream is served before it none does; a sound head entry is delivered and leaves the
hoop; a poisoned one is left where it is. R322, R450: an instruction of CTL whose pop finds its hoop empty has not issued: the stream stalls on that
hoop and nothing else changes; one that meets a poisoned entry faults with HOOP_DATA_ERROR. -/
def Obligations.PopsGiveTheEndOrStop : Prop :=
  (∀ (k : Chip) (v c t e : Nat),
    (e < 0x20 → k.popEnd v c t e = .done (wordEntry ((k.core v c).sregs.getD e 0)) k) ∧
    (∀ n, n < 8 → e = 0x30 + n → k.popEnd v c t e = .done (wordEntry (BitVec.ofNat 64 ((k.stream v c t).seq.ai 64 n))) k) ∧
    (∀ n, n < 4 → e = 0x38 + n → k.popEnd v c t e = .done (wordEntry (BitVec.ofNat 64 ((k.stream v c t).seq.li n))) k) ∧
    (e = 0x3C → k.popEnd v c t e = .done (wordEntry 0) k) ∧
    (∀ h, h ≤ 16 → e = 0x40 + h → k.headFor v c t h = [] → k.popEnd v c t e = .stall 2 h) ∧
    (∀ h x rest, h ≤ 16 → e = 0x40 + h → k.headFor v c t h = x :: rest → x.poison = false →
      k.popEnd v c t e = .done x.data (k.popEntry v c t h)) ∧
    (∀ h x rest, h ≤ 16 → e = 0x40 + h → k.headFor v c t h = x :: rest → x.poison = true →
      k.popEnd v c t e = .poison (k.notePoison v c h))) ∧
  (∀ (s : State) (ops : BitVec 56) (v c : Nat),
    let q := qForm ops
    let k := entered s.k v c 0
    reservedZero ops (useD + useA + useI) = true → k.popOk v c 0 q.a = true → k.pushOk v c 0 q.d = true → k.pushReady v c 0 q.d = true →
      (∀ n, k.popEnd v c 0 q.a = .stall 2 n → coreAt s v c 0 0x20 ops →
        exec (.mov (.core v c 0) ops) s = .next (withK s (s.k.noteStall v c 0 2 n))) ∧
      (∀ k1, k.popEnd v c 0 q.a = .poison k1 → coreAt s v c 0 0x20 ops → s.k.quiet v c 0 = true →
        exec (.mov (.core v c 0) ops) s =
          .next (withK s (k1.coreFault v c 0 0x63 (s.k.stream v c 0).seq))))

/-! ### Sync objects, hoops and barriers -/

/-- SIGNAL, WAIT, POLL, BAR and HBAR at their streams (R365, R368, R387 to R389, R441). SIGNAL joins the stream's incomplete instructions with its
amount read at issue; WAIT registers its watch, which is judged at once; POLL pushes the object's value; BAR and HBAR hold the stream, BAR letting
every stream of its mask go on when the last arrives. -/
def Obligations.SyncInstructionsIssue : Prop :=
  ∀ (s : State) (v c t : Nat) (ops : BitVec 56),
    let q := qForm ops
    let k := entered s.k v c t
    let x := k.stream v c t
    (coreAt s v c t 0xC0 ops → reservedZero ops (useA + 0x3FFFFF) = true → q.obj < 48 → scalarEnd q.a = true → k.popOk v c t q.a = true →
      exec (.signal (.core v c t) ops) s = .next (withK s
        ((k.inflight v c t (.signal q.obj (q.amount + (k.endValue v c t q.a).toInt) x.seq)).advanceCore v c t))) ∧
    (coreAt s v c t 0xC1 ops → reservedZero ops useI = true → q.obj < 48 → q.cond < 3 →
      let k1 := k.setStream v c t { x with
        hold := some (.watch { obj := q.obj, cond := q.cond, threshold := q.threshold }), seq := x.seq.advance
        stall := some { kind := 1, index := q.obj, since := k.now }, reported := false }
      exec (.wait (.core v c t) ops) s = .next (withK s (k1.setCore v c (k1.core v c).evaluate))) ∧
    (coreAt s v c t 0xC2 ops → reservedZero ops (useD + 0x3F) = true → q.obj < 48 → (scalarEnd q.d = true ∨ hoopEnd q.d = true) →
      k.pushOk v c t q.d = true → (if hoopEnd q.d then k.pushQuiet v c t (slotOf q.d) else k.quiet v c t) = true →
      exec (.poll (.core v c t) ops) s =
        .next (withK s ((k.pushEnd v c t q.d (BitVec.ofNat 64 ((k.core v c).object q.obj))).advanceCore v c t))) ∧
    (coreAt s v c t 0x08 ops → reservedZero ops (3 * 2 ^ 38 + 0x1F * 2 ^ 32) = true → (cMask ops).testBit t = true → x.inflight = [] →
      (∀ o ∈ (k.core v c).streams, ∀ m, o.hold = some (.bar (cId ops) m) → m = cMask ops) →
      exec (.bar (.core v c t) ops) s = .next (withK s
        ((k.setStream v c t { x with
          hold := some (.bar (cId ops) (cMask ops)), seq := x.seq.advance, reported := false
          stall := some { kind := 5, index := cId ops, since := k.now } }).barRelease v c (cId ops) (cMask ops)))) ∧
    (coreAt s v c t 0x47 ops → reservedZero ops 0xF = true → k.quiet v c t = true → (k.core v c).enrolled.testBit q.imm = true →
      exec (.hbar (.core v c t) ops) s = .next (withK s
        ((k.setStream v c t { x with
          hold := some (.hbar q.imm), seq := x.seq.advance, reported := false
          stall := some { kind := 6, index := q.imm, since := k.now } }).setBar q.imm
            { k.bar q.imm with arrived := (k.bar q.imm).arrived ++ [(coreKey v c, k.now)] })))

/-- R438, R442: the sync unit judges the watches of a core once a cycle. Afterwards no stream waits on a plain watch whose condition held when the
cycle's signals had been applied, and none on a consuming watch whose condition still holds; a stream that no watch releases is as it was, and one
that a watch releases has lost its hold and its stall alone; objects only lose what consuming waits take from them. -/
def Obligations.NoSatisfiedWatchIsLeft : Prop :=
  ∀ x : Core, x.streams.length ≤ 5 → canonical 0 x.sync = true →
    let y := x.evaluate
    (∀ j w, j < 5 → (y.stream j).hold = some (.watch w) → w.cond ≠ 2 → w.met x = false) ∧
    (∀ j w, j < 5 → (y.stream j).hold = some (.watch w) → w.cond = 2 → w.met y = false) ∧
    (∀ j, y.stream j = x.stream j ∨ ∃ w, (x.stream j).hold = some (.watch w) ∧ y.stream j = (x.stream j).release) ∧
    (∀ o, y.object o ≤ x.object o) ∧ canonical 0 y.sync = true ∧ y.streams.length = x.streams.length ∧
    y = { x with streams := y.streams, sync := y.sync }

/-- R438, Table 8.17: a signal applied. Its sum below zero faults its stream with SYNC_UNDERFLOW, above 65,535 with SYNC_OVERFLOW, and the object
keeps its value; otherwise the object takes the sum, and SYNC_LAST names the signal. R438: SIGNAL_APPLIED applies the signals of the named streams in
ascending stream number, one each, and then judges the watches. -/
def Obligations.SignalsApply : Prop :=
  (∀ (k : Chip) (v c t obj : Nat) (n : Int) (q : Sequencer), canonical 0 (k.core v c).sync = true →
    canonical none (k.core v c).syncLast = true →
    let sum : Int := (k.core v c).object obj + n
    let since := match lookup none (k.core v c).syncLast obj with
      | some l => if l.stream = t then l.since else k.now
      | none => k.now
    (sum < 0 → k.applySignal v c t obj n q = k.coreFault v c t 0x60 q) ∧
    (65535 < sum → k.applySignal v c t obj n q = k.coreFault v c t 0x61 q) ∧
    (0 ≤ sum → sum ≤ 65535 → ∀ rest, (k.stream v c t).inflight = .signal obj n q :: rest →
      (∀ e w, rest.head? ≠ some (.put e w)) → (∀ a bs, rest.head? ≠ some (.store a bs)) → t < (k.core v c).streams.length →
      let m := (k.applySignal v c t obj n q).core v c
      (m.object obj : Int) = sum ∧ lookup none m.syncLast obj = some { stream := t, lib := q.lib, pc := q.pc, since := since } ∧
      (m.stream t).inflight = rest ∧
      (∀ o, o ≠ obj → m.object o = (k.core v c).object o) ∧ m.hoops = (k.core v c).hoops ∧ m.sregs = (k.core v c).sregs)) ∧
  (∀ (s : State) (v c : Nat) (mask : BitVec 5), liveOn s (s.hasCore v c) v →
    (mask = 0 → exec (.signalApplied v c mask) s = .next (withK s (s.k.setCore v c (s.k.core v c).evaluate))) ∧
    (∀ t, t < 5 → (∀ j, j < 5 → mask.toNat.testBit j = decide (j = t)) → ∀ obj n q, (s.k.stream v c t).oldest = some (.signal obj n q) →
      let k := s.k.applySignal v c t obj n q
      exec (.signalApplied v c mask) s = .next (withK s (k.setCore v c (k.core v c).evaluate))) ∧
    (∀ i j, i < j → j < 5 → (∀ m, m < 5 → mask.toNat.testBit m = decide (m = i ∨ m = j)) →
      let k := (s.k.signalStep v c i).signalStep v c j
      exec (.signalApplied v c mask) s = .next (withK s (k.setCore v c (k.core v c).evaluate))))

/-- HMOV, HPUSH, HPOP, FENCE and HFLUSH at their streams (R390, R420, R426, R427, R430): one entry moved whole, its LAST the complement of CONT; a
scalar pushed as an entry; an entry's word popped; a fence entry landing at once where the fence's conditions hold, and pending where they do not; a
hoop between packets emptied, and one with a packet open left flushing. -/
def Obligations.HoopInstructionsIssue : Prop :=
  ∀ (s : State) (v c t : Nat) (ops : BitVec 56),
    let q := qForm ops
    let k := entered s.k v c t
    let h := slotOf q.d
    (∀ e rest, coreAt s v c t 0xC3 ops → reservedZero ops (useD + useA + 1) = true → hoopEnd q.a = true → hoopEnd q.d = true →
      k.popOk v c t q.a = true → k.pushOk v c t q.d = true → k.pushQuiet v c t h = true → k.headFor v c t (slotOf q.a) = e :: rest →
      exec (.hmov (.core v c t) ops) s = .next (withK s
        (((k.popEntry v c t (slotOf q.a)).pushHoop v c t h { e with last := !q.cont, src := t }).advanceCore v c t))) ∧
    (∀ x k1, coreAt s v c t 0xC4 ops → reservedZero ops (useD + useA + 1) = true → hoopEnd q.d = true →
      k.popOk v c t q.a = true → k.pushOk v c t q.d = true → k.pushQuiet v c t h = true → k.popEnd v c t q.a = .done x k1 →
      exec (.hpush (.core v c t) ops) s = .next (withK s
        ((k1.pushHoop v c t h { data := wordEntry (entryWord x), last := !q.cont, fence := false, poison := false, src := t }).advanceCore v c t))) ∧
    (∀ x k1, coreAt s v c t 0xC5 ops → reservedZero ops (useD + useA) = true → hoopEnd q.a = true → (q.d < 0x20 ∨ q.d = endZero) →
      k.popOk v c t q.a = true → k.pushOk v c t q.d = true → k.quiet v c t = true → k.popEnd v c t q.a = .done x k1 →
      exec (.hpop (.core v c t) ops) s = .next (withK s ((k1.pushEnd v c t q.d (entryWord x)).advanceCore v c t))) ∧
    (coreAt s v c t 0xC6 ops → reservedZero ops useD = true → hoopEnd q.d = true → k.pushOk v c t q.d = true → k.quiet v c t = true →
      (k.fenceReady v c t h = true → exec (.fence (.core v c t) ops) s =
        .next (withK s ((k.landEntry v c h (k.fenceEntry v c t)).advanceCore v c t))) ∧
      (k.fenceReady v c t h = false → exec (.fence (.core v c t) ops) s =
        .next (withK s ((k.inflight v c t (.fence h k.now)).advanceCore v c t)))) ∧
    (coreAt s v c t 0xC7 ops → reservedZero ops 0xF = true → (k.hoopCfg v c q.imm).route ≠ 0 →
      let p := k.tailSlot v c q.imm
      ((k.hoop p.1 p.2.1 p.2.2).openBy = none → exec (.hflush (.core v c t) ops) s =
        .next (withK s ((k.flushNow p.1 p.2.1 p.2.2).advanceCore v c t))) ∧
      ((k.hoop p.1 p.2.1 p.2.2).openBy.isSome = true → exec (.hflush (.core v c t) ops) s =
        .next (withK s (((k.setHoop v c q.imm { k.hoop v c q.imm with flushing := true }).inflight v c t (.flush q.imm)).advanceCore v c t))))

/-- HOOP_ENTRY_AT_HEAD, HOOP_PUSH_LANDS and HOOP_MIDDLE_GROUP (R412, R415, R425, R426, R431): the oldest tail entry of a joined pair reaches the
head window of the IN slot where nothing stands before it; the stream's waiting push or fence lands once nothing holds it; the middle writes up to
sixteen entries as a group to its spill region, their sideband kept, or reads its oldest group back, each entry with the 64 bytes that the region
holds and poisoned where a word of them cannot be corrected. R411, R422: an entry that lands at a slot whose hoop does not flush joins the slot's
entries as the newest, and of those, in order from the head, none is lost and none changes place; the packet is open to its stream until its last
entry; no other slot of the core changes but the other slot of the hoop. -/
def Obligations.HoopEventsMoveEntriesInOrder : Prop :=
  (∀ (s : State) (v c : Nat) (h : BitVec 4), liveOn s (s.hasCore v c) v →
    let q := s.k.hoop v c h.toNat
    let g := s.k.hoopCfg v c h.toNat
    exec (.hoopEntryAtHead v c h) s = .next (withK s ((s.k.deliverEntry v c h.toNat).settleHoop v c h.toNat)) ∧
    (∀ e rest, g.route = 3 → g.hub = false → (coreKey g.vat g.core, g.slot) ≠ (coreKey v c, h.toNat) →
      h.toNat < (s.k.core v c).hoops.length → g.slot < (s.k.core g.vat g.core).hoops.length →
      (s.k.hoop g.vat g.core g.slot).tail = e :: rest → q.going = [] → q.groups = [] → q.back = [] → q.head.length < 8 →
      ∃ k', exec (.hoopEntryAtHead v c h) s = .next (withK s k') ∧
        k'.hoop g.vat g.core g.slot = { s.k.hoop g.vat g.core g.slot with tail := rest } ∧ k'.hoop v c h.toNat = { q with head := q.head ++ [e] }) ∧
    (∀ t j e n, t < 5 → (s.k.stream v c t).oldest = some (.push j e n) → s.k.pushHold v c t j = none →
      exec (.hoopPushLands v c t) s = .next (withK s ((s.k.finish v c t (.push j e n)).landEntry v c j e))) ∧
    (∀ t j n, t < 5 → (s.k.stream v c t).oldest = some (.fence j n) → s.k.fenceReady v c t j = true →
      exec (.hoopPushLands v c t) s = .next (withK s ((s.k.finish v c t (.fence j n)).landEntry v c j (s.k.fenceEntry v c t)))) ∧
    (let p := s.k.getF (Reg.hoopSpillBase v c h.toNat) 36 0 + 1024 * q.nextUnit
     q.going ≠ [] → q.groups.length < g.spill → s.k.middleTurn v p = true →
      let r := s.k.writeBytes s.dram v p (Config.middleSource % 8) ((q.going.take 16).flatMap (fun e => entryBytes e.data))
      exec (.hoopMiddleGroup v c h true) s = .next { s with
        dram := r.1
        k := r.2.setHoop v c h.toNat { q with
          going := q.going.drop 16, nextUnit := (q.nextUnit + 1) % g.spill
          groups := q.groups ++ [{ slot := q.nextUnit
                                   ends := (q.going.take 16).map (fun e => { last := e.last, fence := e.fence, poison := e.poison }) }] } }) ∧
    (∀ m rest, h.toNat < (s.k.core v c).hoops.length → q.groups = m :: rest → q.back = [] →
      let p := s.k.getF (Reg.hoopSpillBase v c h.toNat) 36 0 + 1024 * m.slot
      let word (i : Nat) : WordRead := s.dram.word (s.k.dramAt v (p + 32 * i))
      s.k.middleTurn v p = true → p % 32 = 0 →
      ∃ k', exec (.hoopMiddleGroup v c h false) s = .next (withK s k') ∧
        let n := k'.hoop v c h.toNat
        n.groups = rest ∧
        n.head ++ n.back ++ n.going ++ n.tail = q.head ++ m.ends.mapIdx (fun i e =>
          { data := entryOfBytes ((word (2 * i)).bytes ++ (word (2 * i + 1)).bytes), last := e.last, fence := e.fence
            poison := e.poison || (word (2 * i)).res.bad || (word (2 * i + 1)).res.bad, src := 7 }) ++ q.going ++ q.tail)) ∧
  (∀ (k : Chip) (v c h : Nat) (e : Entry), h < (k.core v c).hoops.length → k.hoopFlushing v c h = false →
    let q := k.hoop v c h
    let n := (k.landOne v c h e).hoop v c h
    n.head ++ n.back ++ n.going ++ n.tail = q.head ++ q.back ++ q.going ++ q.tail ++ [e] ∧ n.groups = q.groups ∧
    n.openBy = (if e.last then none else some e.src) ∧ n.lastPush = e.src ∧
    (∀ j, j ≠ h → (∀ pv pc, k.peerOf v c h = some (pv, pc, j) → coreKey pv pc ≠ coreKey v c) →
      (k.landOne v c h e).hoop v c j = k.hoop v c j))

/-! ### The press, the vector engine and the DMA engines -/

/-- PASS, PCLR, VCHAIN, VSMAX, VSET, VRSCLR and XFER at their streams (R121, R272, R295, R297, R375 to R386): a record or descriptor pair that passes
every check joins the stream's incomplete instructions, as PCLR does; VSET writes VL or a vector register below VL, at once where nothing of the
stream is incomplete and else in its turn, and faults with VL_RANGE on a length of 0 or above 128; VRSCLR clears the row status. -/
def Obligations.EngineInstructionsIssue : Prop :=
  ∀ (s : State) (v c t : Nat) (ops : BitVec 56),
    let q := qForm ops
    let k := entered s.k v c t
    let sq := (k.stream v c t).seq
    (∀ bs k1 r, coreAt s v c t 0x60 ops → reservedZero ops (useD + useA + useB + useX + useI) = true → pressForm q = true →
      k.pressFull v c = false → k.fetchRecord v c t q 32 = .done bs k1 → passOf bs = (r, true) → (k1.core v c).passFault r = none →
      (k1.core v c).firstOcFault r.reads true = none →
      exec (.pass (.core v c t) ops) s = .next (withK s ((k1.inflight v c t (.pass r sq)).advanceCore v c t))) ∧
    (coreAt s v c t 0x61 ops → reservedZero ops (useD + useB + 0x3FF) = true → pressForm q = true → k.pressFull v c = false →
      exec (.pclr (.core v c t) ops) s = .next (withK s
        ((k.inflight v c t (.pclr (bitsAt q.imm 1 0) (BitVec.ofNat 8 (bitsAt q.imm 9 2)))).advanceCore v c t))) ∧
    (∀ bs k1 r, coreAt s v c t 0x80 ops → reservedZero ops (useA + useX + useI) = true → k.vectorFree v c = true →
      k.fetchRecord v c t q 64 = .done bs k1 → chainOf bs = (r, true) → k.chainEndsOk v c r = true → (k1.core v c).chainFault r = none →
      (k1.core v c).chainOcFault r = none →
      exec (.vchain (.core v c t) ops) s = .next (withK s
        ((k1.inflight v c t (.chain r { scalars := (k1.core v c).scalarsOf r, done := 0, got := [], out := [], since := k.now } sq)).advanceCore v c t))) ∧
    (∀ bs k1 r, coreAt s v c t 0x81 ops → reservedZero ops (useA + useX + useI) = true → k.vectorFree v c = true →
      k.fetchRecord v c t q 32 = .done bs k1 → smaxOf bs = (r, true) → smaxLengthOk r.l = true → (r.kind = 0 → r.l ≤ 128) →
      (k1.core v c).smaxOcFault r = none →
      exec (.vsmax (.core v c t) ops) s = .next (withK s ((k1.inflight v c t (.smax r sq)).advanceCore v c t))) ∧
    (coreAt s v c t 0x82 ops → reservedZero ops (useD + useA + useI) = true → scalarEnd q.a = true → k.popOk v c t q.a = true → k.vectorFree v c = true →
      let x := k.core v c
      let w := k.endValue v c t q.a + BitVec.ofInt 64 q.simm
      (q.d = 0x3D → 1 ≤ w.toNat → w.toNat ≤ 128 → s.k.quiet v c t = true → exec (.vset (.core v c t) ops) s =
        .next (withK s ((k.setCore v c { x with vl := w.toNat }).advanceCore v c t))) ∧
      (q.d = 0x3D → s.k.quiet v c t = true → (w.toNat = 0 ∨ 128 < w.toNat) → exec (.vset (.core v c t) ops) s =
        .next (withK s (k.coreFault v c t 0x47 (s.k.stream v c t).seq))) ∧
      (∀ n, n < 16 → q.d = 0x20 + n → s.k.quiet v c t = true → exec (.vset (.core v c t) ops) s =
        .next (withK s ((k.setCore v c { x with vregs := storeRun 0 x.vregs (128 * n) (List.replicate x.vl (w.setWidth 32)) }).advanceCore v c t))) ∧
      (((q.d = 0x3D ∧ 1 ≤ w.toNat ∧ w.toNat ≤ 128) ∨ (0x20 ≤ q.d ∧ q.d < 0x30)) → s.k.quiet v c t = false → exec (.vset (.core v c t) ops) s =
        .next (withK s ((k.inflight v c t (.put q.d w)).advanceCore v c t)))) ∧
    (coreAt s v c t 0x83 ops → ops = 0 → k.vectorFree v c = true → exec (.vrsclr (.core v c t) ops) s =
      .next (withK s ((k.setCore v c { k.core v c with vrs := [] }).advanceCore v c t))) ∧
    (coreAt s v c t 0xA0 ops → q.d = endZero → q.a = endZero → q.b = endZero →
      let x := k.core v c
      let sa := descSlot (bitsAt q.imm 11 0)
      let da := descSlot (bitsAt q.imm 23 12)
      let src := Desc.parse (x.ocBytes sa 128) (signedOf 64 (q.aixVal sq 64))
      let dst := Desc.parse (x.ocBytes da 128) (signedOf 64 (q.aiyVal sq 64))
      x.firstOcFault [(sa, 128, 128), (da, 128, 128)] true = none → validateDescs src dst = none →
      exec (.xfer (.core v c t) ops) s = .next (withK s ((k.inflight v c t (.xfer src dst da sq DmaRows.none)).advanceCore v c t)))

/-- PRESS_PASS_COMPLETE, CHAIN_COMPLETE, DMA_TRANSFER_COMPLETE and DMA_UNIT_FAULT (R279, R289, R307, R311, R383): the instruction of the engine whose
turn it is performs its work and completes; one that meets an uncorrectable word of the operand cache, or a fault at a unit, stops its stream. A DMA
transfer first asks for the bank slots that it needs, never more than 64 rows outstanding (R304), and ends with none. -/
def Obligations.EnginesComplete : Prop :=
  (∀ (s : State) (v c : Nat), liveOn s (s.hasCore v c) v →
    let x := s.k.core v c
    (∀ r q, (s.k.stream v c 1).oldest = some (.pass r q) → x.firstOcFault r.reads true = none →
      exec (.pressPassComplete v c) s = .next (withK s
        ((((s.k.setCore v c (x.runPass r).1).coreFlag v c .accSat (x.runPass r).2).count (Reg.corePressRows v c) r.m).finish v c 1 (.pass r q)))) ∧
    (∀ r q a n, (s.k.stream v c 1).oldest = some (.pass r q) → x.firstOcFault r.reads true = some (.ocUncorrectable, a, n) →
      exec (.pressPassComplete v c) s = .next (withK s ((s.k.noteOcUe v c a n).coreFault v c 1 0x45 q))) ∧
    (∀ set e, (s.k.stream v c 1).oldest = some (.pclr set e) → exec (.pressPassComplete v c) s =
      .next (withK s ((s.k.setCore v c (x.clearSet set e)).finish v c 1 (.pclr set e)))) ∧
    (∀ r run q, s.k.vectorTurn v c = some (.chain r run q) → (run.done = 0 → run.got = [] → x.chainOcFault r = none) →
      (∀ k1, s.k.chainRun v c r run = .finished k1 → exec (.chainComplete v c) s = .next (withK s (k1.finish v c 2 (.chain r run q)))) ∧
      (∀ k1, s.k.chainRun v c r run = .poison k1 → exec (.chainComplete v c) s = .next (withK s (k1.coreFault v c 2 0x63 q))) ∧
      (∀ k1 run', s.k.chainRun v c r run = .going k1 run' → exec (.chainComplete v c) s = .next (withK s (k1.chainKeep v c r q run run')))) ∧
    (∀ r q, s.k.vectorTurn v c = some (.smax r q) → x.smaxOcFault r = none →
      exec (.chainComplete v c) s = .next (withK s ((s.k.runSmax v c r).finish v c 2 (.smax r q)))) ∧
    (∀ e : Bool,
      let g : Engine := { v := v, c := c, e := e.toNat }
      let r := s.k.pump g
      (r.2 = none → exec (.dmaTransferComplete v c e) s = .next (withK s r.1) ∧ exec (.dmaUnitFault v c e) s = .next (withK s r.1)) ∧
      (∀ p src dst da q rows, r.2 = some p → r.1.transfer v c e.toNat = some (src, dst, da, q, rows) →
        (p.fault = none → exec (.dmaTransferComplete v c e) s =
          .next (withK s ((p.land r.1 g dst).finish v c (3 + e.toNat) (.xfer src dst da q rows)))) ∧
        (∀ n f, p.fault = some (n, f) → exec (.dmaUnitFault v c e) s =
          .next (withK s (((p.land r.1 g dst).dmaRecord g f dst (some n) da).coreFault v c (3 + e.toNat) f.cause.code q)))))) ∧
  (∀ (k : Chip) (g : Engine) src dst da q rows, k.transfer g.v g.c g.e = some (src, dst, da, q, rows) → rows.asked.length ≤ 64 →
    ∃ rows', (k.pump g).1.transfer g.v g.c g.e = some (src, dst, da, q, rows') ∧ rows'.asked.length ≤ 64 ∧
      (∀ x ∈ rows.asked, x ∈ rows'.asked) ∧ ((k.pump g).2.isSome = true → rows'.asked = []))

/-- R286: after a clear of a set, every word of the set is zero and its tile exponent is the one named; the other sets keep words and exponents.
R283, R286: a pass with CLEAR is the pass without it on the set cleared, whatever its M. A pass changes rows ROW0 to ROW0 + M − 1 of its own set
alone, and, without CLEAR, no other word of the accumulator file; it writes no vector register and nothing of the operand cache. -/
def Obligations.PassesAndClearsTouchTheirRowsAlone : Prop :=
  (∀ (x : Core) (set : Nat) (e : BitVec 8), set < 4 → x.accT.length = 4 →
    (∀ r w, r < 128 → w < 128 → (x.clearSet set e).accWord set r w = 0) ∧
    (∀ o r w, o ≠ set → r < 128 → w < 128 → (x.clearSet set e).accWord o r w = x.accWord o r w) ∧
    (x.clearSet set e).texp set = (true, e) ∧ (∀ o, o ≠ set → (x.clearSet set e).texp o = x.texp o) ∧
    (x.clearSet set e).vregs = x.vregs ∧ (x.clearSet set e).oc = x.oc ∧ (x.clearSet set e).streams = x.streams) ∧
  (∀ (x : Core) (r : PassRec),
    (r.clear = true → x.runPass r = (x.clearSet r.set (BitVec.ofInt 8 r.texp)).runPass { r with clear := false }) ∧
    (r.clear = false →
    (∀ o i w, i < 128 → w < 128 → r.row0 + r.m ≤ 128 → r.set < 4 → o < 4 → (o ≠ r.set ∨ i < r.row0 ∨ r.row0 + r.m ≤ i) →
      (∀ t, x.tile = some t → t.cols.length ≤ 128) → (x.runPass r).1.accWord o i w = x.accWord o i w) ∧
    (x.runPass r).1.oc = x.oc ∧ (x.runPass r).1.vregs = x.vregs ∧ (x.runPass r).1.accT = x.accT ∧ (x.runPass r).1.streams = x.streams))

/-! ### The base die -/

/-- BLOAD, BCAST, SWRITE and SREAD (R273, R274, R339, R380, R381): a record in range whose payload lies in the operand cache is accepted: the load
joins its die's queue, the write the die's writes, the read the stream's incomplete instructions; the stream steps on. BSTART, BSTOP and MERGE (R177
to R183, R252, R255, R436): a start in range takes the die's next START_SEQ and joins its queue unless a named bank unit has two starts outstanding,
in which case the stream stalls; a stop acts on each bank unit named; a merge whose image and outputs lie in the operand cache joins its lane's
queue while that holds fewer than three. -/
def Obligations.BaseDieCommandsAreAccepted : Prop :=
  (∀ (s : State) (v c : Nat) (ops : BitVec 56) (bs : List Byte) (k1 : Chip),
    let q := qForm ops
    let k := entered s.k v c 0
    reservedZero ops (useA + useX + useI) = true →
    (coreAt s v c 0 0x40 ops → k.fetchRecord v c 0 q 32 = .done bs k1 →
      let mask := recField bs 0 16
      let off := recField bs 16 18
      let cnt := recField bs 18 20
      let src := recField bs 20 24
      let d := 4 * c + recField bs 24 25
      mask < 2 ^ 100 → off + cnt ≤ 511 → src < 2 ^ 22 → recField bs 24 25 < 4 → zeroBytes bs 25 32 = true →
      (k1.core v c).ocCheck src (8 * (cnt + 1)) 64 true = none →
      let x := k1.die v d
      let ws := (words64 ((k1.core v c).ocBytes src (8 * (cnt + 1))) (cnt + 1)).map (BitVec.ofNat 64)
      exec (.bload (.core v c 0) ops) s =
        .next (withK s ((k1.setDie v d { x with cmds := x.cmds ++ [.load mask off ws] }).advanceCore v c 0))) ∧
    (∀ oc off len die lg, k.fetchRecord v c 0 q 32 = .done bs k1 → scratchRecord bs = some (oc, off, len, die, lg) →
      let x := k1.die v (4 * c + die)
      let data := (k1.core v c).ocBytes oc len
      (coreAt s v c 0 0x43 ops → lg = 0 → (k1.core v c).ocCheck oc len 32 true = none → exec (.bcast (.core v c 0) ops) s =
        .next (withK s ((k1.setDie v (4 * c + die) { x with writes := x.writes ++ [.write none off data] }).advanceCore v c 0))) ∧
      (coreAt s v c 0 0x44 ops → (k1.core v c).ocCheck oc len 32 true = none → exec (.swrite (.core v c 0) ops) s =
        .next (withK s ((k1.setDie v (4 * c + die) { x with writes := x.writes ++ [.write (some lg) off data] }).advanceCore v c 0))) ∧
      (coreAt s v c 0 0x45 ops → (k1.core v c).ocCheck oc len 32 false = none → exec (.sread (.core v c 0) ops) s =
        .next (withK s ((k1.inflight v c 0 (.sread (4 * c + die) lg off len oc)).advanceCore v c 0))))) ∧
  (∀ (s : State) (v c : Nat) (ops : BitVec 56) (bs : List Byte) (k1 : Chip),
    let q := qForm ops
    let k := entered s.k v c 0
    reservedZero ops (useA + useX + useI) = true →
    (coreAt s v c 0 0x41 ops → k.fetchRecord v c 0 q 64 = .done bs k1 →
      let mask := recField bs 0 16
      let entry := recField bs 32 34
      let b34 := recField bs 34 35
      let first := recField bs 36 38
      let rows := recField bs 38 42
      let d := 4 * c + b34 % 4
      let x := k1.die v d
      mask < 2 ^ 100 → entry < 512 → b34 < 8 → rows ≤ 65536 → first + rows ≤ 65536 → zeroBytes bs 35 36 = true → zeroBytes bs 42 64 = true →
      ((∀ a ∈ maskList mask, k1.startable v d a = true → k1.outstanding v d a < 2) →
        ∃ k2 : Chip, exec (.bstart (.core v c 0) ops) s = .next (withK s (k2.advanceCore v c 0)) ∧
          let y := k2.die v d
          y.startSeq = (x.startSeq + 1) % 2 ^ 16 ∧
          (∃ cmd : StartCmd, y.cmds = x.cmds ++ [.start mask (b34 / 4 = 1) cmd] ∧ cmd.seq = y.startSeq ∧ cmd.entry = entry ∧
            cmd.fenceFirst = first ∧ cmd.fenceRows = rows ∧ cmd.domain = (k1.core v c).domain ∧
            ∀ i, i < 4 → (cmd.args.getD i 0).toNat = recField bs (16 + 4 * i) (20 + 4 * i)) ∧
          y.starts = x.starts ++ [{ seq := y.startSeq, group := b34 / 4 = 1, mask := mask, left := maskList mask, results := [] }] ∧
          y.writes = x.writes ∧ y.bankMap = x.bankMap ∧ k2.bus = k1.bus ∧ k2.regs = k1.regs ∧ k2.cores = k1.cores) ∧
      ((∃ a ∈ maskList mask, k1.startable v d a = true ∧ 2 ≤ k1.outstanding v d a) →
        exec (.bstart (.core v c 0) ops) s = .next (withK s (s.k.noteStall v c 0 7 0)))) ∧
    (coreAt s v c 0 0x42 ops → k.fetchRecord v c 0 q 32 = .done bs k1 →
      let mask := recField bs 0 16
      let d := 4 * c + recField bs 16 17
      mask < 2 ^ 100 → recField bs 16 17 < 4 → zeroBytes bs 17 32 = true →
      pickCmd (fun x => x.isStart && Nat.land x.names mask ≠ 0) (k1.startFree v d) 0 [] (k1.die v d).cmds = none →
      exec (.bstop (.core v c 0) ops) s = .next (withK s (((maskList mask).foldl (fun k a => k.stopUnit v d a) k1).advanceCore v c 0))) ∧
    (coreAt s v c 0 0x46 ops → k.fetchRecord v c 0 q 32 = .done bs k1 →
      let image := recField bs 0 4
      let out := recField bs 4 8
      let b18 := recField bs 18 19
      let d := 4 * c + b18 % 4
      let x := k1.die v d
      let h := waveHdr ((k1.core v c).ocBytes image 32)
      image < 2 ^ 22 → out < 2 ^ 22 → recField bs 8 12 < 2 ^ 22 → recField bs 12 16 < 2 ^ 22 → b18 < 8 → zeroBytes bs 19 32 = true →
      (k1.core v c).firstOcFault [(image, 32, 32), (image, 32 * (1 + h.nent), 32)] true = none →
      (k1.core v c).firstOcFault (h.mergeWrites out (recField bs 8 12) (recField bs 12 16) (b18 / 4 = 1)) false = none →
      x.mergeQ.length + (if x.merge.isSome then 1 else 0) < 3 →
      exec (.merge (.core v c 0) ops) s = .next (withK s ((k1.setDie v d { x with
        mergeQ := x.mergeQ ++ [({ core := c, image := image, out := out, status := recField bs 8 12, mass := recField bs 12 16
                                  waveSeq := recField bs 16 18, massEn := b18 / 4 = 1, entries := 255 }, k1.attachments v d)] }).advanceCore v c 0))))

/-- The events of a die's queues (R179 to R185, R189, R274, R339, R342, R381, R433): a start or load that nothing holds reaches its bank units; a
pending start begins, or is NOT_STARTED on a bank unit that serves no program; a program whose slots have ended completes its start, and the
starts that a stop discarded are NOT_STARTED; the oldest completion lands in CPL, or waits where CPL is full; the oldest write lands in scratch, a
broadcast in every bank unit of indices 0 to 95 that serves one; the oldest scratch read comes back. R178, R343: a program that begins starts at
its entry with its arguments in S0 to S3, its own index in S15, every other scalar register and every AI register zero, no loop and no frame open;
BU_STATUS shows no cause, and BU_NUMFLAGS, the program store, the latches and scratch stay as they are. -/
def Obligations.DieQueuesMoveAndStart : Prop :=
  (∀ (s : State) (v d : Nat), liveOn s (s.hasDie v d) v →
    let k := s.k
    let x := k.die v d
    (∀ mask group cmd rest, pickCmd DieCmd.isStart (k.startFree v d) 0 [] x.cmds = some (.start mask group cmd, rest) → mask ≠ 0 →
      exec (.buStartArrival v d) s = .next (withK s
        ((maskList mask).foldl (fun k a => k.startUnit v d a cmd) (k.setDie v d { x with cmds := rest })))) ∧
    (∀ mask off ws rest, pickCmd DieCmd.isLoad (k.loadFree v d) 0 [] x.cmds = some (.load mask off ws, rest) →
      exec (.buPstoreLoad v d) s = .next (withK s
        ((maskList mask).foldl (fun k a => if (k.die v d).startable a then k.setUnit v d a ((k.unit v d a).loadStore off ws) else k)
          ((k.setDie v d { x with cmds := rest }).count (Reg.tsvDownBytes v) (8 * ws.length))))) ∧
    (∀ a cmd, a < 100 → (k.unit v d a).waiting = some cmd → (k.unit v d a).run ≠ .run → (k.unit v d a).dropped = [] →
      k.awaitsPlace v d a = false →
      let u := { k.unit v d a with waiting := none }
      exec (.pendingStartBegin v d a) s = .next (withK s
        (if k.startable v d a then k.setUnit v d a (u.begin a k.now (k.fenceLimit v d) cmd)
         else (k.setUnit v d a u).completeStart v d a cmd.seq .notStarted))) ∧
    (∀ a st cmd, a < 100 → (k.unit v d a).ending = some st → (k.unit v d a).start = some cmd → (k.unit v d a).slotsOpen = false →
      let u := k.unit v d a
      exec (.buProgramEnd v d a) s = .next (withK s (u.dropped.foldl (fun k w => k.completeStart v d a w.seq .notStarted)
        ((k.setUnit v d a { u.ended st with dropped := [] }).completeStart v d a cmd.seq st)))) ∧
    (∀ e rest, x.posts = e :: rest → (k.core v (ownerOf d)).cpl.length < 1024 →
      let r := k.postCpl v (ownerOf d) (e ||| BitVec.ofNat 512 (k.now * 2 ^ 448))
      exec (.buCompletionPost v d) s = .next (withK s (r.1.setDie v d { x with posts := rest }))) ∧
    (∀ e rest, x.posts = e :: rest → 1024 ≤ (k.core v (ownerOf d)).cpl.length →
      exec (.buCompletionPost v d) s = .next (withK s (k.raise (Reg.cplStatus v (ownerOf d)) 31))) ∧
    (∀ target off bs rest, x.writes = .write target off bs :: rest →
      let k1 := k.setDie v d { x with writes := rest }
      let land (k : Chip) (a : Nat) : Chip := k.setUnit v d a ((k.unit v d a).scratchWrite off bs)
      exec (.tsvWriteLand v d) s = .next (withK s (match target with
        | none => ((List.range 96).filter x.startable).foldl land (k1.count (Reg.tsvDownBytes v) bs.length)
        | some a => if x.startable a then land (k1.count (Reg.tsvDownBytes v) bs.length) a else k1))) ∧
    (∀ c a off len oc, c < 4 → (k.stream v c 0).oldest = some (.sread d a off len oc) →
      exec (.scratchReadComplete v c) s = .next (withK s (Chip.finish
        (if x.startable a then
          (k.setCore v c ((k.core v c).ocWrite oc (lookupRun 0 (k.unit v d a).scratch off len) false)).count (Reg.tsvUpBytes v) len
         else k) v c 0 (.sread d a off len oc))))) ∧
  (∀ (u : Bu) (a now limit : Nat) (cmd : StartCmd), cmd.args.length = 4 →
    let n := u.begin a now limit cmd
    n.run = .run ∧ n.cause = 0 ∧ n.start = some cmd ∧ n.seq = Sequencer.start cmd.entry ∧
    (∀ i, i < 4 → n.sregs.getD i 0 = cmd.args.getD i 0) ∧ (∀ i, 4 ≤ i → i < 15 → n.sregs.getD i 0 = 0) ∧
    n.sregs.getD 15 0 = BitVec.ofNat 32 a ∧ n.sregs.length = 16 ∧
    n.pstore = u.pstore ∧ n.latches = u.latches ∧ n.scratch = u.scratch ∧
    ∀ (k : Chip) (v d : Nat), (k.setUnit v d a n).reg (Reg.buNumflags v d (k.phys v d a)) = k.reg (Reg.buNumflags v d (k.phys v d a)))

/-- MERGE_BEGIN, MERGE_COMPLETE, WHEY_GRANT and WHEY_LAND (R192 to R199, R252 to R261): the lane's next merge reads its wave image, going on past
a word that cannot be corrected (the model's choice, log entry 69); a merge whose starts have completed is combined, entry by entry, and posted;
the bus carries the oldest transfer of the next sender, and lands it in its destination's scratch. -/
def Obligations.MergesAndWheyMove : Prop :=
  ∀ (s : State) (v d : Nat), liveOn s (s.hasDie v d) v →
    let k := s.k
    let x := k.die v d
    (∀ cmd att rest, x.merge = none → x.mergeQ = (cmd, att) :: rest →
      let o := k.core v cmd.core
      let n := 32 * (1 + leNat (o.ocBytes (cmd.image + 2) 1) % 16)
      exec (.mergeBegin v d) s = .next (withK s ((k.noteOcUe v cmd.core cmd.image n).setDie v d { x with
        merge := some { cmd := cmd, image := o.ocBytes cmd.image n, attach := att }, mergeQ := rest }))) ∧
    (∀ r, x.merge = some r →
      let h := waveHdr (r.image.take 32)
      let qs := (List.range h.nent).map (fun j => qEntry ((r.image.drop (32 + 32 * j)).take 32))
      r.ready h qs = true →
      let m := (r.entriesOf h).foldl (fun (m : MergeAcc) j => m.entry v d r h qs j) { k := k, status := 0, lost := 0 }
      exec (.mergeComplete v d) s = .next (withK s
        ((m.k.setDie v d { m.k.die v d with merge := none, mergeSeq := r.cmd.waveSeq }).post v d (mergeEntry d r.cmd.waveSeq m.status m.lost)))) ∧
    (∀ a w rest, x.wheyBus = none → k.wheyNext v d = some a → (k.unit v d a).wheyQ = w :: rest →
      let u := k.unit v d a
      let k1 := (k.setUnit v d a { u with wheyTx := (u.wheyTx + 1) % 2 ^ 16, wheyQ := rest.map (fun r => { r with sent := max r.sent k.now }) }).satMax
        (Reg.dieWheyWaitMax v d) 15 0 ((k.now - w.sent) / 2)
      exec (.wheyGrant v d) s = .next (withK s (k1.setDie v d { x with
        wheyLast := a, wheyBus := some { src := a, dst := w.dst, dstAt := w.dstAt, bytes := lookupRun 0 u.scratch w.src w.len } }))) ∧
    (∀ w, x.wheyBus = some w →
      let k1 := k.setDie v d { x with wheyBus := none }
      let u := k1.unit v d w.dst
      exec (.wheyLand v d) s = .next (withK s
        ((k1.setUnit v d w.dst { u.scratchWrite w.dstAt w.bytes with wheyRx := (u.wheyRx + 1) % 2 ^ 16 }).count (Reg.dieWheyBytes v d) w.bytes.length)))

/-! ### Bank units -/

/-- BRD, BWR, BWSEND and BWSTAT on a bank unit (R162, R193, R394, R863): a row slot joins the arbiter's queue once its latch is free and its page
lets it; a transfer joins the send queue while it holds fewer than four; a status read gives the transfers received, or those waiting. BCPY, BDOT,
BALU, BEXP, BRED, BQUANT and BDEC on a bank unit (Tables 8.13 to 8.15): where every access lies in one region, aligned and at rest, the results take
their place in the bank unit's address space, or in D for a reduction, and BU_NUMFLAGS gathers what the work met. -/
def Obligations.BankInstructionsRun : Prop :=
  (∀ (s : State) (v d a : Nat) (ops : BitVec 56),
    let q := qForm ops
    let b := s.k.phys v d a
    let k := enteredBank s.k v d b
    let u := k.bu v d b
    let row := (u.endValue q.a).toNat % 2 ^ 16
    let l := q.imm % 2
    let ask (use : SlotUse) : Bu := { u with slotQ := u.slotQ ++ [{ use := use, cls := .bank, row := some row, arrived := k.now }] }
    (reservedZero ops (useD + useA + 1) = true → q.d = endZero → bankPopOk q.a = true → u.latchBusy false l = false →
      (bankAt s v d a 0xE0 ops → k.rowCheck v d b row false = none →
        exec (.brd (.bank v d a) ops) s = .next (withK s (bankStepped k v d b (ask (.buRead l row))))) ∧
      (bankAt s v d a 0xE1 ops → k.rowCheck v d b row true = none →
        exec (.bwr (.bank v d a) ops) s = .next (withK s (bankStepped k v d b (ask (.buWrite l row))))) ∧
      (∀ f, bankAt s v d a 0xE1 ops → k.rowCheck v d b row true = some f →
        exec (.bwr (.bank v d a) ops) s = .next (withK s (k.bankFault v d b f (s.k.bu v d b).seq.lib (s.k.bu v d b).seq.pc)))) ∧
    (bankAt s v d a 0xE9 ops → reservedZero ops (useD + useA + useB + useX + 0x1F) = true → datapathForm q = true → bankPopOk q.b = true →
      let n := 32 * (q.imm % 32 + 1)
      let src := (u.endValue q.a).toNat % 2 ^ 16
      let dst := (u.endValue q.b).toNat
      let off := (q.dest u).toNat % 2 ^ 16
      wheyFault src n = none → wheyFault off n = none → dst < 100 → (k.die v d).startable dst = true → u.wheyQ.length < 4 →
      exec (.bwsend (.bank v d a) ops) s = .next (withK s (bankStepped k v d b
        { u with wheyQ := u.wheyQ ++ [{ src := src, dst := dst, dstAt := off, len := n, sent := k.now }] }))) ∧
    (bankAt s v d a 0xEA ops → reservedZero ops (useD + 1) = true → bankPushOk q.d = true →
      exec (.bwstat (.bank v d a) ops) s = .next (withK s (bankStepped k v d b
        (u.pushEnd q.d (BitVec.ofNat 32 (if q.imm = 0 then u.wheyRx else u.wheyQ.length))))))) ∧
  (∀ (s : State) (v d a : Nat) (ops : BitVec 56),
    let q := qForm ops
    let b := s.k.phys v d a
    let k := enteredBank s.k v d b
    let u := k.bu v d b
    let src := (u.endValue q.a).toNat % 2 ^ 16
    let dst := (q.dest u).toNat % 2 ^ 16
    let stepped (u' : Bu) (n : NumSet) : State :=
      withK s (bankStepped ((k.setBu v d b u').setBuNum v d b n) v d b u')
    (∀ u', bankAt s v d a 0xE2 ops → reservedZero ops (useD + useA + useX + 0x1F) = true → datapathForm q = true →
      u.copyWords src dst (q.imm % 32 + 1) 0 = .ok u' → exec (.bcpy (.bank v d a) ops) s = .next (stepped u' {})) ∧
    (∀ fa fb u' sat, bankAt s v d a 0xE3 ops → reservedZero ops (useD + useA + useB + useX + 0xFFFFF) = true → datapathForm q = true →
      bankPopOk q.b = true → bankFmt (bitsAt q.imm 3 0) = some fa → bankFmt (bitsAt q.imm 7 4) = some fb →
      u.dotPairs fa fb (signedOf 8 (bitsAt q.imm 15 8)) (u.endValue q.a) (u.endValue q.b) dst (q.imm.testBit 19) (q.imm.testBit 18)
        (bitsAt q.imm 17 16 + 1) 0 false = .ok (u', sat) →
      exec (.bdot (.bank v d a) ops) s = .next (stepped u' { accSat := sat })) ∧
    (∀ x y u', bankAt s v d a 0xE4 ops → reservedZero ops (useD + useA + useB + useX + 0x3F1F) = true → datapathForm q = true →
      bankPopOk q.b = true → laneCodeOk true (bitsAt q.imm 4 0) = true → u.lanes src 8 = .ok x →
      (if laneNeedsB (bitsAt q.imm 4 0) = false then .ok (List.replicate 8 0)
       else if q.imm.testBit 13 then .ok (List.replicate 8 (u.endValue q.b).toInt) else u.lanes ((u.endValue q.b).toNat % 2 ^ 16) 8) = BankMem.ok y →
      let rs := x.zipWith (laneFn (bitsAt q.imm 4 0) (bitsAt q.imm 12 8)) y
      u.write dst 4 (laneBytes (rs.map (·.1))) = .ok u' →
      exec (.balu (.bank v d a) ops) s = .next (stepped u' { laneSat := rs.any (·.2) })) ∧
    (∀ x u', bankAt s v d a 0xE5 ops → reservedZero ops (useD + useA + useB + useX) = true → datapathForm q = true → bankPopOk q.b = true →
      u.lanes src 8 = .ok x →
      let ds := x.map (fun l => clampBits 32 (l - (u.endValue q.b).toInt))
      u.write dst 4 (laneBytes (ds.map (fun r => exp2Q15 r.1))) = .ok u' →
      exec (.bexp (.bank v d a) ops) s = .next (stepped u' { laneSat := ds.any (·.2) })) ∧
    (∀ x, bankAt s v d a 0xE6 ops → reservedZero ops (useD + useA + useB + 3) = true → bankPushOk q.d = true → bankPopOk q.a = true →
      bankPopOk q.b = true → q.imm ≤ 2 → u.lanes src 8 = .ok x →
      let r := laneReduce q.imm x (u.endValue q.b).toInt
      exec (.bred (.bank v d a) ops) s = .next (stepped (u.pushEnd q.d (BitVec.ofInt 32 r.1)) { laneSat := r.2 })) ∧
    (∀ g x u', bankAt s v d a 0xE7 ops → reservedZero ops (useD + useA + useX + 0xFF0F) = true → datapathForm q = true →
      bankFmt (bitsAt q.imm 3 0) = some g → u.lanes src 32 = .ok x →
      let r := quantise g (signedOf 8 (bitsAt q.imm 15 8)) x
      u.writeAll [(dst, 8, packBlock g r.codes), ((q.dest u).toNat / 2 ^ 16, 2, leBytes 2 r.scale)] = .ok u' →
      exec (.bquant (.bank v d a) ops) s = .next (stepped u' { qsat := r.qsat })) ∧
    (∀ g blk u', bankAt s v d a 0xE8 ops → reservedZero ops (useD + useA + useX + 0xFF0F) = true → datapathForm q = true →
      bankFmt (bitsAt q.imm 3 0) = some g → u.block g (u.endValue q.a) 0 = .ok blk →
      let rs := decodeLanes (signedOf 8 (bitsAt q.imm 15 8)) blk.1 blk.2
      u.write dst 4 (laneBytes (rs.map (·.1))) = .ok u' →
      exec (.bdec (.bank v d a) ops) s = .next (stepped u' { laneSat := rs.any (·.2) })))

/-! ### Row slots, refresh, the walker, takeover -/

/-- ROW_SLOT_GRANT and ROW_SLOT_END (R163 to R169, Tables 4.2 and 4.11): an idle bank of a vat that runs begins the slot the arbiter chooses, counted
in its class; at its end the bank is idle again and the slot has its effect: a read slot fills its latch with the row's 32 column words as their
decoder delivers them, a write slot stores the latch's written words into the row, under the host's writes to that row that are still to be stored.
-/
def Obligations.RowSlotsRun : Prop :=
  ∀ (s : State) (v d b : Nat), live s (s.hasLogical v d b) →
    let k := s.k
    let u := k.bu v d b
    let idle := k.setBu v d b { u with active := none }
    (∀ r, u.active = none → k.vatRuns v = true → u.nextSlot = some r →
      let k1 := k.setBu v d b { u with active := some r, slotQ := u.slotQ.erase r, baseRun := u.runAfter r }
      exec (.rowSlotGrant v d b) s = .next (withK s
        (match r.cls with
          | .base => (k1.count (Reg.buSlotsBase v d b) r.slots).satMax (Reg.buWaitMax v d b) 15 0 ((k.now - r.arrived) / 2)
          | .bank => k1.count (Reg.buSlotsBu v d b) 1
          | _ => k1))) ∧
    (∀ r, u.active = some r →
      let x := idle.slotEnd s.dram s.part.vats v d b r
      exec (.rowSlotEnd v d b) s = .next { s with dram := x.1, k := x.2 }) ∧
    (∀ r l row, u.active = some r → r.use = .buRead l row → l < u.latches.length →
      ∃ k', exec (.rowSlotEnd v d b) s = .next (withK s k') ∧
        let n := k'.bu v d b
        n.active = none ∧ n.latch l = latchOf ((List.range 32).map (fun i => s.dram.word (bankByte v d b (1024 * row + 32 * i)))) ∧
        n.slotQ = u.slotQ ∧ n.scratch = u.scratch ∧ n.sregs = u.sregs) ∧
    (∀ r l row, u.active = some r → r.use = .buWrite l row →
      exec (.rowSlotEnd v d b) s = .next { s with
        dram := idle.hostOver (storeLatch s.dram v d b row (u.latch l)) v d b row, k := idle })

/-- R165, R166, R173, R174: refresh is granted before all; a base-die request before a bank-unit one, unless the run of eight base-die slots has no
room for its slots; a scrub request where nothing else may be granted; of one class the request that arrived first. A request that a fence window
holds is never granted. -/
def Obligations.ArbiterKeepsItsOrder : Prop :=
  ∀ (u : Bu) (r : SlotReq), u.nextSlot = some r →
    r ∈ u.slotQ ∧ u.holds r = false ∧
    (∀ x ∈ u.slotQ, x.cls = r.cls → u.holds x = false → r.arrived ≤ x.arrived) ∧
    ((∃ x ∈ u.slotQ, x.cls = .refresh) → r.cls = .refresh) ∧
    (r.cls = .scrub → ∀ x ∈ u.slotQ, u.holds x = true ∨ x.cls = .scrub) ∧
    (r.cls = .bank → (∀ x ∈ u.slotQ, x.cls = .base → u.holds x = true) ∨ ∃ x ∈ u.slotQ, x.cls = .base ∧ 8 < u.baseRun + x.slots) ∧
    (r.cls = .base → 8 < u.baseRun + r.slots → ∀ x ∈ u.slotQ, x.cls ≠ .bank)

/-- REFRESH, SCRUB_PROMOTION, FENCE_TIMEOUT, BU_CHECKER_TRIP and BRINE_VISIT (R165, R167, R175, R692, R710, Table 15.6): a refresh asks for its three
slots; scrub requests that have waited a millisecond join the base-die class as they stand; a fence at its limit is released and logged; a checker
stops its program with BU_INTERNAL, is logged and triggers a takeover under its policy, and of a spare that a copy fills it ends the copy; a due pass
of the walker asks, at every bank it walks, for a scrub slot of BRINE_POS's row, and moves on. TAKEOVER_START, TAKEOVER_EXCHANGE, SPARE_COPY_FAULT and
SPARE_ZEROED (R201 to R205, R713, R805, R840): on a part that is READY the trigger at the head of a die's queue takes the spare slot that R202 names
and begins its copy; with every row copied and both banks at rest the index and the spare slot exchange banks, the index's map entries going with it;
a spare whose copy fails retires and the trigger waits again; a zeroed spare at rest enters CALIBRATING for its new domain. -/
def Obligations.BankEventsAndTakeovers : Prop :=
  (∀ (s : State) (v d b : Nat), liveOn s (s.hasLogical v d b) v →
    let k := s.k
    let u := k.bu v d b
    exec (.refresh v d b) s = .next (withK s (k.setBu v d b { u with
      slotQ := u.slotQ ++ [{ use := .refresh, cls := .refresh, row := none, arrived := k.now, slots := 3 }] })) ∧
    exec (.scrubPromotion v d b) s = .next (withK s (k.setBu v d b { u with slotQ := u.slotQ.map (fun r =>
      if r.cls = .scrub ∧ r.arrived + 1000000 ≤ k.now then { r with cls := .base, arrived := k.now } else r) })) ∧
    (u.fenceHeld = true → u.fenceSince + u.fenceLimit ≤ k.now → exec (.fenceTimeout v d b) s = .next (withK s
      ((k.setBu v d b { u with fenceHeld := false }).logBank 0x11 v d ((k.die v d).logicalOf b) 0))) ∧
    (u.run = .run → u.ending = none →
      let a := (k.die v d).logicalOf b
      let k1 := ((k.setBu v d b { u with ending := some .fault, cause := 0x29, faultLib := u.seq.lib, faultPc := u.seq.pc }).logBank
        0x20 v d a (u.seq.pc + if u.seq.lib then 2 ^ 12 else 0)).autoTrigger v d a 1
      exec (.buCheckerTrip v d b) s = .next (withK s (if (k1.die v d).takeover.any (fun t => 96 + t.slot = a) then k1.spareFails v d else k1))) ∧
    (k.flag (Reg.brineCtl v) 31 = true →
      (∀ p, (k.vat v).passAt = some p → p + k.getF (Reg.brineCtl v) 19 0 * 1000000000 / 65536 ≤ k.now) →
      let row := k.getF (Reg.brinePos v) 15 0
      ∃ k', exec (.brineVisit v) s = .next (withK s k') ∧ (k'.vat v).passAt = some k.now ∧ k'.getF (Reg.brinePos v) 15 0 = (row + 1) % 2 ^ 16 ∧
        ∀ e w, e < 16 → w ∈ (k.die v e).walked →
          { use := .scrub row (k'.vat v).walkAt, cls := .scrub, row := some row, arrived := k.now } ∈ (k'.bu v e w).slotQ)) ∧
  (∀ (s : State) (v d : Nat), live s (s.hasDie v d) →
    let k := s.k
    let x := k.die v d
    ((k.hub.boot.cond = .ready → exec (.takeoverStart v d) s =
        .next (turned s (((machOf s).onChip (fun k => k.startTakeover s.part v d)).throughRecords s.part.vats k))) ∧
      (k.hub.boot.cond ≠ .ready → exec (.takeoverStart v d) s = .next s) ∧
      ∀ a code rest q, x.takeover = none → x.takeoverQ = (a, code) :: rest → x.takeoverSpare = some q → q < x.spares.length →
        let y := (k.startTakeover s.part v d).die v d
        y.takeover = some { logical := a, slot := q, nextRow := 0, trigger := code, ueRows := 0 } ∧ y.takeoverQ = rest ∧
        y.spare q = .copying ∧ y.bankMap = x.bankMap) ∧
    (∀ t, x.takeover = some t → 65536 ≤ t.nextRow → t.logical < 96 → t.slot < 4 → x.bankMap.length = 100 →
      x.phys t.logical ≠ x.phys (96 + t.slot) →
      (∀ b, b = x.phys t.logical ∨ b = x.phys (96 + t.slot) →
        (k.bu v d b).active = none ∧ (k.bu v d b).run ≠ .run ∧ (k.bu v d b).waiting = none) → x.spares.length = 4 →
      ∃ k', exec (.takeoverExchange v d) s = .next (withK s k') ∧
        let y := k'.die v d
        y.phys t.logical = x.phys (96 + t.slot) ∧ y.phys (96 + t.slot) = x.phys t.logical ∧ y.takeover = none ∧ y.spare t.slot = .retired ∧
        (∀ a, a < 100 → a ≠ t.logical → a ≠ 96 + t.slot → y.phys a = x.phys a) ∧
        (∀ p, p < 32 → x.phys t.logical < 100 → x.phys (96 + t.slot) < 100 →
          k'.reg (Reg.buPage v d (x.phys (96 + t.slot)) p) = k.reg (Reg.buPage v d (x.phys t.logical) p))) ∧
    (∀ t, x.takeover = some t → t.slot < x.spares.length →
      ∃ k', exec (.spareCopyFault v d) s = .next (withK s k') ∧
        let y := k'.die v d
        y.takeover = none ∧ y.spare t.slot = .retired ∧ y.takeoverQ = (t.logical, t.trigger) :: x.takeoverQ ∧ y.bankMap = x.bankMap) ∧
    (∀ q z, q < 4 → x.zeroing.find? (fun z => z.1 = q) = some z → x.spares.length = 4 → x.spareDomain.length = 4 →
      let b := x.phys (96 + q)
      (k.bu v d b).run ≠ .run → (k.bu v d b).active = none →
      ∃ k', exec (.spareZeroed v d q) s = .next { s with dram := s.dram.clear (bankByte v d b 0) (bankByte v d b (2 ^ 26)), k := k' } ∧
        (k'.die v d).spare q = .calibrating ∧ (k'.die v d).spareDomain.getD q 0 = z.2 ∧ (k'.bu v d b).scratch = []))

/-! ### Host accesses -/

/-- R619: the interleaved window and the vats' memory correspond one to one: every address of the window leads to one byte of one vat, and the
inverse map leads back. -/
def Obligations.InterleavingIsOneToOne : Prop :=
  ∀ V x : Nat, (V = 2 ∨ V = 4 ∨ V = 8) → x < capacity V →
    (interleaved V x).1 < V ∧ (interleaved V x).2 < 96 * 2 ^ 30 ∧ windowOf V (interleaved V x).1 (interleaved V x).2 = x

/-- CXL_MEM_READ, CXL_MEM_WRITE and CXL_MEM_PARTIAL_WRITE to DRAM through a committed decoder (R165, R617, R628, R633 to R640): a denied read gives
zeros and a denied write is dropped, counted in HOST_DENIED. Where its block lets an access, its vat is awake, no fence holds the row and no earlier
access to the line waits: a read that the bank's arbiter grants now is answered with the line as its decoder delivers it; a write that finds room in
the write queue changes DRAM at once, is answered, and asks for the slots that store it. A read that is not granted now waits at its bank, unanswered.
-/
def Obligations.HostLinesAreReadAndWritten : Prop :=
  ∀ (s : State) (line : BitVec 36) (n v pa : Nat), s.k.alive = true → s.k.hub.stopped = false →
    placeOf s.part.vats (64 * line.toNat) = .dram n v pa → s.k.decoderOn n = true → (s.k.vat v).lost = false →
    let k := s.k
    let dpa := 64 * line.toNat
    let read : HostReq := { write := false, dpa := dpa, pa := pa, bytes := [], enables := [], poison := false, ahead := 0 }
    (k.hostDenied s.part.vats n v pa false = true →
      exec (.cxlMemRead line) s = .next (withK s ((k.hostDeny dpa false).answer (.line 0 false)))) ∧
    (∀ data poison, k.hostDenied s.part.vats n v pa true = true →
      exec (.cxlMemWrite line data poison) s = .next (withK s ((k.hostDeny dpa true).answer .written))) ∧
    (k.fencedAt v pa = false → k.lineWaits v pa = false → (k.vat v).power = .awake →
      (k.hostDenied s.part.vats n v pa false = false → k.turnOf v pa (.host read) 1 = true →
        ∃ k', exec (.cxlMemRead line) s = .next (withK s k') ∧ k'.hub.resp =
          .line (entryOfBytes ((s.dram.word (k.dramAt v (pa / 32 * 32))).bytes ++ (s.dram.word (k.dramAt v ((pa + 32) / 32 * 32))).bytes))
            ((s.dram.word (k.dramAt v (pa / 32 * 32))).res.bad || (s.dram.word (k.dramAt v ((pa + 32) / 32 * 32))).res.bad)) ∧
      (k.hostDenied s.part.vats n v pa false = false → k.turnOf v pa (.host read) 1 = false →
        exec (.cxlMemRead line) s = .next (withK s ((k.askSlot v pa (.host { read with ahead := k.aheadOf v pa }) 1).answer .none))) ∧
      (∀ data poison, k.hostDenied s.part.vats n v pa true = false → (k.vat v).wq.length < 256 → (n ≠ 1 ∨ k.diagAt v pa = false) →
        exec (.cxlMemWrite line data poison) s =
          .next { s with
            dram := k.storeAt (k.storeAt s.dram v pa ((entryBytes data).take 32) poison) v (pa + 32) ((entryBytes data).drop 32) poison
            k := ((k.count (Reg.tsvDownBytes v) 32).count (Reg.tsvDownBytes v) 32).holdWrite v
              { write := true, dpa := dpa, pa := pa, bytes := entryBytes data, enables := List.replicate 64 true, poison := poison, ahead := 0 } }) ∧
      (∀ data enables poison, k.hostDenied s.part.vats n v pa true = false → (k.vat v).wq.length < 256 →
        let en := (List.range 64).map (fun i => enables.getLsbD i)
        let r := k.hostWrite s.dram v pa dpa (entryBytes data) (fun i => en.getD i false) poison (n = 1)
        exec (.cxlMemPartialWrite line data enables poison) s = .next { s with
          dram := r.1
          k := r.2.holdWrite v { write := true, dpa := dpa, pa := pa, bytes := entryBytes data, enables := en, poison := poison, ahead := 0 } }))

/-- R172, R688: a word stored by the base die reads back clean with the bytes stored, a poisoned store reads back marked, and every byte of DRAM
outside the word stored (and, while a takeover has copied its row, outside the spare's copy of it) reads as before. R688, R689, Table 15.1: what the
decoder makes of a word's stored error pattern of at most two symbols: none is CLEAN; within the data and check symbols it is corrected, to the
bytes without it; with a symbol of the address it is MISADDR. The mark of R690 is POISONED. -/
def Obligations.StoredWordsReadBackCorrected : Prop :=
  (∀ (k : Chip) (dr : Dram) (v p : Nat) (bs : List Byte), Memory.wf dr = true → bs.length = 32 → p % 32 = 0 → (k.die v (bankAddr p).die).takeover = none →
    (k.storeAt dr v p bs false).word (k.dramAt v p) = { bytes := bs, res := .clean, syms := [] } ∧
    (k.storeAt dr v p bs true).word (k.dramAt v p) = { bytes := bs, res := .poisoned, syms := [] } ∧
    (∀ a, (a < k.dramAt v p ∨ k.dramAt v p + 32 ≤ a) → (k.storeAt dr v p bs false).byte a = dr.byte a) ∧
    (∀ a, a % 32 = 0 → a ≠ k.dramAt v p → k.dramAt v p % 32 = 0 → (k.storeAt dr v p bs false).word a = dr.word a)) ∧
  (∀ (dr : Dram) (a : Nat) (p : List (Nat × Nat)), lookup [] dr.marks (a / 32) = p →
    (p = [] → (dr.word a).res = .clean ∧ (dr.word a).bytes = dr.bytes a 32) ∧
    (p ≠ [] → p.length ≤ 2 → (∀ e ∈ p, e.1 < 36) → (dr.word a).res = .ce ∧ (dr.word a).bytes = xorPattern (dr.bytes a 32) p) ∧
    (p.length ≤ 2 → (∃ e ∈ p, 36 ≤ e.1) → (dr.word a).res = .misaddr ∧ (dr.word a).bytes = dr.bytes a 32) ∧
    (p = poisonMark → (dr.word a).res = .poisoned) ∧
    (∀ bs e, Memory.wf dr = true → bs.length = 32 → a % 32 = 0 → e.1 < 32 → 0 < e.2 → e.2 < 256 →
      ((dr.putPattern a bs [e]).word a).res = .ce ∧ ((dr.putPattern a bs [e]).word a).bytes = bs))

/-- ARM, FIRE and LEGACY_BAD_KEY through a committed decoder 2, ARM_LAPSED and ROW_OPERATION_DONE (R209 to R216, R617, Table 4.9): an ARM in
sequence is held, one out of sequence or on a busy line is refused; a FIRE that nothing refuses starts its operation and asks for its first slot,
a refused one leaves its code; a key that is neither leaves 0xB; an ARM a millisecond old lapses; an operation whose last row is done completes,
with DATA_ERROR where a word could not be corrected. R679, R685: a part that is TAMPERED, or requires IDE and has none, denies every such write.
-/
def Obligations.LegacyLinesAct : Prop :=
  ∀ (s : State) (v d a : Nat) (body : BitVec 480), live s (s.hasDie v d) → a < 96 → s.k.decoderOn 2 = true →
    (s.k.linkDenied = true → ∀ c, c = .arm v d a body ∨ c = .fire v d a body ∨ c = .legacyBadKey v d a →
      exec c s = .next (withK s (s.k.denyHost (legacyDpa v d a) true))) ∧
    (s.k.linkDenied = false →
    let k := s.k
    let l := k.legacy v d a
    let arm := commandLine armKey body
    let fire := commandLine fireKey body
    (recField arm 4 6 = (l.lastSeq + 1) % 2 ^ 16 → l.busy = false →
      exec (.arm v d a body) s = .next (withK s (k.setLegacy v d a { l with arm := some arm, armAt := k.now }))) ∧
    (recField arm 4 6 ≠ (l.lastSeq + 1) % 2 ^ 16 → exec (.arm v d a body) s = .next (withK s (k.setLegacy v d a { l with arm := none, result := 8 }))) ∧
    (recField arm 4 6 = (l.lastSeq + 1) % 2 ^ 16 → l.busy = true →
      exec (.arm v d a body) s = .next (withK s (k.setLegacy v d a { l with arm := none, result := 9 }))) ∧
    (k.legacyRefusal s.part.vats v d a fire = none → exec (.fire v d a body) s = .next (withK s
      ((k.setLegacy v d a { l with arm := none, busy := true, command := fire, rowsDone := 0, lastSeq := recField fire 4 6, dataError := false,
                                    phase := 0, latch := [], bad := 0 }).legacySlot v d a))) ∧
    (∀ r, k.legacyRefusal s.part.vats v d a fire = some r →
      exec (.fire v d a body) s = .next (withK s (k.setLegacy v d a { l with arm := none, result := r }))) ∧
    exec (.legacyBadKey v d a) s = .next (withK s (k.setLegacy v d a { l with arm := none, result := 0xB })) ∧
    (l.arm.isSome = true → l.armAt + 1000000 ≤ k.now →
      exec (.armLapsed v d a) s = .next (withK s (k.setLegacy v d a { l with arm := none, result := 0xA }))) ∧
    (l.busy = true → l.rowsDone = recField l.command 14 16 + 1 →
      exec (.rowOperationDone v d a) s = .next (withK s (k.setLegacy v d a { l with busy := false, result := if l.dataError then 7 else 0 }))))

/-! ### Barriers of the hub, stalls and checkers -/

/-- R40, R368, R755: HUB_BARRIER_COMPLETE waits for every enrolled core; then every one of them goes on, the barrier is empty again, its episode
is counted, and DRAM and the streams other than the control streams are as they were. R451 to R455: STALL_REPORT reports the first finding of
Table 9.6 that has held for its threshold. R718: CORE_CHECKER_TRIP faults a stream that runs with CORE_INTERNAL, and with AUTO_CORE set retires the
core. -/
def Obligations.BarriersStallsAndCheckers : Prop :=
  ∀ (s : State) (b : BitVec 4) (v c : Nat),
    let k := s.k
    let n := b.toNat
    let met := (k.enrolled n).all (fun x => (k.bar n).arrived.any (fun a => a.1 = x))
    let ripe (f : Finding) : Bool := k.fresh v c f && 2 ^ k.getF (Reg.stallCtl v c) 4 0 ≤ k.coreCycles v c (k.now - f.since)
    let findings := (List.range 5).filterMap (k.deadlockAt v c) ++
      ((List.range 5).filterMap (k.waitFinding v c)).mergeSort (fun x y => x.kind ≤ y.kind)
    (live s true → (k.enrolled n = [] ∨ met = false) → exec (.hubBarrierComplete b) s = .next s) ∧
    (live s true → k.enrolled n ≠ [] → met = true →
      ∃ k', exec (.hubBarrierComplete b) s = .next (withK s k') ∧
        (∀ x, x ∈ k.enrolled n → (k'.stream (x / 4) (x % 4) 0).hold = none ∧ (k'.stream (x / 4) (x % 4) 0).stall = none) ∧
        (∀ v' c' t, t ≠ 0 → t < 5 → k'.stream v' c' t = k.stream v' c' t) ∧
        (k'.bar n).arrived = [] ∧ (k'.bar n).since = (k.bar n).since + 1 ∧ (k'.bar n).lastAt = k.now ∧
        (∀ m, m ≠ n → k'.bar m = k.bar m) ∧
        k'.getF (Reg.hbarEpisodes n) 31 0 = (k.getF (Reg.hbarEpisodes n) 31 0 + 1) % 2 ^ 32 ∧ k'.dies = k.dies ∧ k'.bus = k.bus) ∧
    (liveOn s (s.hasCore v c) v →
      (∀ f, findings.find? ripe = some f → exec (.stallReport v c) s = .next (withK s (k.reportStall v c f))) ∧
      (findings.find? ripe = none → exec (.stallReport v c) s = .next s)) ∧
    (∀ t e, live s (s.hasCore v c) → t < 5 → e < 3 →
      let x := k.stream v c t
      let k1 := (if x.run = .run ∨ x.run = .ending then k.coreFault v c t 0x64 x.seq else k).logStream 0x21 v c t e
      (k1.flag Reg.failPolicy 3 = false → exec (.coreCheckerTrip v c t e) s = .next (withK s k1)) ∧
      (k1.flag Reg.failPolicy 3 = true →
        exec (.coreCheckerTrip v c t e) s = .next (withM s (({ dr := s.dram, k := k1 } : Mach).retireCore s.part v c))))

/-! ### The host link and the mailbox -/

/-- R810: the host link trains no earlier than 5 ms after the reset's end, in a mode of Table 13.1, which HOST_LINK_STATUS then reads. R806: a link
reset clears the decoders, the sessions, IDE, the snoops sent and the MSI-X table. R810, R612, Table 13.1: configuration requests are retried before
40 ms and answered after: the device ID, class code and revision, BAR0 of 256 MB and no other BAR, no Function Level Reset and no CXL Reset (R800),
Memory_Info_Valid, and Memory_Active once the part is READY, where PCIe 6.0 and CXL 3.1 place them (log entry 13). R611, R616, R811: an HDM decoder
commits where its layout is the one the decoder must have and the part is READY, and else is left uncommitted, with Error Not Committed;
HOST_LINK_STATUS.BI reads that decoder 0 is committed with BI in 256-byte flit mode. R613, R614, R612, R707, R708: the mailbox answers. Where the spec
gives the bytes of an answer they are those; its other bytes are free (log entry 14). Get Poison List empties its list; the requests answered by a
code or by free bytes change nothing else. -/
def Obligations.LinkAndMailboxAnswer : Prop :=
  (∀ s : State, live s true →
    let k := s.k
    (∀ rate width flit latopt,
      let e := exec (.hostLinkTrained rate width flit latopt) s
      (k.hub.boot.endAt + 5000000 ≤ k.now → linkMode rate width flit latopt = true →
        ∃ k', e = .next (withK s k') ∧ k'.getF Reg.hostLinkStatus 2 0 = rate ∧ k'.getF Reg.hostLinkStatus 5 4 = width ∧
          k'.flag Reg.hostLinkStatus 6 = flit ∧ k'.flag Reg.hostLinkStatus 7 = latopt ∧
          k'.flag Reg.hostLinkStatus 8 = (k.hub.biOn && flit && k.decoderOn 0) ∧ k'.hub = k.hub ∧
          regsOnly k k' (· = Reg.hostLinkStatus)) ∧
      ((k.now < k.hub.boot.endAt + 5000000 ∨ linkMode rate width flit latopt = false) → e = .next s)) ∧
    (∃ k', exec .linkReset s = .next (withK s k') ∧ k'.hub.decoders = [] ∧ k'.hub.sessions = [] ∧ k'.hub.ide = IdeState.off ∧
      (∀ r ∈ k'.hub.vrings, r.2.snoop = none) ∧ k'.getF Reg.hostLinkStatus 9 0 = 0 ∧ (∀ o, 0x30000 ≤ o → o < 0x30200 → k'.reg o = resetAt o) ∧
      regsOnly k k' (fun o => o = Reg.hostLinkStatus ∨ (0x30000 ≤ o ∧ o < 0x30200) ∨ ∃ c, c < 16 ∧ o = Reg.vringStatus c)) ∧
    (∀ n : BitVec 10,
      (k.now < k.hub.boot.endAt + 40000000 → exec (.configRequest n) s = .next (answered s k .retry)) ∧
      (k.hub.boot.endAt + 40000000 ≤ k.now →
        ∃ w : BitVec 32, exec (.configRequest n) s = .next (answered s k (.word (w.setWidth 64))) ∧
          (n = 0 → s.part.vats ≤ 8 → w.toNat / 65536 = 0x0B00 + s.part.vats + (if s.part.lanes128 then 0x100 else 0)) ∧
          (n = 2 → w = 0x050210A0#32) ∧ (n = 4 → w.toNat % 2 ^ 28 = 0xC) ∧ (6 ≤ n.toNat → n.toNat ≤ 9 → w = 0) ∧
          (n.toNat = pcieCaps → w.toNat.testBit 28 = false) ∧ (n.toNat = cxlDvsec + 2 → w.toNat.testBit 23 = false) ∧
          (n.toNat = cxlDvsec + 7 → w.toNat.testBit 0 = true ∧ (w.toNat.testBit 1 = true ↔ k.hub.boot.cond = .ready) ∧ w.toNat / 2 ^ 13 % 8 = 0))) ∧
    (∀ n base skip size ways bi,
      let e := exec (.hdmDecoderCommit n base skip size ways bi) s
      (k.hub.boot.cond = .ready → s.part.decoderFits n skip size ways = true →
        ∃ k', e = .next (withK s k') ∧ k'.hub.resp = .code 0 ∧ k'.decoderOn n = true ∧ lookup 0 k'.hub.decoders n = base ∧ unitsKept k k' ∧
          (n = 0 → k'.flag Reg.hostLinkStatus 8 = (bi.isSome && k.flag Reg.hostLinkStatus 6) ∧ (∀ i, bi = some i → k'.hub.biId = i)) ∧
          (n ≠ 0 → k'.regs = k.regs)) ∧
      ((k.hub.boot.cond ≠ .ready ∨ s.part.decoderFits n skip size ways = false) →
        ∃ k', e = .next (withK s k') ∧ k'.hub.resp = .code 1 ∧ unitsKept k k' ∧
          (risingFrom 0 k.hub.decoders = true → k'.decoderOn n = false ∧ (n = 0 → k'.flag Reg.hostLinkStatus 8 = false)) ∧
          (n < 4 → n ∈ k'.hub.uncommitted) ∧ (n ≠ 0 → k'.regs = k.regs)))) ∧
  (∀ s : State, live s true →
    let k := s.k
    (∃ a b, exec .identify s = .next (answered s k (.bytes 0 (a ++ leBytes 2 s.part.deviceId ++ b))) ∧ a.length = 2 ∧ b.length = 14) ∧
    (∃ a b, exec .identifyMemoryDevice s = .next (answered s k (.bytes 0 (a ++ leBytes 8 (capacity s.part.vats / 2 ^ 28) ++
        leBytes 8 (capacity s.part.vats / 2 ^ 28) ++ leBytes 8 0 ++ leBytes 8 0 ++ b))) ∧ a.length = 16 ∧ b.length = 21) ∧
    exec .getSupportedLogs s = .next (answered s k (.bytes 0 (leBytes 8 1 ++ celUuid ++ leBytes 4 32))) ∧
    (∀ offset len, offset + len ≤ 32 →
      exec (.getLog true offset len) s = .next (answered s k (.bytes 0 ((celBytes.drop offset).take len)))) ∧
    (∀ offset len, exec (.getLog false offset len) s = .next (answered s k (.code 3))) ∧
    (∀ l, l < 4 → exec (.getEventRecords l) s = .next (answered s k
      (.events (lookup [] k.hub.log.events l) (k.hub.log.overflow l)))) ∧
    (∀ l hs, l < 4 → ((lookup [] k.hub.log.events l).take hs.length).map EventRec.handle = hs →
      ∃ k', exec (.clearEventRecords l false hs) s = .next (withK s k') ∧ k'.hub.resp = .code 0 ∧
        lookup [] k'.hub.log.events l = (lookup [] k.hub.log.events l).drop hs.length ∧
        (∀ m, m ≠ l → lookup [] k'.hub.log.events m = lookup [] k.hub.log.events m) ∧ k'.hub.log.ring = k.hub.log.ring ∧ hubOnly k k') ∧
    (∀ l hs, l < 4 → (k.hub.log.overflow l).isSome = true → risingFrom 0 k.hub.log.dropped = true →
      ∃ k', exec (.clearEventRecords l true hs) s = .next (withK s k') ∧ k'.hub.resp = .code 0 ∧ lookup [] k'.hub.log.events l = [] ∧
        k'.hub.log.overflow l = none ∧ k'.hub.log.ring = k.hub.log.ring ∧ hubOnly k k') ∧
    (∃ b, exec .getHealthInfo s = .next (answered s k (.bytes 0 b)) ∧ b.length = 18) ∧
    (∃ k', exec .getPoisonList s = .next (withK s k') ∧ k'.hub.resp = .poisoned k.hub.poison k.hub.poisonOvf ∧
      k'.hub.poison = [] ∧ k'.hub.poisonOvf = false ∧ hubOnly k k') ∧
    exec .mailboxUnsupported s = .next (answered s k (.code 3)))

/-! ### The rind -/

/-- R665, R666, Table 14.4: the SPDM requests of a READY or UNOWNED part that is not TAMPERED. GET_VERSION answers SPDM 1.3; GET_MEASUREMENTS
answers the measurements that its index names, the alias key's signature behind them; a certificate of a slot other than 0 is refused; KEY_EXCHANGE
opens the lowest free session, a fifth is answered Busy; and the requests inside a session act on that session alone. The bodies that SPDM 1.3 and
the part's keys decide are free (log entry 13). R680: in TAMPERED the SPDM requests other than those that R680 names are answered with ERROR and
Unspecified, as are all the rind's requests. -/
def Obligations.SpdmAnswersOrRefuses : Prop :=
  (∀ s : State, live s true → s.k.hub.stopped = false → s.k.getF Reg.rindStatus 1 0 ≠ 0 → s.k.getF Reg.rindStatus 1 0 ≠ 3 →
    let k := s.k
    let gives (e : Host.Outcome State Fault Refusal) (code : Nat) (body : List Byte) : Prop := e = .next (answered s k (.bytes code body))
    gives (exec .getVersion s) 0x04 [0x13] ∧
    (∃ b, gives (exec .getCapabilities s) 0x61 b) ∧ (∃ b, gives (exec .negotiateAlgorithms s) 0x63 b) ∧ (∃ b, gives (exec .getDigests s) 0x01 b) ∧
    (∃ chain : List Byte, ∀ offset len, gives (exec (.getCertificate 0 offset len) s) 0x02 ((chain.drop offset).take len)) ∧
    (∀ slot offset len, slot ≠ 0 → gives (exec (.getCertificate slot offset len) s) 0x7F [1]) ∧
    (∀ nonce, ∃ b, gives (exec (.challenge nonce) s) 0x03 b) ∧
    (∀ i, ∃ sig, gives (exec (.getMeasurements i) s) 0x60 (k.measurements s.part i ++ sig)) ∧
    (∀ i, (List.range 4).find? (fun j => (k.session j).isNone) = some i →
      ∃ k' b, exec .keyExchange s = .next (withK s k') ∧ k'.hub.resp = .bytes 0x64 (BitVec.ofNat 8 i :: b) ∧
        k'.session i = some { finished := false, bound := none, nonce := none } ∧ (∀ j, j ≠ i → k'.session j = k.session j) ∧ hubOnly k k') ∧
    ((List.range 4).all (fun j => (k.session j).isSome) = true → gives (exec .keyExchange s) 0x7F [3]) ∧
    (∀ i x, k.session i = some x →
      (∃ k', exec (.finish i true) s = .next (withK s k') ∧ k'.hub.resp = .bytes 0x65 [] ∧ k'.session i = some { x with finished := true } ∧
        (∀ j, j ≠ i → k'.session j = k.session j) ∧ hubOnly k k') ∧
      gives (exec (.finish i false) s) 0x7F [6] ∧ gives (exec (.heartbeat i) s) 0x68 [] ∧ gives (exec (.keyUpdate i) s) 0x69 [] ∧
      (risingFrom 0 k.hub.sessions = true →
        ∃ k', exec (.endSession i) s = .next (withK s k') ∧ k'.hub.resp = .bytes 0x6C [] ∧ k'.session i = none ∧
          (∀ j, j ≠ i → k'.session j = k.session j) ∧ hubOnly k k')) ∧
    (∀ i good, k.session i = none → gives (exec (.finish i good) s) 0x7F [2] ∧ gives (exec (.heartbeat i) s) 0x7F [2] ∧
      gives (exec (.keyUpdate i) s) 0x7F [2] ∧ gives (exec (.endSession i) s) 0x7F [2])) ∧
  (∀ (s : State) (c : Instr), live s true → s.k.hub.stopped = false → s.k.getF Reg.rindStatus 1 0 = 3 →
    c = .keyExchange ∨ (∃ n, c = .challenge n) ∨ (∃ i g, c = .finish i g) ∨ (∃ i, c = .heartbeat i ∨ c = .keyUpdate i ∨ c = .endSession i) ∨
      (∃ x, c = .domainChallenge x ∨ c = .domainKeyErase x ∨ c = .domainKeyWrap x ∨ c = .debugLock x) ∨
      (∃ x d a g, c = .domainBind x d a g) ∨ (∃ x key, c = .domainKeySet x key) ∨ (∃ x n, c = .debugUnlock x n) ∨ (∃ n, c = .pqQuote n) ∨
      (∃ o, c = .pqCert o) ∨ (∃ x f, c = .ownerClaim x f ∨ c = .ownerTransfer x f) ∨ (∃ x b, c = .ideKeyProgram x b) →
    exec c s = .next (answered s s.k (.bytes 0x7F [5])))

/-- R667 to R672, R681, R682, R657, R661, R684, Table 14.6: the rind's requests over a secured session that a FINISH has completed, each with its
own effect: a challenge whose nonce the session remembers; a session bound to a declared domain by a good signature; a DSK set, erased or wrapped;
debug scopes granted and revoked; ownership claimed and transferred, which ends every session and the keys of the owner before, and derives the
alias key afresh (R655); IDE keys programmed; and a PQ_QUOTE under DevID-Q, or bytes of its chain, answered. -/
def Obligations.RindRequestsAct : Prop :=
  ∀ (s : State) (i : Nat) (x : Session), live s true → s.k.hub.stopped = false → s.k.getF Reg.rindStatus 1 0 ≠ 0 → s.k.getF Reg.rindStatus 1 0 ≠ 3 →
    s.k.session i = some x → x.finished = true →
    let k := s.k
    let nonce := leBytes 32 (Config.random k.hub.draws).toNat
    let drawn := k.onHub (fun h => { h with draws := h.draws + 1 })
    let owned (k' : Chip) : Prop := k'.hub.sessions = [] ∧ (∀ z, k'.domain 0 = some z → z.keys = []) ∧ (∀ d, d ≠ 0 → k'.domain d = k.domain d) ∧
      k'.hub.aliasKey = deriveKey (asciiBytes "ALIAS" :: [1, 2, 4, 7].map (k'.measure s.part)) 48
    exec (.domainChallenge (some i)) s = .next (answered s (drawn.setSession i { x with nonce := some nonce }) (.bytes 0 nonce)) ∧
    (∀ d alg y, k.domain d = some y → x.nonce.isSome = true → (alg = 1 ∨ alg = 2) → y.algs.testBit (alg - 1) = true →
      exec (.domainBind (some i) d alg true) s =
        .next (answered s (k.setSession i { x with nonce := none, bound := some d }) (.bytes 0 [])) ∧
      exec (.domainBind (some i) d alg false) s = .next (answered s (k.setSession i { x with nonce := none }) (.bytes 4 []))) ∧
    (∀ d alg good, k.domain d = none → exec (.domainBind (some i) d alg good) s = .next (answered s k (.bytes 3 []))) ∧
    (∀ d y, x.bound = some d → k.domain d = some y →
      (d ≠ 0 → k.txnNames d = false →
        (∀ key, key.length = 32 → exec (.domainKeySet (some i) key) s =
          .next (answered s (k.onDomain d (fun z => { z with dsk := some key })) (.bytes 0 []))) ∧
        exec (.domainKeyErase (some i)) s = .next (answered s (k.onDomain d (fun z => { z with dsk := none })) (.bytes 0 [])) ∧
        (∀ n, exec (.debugUnlock (some i) n) s =
          .next (answered s (k.onDomain d (fun z => { z with grants := Nat.lor z.grants (n % 8) })) (.bytes 0 [])))) ∧
      (d ≠ 0 → ∀ key, y.dsk = some key → exec (.domainKeyWrap (some i)) s =
        .next (answered s drawn (.bytes 0 (blobOf d y.finger (nonce.take 12) key)))) ∧
      (d ≠ 0 → y.dsk = none → exec (.domainKeyWrap (some i)) s = .next (answered s k (.bytes 7 []))) ∧
      (d = 0 → k.txnNames 0 = false → k.tenants = false → ∀ n, exec (.debugUnlock (some i) n) s =
        .next (answered s (k.onDomain 0 (fun z => { z with grants := 7 })) (.bytes 0 []))) ∧
      (d = 0 → k.txnNames 0 = false → k.tenants = true → ∀ n, exec (.debugUnlock (some i) n) s = .next (answered s k (.bytes 8 []))) ∧
      exec (.debugLock (some i)) s = .next (answered s (k.revoke d) (.bytes 0 [])) ∧
      (d = 0 → k.tenants = false → k.hub.owners.length < 4 → ∀ f : BitVec 384,
        ∃ k', exec (.ownerTransfer (some i) f) s = .next (withK s k') ∧ k'.hub.resp = .bytes 0 [] ∧ hubOnly k k' ∧
          k'.hub.owners = k.hub.owners ++ [beBytes 48 f.toNat] ∧ owned k')) ∧
    (k.hub.owners = [] → ∀ f : BitVec 384,
      ∃ k', exec (.ownerClaim (some i) f) s = .next (withK s k') ∧ k'.hub.resp = .bytes 0 [] ∧ hubOnly k k' ∧
        k'.hub.owners = [beBytes 48 f.toNat] ∧ owned k') ∧
    (k.hub.owners ≠ [] → ∀ f, exec (.ownerClaim (some i) f) s = .next (answered s k (.bytes 10 []))) ∧
    (x.bound = none → k.getF Reg.hostLinkStatus 2 0 ≠ 0 → ∀ key,
      ∃ k', exec (.ideKeyProgram (some i) key) s = .next (withK s k') ∧ k'.hub.resp = .bytes 0 [] ∧ k'.hub.ide = k.hub.ide.set key ∧
        (k'.hub.ide.cxl.isSome = true → k'.flag Reg.hostLinkStatus 9 = true) ∧
        regsOnly k k' (fun o => k'.hub.ide.cxl.isSome = true ∧ o = Reg.hostLinkStatus)) ∧
    (∀ n : BitVec 256, exec (.pqQuote n) s = .next (answered s k (.bytes 0
      (Config.pqSignature devIdQ (sha384 (leBytes 32 n.toNat ++ k.measurements s.part 255)))))) ∧
    (∀ o, o < Config.pqChain.length → exec (.pqCert o) s = .next (answered s k (.bytes 0 ((Config.pqChain.drop o).take 1024))))

/-! ### The culture image -/

/-- R570, R578 to R582, Table 12.15: CI_CTL's operations. BEGIN in IDLE opens an empty transaction, in OPEN it is refused; STAGE of an OPEN
transaction takes the image's sections or names what is wrong; a COMMIT that validation refuses leaves the transaction OPEN, one that passes goes to
admission; ROLLBACK drops the transaction; an operation that needs a transaction finds none. R579, R680: before READY, in TAMPERED, and while a COMMIT
runs, a write is ignored and CI_STATE says so. R598 to R602: a COMMIT that drains waits at QUIET_POINT until every core it switches is quiet and every
vat that it touches is awake (R730); then, or at the timeout with FORCE, its apply begins, where the part has not failed into a shape that admission
refuses; at the timeout without FORCE it is refused as not quiet. APPLY_CYCLE puts the staged state in force and ends the transaction, and a package
reset that waited for it follows. -/
def Obligations.TransactionsRun : Prop :=
  (∀ s : State, live s true →
    let k := s.k
    let ended (k : Chip) (r : CiResult) (st : Nat) : Host.Outcome State Fault Refusal := .next (withK s (k.ciEnd r st))
    let hold (t : Option Txn) : Chip := k.onHub (fun h => { h with txn := t })
    (k.ciShut = true → exec .begin s = .next (withK s k.ciIgnore) ∧
      (∀ v p, exec (.stage v p) s = .next (withK s k.ciIgnore)) ∧ (∀ f, exec (.commit f) s = .next (withK s k.ciIgnore))) ∧
    (k.ciShut = false →
      (k.ciState = 0 → exec .begin s = ended (hold (some Txn.fresh)) ciOk 1) ∧
      (k.ciState ≠ 0 → exec .begin s = ended k (CiResult.of 0x02) k.ciState) ∧
      ((k.ciState ≠ 1 ∨ k.hub.txn = none) → (∀ v p, exec (.stage v p) s = ended k (CiResult.of 0x01) 0) ∧
        (∀ f, exec (.commit f) s = ended k (CiResult.of 0x01) 0)) ∧
      (k.ciState = 0 → exec .rollback s = ended k (CiResult.of 0x01) 0) ∧
      (k.ciState = 1 → exec .rollback s = ended (k.onHub (fun h => { h with txn := none, drain := [] })) ciOk 0)) ∧
    (∀ t, k.ciShut = false → k.ciState = 1 → k.hub.txn = some t →
      (∀ verdicts patch,
        let n := k.getF Reg.ciStageLen 31 0
        let r := Mach.windowRun s.part.vats (n / 1024 + 2) (machOf s) (k.getF Reg.ciStageAddr 36 0) n
        (∀ e, t.stage s.part r.2.k r.1 verdicts patch = .inl e →
          exec (.stage verdicts patch) s = .next (turned s (r.2.onChip (fun k => k.ciEnd e 1)))) ∧
        (∀ t', t.stage s.part r.2.k r.1 verdicts patch = .inr t' →
          exec (.stage verdicts patch) s =
            .next (turned s (r.2.onChip (fun k => (k.onHub (fun h => { h with txn := some t' })).ciEnd ciOk 1))))) ∧
      (∀ force,
        let t' := { t with force := force }
        let k1 := (hold (some t')).ciTo 2 0
        (∀ e, (checkOf s.part k1 t').validate = some e → exec (.commit force) s = .next (withK s (k1.refuseCommit e))) ∧
        ((checkOf s.part k1 t').validate = none → exec (.commit force) s = .next (withK s (k1.admission s.part t'))))) ∧
    (k.serving = true → k.getF Reg.rindStatus 1 0 ≠ 3 → k.ciState = 2 → exec .rollback s =
      .next (withK s (((k.onHub (fun h => { h with txn := none, drain := [] })).ciEnd (CiResult.of 0x13) 0).releaseRind.feedHub)))) ∧
  (∀ s : State, live s true →
    let m := machOf s
    (∀ x, m.draining s.part = some x → x.quiet = true → exec .quietPoint s = .next (turned s (m.quietIn x))) ∧
    (∀ x, m.draining s.part = some x → x.quiet = false → exec .quietPoint s = .next s) ∧
    (∀ x, m.draining s.part = some x → x.t.shape = s.k.shape s.part.vats → (∀ v ∈ x.touches, (s.k.vat v).power = .awake ∨ (s.k.vat v).lost = true) →
      m.quietIn x = m.beginApply x) ∧
    (∀ x, m.draining s.part = some x → x.t.since + 1000 * s.k.getF Reg.ciQuietTimeout 15 0 ≤ s.k.now →
      (x.t.force = false → exec .quietTimeout s =
        .next (withK s (s.k.refuseCommit { CiResult.of 0x12 with need := (x.t.switched.map s.k.jobsAt).sum }))) ∧
      (x.t.force = true → exec .quietTimeout s = .next (turned s
        ((m.onChip (fun k => x.t.switched.foldl (fun k c => (k.stopStreams (c / 4) (c % 4)).stopBanks (c / 4) (c % 4)) k)).quietIn x)))) ∧
    (m.draining s.part = none → exec .quietPoint s = .next s ∧ exec .quietTimeout s = .next s) ∧
    (∀ t, s.k.hub.txn = some t → s.k.ciState = 3 → exec .applyCycle s =
      .next (turned s (((m.onChip (fun k => (k.putInForce (checkOf s.part k t)).endTxn.noteWaits)).throughRecords s.part.vats s.k).deferredReset s.part))) ∧
    (s.k.ciState ≠ 3 → exec .applyCycle s = .next s))

/-- R578 to R582, Table 12.15: how an operation ends: CI_RESULT shows its code, its detail and DONE, CI_STATE the state, and a refusal is counted; the
registers of the culture image other than these, and everything but registers, hub events and messages, stay as they are. -/
def Obligations.OperationsEndWithTheirResult : Prop :=
  ∀ (k : Chip) (r : CiResult) (st : Nat), st < 4 → r.code < 256 → r.detail < 256 →
    let k' := k.ciEnd r st
    k'.getF Reg.ciResult 7 0 = r.code ∧ k'.getF Reg.ciResult 15 8 = r.detail ∧ k'.flag Reg.ciResult 31 = true ∧
    k'.ciState = st ∧ k'.ciPhase = 0 ∧ (r.code = 0 → k'.reg Reg.ciRefused = k.reg Reg.ciRefused) ∧
    (r.code ≠ 0 → r.code ≠ 0x13 → k'.getF Reg.ciRefused 47 0 = (k.getF Reg.ciRefused 47 0 + 1) % 2 ^ 48) ∧
    k'.hub.txn = k.hub.txn ∧ k'.hub.domains = k.hub.domains ∧ unitsKept k k'

/-! ### Rings, jobs and verdicts -/

/-- R515, R516, R555, R557, R558, R551: the rings' registers. SUBQ_ENABLE and VRING_ENABLE of a ring that is off turn it on with its indices at
zero, and a stopped submission ring runs again; of a ring that is on they do nothing. An index inside the ring is taken, one outside it logged and
the register left; a CI that leaves records waiting at a ring that takes none raises FULL_WAIT (R560). JOB_ABORT of a ring with no job under
JOB_ABORT_COOKIE counts a miss, else every such job meets one abort point. R514 to R518, R521: RECORD_ACCEPT of the ring whose turn it is, once the
arbiters grant its reads (R165, R173). A record marked uncorrectable, one whose header is no record, and one that the ring does not hold whole stop the
ring with their cause; a WRAP goes back to slot 0; any other moves CI past its slots and is accepted as a job. R516: a ring that stops shows STOPPED
and its cause, and is not served. -/
def Obligations.RingsAreServed : Prop :=
  (∀ (s : State) (r : Nat), live s (r < 16) →
    let k := s.k
    (k.flag (Reg.subqCfg r) 31 = false → ∃ k', exec (.subqEnable r) s = .next (withK s k') ∧ k'.flag (Reg.subqCfg r) 31 = true ∧
      k'.getF (Reg.subqPi r) 15 0 = 0 ∧ k'.getF (Reg.subqCi r) 15 0 = 0 ∧ ¬ r ∈ k'.hub.badRings ∧
      regsOnly k k' (fun o => o = Reg.subqCfg r ∨ o = Reg.subqPi r ∨ o = Reg.subqCi r)) ∧
    (k.flag (Reg.subqCfg r) 31 = true → exec (.subqEnable r) s = .next s) ∧
    (k.flag (Reg.vringCfg r) 31 = false → ∃ k', exec (.vringEnable r) s = .next (withK s k') ∧ k'.flag (Reg.vringCfg r) 31 = true ∧
      k'.getF (Reg.vringWi r) 15 0 = 0 ∧ k'.getF (Reg.vringWi r) 16 16 = 1 ∧ k'.vring r = { k.vring r with snoop := none } ∧
      k'.hub.jobs = k.hub.jobs ∧ regsOnly k k' (fun o => o = Reg.vringCfg r ∨ o = Reg.vringWi r ∨ o = Reg.vringStatus r)) ∧
    (k.flag (Reg.vringCfg r) 31 = true → exec (.vringEnable r) s = .next s) ∧
    (∀ x : BitVec 16,
      (x.toNat < k.subqSize r → ∃ k', exec (.subqPiWrite r x) s = .next (withK s k') ∧ k'.getF (Reg.subqPi r) 15 0 = x.toNat ∧
        k'.hub = k.hub ∧ regsOnly k k' (· = Reg.subqPi r)) ∧
      (k.subqSize r ≤ x.toNat → exec (.subqPiWrite r x) s = .next (withK s (k.logPlain 0x18 (r + x.toNat * 2 ^ 16)))) ∧
      (x.toNat < k.vringSize r → ∃ k', exec (.vringCiWrite r x) s = .next (withK s k') ∧ k'.getF (Reg.vringCi r) 15 0 = x.toNat ∧
        (k'.vringHeld r = true → (k.vring r).waiting ≠ [] → k'.flag (Reg.vringStatus r) 31 = true) ∧
        k'.hub = k.hub ∧ regsOnly k k' (fun o => o = Reg.vringCi r ∨ o = Reg.vringStatus r)) ∧
      (k.vringSize r ≤ x.toNat → exec (.vringCiWrite r x) s = .next (withK s (k.logPlain 0x18 (r + 2 ^ 8 + x.toNat * 2 ^ 16))))) ∧
    (let mine (j : Job) : Bool := j.origin = .ring r && j.cookie = (k.reg Reg.jobAbortCookie).toNat
     (k.hub.jobs.any (fun j => mine j.2) = false → exec (.jobAbort r) s = .next (withK s (k.count Reg.jobAbortMiss 1))) ∧
     (k.hub.jobs.any (fun j => mine j.2) = true → exec (.jobAbort r) s = .next (withK s (k.abortJobs mine))))) ∧
  (∀ (s : State) (r : Nat), live s (r < 16) → s.k.serving = true → s.k.nextTag.isSome = true → s.k.nextRing = some r →
    let V := s.part.vats
    let n := s.k.subqSize r
    let ci := s.k.getF (Reg.subqCi r) 15 0
    let held := (s.k.getF (Reg.subqPi r) 15 0 + n - ci) % n
    let a := (machOf s).ringRead V r ci 1
    let h := recHdr a.1
    let slots := 1 + (h.len + 63) / 64
    let b := a.2.2.ringRead V r (ci + 1) (slots - 1)
    let e := exec (.recordAccept r) s
    (a.2.1 = true → e = .next (turned s (a.2.2.onChip (fun k => k.stopRing r 3)))) ∧
    (a.2.1 = false → h.formed = false → e = .next (turned s (a.2.2.onChip (fun k => k.stopRing r 1)))) ∧
    (a.2.1 = false → h.formed = true → h.type = 15 → e = .next (turned s (a.2.2.onChip (fun k => k.setF (Reg.subqCi r) 15 0 0)))) ∧
    (a.2.1 = false → h.formed = true → h.type ≠ 15 → (n < ci + slots ∨ held < slots) →
      e = .next (turned s (a.2.2.onChip (fun k => k.stopRing r 2)))) ∧
    (a.2.1 = false → h.formed = true → h.type ≠ 15 → ci + slots ≤ n → slots ≤ held →
      (b.2.1 = true → e = .next (turned s (b.2.2.onChip (fun k => k.stopRing r 3)))) ∧
      (b.2.1 = false → e = .next (turned s (b.2.2.onChip (fun k =>
        let k := (k.setF (Reg.subqCi r) 15 0 ((ci + slots) % n)).onHub (fun hb => { hb with lastRing := r })
        k.acceptRecord (.ring r) (a.1 ++ b.1) (k.now + k.classDeadline h.cls))))))) ∧
  (∀ (k : Chip) (r cause : Nat), r < 16 → cause < 4 →
    let k' := k.stopRing r cause
    k'.flag (Reg.subqStatus r) 31 = true ∧ k'.getF (Reg.subqStatus r) 1 0 = cause ∧ k'.subqReady r = false ∧ k'.nextRing ≠ some r ∧
    k'.hub.jobs = k.hub.jobs ∧ unitsKept k k')

/-- R468, R470, R529, R537, R542 to R549: a job's way, each command coming about once the arbiters grant its accesses (R165, R173). The walk of a
job's directory finds its context, makes one, waits for the one that makes room, or ends the job, and lets the jobs behind it go on; JOB_DISPATCH
hands the core the job that R542 names, with room on its hoop and its context's pages allocated ahead; a result entry that is not of a job sent to its
core is dropped and logged, and OK commits the job's tokens; one of a job that an abort or the loss of its context has settled ends it so. R473, R474,
R532, R554 to R562, R631, R632: contexts close in their turn, and completion records are written. A close with no job before it is carried through; an
idle context closes; the record at the front of an enabled ring with room is written at VRING_WI, which moves on, its PHASE turning at the wrap; in a
host-cached block with back-invalidation in use the line is snooped first; and a snoop without answer, the link up, is sent again after 100 µs. -/
def Obligations.JobsAndVerdictsRun : Prop :=
  (∀ (s : State) (v c t : Nat) (j : Job), live s (s.hasCore v c) →
    let V := s.part.vats
    let m := machOf s
    let b := bucketsOf V (s.k.hashOf j.domain j.model j.key)
    let w := (m.readBucket V b.1).readBucket V b.2
    let found := w.k.lookupKey j.order j.domain j.model j.key
    (s.k.job t = some j → j.phase = .walking → s.k.hub.jobs.any (fun x => x.2.phase = .walking && x.2.order < j.order
        && x.2.domain = j.domain && x.2.model = j.model && x.2.key = j.key) = false →
      (∀ i cx, found = some (i, cx) →
        exec (.directoryWalkDone t) s = .next (turned s (w.onChip (fun k => ((k.hotTouch i cx).foundCtx t i cx).releaseFound)))) ∧
      (found = none → (j.kind = 2 ∨ j.mayCreate = false) →
        exec (.directoryWalkDone t) s = .next (turned s (w.onChip (fun k => (k.refuseJob t 0x20).releaseFound)))) ∧
      (found = none → j.kind ≠ 2 → j.mayCreate = true →
        (∀ i m', w.create V j.domain j.model j.cls j.key j.evicts = .ok i m' →
          exec (.directoryWalkDone t) s = .next (turned s (m'.onChip (fun k => (k.bindJob t i true).releaseFound)))) ∧
        (∀ st m', w.create V j.domain j.model j.cls j.key j.evicts = .refused st m' →
          exec (.directoryWalkDone t) s = .next (turned s (m'.onChip (fun k => (k.refuseJob t st).releaseFound)))) ∧
        (∀ h m', w.create V j.domain j.model j.cls j.key j.evicts = .wait h m' →
          exec (.directoryWalkDone t) s = .next (turned s (m'.onChip (fun k => k.setJob t { j with evicts := some h })))))) ∧
    (∀ i cx pc md, s.k.serving = true → s.k.releaseFound.serveSpilled = s.k → s.k.nextJob v c = some (t, j) → s.k.jobCtx j = some (i, cx) →
      s.k.poolCore v c = some pc → s.k.model cx.model = some md → s.k.coreRetired v c = false → s.k.hub.drain.contains (4 * v + c) = false →
      s.k.vatRuns v = true → (s.k.now ≤ j.deadline ∨ j.drop = false) → s.k.hubFull v c pc.jobHoop = false →
      s.k.roomWaits i cx md j.tokens.length = false →
      (∀ m' cx' ps, m.makeRoom V i cx md j.tokens.length = (m', cx', some ps) →
        let big := 8 < j.tokens.length
        let addr := if big then (pc.token + 64 * Config.tokenSlot t) % 2 ^ 37 else 0
        let m2 := if big then m'.hubWrite v addr (j.tokens.flatMap (leBytes 2)) else m'
        exec (.jobDispatch v c) s = .next (turned s (m2.onChip (fun k =>
          ((k.setJob t { j with phase := .sent (4 * v + c), ahead := ps }).setCtx i { cx' with sample := none }).landEntry v c pc.jobHoop
            { data := j.entry t cx' ((j.tokens.length + cx'.tailCount - 1) / 32) addr, last := true, fence := false, poison := false, src := 5 })))) ∧
      (∀ m' cx', m.makeRoom V i cx md j.tokens.length = (m', cx', none) →
        exec (.jobDispatch v c) s = .next (turned s (m'.onChip (fun k => (k.count Reg.ctxRefused 1).refuseJob t 0x24))))) ∧
    (∀ pc e rest, s.k.poolCore v c = some pc → s.k.headOf v c pc.resultHoop = e :: rest → e.poison = false →
      let bs := entryBytes e.data
      let tag := recField bs 2 4
      let took := m.onChip (fun k =>
        (k.setHoop v c pc.resultHoop
          (({ s.k.hoop v c pc.resultHoop with head := rest } : Hoop).poppedBy k.now 5)).settleHoop v c pc.resultHoop)
      (s.k.job tag = none → exec (.resultEntry v c) s = .next (turned s (took.onChip (fun k => k.logCore 0x15 v c tag)))) ∧
      (∀ x, s.k.job tag = some x → recField bs 0 1 = 0x11 → x.handle = recField bs 4 8 → x.phase = .sent (4 * v + c) →
        (∀ st, x.settled = some st → exec (.resultEntry v c) s = .next (turned s (took.failJob V tag st))) ∧
        (x.settled = none → recField bs 1 2 = 1 → exec (.resultEntry v c) s = .next (turned s (took.failJob V tag 0x31))) ∧
        (∀ i cx md, x.settled = none → recField bs 1 2 = 0 → s.k.jobCtx x = some (i, cx) → s.k.model cx.model = some md →
          s.k.commitWaits i cx md x.tokens.length = false →
          exec (.resultEntry v c) s = .next (turned s ((took.commit V i cx md x.tokens.length).onChip (fun k =>
            let k := if x.closes then k.onHub (fun hb =>
              { hb with closes := hb.closes ++ [{ handle := x.handle, order := hb.accepted, tag := none }] }) else k
            (k.endJob tag { status := 0, verdict := recField bs 8 16, tokens := x.tokens.length, closed := x.closes }).feedHub))))))) ∧
  (∀ (s : State) (c : Nat), live s (c < 16) →
    let V := s.part.vats
    let k := s.k
    let m := machOf s
    let r := k.vring c
    let wi := k.getF (Reg.vringWi c) 15 0
    let phase := k.getF (Reg.vringWi c) 16 16
    let a := k.vringNext c
    let line := (lookup 0 k.hub.decoders 0 + a) / 64
    let snooped := r.snoop.filter (fun x => x.1 = line)
    (∀ i x, k.ctx i = some x →
      (∀ y, k.firstClose (x.handle i) = some y → k.jobBefore y.order i x = false →
        exec (.contextClose i) s = .next (turned s (m.runClose V i x y.tag))) ∧
      (let ms := k.getF (Reg.classIdle x.cls) 31 0
       x.state = .live → ms ≠ 0 → ms * 10 ^ 6 < k.now - x.lastActive → k.hasJob i x = false → k.closePending (x.handle i) = false →
       exec (.idleClose i) s = .next (turned s (m.runClose V i x none)))) ∧
    (∀ t rest j o, r.waiting = t :: rest → k.job t = some j → j.outcome = some o → k.serving = true → k.flag (Reg.vringCfg c) 31 = true →
      k.vringFull c = false → (k.vringCached c = true → k.decoderOn 0 = true) →
      ((k.vringCached c = false ∨ k.flag Reg.hostLinkStatus 8 = false ∨ ∃ at_, r.snoop = some (line, at_, true)) →
        let m1 := m.hubWrite (interleaved V a).1 (interleaved V a).2 (j.record t phase k.now o)
        let k1 := (m1.k.countJob j o).setVring c { r with waiting := rest, snoop := none }
        let next := (wi + 1) % k1.vringSize c
        let k2 := k1.setF (Reg.vringWi c) 15 0 next
        let k3 := if next = 0 then k2.setF (Reg.vringWi c) 16 16 (1 - phase) else k2
        exec (.completionRecordWrite c) s = .next (turned s { m1 with k := (((k3.freeTag t).event c).coalesce c).noteWait c })) ∧
      (k.vringCached c = true → k.flag Reg.hostLinkStatus 8 = true → snooped = none →
        exec (.completionRecordWrite c) s =
          .next (withK s (((k.setVring c { r with snoop := some (line, k.now, false) }).snoopLine line).noteWait c)))) ∧
    (∀ l at_, r.snoop = some (l, at_, false) → at_ + 100000 ≤ k.now → k.getF Reg.hostLinkStatus 2 0 ≠ 0 → exec (.biTimeout c) s =
      .next (withK s (((k.setVring c { r with snoop := some (l, k.now, false) }).logPlain 0x17 c).snoopLine l))) ∧
    (∀ l at_ ok, r.snoop = some (l, at_, ok) → ∃ k', exec (.biResponse l) s = .next (withK s k') ∧ k'.vring c = { r with snoop := some (l, at_, true) } ∧
      hubOnly k k') ∧
    (r.since ≠ 0 → k.getF (Reg.vringCfg c) 15 8 ≠ 0 → r.firstAt + 1000 * k.getF (Reg.vringCfg c) 27 16 ≤ k.now →
      exec (.verdictCoalesceTimer c) s = .next (withK s ((k.setVring c { r with since := 0 }).msixSend c))))

/-! ### Affinage and migration -/

/-- R485, R501, R502, R509 to R511: what the hub does as affinage jobs end, comparisons come in and contexts move. A job of the list leaves it and
its STATUS is acted on, DONE putting the page it made in the place of its own; a comparison of a class, of a model whose controller is not frozen,
is counted and weighed against CAL_T; a migration begins where its context may move and has a home, off rows that a draining COMMIT takes away
(R606) or at no COMMIT's request, and ends with the context at its new home, LIVE (a copy held for a peer STANDBY), and its old pages freed, or,
without room there, where it was. R502, R503: a controller counts a comparison, and acts only when its count reaches CAL_N sixteenfold, the count
starting afresh. -/
def Obligations.AffinageMigrationAndCalibrationRun : Prop :=
  (∀ s : State, live s true →
    let V := s.part.vats
    let k := s.k
    let m := machOf s
    (∀ n j st, k.hub.affs[n]? = some j → exec (.affinageJobResult n st) s =
      .next (turned s ((((m.onChip (fun k => k.onHub (fun h => { h with affs := h.affs.eraseIdx n }))).affResult j st).payOwed j.ctx).onChip
        Chip.feedHub))) ∧
    (∀ j c, k.ctx j.ctx = some c →
      m.affResult j .done = m.onChip (fun k => k.setCtx j.ctx (c.setPage j.page (if j.kind = 5 then none else some j.made))) ∧
      m.affResult j .stale = m ∧ m.affResult j .range = m) ∧
    (∀ (rec : BitVec 512) i c md, k.hub.ctxs.find? (fun c => c.2.handle c.1 = recField (entryBytes rec) 0 4) = some (i, c) →
      k.model c.model = some md →
      let bs := entryBytes rec
      let cls := recField bs 10 11 % 4
      let k1 := k.count (Reg.calRecords c.model) 1
      let t := k1.getF (Reg.calCfg c.model) 15 0
      (k1.calFrozen md = true → exec (.calComparison rec) s = .next (withK s k1.freezeCal)) ∧
      (k1.calFrozen md = false → recField bs 11 12 = 0 → cls ≠ 0 → exec (.calComparison rec) s =
        .next (withK s (k1.calCount c.model cls (decide (t < recField bs 12 14) || decide (t < recField bs 14 16)))))) ∧
    (∀ i c md h, k.ctx i = some c → k.model c.model = some md → k.mayMigrate c = true →
      let keep := k.keptPages c
      ((∀ x, m.draining s.part = some x → x.moves c = false) → (c.state = .live ∨ k.dieShut c.vat c.die = true) → k.drains c.vat c.die = false →
        k.findHome md (some (c.vat, c.die)) (fun lay v d rot => if k.drains v d then none else k.placeAll md lay v d rot [] keep) = some h →
        exec (.migrationStart i) s = .next (turned s (m.startMigration V i c md h keep))) ∧
      (∀ x, m.draining s.part = some x → x.moves c = true → x.homeFor c md keep = some h →
        exec (.migrationStart i) s = .next (turned s (m.startMigration V i c md h keep)))) ∧
    (∀ i c md g, k.ctx i = some c → k.model c.model = some md → c.migration = some g → k.hub.affs.any (fun j => j.ctx = i && !k.jobHeld j) = false →
      k.hub.jobs.any (fun j => j.2.handle = c.handle i && (match j.2.phase with | .sent _ => true | _ => false)) = false →
      g.bytes ≤ 32 * (k.now - g.since) →
      (m.catchUp c md g (m.narrower s.part g.vat g.die) = none → exec (.migrationSwitch i) s = .next (turned s
        ((m.clearSlot g.vat g.die g.slot (List.range 96)).setCtx V i { c with state := c.settledState, migration := none }))) ∧
      (∀ m1 pages pairs, m.catchUp c md g (m.narrower s.part g.vat g.die) = some (m1, pages, pairs) →
        let m2 := pairs.foldl (fun m x => m.copyPage md c.vat c.die g.vat g.die x.1 x.2) (m1.onChip (fun k => k.withdraw i))
        let m3 := ((m2.putIndexes g.vat g.die g.slot pages true).zeroLedger md c.model g.vat g.die g.slot).freePages { c with migration := none }
        exec (.migrationSwitch i) s = .next (turned s (m3.setCtx V i { c with
          state := c.settledState, vat := g.vat, die := g.die, slot := g.slot, rot := g.rot, pages := pages, migration := none, shadow := []
          spare := none, shadowOk := false, shadowFirst := (c.tail + 1) % 2 ^ 24, sample := none }))))) ∧
  (∀ (k : Chip) (model cls : Nat) (above : Bool),
    let key := calKey model cls
    let x := lookup { n := 0, e := 0 } k.hub.cal key
    let k' := k.calCount model cls above
    (x.n + 1 < 16 * k.getF (Reg.calCfg model) 23 16 →
      lookup { n := 0, e := 0 } k'.hub.cal key = { n := x.n + 1, e := x.e + (if above then 1 else 0) } ∧ k'.regs = k.regs) ∧
    (16 * k.getF (Reg.calCfg model) 23 16 ≤ x.n + 1 → lookup { n := 0, e := 0 } k'.hub.cal key = { n := 0, e := 0 }) ∧
    (∀ other, other ≠ key → lookup { n := 0, e := 0 } k'.hub.cal other = lookup { n := 0, e := 0 } k.hub.cal other) ∧ unitsKept k k')

/-! ### The register file -/

/-- R15, R18, R19, R20, R825, R829: REGISTER_WRITE. One to a lost vat's block changes nothing (R829). A write of a register whole takes the RW bits
but those whose writing acts, clears the W1C and sticky bits written 1, leaves every other bit, stages the LCK bits while a transaction is OPEN and
else logs them (the other two clauses say so of the two halves of writeReg); one that reaches no register but is well formed changes nothing; any
other is recorded in HUB_BAD_ACCESS and writes nothing. R730: one to the block of a sleeping vat wakes it and waits. R18, R570, R571, R583: the LCK
fields of a register are never written at once. While a transaction is OPEN the value, without the bits that the write has set, is staged with domain
0's authority; in every other state the write is ignored and logged; and a register without LCK fields takes no notice. Table 0.3: the bits of a
register that a write changes: an RW bit that does not act takes what is written, a W1C or sticky bit goes to 0 where 1 is written, and every other
bit stays. -/
def Obligations.RegistersAreWrittenByAccess : Prop :=
  (∀ (s : State) (o : BitVec 28) (n : Nat) (full : Bool) (w : Word), live s true →
    s.k.lostBlock s.part.vats o.toNat = true → exec (.registerWrite o n full w) s = .next s) ∧
  (∀ (s : State) (o : BitVec 28) (n : Nat) (full : Bool) (w : Word), live s true → s.k.lostBlock s.part.vats o.toNat = false →
    let a := o.toNat
    let k := s.k
    let e := exec (.registerWrite o n full w) s
    (∀ v, k.sleeper s.part.vats a = some v →
      e = .next (withK s (k.holdBar { vat := v, offset := a, size := n, write := true, full := full, value := w }))) ∧
    (k.sleeper s.part.vats a = none →
      (∀ r, touched s.part.vats a n = [(a, n)] → full = true → regOver a = some (a, r) →
        e = .next (withM s ((machOf s).writeReg s.part a r w))) ∧
      (touched s.part.vats a n = [] → full = true → (n = 4 ∨ n = 8) → a % n = 0 → e = .next s) ∧
      (touched s.part.vats a n = [] → ¬ (full = true ∧ (n = 4 ∨ n = 8) ∧ a % n = 0) → e = .next (withK s (k.badAccess true a))) ∧
      (touched s.part.vats a n ≠ [] → (full = false ∨ touched s.part.vats a n ≠ [(a, n)]) → e = .next (withK s (k.badAccess true a))))) ∧
  (∀ (k : Chip) (V o : Nat) (w : Word),
    let k' := k.putLocked V o w
    (∀ a, (∀ c, a ≠ Reg.logOvf c) → k'.reg a = k.reg a) ∧
    (BitVec.ofNat 64 (lckAt V o) = 0 → k' = k) ∧
    (BitVec.ofNat 64 (lckAt V o) ≠ 0 → (k.ciState ≠ 1 ∨ k.hub.txn = none) → k' = k.logPlain 0x10 o) ∧
    (∀ t, BitVec.ofNat 64 (lckAt V o) ≠ 0 → k.ciState = 1 → k.hub.txn = some t →
      let x := w &&& ~~~BitVec.ofNat 64 (rwAt o)
      ∃ t', k'.hub.txn = some t' ∧ t'.writes = t.writes ++ [(o, x)] ∧ t'.sections = t.sections ∧ t'.regs = (t.putReg o x.toNat 0).regs ∧
        hubOnly k k')) ∧
  (∀ (k : Chip) (o : Nat) (r : RegRow) (w : Word),
    let rw := BitVec.ofNat 64 (r.bitsOf (· = .rw) - (r.bitsOf (· = .rw) &&& actingBits o))
    let clr := BitVec.ofNat 64 (r.bitsOf (fun a => a = .w1c || a = .sticky))
    let k' := k.putPlain o r w
    (∀ i, i < 64 → (k'.reg o).getLsbD i = ((if rw.getLsbD i then w.getLsbD i else (k.reg o).getLsbD i) && !(clr.getLsbD i && w.getLsbD i))) ∧
    (∀ a, a ≠ o → k'.reg a = k.reg a) ∧ k'.hub = k.hub ∧ unitsKept k k')

/-- R648, R824, R826, R828 to R830: a read of BAR0. Of a lost vat's block it returns zeros; naturally aligned and within, or over, whole registers it
returns their bytes; otherwise it returns zeros and HUB_BAD_ACCESS keeps the first such access. R730, R828: of a sleeping vat's block it wakes the vat
and waits, unanswered. Nothing else changes. -/
def Obligations.Bar0ReadsAnswer : Prop :=
  ∀ (s : State) (o : BitVec 28) (n : Nat), live s true →
    let V := s.part.vats
    let a := o.toNat
    let zeros := Response.bytes 0 (List.replicate n 0)
    let k := s.k
    (∀ c, c = .bar0ReadRefused o n ∨ c = .bar0ReadWake o n →
      (k.lostBlock V a = true → exec c s = .next (answered s k zeros)) ∧
      (k.lostBlock V a = false → (∀ v, k.sleeper V a = some v → exec c s =
        .next (answered s (k.holdBar { vat := v, offset := a, size := n, write := false, full := true, value := 0 }) .none)) ∧
        (k.sleeper V a = none → readFits V a n = false → exec c s = .next (answered s (k.badAccess false a) zeros)) ∧
        (k.sleeper V a = none → readFits V a n = true → exec c s =
          .next (answered s k (.bytes 0 ((List.range n).map (fun i => k.barByte s.part (a + i)))))))) ∧
    (k.flag Reg.hubBadAccess 31 = false →
      (k.badAccess false a).flag Reg.hubBadAccess 31 = true ∧ (k.badAccess false a).flag Reg.hubBadAccess 30 = false ∧
      (k.badAccess false a).getF Reg.hubBadAccess 27 0 = a) ∧
    (k.flag Reg.hubBadAccess 31 = true → (k.badAccess false a).getF Reg.hubBadAccess 27 0 = k.getF Reg.hubBadAccess 27 0 ∧
      (k.badAccess false a).flag Reg.hubBadAccess 29 = true) ∧
    (∀ v q, v < V → (k.vat v).power = .asleep → a / 0x1000000 = v + 1 → k.sleeper V a = some v ∧
      ((k.holdBar q).hub.barQ = k.hub.barQ ++ [q]) ∧
      (q.vat = v → ((k.holdBar q).vat v).power = .waking ∧ (k.holdBar q).getF (Reg.vatPwr v) 31 30 = 3))

/-! ### Failures, resets and boot -/

/-- R709 to R722, Table 15.9: the requests of FAIL_REQ, ignored while one runs; the end of a requalification; the loss of a vat; and errors of the
hub's own memory. -/
def Obligations.FailuresAreHandled : Prop :=
  ∀ s : State, live s true →
    let V := s.part.vats
    let k := s.k
    let m := machOf s
    (k.flag Reg.failResult 30 = true → (∀ v d a, exec (.takeover v d a) s = .next s ∧ exec (.requalify v d a) s = .next s) ∧
      (∀ v p, exec (.retirePage v p) s = .next s) ∧ (∀ v c, exec (.retireCore v c) s = .next s)) ∧
    (k.flag Reg.failResult 30 = false →
      (∀ v d a, exec (.takeover v d a) s = .next (withK s (k.requestTakeover V v d a))) ∧
      (∀ v p, v < V → p < 49152 → ∃ k', exec (.retirePage v p) s = .next (withK s k') ∧ k'.flag (Reg.retiredPages v (p / 32)) (p % 32) = true ∧
        k'.getF Reg.failResult 3 0 = 0 ∧ k'.flag Reg.failResult 31 = true ∧ unitsKept k k') ∧
      (∀ v d a, v < V → d < 16 → 96 ≤ a → a < 100 → (k.die v d).spare (a - 96) = .retired →
        ∃ k', exec (.requalify v d a) s = .next (withK s k') ∧ (k'.die v d).requal = some (a - 96, k.now) ∧ k'.flag Reg.failResult 30 = true ∧
          k'.bus = k.bus ∧ k'.cores = k.cores ∧ k'.hub = k.hub) ∧
      (∀ v c, v < V → c < 4 → exec (.retireCore v c) s = .next (withM s ((m.retireCore s.part v c).onChip (fun k => k.failDone 0)))) ∧
      (∀ v c, (V ≤ v ∨ 4 ≤ c) → exec (.retireCore v c) s = .next (withK s (k.failDone 3)))) ∧
    (∀ v d q since passed, v < V → d < 16 → (k.die v d).requal = some (q, since) → since + 15730000 ≤ k.now →
      ∃ t, exec (.requalifyDone v d passed) s = .next t ∧ t.pending = s.pending ∧ (t.k.die v d).requal = none ∧
        t.k.getF Reg.failResult 3 0 = (if passed then 0 else 4) ∧ t.k.flag Reg.failResult 31 = true ∧
        (passed = false → (t.k.die v d).spare q = (k.die v d).spare q) ∧
        (∀ n, n < bankByte v d ((k.die v d).phys (96 + q)) 0 ∨ bankByte v d ((k.die v d).phys (96 + q)) (2 ^ 26) ≤ n → t.dram.byte n = s.dram.byte n) ∧
        (passed = true → ∀ n, n < 2 ^ 26 → t.dram.byte (bankByte v d ((k.die v d).phys (96 + q)) n) = 0)) ∧
    (∀ v, v < V → exec (.vatHeartbeatLoss v) s = .next (withM s (m.loseVat s.part v)) ∧
      exec (.baseDieInternalError v) s = .next (withM s (m.loseVat s.part v))) ∧
    (k.hub.stopped = false → ∀ n,
      (∃ k', exec (.hubSramUe true n) s = .next (withK s k') ∧ k'.hub.hot = erase k.hub.hot (n % 2 ^ 14) ∧ k'.hub.stopped = false ∧ unitsKept k k') ∧
      (∃ k', exec (.hubSramUe false n) s = .next (withK s k') ∧ k'.hub.stopped = true ∧ k'.hub.boot.cond = .hubStopped ∧
        k'.faultOut = true ∧ k'.getF Reg.hostLinkStatus 2 0 = 0))

/-- R584, R752, R753, R796 to R802, Table 18.4: what happens to the part's supplies and reset inputs, in each condition in which it has an effect.
R17, Table 18.2: a package reset keeps the LCK and sticky fields and those that read Cave, and every other field takes its reset value; programs,
jobs, sessions and transactions go, the domains stay without keys and grants, every vat is in self-refresh (R802), and the part is held in reset. -/
def Obligations.ResetsAndSuppliesKeepTheCave : Prop :=
  (∀ s : State,
    let k := s.k
    let m := machOf s
    let c := k.hub.boot.cond
    let cave : Dram := { cells := [], marks := [] }
    ((k.resettable = true ∨ c = .held) → exec .perstAssert s = .next (withM s (m.resetTrigger s.part 2))) ∧
    (k.resettable = true → (k.flag Reg.bootCfg 1 = true → exec (.sidebandPkgReset { key := 0x7A3C0E91, pec := true }) s = .next (withM s (m.resetTrigger s.part 4)))) ∧
    (∀ w : SidebandWrite, (w.key ≠ 0x7A3C0E91 ∨ w.pec = false) → exec (.sidebandPkgReset w) s = .next s) ∧
    (∀ key : BitVec 32, key ≠ 0x7A3C0E91 → live s true → exec (.pkgReset key) s = .next s) ∧
    (live s true → k.flag Reg.bootCfg 0 = true → exec (.pkgReset 0x7A3C0E91) s = .next (withM s (m.resetTrigger s.part 3))) ∧
    (∀ n, k.ciState ≠ 3 → m.resetTrigger s.part n = m.packageReset s.part n) ∧
    (k.ciState = 3 → k.alive = true → k.hub.boot.deferred = none → ∀ n, (m.resetTrigger s.part n).k.hub.boot.deferred = some (n, k.now)) ∧
    (c = .held → (k.getF Reg.bootStatus 2 0 = 2 ∨ k.hub.boot.heldAt + 1000000 ≤ k.now) →
      exec .packageResetEnd s = .next (withK s (k.onBoot (fun b => { b with cond := .booting, endAt := k.now, stageAt := k.now })))) ∧
    (c = .cave → exec .powerOnReset s = .next (withM s { dr := cave, k := k.powerOn s.part })) ∧
    (c ≠ .cave → exec .powerOnReset s = .next s) ∧
    (∀ g : BitVec 4, 2 ≤ g.toNat → g.toNat < 8 + s.part.vats →
      ((c = .off ∨ c = .cave) → exec (.supplyLoss g) s = .next s) ∧
      (c ≠ .off → c ≠ .cave → ∃ t, exec (.supplyLoss g) s = .next t ∧ t.dram = cave ∧ t.k.hub.boot.cond = .cave ∧ t.k.hub.stopped = true ∧
        t.k.faultOut = true ∧ t.k.getF Reg.hostLinkStatus 2 0 = 0 ∧ t.k.alive = false ∧ t.pending = s.pending ∧ t.part = s.part)) ∧
    (∀ g : BitVec 4, (g.toNat < 2 ∨ 8 + s.part.vats ≤ g.toNat) → exec (.supplyLoss g) s = .fault .noSuchUnit) ∧
    (∃ t, exec .standbySupplyLoss s = .next t ∧ t.dram = cave ∧ t.k.hub.boot.cond = .off ∧ t.k.alive = false ∧ t.part = s.part) ∧
    (c = .off → ∃ t, exec .caveReset s = .next t ∧ t.dram = s.dram ∧ t.k.hub.boot.cond = .cave ∧
      t.k.hub.owners = k.hub.owners ∧ t.k.hub.straps = s.part.straps ∧ t.k.cores = [] ∧
      t.k.getF Reg.rindSvn 31 16 = k.getF Reg.rindSvn 31 16 ∧ (∀ o, o ≠ Reg.rindSvn → t.k.reg o = resetAt o)) ∧
    (∀ hub v die i temp, (hub = true ∨ (v < s.part.vats ∧ die ≤ 16)) → i < (if hub || die = 16 then 4 else 2) → 110 ≤ temp → live s true →
      ∃ t, exec (.thermalTrip hub v die i temp) s = .next t ∧ t.dram = cave ∧ t.k.hub.boot.cond = .tripped ∧ t.k.hub.boot.thermTrip = true ∧
        t.k.flag Reg.pwrTrip 31 = true ∧ t.k.getF Reg.pwrTrip 15 0 = sensorCode hub v die i % 65536 ∧
        t.k.getF Reg.pwrTrip 23 16 = min temp 255) ∧
    (∀ causes : BitVec 4, c ≠ .off → causes ≠ 0 → ∃ t, exec (.tamper causes) s = .next t ∧ t.dram = cave ∧ t.k.getF Reg.rindStatus 1 0 = 3 ∧
      t.k.hub.sessions = [] ∧ t.k.hub.txn = none ∧ t.k.hub.heldReqs = [] ∧ t.k.hub.ide = IdeState.off ∧ t.k.ciState = 0 ∧
      (∀ d, d ∈ t.k.hub.domains → d.2.dsk = none ∧ d.2.grants = 0))) ∧
  (∀ (s : State) (cause : Nat), cause < 8 → s.k.bus = [] →
    let t := (machOf s).packageReset s.part cause
    t.dr = s.dram ∧ t.k.getF Reg.bootStatus 2 0 = cause ∧ t.k.hub.boot.cond = .held ∧ t.k.hub.txn = none ∧ t.k.hub.sessions = [] ∧ t.k.hub.jobs = [] ∧
    t.k.hub.owners = s.k.hub.owners ∧ t.k.hub.ctxs = s.k.hub.ctxs ∧ t.k.hub.time = s.k.hub.time ∧ t.k.bus = [] ∧
    (∀ d, d ∈ t.k.hub.domains → d.2.dsk = none ∧ d.2.grants = 0) ∧ t.k.hub.domains.map (·.1) = s.k.hub.domains.map (·.1) ∧
    (s.k.getF Reg.rindStatus 1 0 = 3 → t.k.getF Reg.rindStatus 1 0 = 3) ∧ (∀ v, v < s.part.vats → (t.k.vat v).power = .asleep) ∧
    (risingFrom 0 s.k.regs = true → ∀ o, o ≠ Reg.pwrCap → o ≠ Reg.bootStatus → o ≠ Reg.rindStatus → (∀ v, o ≠ Reg.vatStatus v ∧ o ≠ Reg.vatPwr v) →
      let kept := BitVec.ofNat 64 (keptBits true o)
      t.k.reg o = ((s.k.reg o &&& kept) ||| (resetAt o &&& ~~~kept))))

/-- R659, R677, R678, R803, R807 to R811, Table 18.3: the boot, stage by stage, each no earlier than its time: the stages that a command ends, and
those that a tick ends (bootTick; how long such a stage lasts within its bounds is free, log entry 87); and the sideband's answers, given in every
condition but with the standby supply off. -/
def Obligations.BootRunsByStages : Prop :=
  ∀ s : State,
    let k := s.k
    let fused := k.getF Reg.rindSvn 31 16
    (live s true → k.bootsAt 1 = true →
      (∀ a b, a.refused fused = none → exec (.firmwareVerify a b) s = .next (withK s (k.runFirmware 0 a))) ∧
      (∀ a b why, a.refused fused = some why →
        let k1 := k.writeLog { occ 0x61 k.now with detail := why * 256 }
        (b.refused fused = none → exec (.firmwareVerify a b) s = .next (withK s (k1.runFirmware 1 b))) ∧
        (b.refused fused ≠ none → ∃ k', exec (.firmwareVerify a b) s = .next (withK s k') ∧ k'.hub.boot.cond = .failed ∧
          k'.getF Reg.bootStatus 11 8 = 7 ∧ k'.getF Reg.rindStatus 1 0 = (if k.getF Reg.rindStatus 1 0 = 3 then 3 else 2)))) ∧
    (live s true → k.bootsAt 3 = true → k.poweredOn = true → k.hub.boot.trained = false →
      ∃ k', exec (.dieTraining []) s = .next (withK s k') ∧ k'.hub.boot.trained = true ∧
        (k.hub.tenantSeen = true → k'.getF Reg.bootStatus 11 8 = 4) ∧ (k.hub.tenantSeen = false → k'.regs = k.regs)) ∧
    (live s true → k.bootsAt 4 = true → k.hub.boot.scrubbed = false →
      ∃ t, exec .bootScrub s = .next t ∧ t.dram.cells = [] ∧ t.dram.marks = [] ∧ t.k.hub.tenantSeen = false ∧ t.k.hub.boot.scrubbed = true ∧
        t.k.flag Reg.rindStatus 5 = true) ∧
    (live s true → k.bootsAt 5 = true → k.hub.boot.cleared = false →
      ∃ t, exec .directoryClear s = .next t ∧ t.k.hub.ctxs = [] ∧ t.k.hub.boot.cleared = true ∧ t.k.getF Reg.bootStatus 11 8 = 5 ∧
        t.part = s.part ∧ t.pending = s.pending) ∧
    (live s true → k.bootDone = true →
      ∃ k', exec .bootReady s = .next (withK s k') ∧ k'.flag Reg.bootStatus 31 = true ∧ k'.getF Reg.bootStatus 11 8 = 6 ∧
        k'.hub.boot.cond = .ready ∧ k'.getF Reg.bootTime 31 0 = (roundDiv ((k.now - k.hub.boot.endAt : Nat) : Int) 1000).toNat % 2 ^ 32 ∧
        k'.hub.log = (k.writeLog { occ 0x60 k.now with
          detail := k.getF Reg.bootStatus 2 0 + (roundDiv ((k.now - k.hub.boot.endAt : Nat) : Int) 1000000).toNat * 256 }).hub.log ∧
        (k.getF Reg.rindStatus 1 0 ≠ 3 → k'.getF Reg.rindStatus 1 0 = 1) ∧ unitsKept k k') ∧
    (k.stageOver 0 = true → k.bootTick s.part = k.toStage 1) ∧
    (k.stageOver 2 = true → k.bootTick s.part = k.measured s.part ∧ (k.bootTick s.part).getF Reg.bootStatus 11 8 = 3) ∧
    (k.stageOver 3 = true → k.poweredOn = false → ∀ v, v < s.part.vats →
      ((k.bootTick s.part).vat v).power = .awake ∧ (k.bootTick s.part).getF Reg.bootStatus 11 8 = 5) ∧
    (k.stageOver 0 = false → k.stageOver 2 = false → (k.stageOver 3 = false ∨ k.poweredOn = true) → k.bootTick s.part = k) ∧
    (k.hub.boot.cond ≠ .off →
      exec .caveStatus s = .next (answered s k (.word (BitVec.ofNat 64 k.caveStatus))) ∧
      exec .trip s = .next (answered s k (.word (k.reg Reg.pwrTrip))) ∧
      exec .log s = .next (answered s k (.word (BitVec.ofNat 64
        (k.getF Reg.logWi 11 0 + 4096 * k.getF Reg.logRi 11 0 + statusBit (k.flag Reg.logStatus 31) 24)))) ∧
      exec .sidebandTamper s = .next (answered s k (.word (k.reg Reg.rindTamper)))) ∧
    (k.hub.boot.cond = .off → exec .caveStatus s = .next s ∧ exec .trip s = .next s ∧ exec .log s = .next s ∧ exec .sidebandTamper s = .next s)

/-! ### Power, heat and debug -/

/-- R743, R744: a cap written takes effect at once, the maximum in place of anything above it; below the minimum of the range CAP_UNMET is set, and a
COMMIT that waits in admission goes on where it may. R728 to R731, R736: a vat idle for SLEEP_IDLE_US falls asleep in two steps, and a waiting request
wakes it in two, its accesses that waited being made. R735: a droop at boost counts. R683: debug holds act on the target core where a grant covers it.
R743: what a written cap leaves: PWR_CAP reads the lesser of it and the maximum; below the minimum, with no heat about, CAP_UNMET is set with cause
CAP and, entered afresh, counted. -/
def Obligations.PowerAndDebugAct : Prop :=
  (∀ s : State, live s true →
    let k := s.k
    let V := s.part.vats
    (∀ w, exec (.pwrCapWrite w) s = .next (withK s ((k.writeCap s.part w.toNat).resumeAdmission s.part))) ∧
    (∀ v, v < V →
      (k.getF Reg.pwrPolicy 31 16 ≠ 0 → k.awake v = true → k.flag Reg.pwrWarm v = false → k.vatIdle v = true →
        k.hub.pwr.idleSince.any (fun e => e.1 = v && e.2 + 1000 * k.getF Reg.pwrPolicy 31 16 ≤ k.now) = true →
        exec (.vatSleep v) s = .next (withK s (k.setPower v .entering))) ∧
      (k.getF Reg.pwrPolicy 31 16 = 0 → exec (.vatSleep v) s = .next s) ∧
      ((k.vat v).power = .entering → exec (.vatAsleep v) s = .next (withK s (k.setPower v .asleep))) ∧
      (((k.vat v).power = .asleep ∨ (k.vat v).power = .entering) → exec (.wakeRequest v) s =
        .next (withK s ((k.setPower v .waking).count (Reg.vatWakes v) 1))) ∧
      (((k.vat v).power = .awake ∨ (k.vat v).power = .waking) → exec (.wakeRequest v) s = .next s) ∧
      ((k.vat v).power = .waking → exec (.vatAwake v) s =
        .next (withM s (((machOf s).onChip (fun k => (k.setPower v .awake).feedHub)).serveBars s.part v))) ∧
      (k.boosted v = true → k.awake v = true → exec (.droop v) s = .next (withK s (k.count (Reg.vatStretch v) 1))) ∧
      (k.boosted v = false → exec (.droop v) s = .next s)) ∧
    (let t := k.dbgTarget
     (t.1 < V → k.scope t.1 t.2 1 = true →
       (∀ mask : BitVec 5,
         let x := k.core t.1 t.2
         exec (.dbgHalt mask) s = .next (withK s ((k.setCore t.1 t.2 { x with
           held := mask.toNat
           streams := x.streams.mapIdx (fun n y => if x.held.testBit n && !mask.toNat.testBit n then { y with freedAt := k.now } else y) }).setF
             Reg.dbgHalt 4 0 mask.toNat))) ∧
       (∀ mask : BitVec 4, ∃ k', exec (.dbgBuHalt mask) s = .next (withK s k') ∧ k'.getF Reg.dbgBuHalt 3 0 = mask.toNat ∧
         (∀ i, i < 4 → (k'.die t.1 (4 * t.2 + i)).held = mask.getLsbD i) ∧ (∀ o, o ≠ Reg.dbgBuHalt → k'.reg o = k.reg o) ∧
         k'.bus = k.bus ∧ k'.cores = k.cores ∧ k'.hub = k.hub)) ∧
     ((V ≤ t.1 ∨ k.scope t.1 t.2 1 = false) → (∀ mask, exec (.dbgHalt mask) s = .next s) ∧ (∀ mask, exec (.dbgBuHalt mask) s = .next s)))) ∧
  (∀ (k : Chip) (p : Part) (w : Nat), w < 65536 →
    let k' := k.writeCap p w
    k'.getF Reg.pwrCap 15 0 = min w p.maxWatts ∧ unitsKept k k' ∧
    (w < p.minWatts → k'.capUnmet = true ∧ k'.hub.pwr.capCause = true ∧
      (k.hub.pwr.thermal = [] → k'.getF Reg.pwrStatus 30 29 = 1) ∧
      (k.capUnmet = false → k'.getF Reg.pwrCapUnmetN 47 0 = (k.getF Reg.pwrCapUnmetN 47 0 + 1) % 2 ^ 48) ∧
      (k.capUnmet = true → k'.reg Reg.pwrCapUnmetN = k.reg Reg.pwrCapUnmetN)) ∧
    (p.minWatts ≤ w → k.getF Reg.pwrCap 15 0 < p.minWatts → k.hub.pwr.thermal = [] → k'.capUnmet = false))

/-- R736 to R749: an arbiter's tick, 1 µs or more after the last, shows its readings, paces the barriers, steps every awake vat that pacing has not
lowered, judges the causes of CAP_UNMET, and lets a waiting COMMIT go on; R747, R748, R750: a sample, 1 µs or more after the last,
notes every sensor; R817, R818: a TSV lane pass that is due counts, and a lane whose recalibration fails takes a spare. R736, R739, R748, with
PRESS_LIMIT_FLOOR in its range of 1 to 16: the arbiter never raises a limit above 16 nor by more than one, nor lowers it below 1 or by more than
one, and it changes no other vat's limit; a throttled vat is out of boost. -/
def Obligations.TicksAndSamplesMoveByOne : Prop :=
  (∀ s : State, live s true →
    let k := s.k
    let V := s.part.vats
    (∀ r, k.hub.pwr.tickAt.any (fun t => k.now < t + 1000) = true → exec (.arbiterTick r) s = .next s) ∧
    (∀ r, k.hub.pwr.tickAt.any (fun t => k.now < t + 1000) = false →
      let k0 := ({ k := k, vats := V, r := r } : Arbiter).show_
      let paced := (List.range 16).foldl ({ k := k0, vats := V, r := r } : Arbiter).paceOne (k0, [])
      let x : Arbiter := { k := paced.1, vats := V, r := r }
      let k1 := (x.awake.filter (fun v => !paced.2.contains v)).foldl (fun k v => x.adjust v k) paced.1
      exec (.arbiterTick r) s =
        .next (withK s (((x.noteCause (k1.noteHeat V) s.part).noteCap).resumeAdmission s.part))) ∧
    (∀ r, k.hub.pwr.sampleAt.any (fun t => k.now < t + 1000) = true → exec (.thermalSample r) s = .next s) ∧
    (∀ r : HeatReading, k.hub.pwr.sampleAt.any (fun t => k.now < t + 1000) = false →
      let k0 := (k.onPwr (fun p => { p with sampleAt := some k.now })).noteHub (hottest (r.hub.take 4))
      exec (.thermalSample r) s = .next (withK s ((List.range V).foldl (fun k v =>
        let x := (r.vats.getD v []).take 36
        ((List.range 16).foldl (fun k d => k.noteDie v d (x.getD (2 * d) 0) (x.getD (2 * d + 1) 0)) (k.noteTemp v (hottest x))).showHeat v) k0))) ∧
    (∀ v d temp failed, v < V → d < 16 →
      let x := k.die v d
      (x.calAt + k.getF Reg.tsvCalCfg 15 0 * 1000000 ≤ k.now ∨ k.getF Reg.tsvCalCfg 23 16 ≤ (temp - x.calTemp).natAbs →
        exec (.tsvCalibration v d temp failed) s = .next (withK s (failed.foldl (fun k l => k.laneFails s.part v d l.toNat)
          ((k.setDie v d { x with calAt := k.now, calTemp := temp }).wrapAdd (Reg.dieTsv v d) 31 16 1)))) ∧
      (k.now < x.calAt + k.getF Reg.tsvCalCfg 15 0 * 1000000 → (temp - x.calTemp).natAbs < k.getF Reg.tsvCalCfg 23 16 →
        exec (.tsvCalibration v d temp failed) s = .next s))) ∧
  (∀ (x : Arbiter) (v : Nat) (k : Chip), v < 8 → 1 ≤ k.limitOf v → k.limitOf v ≤ 16 → 1 ≤ k.pressLow → k.pressLow ≤ 16 →
    let k' := x.adjust v k
    k'.limitOf v ≤ k.limitOf v + 1 ∧ k.limitOf v ≤ k'.limitOf v + 1 ∧ 1 ≤ k'.limitOf v ∧ k'.limitOf v ≤ 16 ∧
    (∀ u, u < 8 → u ≠ v → k'.limitOf u = k.limitOf u) ∧ (k.throttled v = true → k'.boosted v = false) ∧ unitsKept k k')

/-! ### The error log -/

/-- R702 to R706: the log writer takes the oldest waiting occurrence; with none waiting, nothing happens. R706: LOG_IRQ sends vector 16 where an
entry is owed and the gap since the last message has passed, and else does nothing. R702, R705, R707: a new entry. Into a log with room it goes at
LOG_WI, which moves on by one of 4,096; into a full one it does not go: it is counted in its class, LOG_STATUS shows FULL, and no entry changes.
R703, R704, R706: a message is owed once an entry of LOG_CFG.IRQ_MIN_SEV has gone in; an occurrence that coalesces, or one of a bank under
suppression, owes none. -/
def Obligations.LogEntriesGoAtTheIndex : Prop :=
  (∀ s : State, live s true →
    let k := s.k
    (k.hub.logQ = [] → exec .logEntryWrite s = .next s) ∧
    (∀ o rest, k.hub.logQ = o :: rest → exec .logEntryWrite s = .next (withK s ((k.onHub (fun h => { h with logQ := rest })).writeLog o))) ∧
    (k.hub.log.owed = false → exec .logIrq s = .next s) ∧
    (k.hub.log.owed = true → (∀ t, k.hub.log.sentAt = some t → t + 1000 * k.getF Reg.logCfg 31 16 ≤ k.now) →
      exec .logIrq s = .next (withK s ((k.onLog (fun l => { l with owed := false, sentAt := some k.now })).msixSend 16))) ∧
    (∀ t, k.hub.log.sentAt = some t → k.now < t + 1000 * k.getF Reg.logCfg 31 16 → exec .logIrq s = .next s)) ∧
  (∀ (k : Chip) (o : LogOcc), o.cls < 128 →
    let i := k.getF Reg.logWi 11 0
    let full := (i + 1) % 4096 = k.getF Reg.logRi 11 0
    let k' := k.newEntry o
    (full → k'.hub.log = k.hub.log ∧ k'.getF Reg.logWi 11 0 = i ∧ k'.flag Reg.logStatus 31 = true ∧
      k'.getF (Reg.logOvf o.cls) 15 0 = min 65535 (k.getF (Reg.logOvf o.cls) 15 0 + 1)) ∧
    (¬ full → k'.getF Reg.logWi 11 0 = (i + 1) % 4096 ∧
      (k'.hub.log.ring.find? (fun e => e.1 = i)).map (fun e => e.2) = some { first := o, count := 1, last := o.time } ∧
      (∀ j, j ≠ i → k'.hub.log.ring.find? (fun e => e.1 = j) = k.hub.log.ring.find? (fun e => e.1 = j)) ∧
      k'.hub.log.owed = (k.hub.log.owed || decide (k.getF Reg.logCfg 1 0 ≤ o.sev))) ∧
    (∀ e, k.logMatch o = some e → ¬ (o.cls = 0x01 ∧ k.flag (Reg.buEccState o.vat o.die o.phys) 0 = true) →
      k.writeLog o = k.onLog (fun l => { l with ring := insert l.ring e.1 { e.2 with count := min 0xFFFF (e.2.count + 1), last := o.time } })) ∧
    (o.cls = 0x01 → k.flag (Reg.buEccState o.vat o.die o.phys) 0 = true → k.writeLog o = k) ∧
    unitsKept k k')

/-! ### The Kwadan link -/

/-- R763, R769 to R777, R820, Table 17.2: a port's states. ENABLE starts and stops a port; a part that is READY lets DETECT, TRAIN and ALIGN advance, at
the widest width whose lanes all pass; an exchange that passes gives the port its keys and makes it ACTIVE with the peer it names, one that fails, or
that a TAMPERED part refuses, sends it back to DETECT for a second; an ACTIVE port retrains on lost lanes in use, on a tag that fails, and comes back
within 20 ms under new keys or falls to DETECT; keys are replaced, once nothing sent under them can be resent (log entry 83), and manifests exchanged;
a peer's traffic moves to another port. -/
def Obligations.PortsMoveThroughTheirStates : Prop :=
  (∀ (s : State) (p : Nat), live s (p < 4) →
    let k := s.k
    let st := k.portState p
    let x := k.port p
    (∀ on, exec (.kwPortEnable p on) s = .next (withK s (k.enablePort p on))) ∧
    (st = 1 → (x.failed = false → k.portsRun = true → ∀ w, exec (.portStateAdvance p w) s = .next (withK s (k.toState p 2))) ∧
      ((x.failed = true ∨ k.portsRun = false) → ∀ w, exec (.portStateAdvance p w) s = .next s)) ∧
    (st = 2 → ∀ lanes : BitVec 4, (trainedWidth lanes = none → exec (.portStateAdvance p lanes) s = .next s) ∧
      (∀ w used, trainedWidth lanes = some (w, used) → exec (.portStateAdvance p lanes) s =
        .next (withK s (((k.setF (Reg.kwPortStatus p) 9 8 w).setPort p { x with lanes := used }).toState p 3)))) ∧
    (st = 3 → ∀ w, exec (.portStateAdvance p w) s = .next (withK s ((k.toState p 4).sendAuth p))) ∧
    (st = 4 → ∀ c,
      (k.getF Reg.rindStatus 1 0 = 3 → exec (.authExchange p c) s =
        .next (withK s ((k.toState p 1).setPort p { x with since := k.now, failed := true }))) ∧
      (k.getF Reg.rindStatus 1 0 ≠ 3 → (∀ n, k.authFails c = some n → exec (.authExchange p c) s = .next (withK s
          (((k.toState p 1).setPort p { x with since := k.now, failed := true }).logKw 0x52 (p + n * 2 ^ 8)))) ∧
        (k.authFails c = none → exec (.authExchange p c) s =
          .next (withK s ((((k.setPort p x.again).setF (Reg.kwPortStatus p) 11 10 c.pkg).newKeys p).goActive p))))) ∧
    (st = 1 → x.failed = true → x.since + 10 ^ 9 ≤ k.now → exec (.authRetry p) s = .next (withK s (k.setPort p { x with failed := false }))) ∧
    (st = 5 →
      (∀ lanes : BitVec 4, let lost := lanes.toNat &&& x.lanes
        (lost ≠ 0 → exec (.retrain p lanes) s = .next (withK s (k.retrain p lost))) ∧ (lost = 0 → exec (.retrain p lanes) s = .next s)) ∧
      exec (.kwAuthFail p) s = .next (withK s (((k.logKw 0x52 (p + 5 * 2 ^ 8)).logDown p 5).retrain p 0)) ∧
      (let tx : Bool := decide (2 ^ 40 ≤ x.txKeyed) && x.replay.isEmpty
       let rx : Bool := decide (2 ^ 40 ≤ x.rxKeyed.getD 0)
       let k1 := (k.sendAuth p).newKeys p
       let y := k1.port p
       (tx = false → rx = false → exec (.keyReplace p) s = .next s) ∧
       (tx = true ∨ rx = true → exec (.keyReplace p) s = .next (withK s ((k1.setPort p { y with
          txKey := if tx then y.txKey else x.txKey, txKeyed := if tx then 0 else x.txKeyed
          rxKey := if rx then y.rxKey else x.rxKey, rxKeyed := if rx then none else x.rxKeyed }).pumpPort p)))) ∧
      (∀ bs, exec (.manifestExchange p bs) s = .next (withK s ((k.takeManifest p bs).sendOn p (.manifest k.manifest)))) ∧
      exec (.portFailover p) s = .next s) ∧
    (st = 6 →
      (k.portsRun = true → k.now < x.since + 20 * 10 ^ 6 → exec (.retrainEnd p) s = .next (withK s (((k.sendAuth p).newKeys p).goActive p))) ∧
      ((k.portsRun = false ∨ x.since + 20 * 10 ^ 6 ≤ k.now) → exec (.retrainEnd p) s = .next (withK s ((k.toState p 1).logDown p 6)))) ∧
    (st ≠ 5 → exec (.portFailover p) s = .next (withK s (k.resendTo (k.peerOfPort p))))) ∧
  (∀ lanes : BitVec 4, (trainedWidth lanes = none ↔ lanes = 0) ∧
    ∀ w used, trainedWidth lanes = some (w, used) → used &&& lanes.toNat = used ∧ used ≠ 0 ∧ (lanes = 15 ↔ w = 2))

/-- R765 to R770, R773, R775, R776: flits on an ACTIVE port. One that is uncorrectable or whose CRC does not hold is answered with a NAK naming the FSEQ
expected; any other has its ACKSEQ free the replay buffer up to it, first of all. A NAK counts and sends the flits from its FSEQ on again, the eighth time
in succession retraining; credits are added up to 256. A DATA flit whose tag fails takes the port down; one with another FSEQ than that expected is not
accepted; one with the FSEQ expected is: its payload joins its channel's message, its credit is noted and an ACK sent, and the message that it ends is
received. On a port that is not ACTIVE nothing comes of them. -/
def Obligations.FlitsAreReliable : Prop :=
  ∀ (s : State) (p : Nat), live s (p < 4) →
    let k := s.k
    let x := k.port p
    let nak := Host.Outcome.next (withK s (k.sendFlit p (.nak x.rxSeq)))
    let acked (h : FlitHead) : Chip := (k.noteFec p h.errors).takeAck p h.ackseq.toNat
    (k.portState p ≠ 5 → (∀ f, exec (.dataFlit p f) s = .next s) ∧ (∀ h, exec (.ack p h) s = .next s) ∧ (∀ f, exec (.nak p f) s = .next s) ∧
      (∀ c f, c < 4 → exec (.credit p c f) s = .next s) ∧ exec (.flitError p) s = .next s) ∧
    (k.portState p = 5 →
      exec (.flitError p) s = nak ∧
      (∀ h : FlitHead, (uncorrectable h.errors = true → exec (.ack p h) s = nak) ∧
        (uncorrectable h.errors = false → exec (.ack p h) s = .next (withK s (acked h)))) ∧
      (∀ f : NakFlit, (uncorrectable f.head.errors = true → exec (.nak p f) s = nak) ∧
        (uncorrectable f.head.errors = false →
          let k1 := (acked f.head).satAdd (Reg.kwPortReplays p) 15 0 1
          let y := k1.port p
          let n := (f.seq.toNat + 2 ^ 16 - y.txOldest) % 2 ^ 16
          let again := if y.lastResent = f.seq.toNat then y.resends + 1 else 1
          let k2 := (k1.setPort p { y with lastResent := f.seq.toNat, resends := again }).sendReplay p n
          (y.replay.length ≤ n → exec (.nak p f) s = .next (withK s k1)) ∧
          (n < y.replay.length → again < 8 → exec (.nak p f) s = .next (withK s k2)) ∧
          (n < y.replay.length → 8 ≤ again → exec (.nak p f) s =
            .next (withK s ((k2.setPort p { k2.port p with resends := 0 }).retrain p 0))))) ∧
      (∀ c (f : CreditFlit), c < 4 → (uncorrectable f.head.errors = true → exec (.credit p c f) s = nak) ∧
        (uncorrectable f.head.errors = false →
          let k1 := acked f.head
          let y := k1.port p
          exec (.credit p c f) s =
            .next (withK s ((k1.setPort p { y with credits := setAt y.credits c (min 256 (y.credits.getD c 0 + f.n.toNat)) }).pumpPort p)))) ∧
      (∀ f : DataFlit,
        let m := machOf s
        let bs := f.content
        let V := s.part.vats
        let e := exec (.dataFlit p f) s
        let k0 := k.noteFec p f.errors
        let k1 := k0.takeAck p (flitAckseq bs)
        let y := k1.port p
        ((uncorrectable f.errors = true ∨ crcHolds bs = false) → e = nak) ∧
        (uncorrectable f.errors = false → crcHolds bs = true →
          (flitType bs ≠ 1 → e = .next (turned s { m with k := k1 })) ∧
          (flitType bs = 1 →
            (openFlit (k0.port p).rxKey ((k0.port p).countOf (flitFseq bs)) bs = none → e = .next (turned s { m with k := k0.tagFails p })) ∧
            (∀ payload, openFlit (k0.port p).rxKey ((k0.port p).countOf (flitFseq bs)) bs = some payload →
              (flitFseq bs ≠ y.rxSeq →
                e = .next (turned s { m with k := k1.setPort p { y with rxKeyed := y.keyed (flitFseq bs) } })) ∧
              (flitFseq bs = y.rxSeq →
                let c := flitChannel bs
                let eom := (byteAt bs 0).testBit 6
                let msg := (if (byteAt bs 0).testBit 5 then [] else y.rxMsg.getD c []) ++ payload
                let k2 := ((k1.setPort p { y with rxLast := some (flitFseq bs), rxKeyed := (y.keyed (flitFseq bs)).map (· + 1)
                                                  rxMsg := setAt y.rxMsg c (if eom then [] else msg) }).credit p c).sendFlit p .ack
                (eom = false → e = .next (turned s { m with k := k2 })) ∧
                (eom = true → k2.readMsg msg = none → e = .next (turned s { m with k := k2 })) ∧
                (eom = true → ∀ z, k2.readMsg msg = some z → (∀ h ps, z ≠ .mirrorFull h ps) →
                  (∀ m', ({ m with k := k2 } : Mach).receive V p [] z = some m' → e = .next (turned s m')) ∧
                  (({ m with k := k2 } : Mach).receive V p [] z = none → e = .next s)) ∧
                (eom = true → ∀ h ps, k2.readMsg msg = some (.mirrorFull h ps) →
                  let key := Config.copyKey (k2.peerOfPort p) h.handle
                  (∀ m', ({ m with k := k2 } : Mach).takeFull V (k2.peerOfPort p) h key ps = some m' → e = .next (turned s m')) ∧
                  (({ m with k := k2 } : Mach).takeFull V (k2.peerOfPort p) h key ps = none → e = .next s))))))))

/-- R767, R773, R775: flits leave only while the replay buffer of 1,024 has room, their channel has a credit, and their key 2^40 flits left: pumping a
port spends one credit for each flit, puts it in the replay buffer behind the others, keeps the order of those that stay, never overfills the buffer, and
leaves no flit behind that could go. -/
def Obligations.PumpingSpendsCredits : Prop :=
  ∀ (l : List DataOut) (x : Port) (n : Nat), x.txWait = [] → x.txSeq < 2 ^ 16 → (∀ f, f ∈ l → f.channel < x.credits.length) →
    let r := Port.pump l x n
    let sent := r.2 - n
    r.2 + r.1.txWait.length = n + l.length ∧ r.1.txWait.Sublist l ∧
    r.1.credits.sum + r.2 = x.credits.sum + n ∧ r.1.txSeq = (x.txSeq + sent) % 2 ^ 16 ∧ r.1.txKeyed = x.txKeyed + sent ∧
    (∃ out, r.1.replay = x.replay ++ out ∧ out.length = sent ∧ out.Sublist l) ∧
    (x.replay.length ≤ 1024 → r.1.replay.length ≤ 1024) ∧ (x.txKeyed ≤ 2 ^ 40 → r.1.txKeyed ≤ 2 ^ 40) ∧
    (∀ f, f ∈ r.1.txWait → r.1.mayLeave f = false) ∧
    r.1 = { x with txSeq := r.1.txSeq, replay := r.1.replay, credits := r.1.credits, txKeyed := r.1.txKeyed, txWait := r.1.txWait }

/-- R45, R480, R486, R506, R507, R778 to R788: copies held for a peer, and contexts that a peer holds, on an ACTIVE port: a copy is made, replaced,
updated, reviewed and closed in the order of its sequence numbers, what comes ahead of a gap waiting, what is not newer changing nothing, and what would
write a page-index entry under an affinage job waiting for its end; a spilled context is put, recalled, returned and acknowledged, and a mirror without
room makes its context diverge. Each comes about once the arbiters grant its accesses. R778, R781, R783, R784, R787, R788: what the hub does of its own
accord with copies and with contexts spilled: a gap unfilled for 1 ms asks for a full copy; below half the backlog's limit diverged contexts go out
again, as many as MIGRATIONS allows; a promotion takes every copy of its source or says why not; a spilled context whose holder is lost for LOST_MS
closes. -/
def Obligations.CopiesFollowAndChangeHands : Prop :=
  (∀ (s : State) (p : Nat), live s (p < 4) → s.k.portState p = 5 →
    let V := s.part.vats
    let k := s.k
    let m := machOf s
    let pkg := k.peerOfPort p
    (∀ h key pages, k.copyOf pkg h.handle = none →
      (∀ m', m.holdCopy V pkg h key pages false = some m' →
        exec (.mirrorFull p h key pages) s = .next (turned s (m'.onChip (fun k => k.ackMirror pkg h.handle h.seq)))) ∧
      (m.holdCopy V pkg h key pages false = none → exec (.mirrorFull p h key pages) s = .next (turned s (m.onChip (fun k => k.noRoom pkg h)))) ∧
      (∀ m', m.holdCopy V pkg h key pages true = some m' →
        exec (.spillPut p h key pages) s = .next (turned s (m'.onChip (fun k => k.sendTo pkg (.spillAck h 0))))) ∧
      (m.holdCopy V pkg h key pages true = none → exec (.spillPut p h key pages) s = .next (turned s (m.onChip (fun k => k.noRoom pkg h)))) ∧
      (∀ kv, exec (.mirrorUpdate p h kv) s = .next s) ∧ (∀ jobs, exec (.mirrorReview p h jobs) s = .next s) ∧
      exec (.mirrorClose p h) s = .next (turned s (m.onChip (fun k => k.ackMirror pkg h.handle h.seq))) ∧
      exec (.spillRecall p h) s = .next s) ∧
    (∀ h i c b, k.copyOf pkg h.handle = some (i, c, b) →
      let again := Host.Outcome.next (turned s (m.onChip (fun k => k.ackMirror pkg h.handle b.seq)))
      let next := h.seq = (b.seq + 1) % 2 ^ 32
      (∀ key pages, newer b.seq h.seq = false → exec (.spillPut p h key pages) s = .next s ∧ exec (.mirrorFull p h key pages) s = again) ∧
      (∀ key pages, newer b.seq h.seq = true → k.hasAff i = true →
        exec (.spillPut p h key pages) s = .next s ∧ exec (.mirrorFull p h key pages) s = .next s) ∧
      (∀ key pages, newer b.seq h.seq = true → k.hasAff i = false →
        (∀ m', m.replaceCopy V i c { b with spill := true, held := [] } h pages = some m' →
          exec (.spillPut p h key pages) s = .next (turned s (m'.onChip (fun k => k.sendTo pkg (.spillAck h 0))))) ∧
        (m.replaceCopy V i c { b with spill := true, held := [] } h pages = none →
          exec (.spillPut p h key pages) s = .next (turned s (m.onChip (fun k => k.noRoom pkg h)))) ∧
        (∀ m', m.replaceCopy V i c b h pages = some m' → exec (.mirrorFull p h key pages) s =
          .next (turned s (Mach.drainHeld V i b.held.length (m'.onChip (fun k => k.ackMirror pkg h.handle h.seq))))) ∧
        (m.replaceCopy V i c b h pages = none → exec (.mirrorFull p h key pages) s = .next (turned s (m.onChip (fun k => k.noRoom pkg h))))) ∧
      (∀ kv, newer b.seq h.seq = false → exec (.mirrorUpdate p h kv) s = again) ∧
      (∀ kv, newer b.seq h.seq = true → ¬ next →
        exec (.mirrorUpdate p h kv) s = .next (turned s (m.onChip (fun k => k.hold i c b (.mirrorUpdate h kv))))) ∧
      (∀ kv, newer b.seq h.seq = true → next →
        (k.updateWaits i c h = true → exec (.mirrorUpdate p h kv) s = .next s) ∧
        (k.updateWaits i c h = false → (∀ m', m.applyUpdate V i c b h kv = some m' → exec (.mirrorUpdate p h kv) s =
            .next (turned s (Mach.drainHeld V i b.held.length (m'.onChip (fun k => k.ackMirror pkg h.handle h.seq))))) ∧
          (m.applyUpdate V i c b h kv = none → exec (.mirrorUpdate p h kv) s = .next (turned s (m.onChip (fun k => k.noRoom pkg h)))))) ∧
      (∀ jobs, k.ctx i = some c →
        (b.seq = h.seq → b.reviewed ≠ some h.seq →
          let c' := { c with standby := some { b with reviewed := some h.seq } }
          exec (.mirrorReview p h jobs) s = .next (turned s (m.onChip (fun k => (k.setCtx i c').applyReview i c' jobs)))) ∧
        (newer b.seq h.seq = true →
          exec (.mirrorReview p h jobs) s = .next (turned s (m.onChip (fun k => k.hold i c b (.mirrorReview h jobs))))) ∧
        (newer b.seq h.seq = false → (b.seq ≠ h.seq ∨ b.reviewed = some h.seq) → exec (.mirrorReview p h jobs) s = .next s)) ∧
      ((b.spill = true ∨ next) → exec (.mirrorClose p h) s =
        .next (turned s ((m.runClose V i c none).onChip (fun k => k.ackMirror pkg h.handle h.seq)))) ∧
      (b.spill = false → newer b.seq h.seq = false → ¬ next → exec (.mirrorClose p h) s = again) ∧
      (b.spill = false → newer b.seq h.seq = true → ¬ next →
        exec (.mirrorClose p h) s = .next (turned s (m.onChip (fun k => k.hold i c b (.mirrorClose h))))) ∧
      ((b.spill = false ∨ newer b.seq h.seq = false) → exec (.spillRecall p h) s = .next s) ∧
      (b.spill = true → newer b.seq h.seq = true →
        let x := m.images c
        exec (.spillRecall p h) s = .next (turned s ((x.2.setCtx V i { c with standby := some { b with seq := h.seq } }).onChip (fun k =>
          k.sendTo pkg (.spillReturn { c.hdr i h.seq with handle := h.handle } x.1)))))) ∧
    (∀ h pages,
      let mine := k.hub.ctxs.find? (fun c => c.2.handle c.1 = h.handle && c.2.state = .spilled && c.2.spill = .recalled && c.2.holder = pkg)
      (mine = none → exec (.spillReturn p h pages) s = .next s) ∧
      (∀ i c, mine = some (i, c) → c.mirrorSeq ≠ h.seq → exec (.spillReturn p h pages) s = .next s) ∧
      (∀ i c, mine = some (i, c) → c.mirrorSeq = h.seq →
        (k.homeImages c.model pages = none →
          exec (.spillReturn p h pages) s = .next (turned s (m.onChip (fun k => k.setCtx i { c with spill := .away })))) ∧
        (∀ md home, k.homeImages c.model pages = some (md, home) →
          let c' := { c with vat := home.v, die := home.d, slot := home.slot, rot := home.rot, pages := home.pages, state := .live, spill := .home }
          let m' := ((m.putImages home.v home.d home.slot home.pages pages).setCtx V i c').onChip (fun k => k.sendTo pkg (.spillAck h 0))
          (c.mirrored = false → exec (.spillReturn p h pages) s = .next (turned s m')) ∧
          (c.mirrored = true → exec (.spillReturn p h pages) s = .next (turned s (m'.sendFull V i c')))))) ∧
    (∀ h i c, k.offeredTo pkg h = some (i, c) →
      (∀ r : BitVec 8, r.toNat ≠ 0 → exec (.spillAck p h r) s = .next (turned s (m.onChip (fun k => k.setCtx i { c with spill := .refused })))) ∧
      (k.hasAff i = true → exec (.spillAck p h 0) s = .next s) ∧
      (∀ md, k.hasAff i = false → (m.freePages c).k.model c.model = some md → exec (.spillAck p h 0) s =
        .next (turned s (((m.freePages c).zeroLedger md c.model c.vat c.die c.slot).setCtx V i { c with
          state := .spilled, spill := .away, pages := [], owed := [], shadow := [], spare := none, shadowOk := false, sample := none
          migration := none })))) ∧
    (∀ h, k.offeredTo pkg h = none →
      (∀ i c b, k.copyOf pkg h.handle = some (i, c, b) →
        (b.spill = true → b.seq = h.seq → exec (.spillAck p h 0) s = .next (turned s (m.runClose V i c none))) ∧
        (∀ r : BitVec 8, (b.spill = false ∨ b.seq ≠ h.seq ∨ r.toNat ≠ 0) → exec (.spillAck p h r) s = .next s)) ∧
      (k.copyOf pkg h.handle = none → exec (.spillAck p h 0) s = .next s ∧
        ∀ r : BitVec 8, r.toNat ≠ 0 → exec (.spillAck p h r) s = .next (turned s (m.onChip (fun k => k.mirrorRefused pkg h.handle))))) ∧
    (∀ pairs, ∃ k', exec (.mirrorAck p pairs) s = .next (withK s k') ∧ hubOnly k k' ∧
      k'.hub.mirrors = k.hub.mirrors.filter (fun x => !(x.pkg = pkg && pairs.any (fun y => y.1 = x.handle && !newer y.2 x.seq))))) ∧
  (∀ s : State, live s true →
    let V := s.part.vats
    let k := s.k
    let m := machOf s
    let old (x : Nat × KwMsg) : Bool := decide (x.1 + 10 ^ 6 ≤ k.now)
    (∀ i c b, k.ctx i = some c → c.standby = some b →
      ((b.asked = true ∨ b.held.any old = false) → exec (.mirrorGapTimeout i) s = .next s) ∧
      (b.asked = false → b.held.any old = true →
        let m1 := Mach.drainHeld V i b.held.length m
        ∀ c1 b1, m1.k.ctx i = some c1 → c1.standby = some b1 →
          (b1.held.any old = false → exec (.mirrorGapTimeout i) s = .next (turned s m1)) ∧
          (b1.held.any old = true → exec (.mirrorGapTimeout i) s = .next (turned s (m1.onChip (fun k =>
            (k.setCtx i { c1 with standby := some { b1 with held := b1.held.filter (fun x => !old x), asked := true } }).sendTo b1.pkg
              (.mirrorAsk b1.handle))))))) ∧
    (let pkg := k.getF Reg.kwMirror 15 14
     (k.backlogLimit ≤ 2 * k.backlog pkg → exec .backlogResend s = .next s) ∧
     (2 * k.backlog pkg < k.backlogLimit → exec .backlogResend s = .next (turned s
       (((k.hub.ctxs.filter (fun c => c.2.diverged && (c.2.state = .live || c.2.state = .migrating) && k.peerTakes pkg c.2.domain)).take
         (k.getF Reg.failPolicy 11 8 - k.fullsOut pkg)).foldl (fun m c => m.sendFull V c.1 c.2) (m.onChip Chip.sendOwed))))) ∧
    (∀ source : BitVec 2, (k.portTo source.toNat).isSome = true → ∃ k', exec (.kwPromote source false) s = .next (withK s k') ∧
      k'.flag Reg.kwPromoteResult 31 = true ∧ k'.getF Reg.kwPromoteResult 30 28 = 1 ∧ k'.hub = k.hub ∧ regsOnly k k' (· = Reg.kwPromoteResult)) ∧
    (∀ (source : BitVec 2) force, (force = true ∨ k.portTo source.toNat = none) →
      let mine := k.hub.ctxs.filter (fun c => c.2.state = .standby && match c.2.standby with | some b => b.pkg = source.toNat | none => false)
      (mine = [] → ∃ k', exec (.kwPromote source force) s = .next (withK s k') ∧ k'.getF Reg.kwPromoteResult 30 28 = 2 ∧ k'.hub = k.hub) ∧
      (mine ≠ [] → ∃ m', exec (.kwPromote source force) s = .next (turned s m') ∧ m'.k.flag Reg.kwPromoteResult 31 = true ∧
        m'.k.getF Reg.kwPromoteResult 30 28 = 0 ∧ m'.k.getF Reg.kwPromoteResult 20 0 = mine.length % 2 ^ 21)) ∧
    (∀ i c t, k.ctx i = some c → c.state = .spilled → k.downSince c.holder = some t →
      (t + k.getF Reg.kwSpill 15 0 * 10 ^ 6 ≤ k.now → exec (.spillLost i) s =
        .next (turned s (((m.onChip Chip.serveSpilled).closeCtx V i c).onChip (fun k => k.orphanJobs (c.handle i) 0x33)))) ∧
      (k.now < t + k.getF Reg.kwSpill 15 0 * 10 ^ 6 → exec (.spillLost i) s = .next s)))

/-- R777, R789 to R793: jobs forwarded. A new FWD_JOB is accepted as a record of its class as of now, one that has been answered is answered again, and
one seen before comes to nothing; a result ends the job that waits for it; an abort meets the jobs of its package and cookie; and jobs forwarded to a
peer that is lost for 1 ms end, their number logged. -/
def Obligations.ForwardedJobsRun : Prop :=
  ∀ (s : State) (p : Nat), live s (p < 4) →
    let k := s.k
    let x := k.port p
    let m := machOf s
    let pkg := k.peerOfPort p
    (k.portState p = 5 →
      (∀ seq budget cls record, cls < 16 →
        let bs := record.set 1 (BitVec.ofNat 8 (byteAt record 1 / 16 * 16 + cls))
        let e := exec (.fwdJob p seq budget cls record) s
        (k.serving = false → e = .next s) ∧
        (k.serving = true → ∀ a, k.fwdAnswer p pkg seq bs = some a →
          e = .next (turned s (m.onChip (fun k => k.sendTo pkg (.fwdResult (k.classDomain cls) seq a))))) ∧
        (k.serving = true → k.fwdAnswer p pkg seq bs = none →
          ((newer x.fwdSeen seq = false ∨ k.fwdTwice p pkg seq bs = true ∨ k.nextTag = none) → e = .next s) ∧
          (newer x.fwdSeen seq = true → k.fwdTwice p pkg seq bs = false → k.nextTag.isSome = true → e = .next (turned s (m.onChip (fun k =>
            (k.setPort p { x with fwdSeen := seq }).acceptRecord (.port p seq) bs (k.now + budget))))))) ∧
      (∀ seq (rec : BitVec 256),
        (k.hub.jobs.find? (fun j => j.2.phase = .forwarded pkg seq) = none → exec (.fwdResult p seq rec) s = .next s) ∧
        (∀ t j, k.hub.jobs.find? (fun j => j.2.phase = .forwarded pkg seq) = some (t, j) →
          let bs := leBytes 32 rec.toNat
          exec (.fwdResult p seq rec) s = .next (turned s (m.onChip (fun k => (k.setJob t { j with raw := bs }).endJob t
            { status := byteAt bs 2, verdict := recField bs 16 24, tokens := recField bs 28 30, closed := (byteAt bs 30).testBit 3 }))))) ∧
      (∀ cookie : BitVec 64, exec (.fwdAbort p cookie) s = .next (turned s (m.onChip (fun k => k.abortJobs (fun j =>
        (match j.origin with | .port q _ => k.peerOfPort q = pkg | .ring _ => false) && j.cookie = cookie.toNat)))))) ∧
    (k.portState p ≠ 5 → (∀ seq budget cls record, cls < 16 → exec (.fwdJob p seq budget cls record) s = .next s) ∧
      (∀ seq rec, exec (.fwdResult p seq rec) s = .next s) ∧ (∀ cookie, exec (.fwdAbort p cookie) s = .next s)) ∧
    (∀ t, k.downSince p = some t →
      let mine := k.hub.jobs.filter (fun j => match j.2.phase with | .forwarded q _ => q = p | _ => false)
      ((k.now < t + 10 ^ 6 ∨ mine = []) → exec (.forwardLost p) s = .next s) ∧
      (t + 10 ^ 6 ≤ k.now → mine ≠ [] → exec (.forwardLost p) s = .next (withK s
        ((mine.foldl (fun k j => k.endJob j.1 { status := 0x34, verdict := 0, tokens := 0, closed := false }) k).logKw 0x54 (p + mine.length * 2 ^ 8)))))
end

