-- ==== Sys2Proof/Laws/Tables.lean ====
section
/-!
SUPPORT. Laws of the sparse tables: what a table reads after an entry is inserted, erased or stored, and that storing keeps the canonical form.
-/

namespace Sys2Proof.Laws

open Sys2Proof.Machine

variable {α : Type}

theorem lookup_insert_same (d : α) (t : List (Nat × α)) (k : Nat) (x : α) : lookup d (insert t k x) k = x := by
  induction t with
  | nil => simp [Machine.insert, lookup]
  | cons p rest ih =>
    obtain ⟨a, y⟩ := p
    unfold Machine.insert
    split
    · simp [lookup]
    · split
      · next h => simp [lookup, h]
      · next h => simp [lookup, h, ih]

theorem lookup_insert_other (d : α) (t : List (Nat × α)) (k j : Nat) (x : α) (h : j ≠ k) :
    lookup d (insert t k x) j = lookup d t j := by
  induction t with
  | nil => simp [Machine.insert, lookup, h]
  | cons p rest ih =>
    obtain ⟨a, y⟩ := p
    unfold Machine.insert
    split
    · simp [lookup, h]
    · split
      · next hk => subst hk; simp [lookup, h]
      · simp only [lookup, ih]

/-- A second entry under a key takes the place of the first. -/
@[simp] theorem insert_insert (t : List (Nat × α)) (k : Nat) (x y : α) : insert (insert t k x) k y = insert t k y := by
  induction t with
  | nil => simp [Machine.insert]
  | cons p rest ih =>
    obtain ⟨a, z⟩ := p
    by_cases h1 : k < a
    · simp [Machine.insert, h1]
    · by_cases h2 : k = a
      · subst h2; simp [Machine.insert]
      · simp [Machine.insert, h1, h2, ih]

theorem risingFrom_mono (t : List (Nat × α)) (a b : Nat) (h : a ≤ b) (r : risingFrom b t = true) : risingFrom a t = true := by
  cases t with
  | nil => rfl
  | cons p rest =>
    obtain ⟨k, x⟩ := p
    simp only [risingFrom, Bool.and_eq_true, decide_eq_true_eq] at r ⊢
    exact ⟨by omega, r.2⟩

/-- Below a rising table nothing is listed. -/
theorem lookup_of_rising (d : α) (t : List (Nat × α)) (a k : Nat) (r : risingFrom a t = true) (h : k < a) : lookup d t k = d := by
  induction t generalizing a with
  | nil => rfl
  | cons p rest ih =>
    obtain ⟨b, x⟩ := p
    simp only [risingFrom, Bool.and_eq_true, decide_eq_true_eq] at r
    have hb : ¬ k = b := by omega
    simp only [lookup, if_neg hb]
    exact ih (b + 1) r.2 (by omega)

theorem lookup_erase_same (d : α) (t : List (Nat × α)) (a k : Nat) (r : risingFrom a t = true) : lookup d (erase t k) k = d := by
  induction t generalizing a with
  | nil => rfl
  | cons p rest ih =>
    obtain ⟨b, x⟩ := p
    simp only [risingFrom, Bool.and_eq_true, decide_eq_true_eq] at r
    by_cases h : k = b
    · subst h
      simp only [erase]
      exact lookup_of_rising d rest (k + 1) k r.2 (by omega)
    · simp only [erase, if_neg h, lookup]
      exact ih (b + 1) r.2

theorem lookup_erase_other (d : α) (t : List (Nat × α)) (k j : Nat) (h : j ≠ k) : lookup d (erase t k) j = lookup d t j := by
  induction t with
  | nil => rfl
  | cons p rest ih =>
    obtain ⟨b, x⟩ := p
    by_cases hk : k = b
    · subst hk; simp [erase, lookup, h]
    · by_cases hj : j = b
      · subst hj; simp [erase, hk, lookup]
      · simp [erase, hk, lookup, hj, ih]

theorem rising_erase (t : List (Nat × α)) (a k : Nat) (r : risingFrom a t = true) : risingFrom a (erase t k) = true := by
  induction t generalizing a with
  | nil => rfl
  | cons p rest ih =>
    obtain ⟨b, x⟩ := p
    simp only [risingFrom, Bool.and_eq_true, decide_eq_true_eq] at r
    by_cases h : k = b
    · simp only [erase, if_pos h]
      exact risingFrom_mono rest a (b + 1) (by omega) r.2
    · simp only [erase, if_neg h, risingFrom, Bool.and_eq_true, decide_eq_true_eq]
      exact ⟨r.1, ih (b + 1) r.2⟩

theorem rising_insert (t : List (Nat × α)) (a k : Nat) (x : α) (h : a ≤ k) (r : risingFrom a t = true) :
    risingFrom a (insert t k x) = true := by
  induction t generalizing a with
  | nil => simp [Machine.insert, risingFrom, h]
  | cons p rest ih =>
    obtain ⟨b, y⟩ := p
    simp only [risingFrom, Bool.and_eq_true, decide_eq_true_eq] at r
    unfold Machine.insert
    split
    · next h1 => simp only [risingFrom, Bool.and_eq_true, decide_eq_true_eq]; exact ⟨h, by omega, r.2⟩
    · split
      · next h2 => subst h2; simp only [risingFrom, Bool.and_eq_true, decide_eq_true_eq]; exact r
      · next h1 h2 =>
        simp only [risingFrom, Bool.and_eq_true, decide_eq_true_eq]
        exact ⟨r.1, ih (b + 1) (by omega) r.2⟩

theorem mem_erase (t : List (Nat × α)) (k : Nat) (p : Nat × α) (h : p ∈ erase t k) : p ∈ t := by
  induction t with
  | nil => simp [erase] at h
  | cons q rest ih =>
    obtain ⟨b, x⟩ := q
    by_cases hk : k = b
    · simp only [erase, if_pos hk] at h; exact List.mem_cons_of_mem _ h
    · simp only [erase, if_neg hk, List.mem_cons] at h ⊢
      exact h.imp id ih

theorem mem_insert (t : List (Nat × α)) (k : Nat) (x : α) (p : Nat × α) (h : p ∈ insert t k x) : p = (k, x) ∨ p ∈ t := by
  induction t with
  | nil => simpa [Machine.insert] using h
  | cons q rest ih =>
    obtain ⟨b, y⟩ := q
    unfold Machine.insert at h
    split at h
    · simpa using h
    · split at h
      · next hk => subst hk; simp only [List.mem_cons] at h ⊢; exact h.imp id Or.inr
      · simp only [List.mem_cons] at h ⊢
        rcases h with h | h
        · exact .inr (.inl h)
        · exact (ih h).imp id Or.inr

variable [DecidableEq α]

/-- Storing keeps the canonical form. -/
theorem canonical_store (d : α) (t : List (Nat × α)) (k : Nat) (x : α) (h : canonical d t = true) : canonical d (store d t k x) = true := by
  simp only [canonical, Bool.and_eq_true, List.all_eq_true, decide_eq_true_eq] at h ⊢
  unfold store
  split
  · exact ⟨rising_erase t 0 k h.1, fun p hp => h.2 p (mem_erase t k p hp)⟩
  · next hx =>
    refine ⟨rising_insert t 0 k x (Nat.zero_le _) h.1, fun p hp => ?_⟩
    rcases mem_insert t k x p hp with e | e
    · subst e; exact hx
    · exact h.2 p e

/-- A table reads what was stored last. -/
theorem lookup_store_same (d : α) (t : List (Nat × α)) (k : Nat) (x : α) (h : canonical d t = true) : lookup d (store d t k x) k = x := by
  simp only [canonical, Bool.and_eq_true] at h
  unfold store
  split
  · next hx => subst hx; exact lookup_erase_same _ t 0 k h.1
  · exact lookup_insert_same d t k x

theorem lookup_store_other (d : α) (t : List (Nat × α)) (k j : Nat) (x : α) (h : j ≠ k) : lookup d (store d t k x) j = lookup d t j := by
  unfold store
  split
  · exact lookup_erase_other d t k j h
  · exact lookup_insert_other d t k j x h

/-- A run of stores keeps the canonical form. -/
theorem canonical_storeRun (d : α) (xs : List α) (t : List (Nat × α)) (k : Nat) (h : canonical d t = true) :
    canonical d (storeRun d t k xs) = true := by
  induction xs generalizing t k with
  | nil => exact h
  | cons x xs ih => exact ih _ _ (canonical_store d t k x h)

/-- Outside a run of stores the table reads as before. -/
theorem lookup_storeRun_other (d : α) (xs : List α) (t : List (Nat × α)) (k j : Nat) (h : j < k ∨ k + xs.length ≤ j) :
    lookup d (storeRun d t k xs) j = lookup d t j := by
  induction xs generalizing t k with
  | nil => rfl
  | cons x xs ih =>
    simp only [List.length_cons] at h
    rw [storeRun, ih _ _ (by omega), lookup_store_other d t k j x (by omega)]

/-- Inside a run of stores the table reads the value stored there. -/
theorem lookup_storeRun_in (d : α) (xs : List α) (t : List (Nat × α)) (k i : Nat) (h : canonical d t = true) (hi : i < xs.length) :
    lookup d (storeRun d t k xs) (k + i) = xs[i] := by
  induction xs generalizing t k i with
  | nil => simp at hi
  | cons x xs ih =>
    cases i with
    | zero =>
      rw [storeRun, Nat.add_zero, lookup_storeRun_other d xs _ _ _ (by omega)]; exact lookup_store_same d t k x h
    | succ i =>
      have e : k + (i + 1) = (k + 1) + i := by omega
      rw [storeRun, e, ih _ (k + 1) i (canonical_store d t k x h) (by simpa using hi)]
      rfl

/-- A run just stored is read back whole. -/
theorem lookupRun_storeRun (d : α) (xs : List α) (t : List (Nat × α)) (k : Nat) (h : canonical d t = true) :
    lookupRun d (storeRun d t k xs) k xs.length = xs := by
  apply List.ext_getElem
  · simp [lookupRun]
  · intro i h1 h2
    simp only [lookupRun, List.getElem_map, List.getElem_range]
    exact lookup_storeRun_in d xs t k i h h2

/-- Keeping only some entries keeps the canonical form. -/
theorem rising_filter {β : Type} (f : Nat × β → Bool) (t : List (Nat × β)) (a : Nat) (h : risingFrom a t = true) :
    risingFrom a (t.filter f) = true := by
  induction t generalizing a with
  | nil => rfl
  | cons p rest ih =>
    obtain ⟨b, x⟩ := p
    simp only [risingFrom, Bool.and_eq_true, decide_eq_true_eq] at h
    rw [List.filter_cons]
    split
    · simp only [risingFrom, Bool.and_eq_true, decide_eq_true_eq]; exact ⟨h.1, ih _ h.2⟩
    · exact risingFrom_mono _ _ _ (by omega) (ih _ h.2)

theorem canonical_filter (d : α) (f : Nat × α → Bool) (t : List (Nat × α)) (h : canonical d t = true) : canonical d (t.filter f) = true := by
  simp only [canonical, Bool.and_eq_true, List.all_eq_true, decide_eq_true_eq] at h ⊢
  exact ⟨rising_filter f t 0 h.1, fun p hp => h.2 p (List.mem_of_mem_filter hp)⟩

end Sys2Proof.Laws
end

