-- ==== Sys2Proof/Laws/State.lean ====
section
/-!
SUPPORT. Laws of state updates: one lemma per field per update, so that no proof unfolds a record update, and what a unit reads after it is
replaced.
-/

namespace Sys2Proof.Laws

open Sys2Proof.Machine

/-! ### The state -/

@[simp] theorem withChip_part (s : State) (k : Chip) : ({ s with k := k } : State).part = s.part := rfl
@[simp] theorem withChip_pending (s : State) (k : Chip) : ({ s with k := k } : State).pending = s.pending := rfl
@[simp] theorem withChip_dram (s : State) (k : Chip) : ({ s with k := k } : State).dram = s.dram := rfl
@[simp] theorem withChip_k (s : State) (k : Chip) : ({ s with k := k } : State).k = k := rfl
@[simp] theorem withQueue_part (s : State) (q : List Instr) : ({ s with pending := q } : State).part = s.part := rfl
@[simp] theorem withQueue_dram (s : State) (q : List Instr) : ({ s with pending := q } : State).dram = s.dram := rfl
@[simp] theorem withQueue_k (s : State) (q : List Instr) : ({ s with pending := q } : State).k = s.k := rfl
@[simp] theorem withQueue_pending (s : State) (q : List Instr) : ({ s with pending := q } : State).pending = q := rfl

/-! ### The chip: fields -/

@[simp] theorem setReg_bus (k : Chip) (o : Nat) (w : Word) : (k.setReg o w).bus = k.bus := rfl
@[simp] theorem setReg_cores (k : Chip) (o : Nat) (w : Word) : (k.setReg o w).cores = k.cores := rfl
@[simp] theorem setReg_dies (k : Chip) (o : Nat) (w : Word) : (k.setReg o w).dies = k.dies := rfl
@[simp] theorem setReg_vats (k : Chip) (o : Nat) (w : Word) : (k.setReg o w).vats = k.vats := rfl
@[simp] theorem setReg_hub (k : Chip) (o : Nat) (w : Word) : (k.setReg o w).hub = k.hub := rfl
@[simp] theorem setCore_regs (k : Chip) (v c : Nat) (x : Core) : (k.setCore v c x).regs = k.regs := rfl
@[simp] theorem setCore_bus (k : Chip) (v c : Nat) (x : Core) : (k.setCore v c x).bus = k.bus := rfl
@[simp] theorem setCore_dies (k : Chip) (v c : Nat) (x : Core) : (k.setCore v c x).dies = k.dies := rfl
@[simp] theorem setCore_vats (k : Chip) (v c : Nat) (x : Core) : (k.setCore v c x).vats = k.vats := rfl
@[simp] theorem setCore_hub (k : Chip) (v c : Nat) (x : Core) : (k.setCore v c x).hub = k.hub := rfl
@[simp] theorem setDie_regs (k : Chip) (v d : Nat) (x : Die) : (k.setDie v d x).regs = k.regs := rfl
@[simp] theorem setDie_bus (k : Chip) (v d : Nat) (x : Die) : (k.setDie v d x).bus = k.bus := rfl
@[simp] theorem setDie_cores (k : Chip) (v d : Nat) (x : Die) : (k.setDie v d x).cores = k.cores := rfl
@[simp] theorem setDie_vats (k : Chip) (v d : Nat) (x : Die) : (k.setDie v d x).vats = k.vats := rfl
@[simp] theorem setDie_hub (k : Chip) (v d : Nat) (x : Die) : (k.setDie v d x).hub = k.hub := rfl
@[simp] theorem setVat_regs (k : Chip) (v : Nat) (x : Vat) : (k.setVat v x).regs = k.regs := rfl
@[simp] theorem setVat_bus (k : Chip) (v : Nat) (x : Vat) : (k.setVat v x).bus = k.bus := rfl
@[simp] theorem setVat_cores (k : Chip) (v : Nat) (x : Vat) : (k.setVat v x).cores = k.cores := rfl
@[simp] theorem setVat_dies (k : Chip) (v : Nat) (x : Vat) : (k.setVat v x).dies = k.dies := rfl
@[simp] theorem setVat_hub (k : Chip) (v : Nat) (x : Vat) : (k.setVat v x).hub = k.hub := rfl
@[simp] theorem setBu_regs (k : Chip) (v d b : Nat) (x : Bu) : (k.setBu v d b x).regs = k.regs := rfl
@[simp] theorem setBu_cores (k : Chip) (v d b : Nat) (x : Bu) : (k.setBu v d b x).cores = k.cores := rfl
@[simp] theorem setBu_dies (k : Chip) (v d b : Nat) (x : Bu) : (k.setBu v d b x).dies = k.dies := rfl
@[simp] theorem setBu_vats (k : Chip) (v d b : Nat) (x : Bu) : (k.setBu v d b x).vats = k.vats := rfl
@[simp] theorem setBu_hub (k : Chip) (v d b : Nat) (x : Bu) : (k.setBu v d b x).hub = k.hub := rfl
@[simp] theorem onHub_regs (k : Chip) (f : Hub → Hub) : (k.onHub f).regs = k.regs := rfl
@[simp] theorem onHub_bus (k : Chip) (f : Hub → Hub) : (k.onHub f).bus = k.bus := rfl
@[simp] theorem onHub_cores (k : Chip) (f : Hub → Hub) : (k.onHub f).cores = k.cores := rfl
@[simp] theorem onHub_dies (k : Chip) (f : Hub → Hub) : (k.onHub f).dies = k.dies := rfl
@[simp] theorem onHub_vats (k : Chip) (f : Hub → Hub) : (k.onHub f).vats = k.vats := rfl
@[simp] theorem onHub_hub (k : Chip) (f : Hub → Hub) : (k.onHub f).hub = f k.hub := rfl

/-! ### The chip: units -/

@[simp] theorem setReg_core (k : Chip) (o : Nat) (w : Word) (v' c' : Nat) : (k.setReg o w).core v' c' = k.core v' c' := rfl
@[simp] theorem setReg_die (k : Chip) (o : Nat) (w : Word) (v' d' : Nat) : (k.setReg o w).die v' d' = k.die v' d' := rfl
@[simp] theorem setReg_vat (k : Chip) (o : Nat) (w : Word) (v' : Nat) : (k.setReg o w).vat v' = k.vat v' := rfl
@[simp] theorem setReg_bu (k : Chip) (o : Nat) (w : Word) (v' d' b' : Nat) : (k.setReg o w).bu v' d' b' = k.bu v' d' b' := rfl
@[simp] theorem setCore_reg (k : Chip) (v c : Nat) (x : Core) (o' : Nat) : (k.setCore v c x).reg o' = k.reg o' := rfl
@[simp] theorem setCore_die (k : Chip) (v c : Nat) (x : Core) (v' d' : Nat) : (k.setCore v c x).die v' d' = k.die v' d' := rfl
@[simp] theorem setCore_vat (k : Chip) (v c : Nat) (x : Core) (v' : Nat) : (k.setCore v c x).vat v' = k.vat v' := rfl
@[simp] theorem setCore_bu (k : Chip) (v c : Nat) (x : Core) (v' d' b' : Nat) : (k.setCore v c x).bu v' d' b' = k.bu v' d' b' := rfl
@[simp] theorem setDie_reg (k : Chip) (v d : Nat) (x : Die) (o' : Nat) : (k.setDie v d x).reg o' = k.reg o' := rfl
@[simp] theorem setDie_core (k : Chip) (v d : Nat) (x : Die) (v' c' : Nat) : (k.setDie v d x).core v' c' = k.core v' c' := rfl
@[simp] theorem setDie_vat (k : Chip) (v d : Nat) (x : Die) (v' : Nat) : (k.setDie v d x).vat v' = k.vat v' := rfl
@[simp] theorem setDie_bu (k : Chip) (v d : Nat) (x : Die) (v' d' b' : Nat) : (k.setDie v d x).bu v' d' b' = k.bu v' d' b' := rfl
@[simp] theorem setVat_reg (k : Chip) (v : Nat) (x : Vat) (o' : Nat) : (k.setVat v x).reg o' = k.reg o' := rfl
@[simp] theorem setVat_core (k : Chip) (v : Nat) (x : Vat) (v' c' : Nat) : (k.setVat v x).core v' c' = k.core v' c' := rfl
@[simp] theorem setVat_die (k : Chip) (v : Nat) (x : Vat) (v' d' : Nat) : (k.setVat v x).die v' d' = k.die v' d' := rfl
@[simp] theorem setVat_bu (k : Chip) (v : Nat) (x : Vat) (v' d' b' : Nat) : (k.setVat v x).bu v' d' b' = k.bu v' d' b' := rfl
@[simp] theorem setBu_reg (k : Chip) (v d b : Nat) (x : Bu) (o' : Nat) : (k.setBu v d b x).reg o' = k.reg o' := rfl
@[simp] theorem setBu_core (k : Chip) (v d b : Nat) (x : Bu) (v' c' : Nat) : (k.setBu v d b x).core v' c' = k.core v' c' := rfl
@[simp] theorem setBu_die (k : Chip) (v d b : Nat) (x : Bu) (v' d' : Nat) : (k.setBu v d b x).die v' d' = k.die v' d' := rfl
@[simp] theorem setBu_vat (k : Chip) (v d b : Nat) (x : Bu) (v' : Nat) : (k.setBu v d b x).vat v' = k.vat v' := rfl
@[simp] theorem onHub_reg (k : Chip) (f : Hub → Hub) (o' : Nat) : (k.onHub f).reg o' = k.reg o' := rfl
@[simp] theorem onHub_core (k : Chip) (f : Hub → Hub) (v' c' : Nat) : (k.onHub f).core v' c' = k.core v' c' := rfl
@[simp] theorem onHub_die (k : Chip) (f : Hub → Hub) (v' d' : Nat) : (k.onHub f).die v' d' = k.die v' d' := rfl
@[simp] theorem onHub_vat (k : Chip) (f : Hub → Hub) (v' : Nat) : (k.onHub f).vat v' = k.vat v' := rfl
@[simp] theorem onHub_bu (k : Chip) (f : Hub → Hub) (v' d' b' : Nat) : (k.onHub f).bu v' d' b' = k.bu v' d' b' := rfl

@[simp] theorem reg_setReg_same (k : Chip) (o : Nat) (w : Word) : (k.setReg o w).reg o = w := lookup_insert_same _ _ _ _
theorem reg_setReg_other (k : Chip) (o o' : Nat) (w : Word) (h : o' ≠ o) : (k.setReg o w).reg o' = k.reg o' :=
  lookup_insert_other _ _ _ _ _ h
@[simp] theorem core_setCore_same (k : Chip) (v c : Nat) (x : Core) : (k.setCore v c x).core v c = x := lookup_insert_same _ _ _ _
theorem core_setCore_other (k : Chip) (v c v' c' : Nat) (x : Core) (h : coreKey v' c' ≠ coreKey v c) : (k.setCore v c x).core v' c' = k.core v' c' :=
  lookup_insert_other _ _ _ _ _ h
@[simp] theorem die_setDie_same (k : Chip) (v d : Nat) (x : Die) : (k.setDie v d x).die v d = x := lookup_insert_same _ _ _ _
theorem die_setDie_other (k : Chip) (v d v' d' : Nat) (x : Die) (h : dieKey v' d' ≠ dieKey v d) : (k.setDie v d x).die v' d' = k.die v' d' :=
  lookup_insert_other _ _ _ _ _ h
@[simp] theorem vat_setVat_same (k : Chip) (v : Nat) (x : Vat) : (k.setVat v x).vat v = x := lookup_insert_same _ _ _ _
theorem vat_setVat_other (k : Chip) (v v' : Nat) (x : Vat) (h : v' ≠ v) : (k.setVat v x).vat v' = k.vat v' := lookup_insert_other _ _ _ _ _ h
@[simp] theorem bu_setBu_same (k : Chip) (v d b : Nat) (x : Bu) : (k.setBu v d b x).bu v d b = x := lookup_insert_same _ _ _ _
theorem bu_setBu_other (k : Chip) (v d b v' d' b' : Nat) (x : Bu) (h : bankKey v' d' b' ≠ bankKey v d b) :
    (k.setBu v d b x).bu v' d' b' = k.bu v' d' b' := lookup_insert_other _ _ _ _ _ h

/-! ### The later update of a unit stands -/

@[simp] theorem setReg_setReg (k : Chip) (o : Nat) (w x : Word) : (k.setReg o w).setReg o x = k.setReg o x := by simp [Chip.setReg]
@[simp] theorem setCore_setCore (k : Chip) (v c : Nat) (x y : Core) : (k.setCore v c x).setCore v c y = k.setCore v c y := by simp [Chip.setCore]
@[simp] theorem setDie_setDie (k : Chip) (v d : Nat) (x y : Die) : (k.setDie v d x).setDie v d y = k.setDie v d y := by simp [Chip.setDie]
@[simp] theorem setVat_setVat (k : Chip) (v : Nat) (x y : Vat) : (k.setVat v x).setVat v y = k.setVat v y := by simp [Chip.setVat]
@[simp] theorem setBu_setBu (k : Chip) (v d b : Nat) (x y : Bu) : (k.setBu v d b x).setBu v d b y = k.setBu v d b y := by simp [Chip.setBu]

/-! ### Derived reads -/

@[simp] theorem setReg_stream (k : Chip) (o : Nat) (w : Word) (v c s : Nat) : (k.setReg o w).stream v c s = k.stream v c s := rfl
@[simp] theorem setBu_stream (k : Chip) (v d b : Nat) (x : Bu) (v' c s : Nat) : (k.setBu v d b x).stream v' c s = k.stream v' c s := rfl
@[simp] theorem setDie_stream (k : Chip) (v d : Nat) (x : Die) (v' c s : Nat) : (k.setDie v d x).stream v' c s = k.stream v' c s := rfl
@[simp] theorem onHub_stream (k : Chip) (f : Hub → Hub) (v c s : Nat) : (k.onHub f).stream v c s = k.stream v c s := rfl
@[simp] theorem setReg_phys (k : Chip) (o : Nat) (w : Word) (v d a : Nat) : (k.setReg o w).phys v d a = k.phys v d a := rfl
@[simp] theorem setBu_phys (k : Chip) (v d b : Nat) (x : Bu) (v' d' a : Nat) : (k.setBu v d b x).phys v' d' a = k.phys v' d' a := rfl
@[simp] theorem setCore_phys (k : Chip) (v c : Nat) (x : Core) (v' d a : Nat) : (k.setCore v c x).phys v' d a = k.phys v' d a := rfl
@[simp] theorem onHub_phys (k : Chip) (f : Hub → Hub) (v d a : Nat) : (k.onHub f).phys v d a = k.phys v d a := rfl
@[simp] theorem onHub_onHub (k : Chip) (f g : Hub → Hub) : (k.onHub f).onHub g = k.onHub (fun h => g (f h)) := rfl
@[simp] theorem setReg_now (k : Chip) (o : Nat) (w : Word) : (k.setReg o w).now = k.now := rfl
@[simp] theorem setCore_now (k : Chip) (v c : Nat) (x : Core) : (k.setCore v c x).now = k.now := rfl
@[simp] theorem setBu_now (k : Chip) (v d b : Nat) (x : Bu) : (k.setBu v d b x).now = k.now := rfl

/-- The streams of a core, after one is replaced. -/
@[simp] theorem setStream_stream_same (x : Core) (s : Nat) (y : Stream) (h : s < x.streams.length) : (x.setStream s y).stream s = y := by
  simp [Core.setStream, Core.stream, setAt, List.getD, h]

theorem setStream_stream_other (x : Core) (s j : Nat) (y : Stream) (h : s ≠ j) : (x.setStream s y).stream j = x.stream j := by
  simp [Core.setStream, Core.stream, setAt, List.getD, List.getElem?_set_ne h]

theorem entryWord_wordEntry (w : Word) : entryWord (wordEntry w) = w := by
  apply BitVec.eq_of_toNat_eq
  have := w.isLt
  simp only [entryWord, wordEntry, BitVec.toNat_ofNat]
  omega

end Sys2Proof.Laws
end

