-- ==== Sys2Proof/Laws/Dram.lean ====
section
/-!
SUPPORT. Laws of DRAM: every operation that stores keeps its canonical form, a word stored is read back clean, and a store leaves every other byte
as it was.
-/

namespace Sys2Proof.Laws

open Sys2Proof.Machine

theorem wf_parts (dr : Dram) : Memory.wf dr = true ↔ canonical 0 dr.cells = true ∧ canonical [] dr.marks = true := by
  simp [Memory.wf]

theorem wf_putWord (dr : Dram) (a : Nat) (bs : List Byte) (h : Memory.wf dr = true) : Memory.wf (dr.putWord a bs) = true := by
  rw [wf_parts] at h ⊢
  exact ⟨canonical_storeRun _ _ _ _ h.1, canonical_store [] dr.marks (a / 32) [] h.2⟩

theorem wf_putMarked (dr : Dram) (a : Nat) (bs : List Byte) (h : Memory.wf dr = true) : Memory.wf (dr.putMarked a bs) = true := by
  rw [wf_parts] at h ⊢
  exact ⟨canonical_storeRun _ _ _ _ h.1, canonical_store [] dr.marks (a / 32) poisonMark h.2⟩

theorem wf_putPattern (dr : Dram) (a : Nat) (bs : List Byte) (p : List (Nat × Nat)) (h : Memory.wf dr = true) :
    Memory.wf (dr.putPattern a bs p) = true := by
  rw [wf_parts] at h ⊢
  exact ⟨canonical_storeRun _ _ _ _ h.1, canonical_store [] dr.marks (a / 32) p h.2⟩

theorem wf_putEither (dr : Dram) (a : Nat) (bs : List Byte) (bad : Bool) (h : Memory.wf dr = true) :
    Memory.wf (dr.putEither a bs bad) = true := by
  unfold Dram.putEither
  split
  · exact wf_putMarked dr a bs h
  · exact wf_putWord dr a bs h

theorem wf_clear (dr : Dram) (lo hi : Nat) (h : Memory.wf dr = true) : Memory.wf (dr.clear lo hi) = true := by
  rw [wf_parts] at h ⊢
  exact ⟨canonical_filter _ _ _ h.1, canonical_filter _ _ _ h.2⟩

/-- A property of DRAM that every step of a fold keeps. -/
theorem foldl_keeps {α β : Type} (P : β → Prop) (f : β → α → β) (l : List α) (b : β) (h : P b) (step : ∀ b a, P b → P (f b a)) : P (l.foldl f b) := by
  induction l generalizing b with
  | nil => exact h
  | cons a l ih => exact ih _ (step b a h)

theorem wf_storeAt (k : Chip) (dr : Dram) (v p : Nat) (bs : List Byte) (bad : Bool) (h : Memory.wf dr = true) :
    Memory.wf (k.storeAt dr v p bs bad) = true :=
  foldl_keeps (fun dr => Memory.wf dr = true) _ _ _ h (fun _ _ hd => wf_putEither _ _ _ _ hd)

theorem wf_mergeAt (k : Chip) (dr : Dram) (v p src : Nat) (bs : List Byte) (en : Nat → Bool) (bad : Bool) (h : Memory.wf dr = true) :
    Memory.wf (k.mergeAt dr v p src bs en bad).1 = true := by
  unfold Chip.mergeAt
  split
  · exact wf_storeAt _ _ _ _ _ _ h
  · dsimp only
    split
    · exact h
    · exact wf_storeAt _ _ _ _ _ _ h

theorem wf_writeRun (v src fuel : Nat) (dr : Dram) (k : Chip) (p : Nat) (bs : List Byte) (h : Memory.wf dr = true) :
    Memory.wf (Chip.writeRun v src fuel dr k p bs).1 = true := by
  induction fuel generalizing dr k p bs with
  | zero => exact h
  | succ n ih =>
    unfold Chip.writeRun
    split
    · exact h
    · exact ih _ _ _ _ (wf_mergeAt _ _ _ _ _ _ _ _ h)

theorem wf_writeBytes (k : Chip) (dr : Dram) (v p src : Nat) (bs : List Byte) (h : Memory.wf dr = true) :
    Memory.wf (k.writeBytes dr v p src bs).1 = true := wf_writeRun _ _ _ _ _ _ _ h

/-- R172: a word stored whole is read back clean. -/
theorem word_putWord (dr : Dram) (a : Nat) (bs : List Byte) (h : Memory.wf dr = true) (n : bs.length = 32) :
    (dr.putWord a bs).word a = { bytes := bs, res := .clean, syms := [] } := by
  rw [wf_parts] at h
  have e : bs.take 32 = bs := List.take_of_length_le (by omega)
  have hb : lookupRun 0 (storeRun 0 dr.cells a bs) a 32 = bs := by rw [← n]; exact lookupRun_storeRun 0 bs dr.cells a h.1
  have hm : lookup [] (store [] dr.marks (a / 32) []) (a / 32) = [] := lookup_store_same [] dr.marks (a / 32) [] h.2
  simp only [Dram.word, Dram.putWord, Dram.bytes, e, hb, hm]
  rfl

/-- A byte outside the word stored reads as before. -/
theorem byte_putWord_other (dr : Dram) (a b : Nat) (bs : List Byte) (n : bs.length = 32) (h : b < a ∨ a + 32 ≤ b) :
    (dr.putWord a bs).byte b = dr.byte b := by
  have e : bs.take 32 = bs := List.take_of_length_le (by omega)
  simp [Dram.byte, Dram.putWord, e, lookup_storeRun_other _ bs dr.cells a b (by omega)]

end Sys2Proof.Laws
end

