-- ==== Sys2Proof/Laws/Outcomes.lean ====
section
/-!
SUPPORT. Laws of the shapes that every meaning has: which part of the state a command of each shape can change, and when it answers a next state.
-/

namespace Sys2Proof.Laws

open Sys2Proof.Machine

theorem onChip_next (s : State) (ok : Bool) (f : Chip → Chip) (h : ok = true) (a : s.k.alive = true) :
    s.onChip ok f = .next { s with k := f s.k } := by simp [State.onChip, h, a]

theorem onChip_still (s : State) (ok : Bool) (f : Chip → Chip) (h : ok = true) (a : s.k.alive = false) : s.onChip ok f = .next s := by
  simp [State.onChip, h, a]

theorem onChip_absent (s : State) (ok : Bool) (f : Chip → Chip) (h : ok = false) : s.onChip ok f = .fault .noSuchUnit := by
  simp [State.onChip, h]

/-- A command that reaches the chip alone leaves the part, the queue and DRAM as they are. -/
theorem onChip_frame (s t : State) (ok : Bool) (f : Chip → Chip) (h : s.onChip ok f = .next t) :
    t.part = s.part ∧ t.pending = s.pending ∧ t.dram = s.dram := by
  unfold State.onChip at h
  split at h
  · split at h <;> (cases h; exact ⟨rfl, rfl, rfl⟩)
  · cases h

theorem onBoth_next (s : State) (ok : Bool) (f : Dram → Chip → Dram × Chip) (h : ok = true) (a : s.k.alive = true) :
    s.onBoth ok f = .next { s with dram := (f s.dram s.k).1, k := (f s.dram s.k).2 } := by simp [State.onBoth, h, a]

/-- A command that may write DRAM leaves the part and the queue as they are, and keeps any property of DRAM that its effect keeps. -/
theorem onBoth_keeps (P : Dram → Prop) (s t : State) (ok : Bool) (f : Dram → Chip → Dram × Chip) (h : s.onBoth ok f = .next t) (p : P s.dram)
    (e : P (f s.dram s.k).1) : t.part = s.part ∧ t.pending = s.pending ∧ P t.dram := by
  unfold State.onBoth at h
  split at h
  · split at h <;> (cases h; exact ⟨rfl, rfl, by assumption⟩)
  · cases h

theorem onPart_keeps (P : Dram → Prop) (s t : State) (f : Dram → Chip → Dram × Chip) (h : s.onPart f = .next t) (e : P (f s.dram s.k).1) :
    t.part = s.part ∧ t.pending = s.pending ∧ P t.dram := by
  unfold State.onPart at h
  cases h
  exact ⟨rfl, rfl, e⟩

/-! ### Issue -/

/-- A stream that may not issue does nothing. -/
theorem issueCore_unready (k : Chip) (v c s op : Nat) (ops : BitVec 56) (used : Nat) (legal : Bool) (eff : Chip → CoreEff)
    (h : k.canIssue v c s = false) : issueCore k v c s op ops used legal eff = k := by simp [issueCore, h]

/-- What a checked instruction of a stream comes to: its effect on the chip that it finds. -/
theorem issueCore_ok (k : Chip) (v c s op : Nat) (ops : BitVec 56) (used : Nat) (legal : Bool) (eff : Chip → CoreEff)
    (h : k.canIssue v c s = true)
    (f : k.fetch false (k.stream v c s).seq (k.core v c).pstore (k.core v c).pstoreBad op ops = .ok)
    (o : k.orderHeld v c s op ops = false)
    (l : (classOkCore op s && reservedZero ops used && legal) = true) :
    issueCore k v c s op ops used legal eff =
      match eff (if (k.stream v c s).seq.lib && op ≠ 0x07 then
          k.setStream v c s { k.stream v c s with seq := { (k.stream v c s).seq with routine := none } } else k) with
      | .fault f k' => k.faultHere k' v c s f.code
      | .dmaFault k' => k'
      | .stall a b => k.noteStall v c s a b
      | .wait => k
      | .step k' => k'.advanceCore v c s
      | .jump k' => k'.issued v c s
      | .held k' => k' := by
  have f' : k.fetch false ((k.core v c).stream s).seq (k.core v c).pstore (k.core v c).pstoreBad op ops = .ok := f
  simp only [Bool.and_eq_true] at l
  simp only [issueCore, h, Bool.not_true, Bool.false_eq_true, if_false, f', o, l.1.1, l.1.2, l.2, Bool.and_self]
  all_goals rfl

/-- A bank unit that may not issue does nothing. -/
theorem issueBank_unready (k : Chip) (v d b op : Nat) (ops : BitVec 56) (used : Nat) (legal : Bool) (eff : Chip → BankEff)
    (h : k.bankCanIssue v d b = false) : issueBank k v d b op ops used legal eff = k := by simp [issueBank, h]

/-- What a checked instruction of a bank unit comes to. -/
theorem issueBank_ok (k : Chip) (v d b op : Nat) (ops : BitVec 56) (used : Nat) (legal : Bool) (eff : Chip → BankEff)
    (h : k.bankCanIssue v d b = true)
    (f : k.fetch true (k.bu v d b).seq (k.bu v d b).pstore (k.bu v d b).pstoreBad op ops = .ok)
    (l : (classOkBank op && reservedZero ops used && legal) = true) :
    issueBank k v d b op ops used legal eff =
      match eff (if (k.bu v d b).seq.lib && op ≠ 0x07 then
          k.setBu v d b { k.bu v d b with seq := { (k.bu v d b).seq with routine := none } } else k) with
      | .fault f k' => k'.bankFault v d b f (k.bu v d b).seq.lib (k.bu v d b).seq.pc
      | .wait => k
      | .step k' => k'.setBu v d b { k'.bu v d b with seq := (k'.bu v d b).seq.advance }
      | .jump k' => k' := by
  simp only [Bool.and_eq_true] at l
  simp only [issueBank, h, Bool.not_true, Bool.false_eq_true, if_false, f, l.1.1, l.1.2, l.2, Bool.and_self]
  all_goals rfl

end Sys2Proof.Laws
end

