-- ==== Sys2Proof/Laws/Registers.lean ====
section
/-!
SUPPORT. Laws of register fields: a field reads what was put into it, and every field that does not overlap it reads as before.
-/

namespace Sys2Proof.Laws

open Sys2Proof.Machine

theorem testBit_bitsAt (n hi lo j : Nat) : (bitsAt n hi lo).testBit j = (decide (j < hi + 1 - lo) && n.testBit (j + lo)) := by
  simp [bitsAt, Nat.testBit_mod_two_pow, Nat.add_comm]

/-- The bits of a word with a field replaced. -/
theorem testBit_putFld (w : Word) (hi lo n i : Nat) (h : hi < 64) (hl : lo ≤ hi) :
    (putFld w hi lo n).toNat.testBit i = if lo ≤ i ∧ i ≤ hi then n.testBit (i - lo) else w.toNat.testBit i := by
  have mask : ∀ j, ((2 ^ (hi + 1 - lo) - 1) * 2 ^ lo).testBit j = decide (lo ≤ j ∧ j ≤ hi) := by
    intro j
    rw [Nat.testBit_mul_two_pow]
    simp only [Nat.testBit_two_pow_sub_one]
    by_cases h1 : lo ≤ j <;> by_cases h2 : j ≤ hi <;> simp [h1, h2] <;> omega
  have ins : ∀ j, ((n % 2 ^ (hi + 1 - lo)) * 2 ^ lo).testBit j = (decide (lo ≤ j ∧ j ≤ hi) && n.testBit (j - lo)) := by
    intro j
    rw [Nat.testBit_mul_two_pow]
    simp only [Nat.testBit_mod_two_pow]
    by_cases h1 : lo ≤ j <;> by_cases h2 : j ≤ hi <;> simp [h1, h2] <;> omega
  by_cases hi64 : i < 64
  · rw [BitVec.testBit_toNat, BitVec.testBit_toNat]
    simp only [putFld, BitVec.getLsbD_or, BitVec.getLsbD_and, BitVec.getLsbD_not, BitVec.getLsbD_ofNat, mask, ins, hi64, decide_true,
      Bool.true_and]
    by_cases hr : lo ≤ i ∧ i ≤ hi
    · simp [hr]
    · simp [hr]
  · have e1 : (putFld w hi lo n).toNat.testBit i = false := Nat.testBit_lt_two_pow (Nat.lt_of_lt_of_le (putFld w hi lo n).isLt (Nat.pow_le_pow_right (by decide) (by omega)))
    have e2 : w.toNat.testBit i = false := Nat.testBit_lt_two_pow (Nat.lt_of_lt_of_le w.isLt (Nat.pow_le_pow_right (by decide) (by omega)))
    rw [e1, e2, if_neg (by omega)]

/-- A field reads what was put into it. -/
theorem fld_putFld_same (w : Word) (hi lo n : Nat) (h : hi < 64) (hl : lo ≤ hi) : fld (putFld w hi lo n) hi lo = n % 2 ^ (hi + 1 - lo) := by
  apply Nat.eq_of_testBit_eq
  intro i
  rw [fld, testBit_bitsAt, testBit_putFld w hi lo n _ h hl, Nat.testBit_mod_two_pow]
  by_cases hi' : i < hi + 1 - lo
  · rw [if_pos (by omega)]; simp [hi', show i + lo - lo = i by omega]
  · simp [hi']

/-- A field that does not overlap reads as before. -/
theorem fld_putFld_other (w : Word) (hi lo n hi' lo' : Nat) (h : hi < 64) (hl : lo ≤ hi) (d : hi' < lo ∨ hi < lo') :
    fld (putFld w hi lo n) hi' lo' = fld w hi' lo' := by
  apply Nat.eq_of_testBit_eq
  intro i
  rw [fld, fld, testBit_bitsAt, testBit_bitsAt]
  by_cases hi2 : i < hi' + 1 - lo'
  · rw [testBit_putFld w hi lo n _ h hl, if_neg (by omega)]
  · simp [hi2]

theorem getF_setF_same (k : Chip) (o hi lo n : Nat) (h : hi < 64) (hl : lo ≤ hi) : (k.setF o hi lo n).getF o hi lo = n % 2 ^ (hi + 1 - lo) := by
  simp [Chip.getF, Chip.setF, fld_putFld_same _ _ _ _ h hl]

theorem getF_setF_other (k : Chip) (o hi lo n hi' lo' : Nat) (h : hi < 64) (hl : lo ≤ hi) (d : hi' < lo ∨ hi < lo') :
    (k.setF o hi lo n).getF o hi' lo' = k.getF o hi' lo' := by
  simp [Chip.getF, Chip.setF, fld_putFld_other _ _ _ _ _ _ h hl d]

/-- Another register reads as before. -/
theorem reg_setF_other (k : Chip) (o o' hi lo n : Nat) (h : o' ≠ o) : (k.setF o hi lo n).reg o' = k.reg o' := reg_setReg_other _ _ _ _ h

theorem getF_setF_register (k : Chip) (o o' hi lo n hi' lo' : Nat) (h : o' ≠ o) : (k.setF o hi lo n).getF o' hi' lo' = k.getF o' hi' lo' := by
  simp [Chip.getF, reg_setF_other _ _ _ _ _ _ h]

theorem flag_raise_same (k : Chip) (o i : Nat) (h : i < 64) : (k.raise o i).flag o i = true := by
  simp [Chip.flag, Chip.raise, getF_setF_same _ _ _ _ _ h (Nat.le_refl i)]

end Sys2Proof.Laws
end

