-- ==== Sys2Proof/Laws/Turns.lean ====
section
/-!
SUPPORT. Laws of the commands that a vat's clocks make (R725), and of those of the hub, which come about once the arbiters grant their accesses (R165,
R173, R730).
-/

namespace Sys2Proof.Laws

open Sys2Proof.Machine

/-! ### What a vat's clocks make -/

theorem onVat_next (s : State) (ok : Bool) (v : Nat) (f : Chip → Chip) (h : ok = true) (a : s.k.alive = true) (r : s.k.vatRuns v = true) :
    s.onVat ok v f = .next { s with k := f s.k } := by simp [State.onVat, State.onChip, h, a, r]

/-- A vat whose clocks stand still makes nothing. -/
theorem onVat_still (s : State) (ok : Bool) (v : Nat) (f : Chip → Chip) (h : ok = true) (r : s.k.vatRuns v = false) : s.onVat ok v f = .next s := by
  simp [State.onVat, State.onChip, h, r]

theorem onVat_frame (s t : State) (ok : Bool) (v : Nat) (f : Chip → Chip) (h : s.onVat ok v f = .next t) :
    t.part = s.part ∧ t.pending = s.pending ∧ t.dram = s.dram := onChip_frame s t ok _ h

theorem onVatBoth_keeps (P : Dram → Prop) (s t : State) (ok : Bool) (v : Nat) (f : Dram → Chip → Dram × Chip) (h : s.onVatBoth ok v f = .next t)
    (p : P s.dram) (e : P (f s.dram s.k).1) : t.part = s.part ∧ t.pending = s.pending ∧ P t.dram :=
  onBoth_keeps P s t ok _ h p (by split <;> assumption)

/-! ### What waits for the arbiters -/

theorem onMach_next (s : State) (ok : Bool) (f : Mach → Mach) (h : ok = true) (a : s.k.alive = true) :
    s.onMach ok f = .next { s with dram := (f ⟨s.dram, s.k⟩).dr, k := (f ⟨s.dram, s.k⟩).k } := by
  simp [State.onMach, State.onBoth, h, a]

/-- A command whose accesses are all granted comes about. -/
theorem orWait_granted (m m' : Mach) (h : m'.waitsAt m = []) : m.orWait m' = m' := by simp [Mach.orWait, h]

/-- A command that asks no bank for anything comes about. -/
theorem orWait_sameBanks (m m' : Mach) (h : m'.k.bus = m.k.bus) : m.orWait m' = m' :=
  orWait_granted m m' (by simp [Mach.waitsAt, h])

/-- One that does nothing leaves everything as it was. -/
theorem orWait_self (m : Mach) : m.orWait m = m := orWait_sameBanks m m rfl

/-- One that has to wait leaves everything as it was, but for the wakes that it asks for. -/
theorem orWait_waits (m m' : Mach) (h : m'.waitsAt m ≠ []) :
    (m.orWait m').dr = m.dr ∧ (m.orWait m').k = (m'.waitsAt m).foldl Chip.wake m.k := by
  unfold Mach.orWait
  split
  · contradiction
  · exact ⟨rfl, rfl⟩

theorem orWait_dr (P : Dram → Prop) (m m' : Mach) (p : P m.dr) (p' : P m'.dr) : P (m.orWait m').dr := by
  by_cases h : m'.waitsAt m = []
  · rw [orWait_granted m m' h]; exact p'
  · rw [(orWait_waits m m' h).1]; exact p

theorem onTurn_next (s : State) (ok : Bool) (f : Mach → Mach) (h : ok = true) (a : s.k.alive = true) :
    s.onTurn ok f = .next { s with dram := (Mach.orWait ⟨s.dram, s.k⟩ (f ⟨s.dram, s.k⟩)).dr, k := (Mach.orWait ⟨s.dram, s.k⟩ (f ⟨s.dram, s.k⟩)).k } :=
  onMach_next s ok _ h a

/-- A command of the hub leaves the part and the queue as they are, and keeps any property of DRAM that its effect keeps. -/
theorem onTurn_keeps (P : Dram → Prop) (s t : State) (ok : Bool) (f : Mach → Mach) (h : s.onTurn ok f = .next t) (p : P s.dram)
    (e : P (f ⟨s.dram, s.k⟩).dr) : t.part = s.part ∧ t.pending = s.pending ∧ P t.dram :=
  onBoth_keeps P s t ok (fun dr k => let m := Mach.orWait ⟨dr, k⟩ (f ⟨dr, k⟩); (m.dr, m.k)) h p (orWait_dr P ⟨s.dram, s.k⟩ _ p e)

end Sys2Proof.Laws
end

