-- ==== Sys2Proof/Laws/Units.lean ====
section
/-!
SUPPORT. What an instruction comes to on a unit that stands at it: one lemma for streams and one for bank units, cited by every statement about an
instruction instead of unfolding the issue.
-/

namespace Sys2Proof.Laws

open Sys2Proof.Machine Sys2Proof.Safety

/-- An instruction other than RET, on a stream that stands at it, with its reserved bits zero and its operands legal. -/
theorem core_run (s : State) (v c t op : Nat) (ops : BitVec 56) (used : Nat) (lc : Chip → Nat → Nat → Nat → Bool)
    (core : Chip → Nat → Nat → Nat → Chip → CoreEff)
    (lb : Chip → Bool) (bank : Chip → Nat → Nat → Nat → Chip → BankEff) (h : coreAt s v c t op ops) (n : op ≠ 0x07) (r : reservedZero ops used = true)
    (l : lc s.k v c t = true) :
    s.onChip (s.hasUnit (.core v c t)) (fun k => issue k (.core v c t) op ops used (lc k) (core k) (lb k) (bank k)) =
      .next (withK s (match core s.k v c t (entered s.k v c t) with
        | .fault f k' => s.k.faultHere k' v c t f.code
        | .dmaFault k' => k'
        | .stall a b => s.k.noteStall v c t a b
        | .wait => s.k
        | .step k' => k'.advanceCore v c t
        | .jump k' => k'.issued v c t
        | .held k' => k')) := by
  obtain ⟨hu, ha, hc, hk, hf, ho⟩ := h
  rw [onChip_next _ _ _ hu ha]
  simp only [issue]
  rw [issueCore_ok _ _ _ _ _ _ _ _ _ hc hf ho (by simp [hk, r, l])]
  simp only [n, ne_eq, not_false_eq_true, decide_true, Bool.and_true]
  rfl

/-- RET on a stream, which leaves a pending contract as it is. -/
theorem core_run_ret (s : State) (v c t : Nat) (ops : BitVec 56) (used : Nat) (lc : Nat → Nat → Nat → Bool) (core : Nat → Nat → Nat → Chip → CoreEff)
    (lb : Bool) (bank : Nat → Nat → Nat → Chip → BankEff) (h : coreAt s v c t 0x07 ops) (r : reservedZero ops used = true) (l : lc v c t = true) :
    issue s.k (.core v c t) 0x07 ops used lc core lb bank =
      (match core v c t s.k with
        | .fault f k' => s.k.faultHere k' v c t f.code
        | .dmaFault k' => k'
        | .stall a b => s.k.noteStall v c t a b
        | .wait => s.k
        | .step k' => k'.advanceCore v c t
        | .jump k' => k'.issued v c t
        | .held k' => k') := by
  obtain ⟨hu, ha, hc, hk, hf, ho⟩ := h
  simp only [issue]
  rw [issueCore_ok _ _ _ _ _ _ _ _ _ hc hf ho (by simp [hk, r, l])]
  simp only [ne_eq, not_true_eq_false, decide_false, Bool.and_false, Bool.false_eq_true, if_false]
  all_goals rfl

/-- An instruction other than RET, on a bank unit that stands at it. -/
theorem bank_run (s : State) (v d a op : Nat) (ops : BitVec 56) (used : Nat) (lc : Chip → Nat → Nat → Nat → Bool)
    (core : Chip → Nat → Nat → Nat → Chip → CoreEff)
    (lb : Chip → Bool) (bank : Chip → Nat → Nat → Nat → Chip → BankEff) (h : bankAt s v d a op ops) (n : op ≠ 0x07) (r : reservedZero ops used = true)
    (l : lb s.k = true) :
    s.onChip (s.hasUnit (.bank v d a)) (fun k => issue k (.bank v d a) op ops used (lc k) (core k) (lb k) (bank k)) =
      .next (withK s (match bank s.k v d (s.k.phys v d a) (enteredBank s.k v d (s.k.phys v d a)) with
        | .fault f k' => k'.bankFault v d (s.k.phys v d a) f (s.k.bu v d (s.k.phys v d a)).seq.lib (s.k.bu v d (s.k.phys v d a)).seq.pc
        | .wait => s.k
        | .step k' => k'.setBu v d (s.k.phys v d a) { k'.bu v d (s.k.phys v d a) with seq := (k'.bu v d (s.k.phys v d a)).seq.advance }
        | .jump k' => k')) := by
  obtain ⟨hu, ha, hc, hk, hf⟩ := h
  rw [onChip_next _ _ _ hu ha]
  simp only [issue]
  rw [issueBank_ok _ _ _ _ _ _ _ _ _ hc hf (by simp [hk, r, l])]
  simp only [n, ne_eq, not_false_eq_true, decide_true, Bool.and_true]
  rfl

/-- RET on a bank unit. -/
theorem bank_run_ret (s : State) (v d a : Nat) (ops : BitVec 56) (used : Nat) (lc : Nat → Nat → Nat → Bool) (core : Nat → Nat → Nat → Chip → CoreEff)
    (lb : Bool) (bank : Nat → Nat → Nat → Chip → BankEff) (h : bankAt s v d a 0x07 ops) (r : reservedZero ops used = true) (l : lb = true) :
    issue s.k (.bank v d a) 0x07 ops used lc core lb bank =
      (match bank v d (s.k.phys v d a) s.k with
        | .fault f k' => k'.bankFault v d (s.k.phys v d a) f (s.k.bu v d (s.k.phys v d a)).seq.lib (s.k.bu v d (s.k.phys v d a)).seq.pc
        | .wait => s.k
        | .step k' => k'.setBu v d (s.k.phys v d a) { k'.bu v d (s.k.phys v d a) with seq := (k'.bu v d (s.k.phys v d a)).seq.advance }
        | .jump k' => k') := by
  obtain ⟨hu, ha, hc, hk, hf⟩ := h
  simp only [issue]
  rw [issueBank_ok _ _ _ _ _ _ _ _ _ hc hf (by simp [hk, r, l])]
  simp only [ne_eq, not_true_eq_false, decide_false, Bool.and_false, Bool.false_eq_true, if_false]
  all_goals rfl

/-- What the hoops and registers of a core grant does not depend on a pending contract. -/
@[simp] theorem entered_reg (k : Chip) (v c t o : Nat) : (entered k v c t).reg o = k.reg o := by
  simp only [entered]; split <;> rfl

@[simp] theorem entered_hoopCfg (k : Chip) (v c t v' c' h : Nat) : (entered k v c t).hoopCfg v' c' h = k.hoopCfg v' c' h := by
  simp only [entered]; split <;> rfl

@[simp] theorem entered_popOk (k : Chip) (v c t v' c' s' e : Nat) : (entered k v c t).popOk v' c' s' e = k.popOk v' c' s' e := by
  simp only [Chip.popOk, entered_hoopCfg]

@[simp] theorem entered_pushOk (k : Chip) (v c t v' c' s' e : Nat) : (entered k v c t).pushOk v' c' s' e = k.pushOk v' c' s' e := by
  simp only [Chip.pushOk, entered_hoopCfg]

@[simp] theorem entered_phys (k : Chip) (v c t v' d a : Nat) : (entered k v c t).phys v' d a = k.phys v' d a := by
  simp only [entered]; split <;> rfl

@[simp] theorem enteredBank_phys (k : Chip) (v d b v' d' a : Nat) : (enteredBank k v d b).phys v' d' a = k.phys v' d' a := by
  simp only [enteredBank]; split <;> rfl

@[simp] theorem entered_hub (k : Chip) (v c t : Nat) : (entered k v c t).hub = k.hub := by
  simp only [entered]; split <;> rfl

@[simp] theorem enteredBank_hub (k : Chip) (v d b : Nat) : (enteredBank k v d b).hub = k.hub := by
  simp only [enteredBank]; split <;> rfl

end Sys2Proof.Laws
end

