-- ==== Sys2Proof/Tests/Slice0.lean ====
section
/-!
SUPPORT. Tests: the ill-formed terms that the check refuses, a concrete state that meets the hypotheses of each statement (a witness for each
clause), and single steps whose expected results are worked out from spec/.
-/

set_option exponentiation.threshold 1024
set_option maxRecDepth 4000

namespace Sys2Proof.Tests

open Sys2Proof.Machine Sys2Proof.Safety

/-! ### Helpers -/

/-- What is read from the next state, where there is one. -/
def got {α : Type} (o : Host.Outcome State Fault Refusal) (f : State → α) : Option α :=
  match o with
  | .next t => some (f t)
  | _ => none

/-- A READY part. -/
def readyChip : Chip :=
  { Chip.reset with
    regs := [(Reg.pwrCap, 750), (Reg.bootStatus, 0x80000601), (Reg.rindStatus, 1)]
    hub := { Hub.reset with boot := { BootState.start with cond := .ready } } }

/-- A part whose chip is `k`. -/
def onChip (k : Chip) : State := withK State.reset k

/-- A READY part. -/
def ready : State := onChip readyChip

/-- A READY part whose hub differs. -/
def onHub (f : Hub → Hub) : State := onChip (readyChip.onHub f)

/-- A stream that runs. -/
def running : Stream := { Stream.idle with run := .run }

/-- Core 0 of vat 0 with stream `t` standing at a word. -/
def coreOn (t op : Nat) (ops : BitVec 56) : Core :=
  { Core.reset with streams := (List.replicate 5 Stream.idle).set t running, pstore := [(0, wordOf op ops)] }

/-- A READY part whose core 0 of vat 0 is `x`. -/
def withCore (x : Core) : State := onChip (readyChip.setCore 0 0 x)

/-- A stream that stands at a word. -/
def at_ (t op : Nat) (ops : BitVec 56) : State := withCore (coreOn t op ops)

/-- Scalar registers beginning with the values given. -/
def scalars (l : List Word) : List Word := l ++ List.replicate (32 - l.length) 0

/-- A stream that stands at a word, with scalar registers. -/
def atWith (t op : Nat) (ops : BitVec 56) (l : List Word) : State := withCore { coreOn t op ops with sregs := scalars l }

/-- The bank unit of physical bank 0 of die 0 of vat 0 standing at a word. -/
def buOn (op : Nat) (ops : BitVec 56) : Bu := { Bu.reset with run := .run, pstore := [(0, wordOf op ops)] }

/-- A READY part with that bank unit. -/
def withBu (u : Bu) : State := onChip (readyChip.setBu 0 0 0 u)

/-- A bank unit that stands at a word, with scalar registers. -/
def buAt (op : Nat) (ops : BitVec 56) (l : List Lane) : State :=
  withBu { buOn op ops with sregs := l ++ List.replicate (16 - l.length) 0 }

/-- Form Q (Table 7.4): D in bits 55:48, A in 47:40, B in 39:32, IMM in 23:0. -/
def q (d a b imm : Nat) : BitVec 56 := BitVec.ofNat 56 (d * 2 ^ 48 + a * 2 ^ 40 + b * 2 ^ 32 + imm)

/-- An entry that a hoop holds. -/
def entryOf (w : Word) : Entry := { data := wordEntry w, last := true, fence := false, poison := false, src := 0 }

/-- A core whose slot `h` holds entries at its head. -/
def headAt (x : Core) (h : Nat) (es : List Entry) : Core := x.setHoop h { Hoop.empty with head := es }

/-- A part whose core 0 of vat 0 is `x` and whose hoop slots 0 and 1 are LOCAL (Table 9.7: ROUTE 1). -/
def withHoops (x : Core) : State :=
  onChip (((readyChip.setReg (Reg.hoopCfg 0 0 0) (1 <<< 30)).setReg (Reg.hoopCfg 0 0 1) (1 <<< 30)).setCore 0 0 x)

/-- A pop that gives an entry, and what holds of it. -/
def popped (p : PopRes) (f : Word → Chip → Bool) : Bool :=
  match p with
  | .done x k => f (entryWord x) k
  | _ => false

/-- A record that is fetched, and what holds of it. -/
def fetched (p : RecordRes) (f : List Byte → Chip → Bool) : Bool :=
  match p with
  | .done bs k => f bs k
  | _ => false

/-! ### The check of commands (R13): an ill-formed term for each check -/

/-- Commands that the check accepts, and beside each the same with one operand outside what the part has: no core 4, no stream 5, no die 16, no
bank 100, no line 96, no vat beyond the part's. -/
theorem test_wf_units :
    (Instr.wellFormed 2 (.nop (.core 1 3 4) 0) = true ∧ Instr.wellFormed 2 (.nop (.core 2 3 4) 0) = false ∧
      Instr.wellFormed 2 (.nop (.core 1 4 4) 0) = false ∧ Instr.wellFormed 2 (.nop (.core 1 3 5) 0) = false) ∧
    (Instr.wellFormed 8 (.bdot (.bank 7 15 99) 0) = true ∧ Instr.wellFormed 8 (.bdot (.bank 7 16 99) 0) = false ∧
      Instr.wellFormed 8 (.bdot (.bank 7 15 100) 0) = false) ∧
    (Instr.wellFormed 4 (.signalApplied 3 3 0) = true ∧ Instr.wellFormed 4 (.signalApplied 3 4 0) = false) ∧
    (Instr.wellFormed 4 (.mergeBegin 3 15) = true ∧ Instr.wellFormed 4 (.mergeBegin 4 15) = false) ∧
    (Instr.wellFormed 4 (.hoopPushLands 0 0 4) = true ∧ Instr.wellFormed 4 (.hoopPushLands 0 0 5) = false) ∧
    (Instr.wellFormed 8 (.arm 0 0 95 0) = true ∧ Instr.wellFormed 8 (.arm 0 0 96 0) = false) ∧
    (Instr.wellFormed 8 (.spareZeroed 0 0 3) = true ∧ Instr.wellFormed 8 (.spareZeroed 0 0 4) = false) ∧
    (Instr.wellFormed 8 (.coreCheckerTrip 0 0 4 2) = true ∧ Instr.wellFormed 8 (.coreCheckerTrip 0 0 4 3) = false) ∧
    (Instr.wellFormed 2 (.vatSleep 1) = true ∧ Instr.wellFormed 2 (.vatSleep 2) = false) ∧
    (Instr.wellFormed 2 (.takeover 7 15 127) = true ∧ Instr.wellFormed 2 (.takeover 8 15 127) = false) := by decide

/-- The same for the hub's commands: rings, verdict rings, ports, sessions, slots, decoders, access sizes, domains, tags, contexts. -/
theorem test_wf_hub :
    (Instr.wellFormed 8 (.recordAccept 15) = true ∧ Instr.wellFormed 8 (.recordAccept 16) = false) ∧
    (Instr.wellFormed 8 (.vringEnable 15) = true ∧ Instr.wellFormed 8 (.vringEnable 16) = false) ∧
    (Instr.wellFormed 8 (.kwAuthFail 3) = true ∧ Instr.wellFormed 8 (.kwAuthFail 4) = false) ∧
    (Instr.wellFormed 8 (.heartbeat 3) = true ∧ Instr.wellFormed 8 (.heartbeat 4) = false) ∧
    (Instr.wellFormed 8 (.debugUnlock (some 3) 7) = true ∧ Instr.wellFormed 8 (.debugUnlock (some 4) 7) = false ∧
      Instr.wellFormed 8 (.debugUnlock none 8) = false) ∧
    (Instr.wellFormed 8 (.getCertificate 15 0 0) = true ∧ Instr.wellFormed 8 (.getCertificate 16 0 0) = false) ∧
    (Instr.wellFormed 8 (.hdmDecoderCommit 3 0 0 0 0 none) = true ∧ Instr.wellFormed 8 (.hdmDecoderCommit 4 0 0 0 0 none) = false) ∧
    (Instr.wellFormed 8 (.registerWrite 0 8 true 0) = true ∧ Instr.wellFormed 8 (.registerWrite 0 3 true 0) = false) ∧
    (Instr.wellFormed 8 (.domainBind none 255 0 true) = true ∧ Instr.wellFormed 8 (.domainBind none 256 0 true) = false) ∧
    (Instr.wellFormed 8 (.directoryWalkDone 65535) = true ∧ Instr.wellFormed 8 (.directoryWalkDone 65536) = false) ∧
    (Instr.wellFormed 2 (.contextClose 262143) = true ∧ Instr.wellFormed 2 (.contextClose 262144) = false) ∧
    (Instr.wellFormed 8 (.credit 0 3 ⟨1, ⟨0, (0, 0)⟩⟩) = true ∧
      Instr.wellFormed 8 (.credit 0 4 ⟨1, ⟨0, (0, 0)⟩⟩) = false) ∧
    (Instr.wellFormed 8 (.forwardLost 3) = true ∧ Instr.wellFormed 8 (.forwardLost 4) = false) ∧
    (Instr.wellFormed 8 (.hostLinkTrained 3 2 true true) = true ∧ Instr.wellFormed 8 (.hostLinkTrained 4 2 true true) = false) ∧
    (Instr.wellFormed 2 (.thermalTrip false 1 16 3 0) = true ∧ Instr.wellFormed 2 (.thermalTrip false 1 15 3 0) = false) ∧
    (Instr.wellFormed 2 (.dieTraining [31]) = true ∧ Instr.wellFormed 2 (.dieTraining [32]) = false) := by decide

/-! ### The machine as a whole -/

/-- A state that waits with a command, and one that waits with none. -/
theorem witness_StepRunsTheFrontCommand : ({ ready with pending := [.bootReady] } : State).pending = .bootReady :: [] := by decide

/-- A READY part whose condition is another. -/
def condOf (c : Condition) : State := onHub (fun h => { h with boot := { h.boot with cond := c } })

theorem witness_EmptyQueueLetsTimePass :
    ready.pending = [] ∧ (condOf .off).k.hub.boot.cond.powered = false ∧ ready.k.hub.boot.cond.powered = true ∧ ready.k.alive = true ∧
      (condOf .held).k.hub.boot.cond.powered = true ∧ (condOf .held).k.alive = false := by decide

theorem test_idle_tick : got (step ready) (fun t => t.k.hub.time) = some 1 := by decide

theorem witness_StepKeepsThePartAndTheQueue :
    got (step { ready with pending := [.quietPoint, .bootReady] }) (fun t => t.pending.length) = some 1 := by decide

theorem witness_StepKeepsDramCanonical :
    Memory.wf ready.dram = true ∧ (got (step ready) (fun t => Memory.wf t.dram)) = some true := by decide

theorem witness_WellFormedCommandsRun : Instr.wellFormed State.reset.part.vats (.nop (.core 7 3 4) 0) = true ∧
    (got (exec (.nop (.core 7 3 4) 0) State.reset) (fun _ => true)) = some true := by decide

/-- R13: a unit the part does not have. -/
theorem test_no_such_unit : exec (.refresh 8 0 0) State.reset = .fault .noSuchUnit := rfl

theorem witness_ChipCommandsLeaveDram : writesDram .bootReady = false ∧ (got (exec .bootReady ready) (fun _ => true)) = some true := by decide

theorem witness_NothingRunsWithoutTheHub :
    let s := onHub (fun h => { h with boot := { h.boot with cond := .cave } })
    Instr.wellFormed s.part.vats (.refresh 7 15 99) = true ∧ s.k.alive = false ∧ needsHub (.refresh 7 15 99) = true ∧
      clockOf (.refresh 7 15 99) = some 7 ∧ (readyChip.setVat 7 { Vat.reset with power := .asleep }).vatRuns 7 = false := by decide

theorem witness_SafeStatesStepOn : ok { ready with pending := [.refresh 7 15 99] } := by unfold ok dramOk queueOk; decide

/-! ### Issue, faults and flow -/

/-- A stream beyond its store (R352: the word after 8191), a word whose check fails, a reserved opcode, an IDLE stream, and an instruction of a
class that its stream may not issue: PASS on stream 0. -/
theorem witness_UnissuableInstructionsStop :
    (spaith (.nop (.core 0 0 0) 0) = some (.core 0 0 0, 0x01, 0) ∧ live ready (ready.hasUnit (.core 0 0 0)) ∧ unitReady ready (.core 0 0 0) = false) ∧
    (let s := at_ 0 0x60 0
     live s (s.hasUnit (.core 0 0 0)) ∧ s.k.canIssue 0 0 0 = true ∧ s.k.quiet 0 0 0 = true ∧ unitFetch s (.core 0 0 0) 0x60 0 = .ok ∧
       classOkCore 0x60 0 = false) ∧
    (let s := withCore { coreOn 0 0x01 0 with streams := [{ running with seq := Sequencer.start 8192 }] }
     unitFetch s (.core 0 0 0) 0x01 0 = .pcRange ∧ s.k.canIssue 0 0 0 = true) ∧
    (unitFetch (withCore { coreOn 0 0x01 0 with pstoreBad := [(0, true)] }) (.core 0 0 0) 0x01 0 = .check) ∧
    (unitFetch (at_ 0 0x00 0) (.core 0 0 0) 0x01 0 = .illegal ∧ unitFetch (at_ 0 0x01 0) (.core 0 0 0) 0x02 0 = .other) ∧
    (let s := buAt 0x60 0 []
     live s (s.hasUnit (.bank 0 0 0)) ∧ unitReady s (.bank 0 0 0) = true ∧ unitFetch s (.bank 0 0 0) 0x60 0 = .ok ∧ classOkBank 0x60 = false) ∧
    unitFetch (withBu { buOn 0x01 0 with seq := Sequencer.start 512 }) (.bank 0 0 0) 0x01 0 = .pcRange ∧
    unitFetch (withBu { buOn 0x01 0 with pstoreBad := [(0, true)] }) (.bank 0 0 0) 0x01 0 = .check ∧
    unitFetch (buAt 0x00 0 []) (.bank 0 0 0) 0x01 0 = .illegal := by
  unfold live; dsimp only; (repeat' apply And.intro) <;> decide

/-- R330, Table 6.8: PASS on the control stream is ILLEGAL_INSTR, cause 0x50, in CORE_FAULT with its stream and VALID. -/
theorem test_wrong_class : got (exec (.pass (.core 0 0 0) 0) (at_ 0 0x60 0)) (fun t => (t.k.getF (Reg.coreFault 0 0) 7 0,
    t.k.flag (Reg.coreFault 0 0) 31, (t.k.stream 0 0 0).run)) = some (0x50, true, .fault) := by decide

theorem witness_FirstFaultRecordIsKept :
    let k := (at_ 4 0x01 0).k
    4 < (k.core 0 0).streams.length ∧ (Sequencer.start 8191).pc < 8192 ∧ k.flag (Reg.coreFault 0 0) 31 = false ∧
      (k.coreFault 0 0 4 0x50 (Sequencer.start 8191)).flag (Reg.coreFault 0 0) 31 = true := by decide

/-- R313: the second fault leaves the record and sets OVERRUN. -/
theorem test_second_fault : let k := ((at_ 4 0x01 0).k.coreFault 0 0 4 0x50 (Sequencer.start 7)).coreFault 0 0 3 0x52 (Sequencer.start 9)
    (k.getF (Reg.coreFault 0 0) 7 0, k.getF (Reg.coreFault 0 0) 10 8, k.flag (Reg.coreFault 0 0) 30) = (0x50, 4, true) := by decide

/-- Levels: one that ends elsewhere, one with an iteration left, one whose last iteration ends. -/
theorem witness_LoopsCloseFromTheInside :
    let l : LoopLevel := { count := 2, forever := false, li := 0, first := 1, last := 3 }
    let q : Sequencer := { Sequencer.start 3 with loops := [l] }
    (Sequencer.start 3).loops = [] ∧ q.loops = [] ++ [l] ∧ l.last = q.pc ∧ l.li + 1 < l.count ∧
      ({ l with last := 4 } : LoopLevel).last ≠ q.pc ∧ ({ l with li := 1 } : LoopLevel).count ≤ 1 + 1 ∧
        ({ l with forever := true } : LoopLevel).forever = true := by
  decide

/-- Form L (Table 7.4): CNT in bits 55:48, FOREVER 47, BODY_M1 43:32. -/
def loopOps (cnt body : Nat) : BitVec 56 := BitVec.ofNat 56 (cnt * 2 ^ 48 + body * 2 ^ 32)

/-- Form C: TARGET in bits 52:40, ID in 39:38, MASK in 36:32. -/
def callOps (target : Nat) : BitVec 56 := BitVec.ofNat 56 (target * 2 ^ 40)

/-- Form A: K in bits 55:53, LEVEL in 51:50, SRC 49, A in 47:40, IMM32 in 31:0. -/
def aiOps (k level src a imm : Nat) : BitVec 56 := BitVec.ofNat 56 (k * 2 ^ 53 + level * 2 ^ 50 + src * 2 ^ 49 + a * 2 ^ 40 + imm)

/-- The flow instruction went to another address, or on to the next. -/
def goes (r : SeqRes) : Bool := match r with | .goto _ => true | _ => false
def steps (r : SeqRes) : Bool := match r with | .advance _ => true | _ => false

/-- The library has entries 1 and 2 at the addresses a LIBPATCH gave them. -/
def withLib (s : State) : State := { s with k := s.k.onHub (fun h => { h with libT := [(1, 100), (0xFE, 8191)], libB := [(7, 511)] }) }

theorem witness_FlowOnAStream :
    coreAt (at_ 4 0x01 0) 0 0 4 0x01 0 ∧ coreAt (at_ 0 0x02 0) 0 0 0 0x02 0 ∧
    (let s := atWith 0 0x03 (loopOps 1 4095) [0, 0xFFFFFFFF]
     let k := entered s.k 0 0 0
     coreAt s 0 0 0 0x03 (loopOps 1 4095) ∧ reservedZero (loopOps 1 4095) useL = true ∧ (lForm (loopOps 1 4095)).cnt < 0x20 ∧
       steps ((k.stream 0 0 0).seq.loop false (lForm (loopOps 1 4095)) (k.endValue 0 0 0 1).toNat) = true) ∧
    (let s := at_ 0 0x03 (loopOps 0 0)
     let k := entered s.k 0 0 0
     coreAt s 0 0 0 0x03 (loopOps 0 0) ∧ goes ((k.stream 0 0 0).seq.loop false (lForm (loopOps 0 0)) (k.endValue 0 0 0 0).toNat) = true) ∧
    (coreAt (at_ 0 0x04 (callOps 8191)) 0 0 0 0x04 (callOps 8191) ∧ reservedZero (callOps 8191) useTarget = true ∧
      goes ((Sequencer.start 0).call false false 8191 none) = true) ∧
    (let s := withLib (at_ 0 0x05 (callOps 0xFE))
     coreAt s 0 0 0 0x05 (callOps 0xFE) ∧ reservedZero (callOps 0xFE) (0xFF * 2 ^ 40) = true ∧ goes ((Sequencer.start 0).callR s.k false 0xFE) = true) ∧
    (let s := withLib (at_ 0 0x06 (callOps 0xFE))
     coreAt s 0 0 0 0x06 (callOps 0xFE) ∧ goes ((Sequencer.start 0).ljmp s.k false 0xFE) = true) ∧
    (let o := aiOps 7 0 0 0 0xFFFFFFFF
     coreAt (at_ 1 0x09 o) 0 0 1 0x09 o ∧ reservedZero o useAiset = true ∧ (aForm o).src = false ∧ (aForm o).a = 0) ∧
    (let o := aiOps 7 3 0 0 0xFFFFFFFF
     coreAt (at_ 1 0x0A o) 0 0 1 0x0A o ∧ reservedZero o useAistep = true) ∧
    (let o := aiOps 7 0 1 31 0
     let s := at_ 1 0x09 o
     let k := entered s.k 0 0 1
     coreAt s 0 0 1 0x09 o ∧ (aForm o).src = true ∧ (aForm o).imm = 0 ∧ k.popOk 0 0 1 31 = true ∧ popped (k.popEnd 0 0 1 31) (fun _ _ => true) = true) := by
  unfold coreAt; dsimp only; (repeat' apply And.intro) <;> decide

/-- A part whose patch RAMs hold a word each: of the T profile at 7680, of the B profile at 3840. -/
def patched (s : State) (t b : Word) : State := { s with k := s.k.onHub (fun h => { h with patchT := [(7680, t)], patchB := [(3840, b)] }) }

/-- SKIP_Z issues in the library space alone (R332). -/
theorem witness_FlowOnAStream_skip :
    let lib : Stream := { running with seq := { Sequencer.start 7680 with lib := true } }
    let x := withHoops (headAt { Core.reset with streams := [Stream.idle, lib] } 1 [entryOf 0])
    let s (o : BitVec 56) : State := patched x (wordOf 0x0B o) 0
    coreAt (s (q 0 0x3C 0 0)) 0 0 1 0x0B (q 0 0x3C 0 0) ∧ (x.k.stream 0 0 1).seq.lib = true ∧ reservedZero (q 0 0x3C 0 0) useA = true ∧
      coreAt (s (q 0 0x41 0 0)) 0 0 1 0x0B (q 0 0x41 0 0) ∧ (entered (s (q 0 0x41 0 0)).k 0 0 1).popOk 0 0 1 0x41 = true ∧
      popped ((entered (s (q 0 0x41 0 0)).k 0 0 1).popEnd 0 0 1 0x41) (fun w _ => w = 0) = true := by
  unfold coreAt; dsimp only; (repeat' apply And.intro) <;> decide

/-- R344, R347: a loop of count 0 goes past its body: from address 0 with BODY_M1 1 to address 3. -/
theorem test_loop_of_zero : got (exec (.loop (.core 0 0 0) (loopOps 0 1)) (at_ 0 0x03 (loopOps 0 1))) (fun t => (t.k.stream 0 0 0).seq.pc) = some 3 := by
  decide

/-- R354, R355: AISET of −1 gives a base of all ones. -/
theorem test_aiset : got (exec (.aiset (.core 0 0 1) (aiOps 7 0 0 0 0xFFFFFFFF)) (at_ 1 0x09 (aiOps 7 0 0 0 0xFFFFFFFF)))
    (fun t => ((t.k.stream 0 0 1).seq.ais.getD 7 AiReg.zero).base) = some 0xFFFFFFFFFFFFFFFF := by decide

/-- A sequencer with a frame to pop, and one without, on a stream and on a bank unit; a call that goes, at the last depth of each. -/
theorem witness_RetUndoesTheCallOrHalts :
    (let q1 : Sequencer := { Sequencer.start 0 with frames := [{ lib := false, pc := 8190, loops := [], ais := [], routine := none }] }
     let s := withCore { coreOn 3 0x07 0 with streams := (List.replicate 5 Stream.idle).set 3 { running with seq := q1 } }
     coreAt s 0 0 3 0x07 0 ∧ (s.k.stream 0 0 3).seq.routine = none ∧ (s.k.stream 0 0 3).seq.ret.isSome = true) ∧
    (coreAt (at_ 0 0x07 0) 0 0 0 0x07 0 ∧ ((at_ 0 0x07 0).k.stream 0 0 0).seq.frames = []) ∧
    (bankAt (buAt 0x07 0 []) 0 0 0 0x07 0 ∧ ((buAt 0x07 0 []).k.bu 0 0 0).seq.frames = []) ∧
    (let f : Frame := { lib := false, pc := 1, loops := [], ais := [], routine := none }
     goes (({ Sequencer.start 0 with frames := [f, f, f] } : Sequencer).call false true 8191 none) = true ∧
     goes (({ Sequencer.start 0 with frames := [f] } : Sequencer).call true false 511 none) = true ∧
     goes (({ Sequencer.start 0 with frames := [f, f] } : Sequencer).call true false 511 none) = false) := by
  unfold coreAt bankAt; dsimp only; (repeat' apply And.intro) <;> decide

theorem witness_FlowOnABankUnit :
    bankAt (buAt 0x01 0 []) 0 0 0 0x01 0 ∧ bankAt (buAt 0x02 0 []) 0 0 0 0x02 0 ∧
    (let o := loopOps 15 510
     let s := buAt 0x03 o [0, 0, 0, 0, 0, 0, 0, 0, 0, 0, 0, 0, 0, 0, 0, 1]
     let u := (enteredBank s.k 0 0 0).bu 0 0 0
     bankAt s 0 0 0 0x03 o ∧ reservedZero o useL = true ∧ (lForm o).cnt < 0x10 ∧ (lForm o).forever = false ∧
       steps (u.seq.loop true (lForm o) (u.endValue 15).toNat) = true) ∧
    (bankAt (buAt 0x03 (loopOps 0 0) []) 0 0 0 0x03 (loopOps 0 0) ∧ goes ((Sequencer.start 0).loop true (lForm (loopOps 0 0)) 0) = true) ∧
    (bankAt (buAt 0x04 (callOps 511) []) 0 0 0 0x04 (callOps 511) ∧ cTarget (callOps 511) < 512 ∧
      goes ((Sequencer.start 0).call true false 511 none) = true) ∧
    (let s := withLib (buAt 0x05 (callOps 7) [])
     bankAt s 0 0 0 0x05 (callOps 7) ∧ goes ((Sequencer.start 0).callR s.k true 7) = true ∧ goes ((Sequencer.start 0).ljmp s.k true 7) = true) ∧
    bankAt (withLib (buAt 0x06 (callOps 7) [])) 0 0 0 0x06 (callOps 7) ∧
    (let o := aiOps 0 0 1 15 0
     bankAt (buAt 0x09 o []) 0 0 0 0x09 o ∧ reservedZero o useAiset = true ∧ (aForm o).src = true ∧ bankPopOk (aForm o).a = true ∧ (aForm o).imm = 0) ∧
    (let o := aiOps 7 3 0 0 0xFFFFFFFF
     bankAt (buAt 0x0A o []) 0 0 0 0x0A o ∧ reservedZero o useAistep = true) ∧
    (let s := patched (withBu { Bu.reset with run := .run, seq := { Sequencer.start 3840 with lib := true } }) 0 (wordOf 0x0B (q 0 15 0 0))
     bankAt s 0 0 0 0x0B (q 0 15 0 0) ∧ ((enteredBank s.k 0 0 0).bu 0 0 0).seq.lib = true ∧ bankPopOk 15 = true) := by
  unfold bankAt; dsimp only; (repeat' apply And.intro) <;> decide

/-- R338: a bank unit's HALT leaves its program to end DONE. -/
theorem test_bank_halt : got (exec (.halt (.bank 0 0 0) 0) (buAt 0x02 0 [])) (fun t => (t.k.bu 0 0 0).ending) = some (some .done) := by decide

/-! ### Scalar instructions -/

/-- A width, and each function at a stream and at a bank unit: register ends at the ends of their ranges, and a hoop that gives both operands. -/
theorem witness_ScalarArithmeticWraps :
    1 < 32 ∧
    (let o := q 0x1F 0x1E 0x3C 0xFFFFFF
     let s := atWith 0 0x23 o []
     let k := entered s.k 0 0 0
     coreAt s 0 0 0 (scalarOpcode .add) o ∧ reservedZero o (useD + useA + useB + useI) = true ∧ k.popOk 0 0 0 0x1E = true ∧ k.popOk 0 0 0 0x3C = true ∧
       k.pushOk 0 0 0 0x1F = true ∧ k.pushReady 0 0 0 0x1F = true ∧ k.supplies 0 0 0 0x3C 1 = true ∧
       popped (k.popEnd 0 0 0 0x1E) (fun _ k1 => popped (k1.popEnd 0 0 0 0x3C) (fun _ _ => true)) = true) ∧
    (let o := q 0x40 0x41 0x41 0
     let s := withHoops (headAt (coreOn 0 0x2F o) 1 [entryOf 3, entryOf 4])
     let k := entered s.k 0 0 0
     coreAt s 0 0 0 (scalarOpcode .seq) o ∧ k.pushOk 0 0 0 0x40 = true ∧ k.pushReady 0 0 0 0x40 = true ∧ k.supplies 0 0 0 0x41 2 = true ∧
       popped (k.popEnd 0 0 0 0x41) (fun _ k1 => popped (k1.popEnd 0 0 0 0x41) (fun w _ => w = 4)) = true) ∧
    (let o := q 15 14 0x3C 0x800000
     bankAt (buAt 0x2D o []) 0 0 0 (scalarOpcode .max) o ∧ bankPopOk 14 = true ∧ bankPopOk 0x3C = true ∧ bankPushOk 15 = true) := by
  unfold coreAt bankAt; dsimp only; (repeat' apply And.intro) <;> decide

/-- Table 8.1, R378: S3 takes S1 + S2 + 5 = 7 + 9 + 5; on a bank unit sums wrap at 32 bits: 0xFFFFFFFF + 2. -/
theorem test_add : got (exec (.add (.core 0 0 0) (q 3 1 2 5)) (atWith 0 0x23 (q 3 1 2 5) [0, 7, 9])) (fun t => (t.k.core 0 0).sregs.getD 3 0) = some 21 := by
  decide
theorem test_bank_add_wraps : got (exec (.add (.bank 0 0 0) (q 3 1 2 0)) (buAt 0x23 (q 3 1 2 0) [0, 0xFFFFFFFF, 2]))
    (fun t => (t.k.bu 0 0 0).sregs.getD 3 0) = some 1 := by decide

/-- Table 8.1: SLT compares two's-complement values (−1 < 1); SAR keeps the sign; SHL takes its amount modulo the width (33 is 1 on a bank unit). -/
theorem test_slt_signed : (ScalarFn.slt.eval (0xFFFFFFFF : Lane) 1, ScalarFn.slt.eval (1 : Lane) 0xFFFFFFFF) = (1, 0) := by decide
theorem test_shifts : (ScalarFn.sar.eval (0x80000000 : Lane) 4, ScalarFn.shl.eval (1 : Lane) 33, ScalarFn.shr.eval (0x80000000 : Lane) 31) = (0xF8000000, 2, 1) := by
  decide

theorem witness_MovesLoadsAndStores :
    (let o := q 0x1F 0x3C 0 0x7FFFFF
     let s := at_ 0 0x20 o
     let k := entered s.k 0 0 0
     coreAt s 0 0 0 0x20 o ∧ reservedZero o (useD + useA + useI) = true ∧ k.popOk 0 0 0 0x3C = true ∧ k.pushOk 0 0 0 0x1F = true ∧
       k.pushReady 0 0 0 0x1F = true ∧ popped (k.popEnd 0 0 0 0x3C) (fun _ _ => true) = true ∧ coreAt (at_ 0 0x21 o) 0 0 0 0x21 o) ∧
    (coreAt (at_ 0 0x22 (q 0 0 0 0xFFFF)) 0 0 0 0x22 (q 0 0 0 0xFFFF) ∧ reservedZero (q 0 0 0 0xFFFF) (useD + useA + 0xFFFF) = true) ∧
    (let o := q 15 15 0 0xFFFFFF
     bankAt (buAt 0x20 o []) 0 0 0 0x20 o ∧ bankAt (buAt 0x21 o []) 0 0 0 0x21 o ∧ bankPopOk 15 = true ∧ bankPushOk 15 = true) ∧
    (let o := q 0 0x3C 0 0x3FFFF8
     let s := at_ 0 0x30 o
     coreAt s 0 0 0 0x30 o ∧ reservedZero o (useD + useA + useX + useI) = true ∧ (s.k.core 0 0).ocCheck 0x3FFFF8 8 8 true = none) ∧
    (let o := q 0 0x3C 0 4
     let s := at_ 0 0x30 o
     coreAt s 0 0 0 0x30 o ∧ (s.k.core 0 0).ocCheck 4 8 8 true = some .ocAlign ∧ s.k.quiet 0 0 0 = true) ∧
    (let o := q 0x3C 0 31 0x3FFFF8
     let s := at_ 0 0x31 o
     coreAt s 0 0 0 0x31 o ∧ reservedZero o (useD + useA + useB + useX + useI) = true ∧ s.k.supplies 0 0 0 31 1 = true ∧
       (s.k.core 0 0).ocCheck 0x3FFFF8 8 8 false = none) ∧
    (let u := ((buAt 0x30 (q 1 0x3C 0 0) []).k.bu 0 0 0)
     bankAt (buAt 0x30 (q 1 0x3C 0 0) []) 0 0 0 0x30 (q 1 0x3C 0 0) ∧
     (match u.read 0 4 4 with | .ok bs => bs = [0, 0, 0, 0] | _ => false) = true ∧ (match u.read 2 4 4 with | .fault .align => true | _ => false) = true ∧
     (match u.write 0 4 [1, 2, 3, 4] with | .ok _ => true | _ => false) = true) ∧
    (let o := q 0x3C 0x3C 2 4
     bankAt (buAt 0x31 o []) 0 0 0 0x31 o ∧ reservedZero o (useD + useA + useB + useX + useI) = true) := by
  unfold coreAt bankAt; dsimp only; (repeat' apply And.intro) <;> decide

/-- Table 8.1: LUI shifts its immediate left by 24, LUI2 its low 16 bits by 48; ST then LD of eight bytes, least significant byte first (R379). -/
theorem test_lui : got (exec (.lui (.core 0 0 0) (q 2 1 0 0x800000)) (atWith 0 0x21 (q 2 1 0 0x800000) [0, 1])) (fun t => (t.k.core 0 0).sregs.getD 2 0)
    = some 0x800000000001 := by decide
theorem test_lui2 : got (exec (.lui2 (.core 0 0 0) (q 2 1 0 0x8001)) (atWith 0 0x22 (q 2 1 0 0x8001) [0, 1])) (fun t => (t.k.core 0 0).sregs.getD 2 0)
    = some 0x8001000000000001 := by decide
theorem test_st : got (exec (.st (.core 0 0 0) (q 0x3C 0x3C 1 8)) (atWith 0 0x31 (q 0x3C 0x3C 1 8) [0, 0x0102030405060708]))
    (fun t => (t.k.core 0 0).ocBytes 8 8) = some [8, 7, 6, 5, 4, 3, 2, 1] := by decide

/-- A cache in its form, an address at its end, a word marked uncorrectable. -/
theorem witness_OperandCacheReadsBack :
    let x := { Core.reset with oc := [(0x3FFFFF, 9)], ocMarks := [(0x7FFFF, 1)] }
    canonical 0 x.oc = true ∧ canonical 0 x.ocMarks = true ∧ 0x3FFFF8 % 8 = 0 ∧ 0x3FFFF8 + 8 ≤ 2 ^ 22 ∧ (x.ocBad 0x3FFFF8 8).isSome = true ∧
      2 ^ 22 < 0x3FFFF8 + 9 ∧ 0x3FFFF4 % 8 ≠ 0 := by decide

theorem witness_PopsGiveTheEndOrStop :
    (let k := (withHoops (headAt (coreOn 0 0x20 0) 1 [entryOf 3, { entryOf 4 with poison := true }])).k
     (0x1F < 0x20 ∧ 0x37 = 0x30 + 7 ∧ 0x3B = 0x38 + 3) ∧ k.headOf 0 0 0 = [] ∧ k.headOf 0 0 16 = [] ∧ 16 ≤ 16 ∧
       (k.headOf 0 0 1).map (·.poison) = [false, true] ∧ ((k.popEntry 0 0 0 1).headOf 0 0 1).map (·.poison) = [true]) ∧
    (let o := q 0 0x40 0 0
     let s := withHoops (coreOn 0 0x20 o)
     let k := entered s.k 0 0 0
     coreAt s 0 0 0 0x20 o ∧ reservedZero o (useD + useA + useI) = true ∧ k.popOk 0 0 0 0x40 = true ∧ k.pushOk 0 0 0 0 = true ∧
       k.pushReady 0 0 0 0 = true ∧ (match k.popEnd 0 0 0 0x40 with | .stall 2 0 => true | _ => false) = true) ∧
    (let o := q 0 0x40 0 0
     let s := withHoops (headAt (coreOn 0 0x20 o) 0 [{ entryOf 4 with poison := true }])
     coreAt s 0 0 0 0x20 o ∧ s.k.quiet 0 0 0 = true ∧ (match (entered s.k 0 0 0).popEnd 0 0 0 0x40 with | .poison _ => true | _ => false) = true) := by
  unfold coreAt; dsimp only; (repeat' apply And.intro) <;> decide

/-- R322: a pop of an empty hoop issues nothing; R431: a poisoned entry faults with 0x63. -/
theorem test_pop_poisoned : got (exec (.mov (.core 0 0 0) (q 0 0x40 0 0))
    (withHoops (headAt (coreOn 0 0x20 (q 0 0x40 0 0)) 0 [{ entryOf 4 with poison := true }])))
    (fun t => (t.k.getF (Reg.coreFault 0 0) 7 0, ((t.k.headOf 0 0 0).length))) = some (0x63, 1) := by decide
/-! ### Sync objects, hoops and barriers -/

/-- SIGNAL from a register, WAIT on the last object, POLL to a register and to a hoop, BAR of every stream, HBAR by an enrolled control stream. -/
theorem witness_SyncInstructionsIssue :
    (let o := q 0 0x1F 0 47
     let s := at_ 4 0xC0 o
     coreAt s 0 0 4 0xC0 o ∧ reservedZero o (useA + 0x3FFFFF) = true ∧ (qForm o).obj < 48 ∧ scalarEnd 0x1F = true ∧ s.k.popOk 0 0 4 0x1F = true) ∧
    (let o := q 0 0 0 47
     coreAt (at_ 1 0xC1 o) 0 0 1 0xC1 o ∧ reservedZero o useI = true ∧ (qForm o).obj < 48 ∧ (qForm o).cond < 3) ∧
    (let o := q 0x1F 0 0 47
     let s := at_ 0 0xC2 o
     coreAt s 0 0 0 0xC2 o ∧ reservedZero o (useD + 0x3F) = true ∧ scalarEnd 0x1F = true ∧ s.k.pushOk 0 0 0 0x1F = true ∧ s.k.quiet 0 0 0 = true) ∧
    (let o := q 0x40 0 0 0
     let s := withHoops (coreOn 2 0xC2 o)
     coreAt s 0 0 2 0xC2 o ∧ hoopEnd 0x40 = true ∧ s.k.pushOk 0 0 2 0x40 = true ∧ s.k.pushQuiet 0 0 2 0 = true) ∧
    (let o : BitVec 56 := BitVec.ofNat 56 (3 * 2 ^ 38 + 0x1F * 2 ^ 32)
     let s := at_ 4 0x08 o
     coreAt s 0 0 4 0x08 o ∧ reservedZero o (3 * 2 ^ 38 + 0x1F * 2 ^ 32) = true ∧ (cMask o).testBit 4 = true ∧ (s.k.stream 0 0 4).inflight = [] ∧
       (s.k.core 0 0).streams.all (fun x => x.hold = none) = true) ∧
    (let o := q 0 0 0 15
     let s := withCore { coreOn 0 0x47 o with enrolled := 0x8000 }
     coreAt s 0 0 0 0x47 o ∧ reservedZero o 0xF = true ∧ s.k.quiet 0 0 0 = true ∧ (s.k.core 0 0).enrolled.testBit 15 = true) := by
  unfold coreAt; dsimp only; (repeat' apply And.intro) <;> decide

/-- A plain watch and a consuming one, on an object that does not satisfy them, and a stream that waits on nothing. -/
theorem witness_NoSatisfiedWatchIsLeft :
    let w (c : Nat) : Watch := { obj := 0, cond := c, threshold := 2 }
    let x := { Core.reset with
      sync := [(0, 1)], streams := [Stream.idle, Stream.idle, Stream.idle, { running with hold := some (.watch (w 0)) }, { running with hold := some (.watch (w 2)) }] }
    x.streams.length ≤ 5 ∧ canonical 0 x.sync = true ∧ (x.evaluate.stream 3).hold = some (.watch (w 0)) ∧ (w 0).cond ≠ 2 ∧
      (x.evaluate.stream 4).hold = some (.watch (w 2)) ∧ (x.stream 0).hold = none := by decide

/-- R440, Table 9.4: a watch on a value of at least 1 goes on once the object holds 1. -/
theorem test_watch_fires :
    let w : Watch := { obj := 2, cond := 0, threshold := 1 }
    let x := { Core.reset with sync := [(2, 1)], streams := (List.replicate 5 Stream.idle).set 3 { running with hold := some (.watch w) } }
    (x.evaluate.stream 3).hold = none := by decide

/-- Sums below zero, above 65,535, and at both ends of the range; one stream signals, and two. -/
theorem witness_SignalsApply :
    let f : InFlight := .signal 0 (-1) (Sequencer.start 0)
    let x := { Core.reset with sync := [(0, 65535)], streams := [{ running with inflight := [f] }, { running with inflight := [f] }] }
    let s := withCore x
    canonical 0 (s.k.core 0 0).sync = true ∧ canonical none (s.k.core 0 0).syncLast = true ∧ (s.k.core 0 0).object 0 = 65535 ∧
      (s.k.core 0 0).object 47 + (-1 : Int) < 0 ∧ (65535 : Int) < (s.k.core 0 0).object 0 + (1 : Int) ∧
      liveOn s (s.hasCore 0 0) 0 ∧ (s.k.stream 0 0 0).oldest = some f ∧ (s.k.stream 0 0 0).inflight = f :: [] ∧ 0 < (s.k.core 0 0).streams.length ∧
      (∀ j, j < 5 → (16 : BitVec 5).toNat.testBit j = decide (j = 4)) ∧ (∀ m, m < 5 → (3 : BitVec 5).toNat.testBit m = decide (m = 0 ∨ m = 1)) := by
  unfold liveOn live; dsimp only; (repeat' apply And.intro) <;> decide

/-- Table 6.8: a signal that takes an object below zero is cause 0x60. -/
theorem test_signal_underflow : got (exec (.signalApplied 0 0 1) (withCore { Core.reset with streams := [{ running with inflight := [.signal 0 (-1) (Sequencer.start 0)] }] }))
    (fun t => t.k.getF (Reg.coreFault 0 0) 7 0) = some 0x60 := by decide

theorem witness_HoopInstructionsIssue :
    (let o := q 0x40 0x41 0 1
     let s := withHoops (headAt (coreOn 1 0xC3 o) 1 [entryOf 3])
     let k := entered s.k 0 0 1
     coreAt s 0 0 1 0xC3 o ∧ reservedZero o (useD + useA + 1) = true ∧ hoopEnd 0x41 = true ∧ hoopEnd 0x40 = true ∧ k.popOk 0 0 1 0x41 = true ∧
       k.pushOk 0 0 1 0x40 = true ∧ k.pushQuiet 0 0 1 0 = true ∧ k.headFor 0 0 1 (slotOf 0x41) = [entryOf 3]) ∧
    (let o := q 0x40 0x1F 0 1
     let s := withHoops (coreOn 0 0xC4 o)
     coreAt s 0 0 0 0xC4 o ∧ (entered s.k 0 0 0).pushQuiet 0 0 0 0 = true ∧ popped ((entered s.k 0 0 0).popEnd 0 0 0 0x1F) (fun _ _ => true) = true) ∧
    (let o := q 0x1F 0x41 0 0
     let s := withHoops (headAt (coreOn 0 0xC5 o) 1 [entryOf 3])
     coreAt s 0 0 0 0xC5 o ∧ reservedZero o (useD + useA) = true ∧ (entered s.k 0 0 0).pushOk 0 0 0 0x1F = true ∧
       popped ((entered s.k 0 0 0).popEnd 0 0 0 0x41) (fun w _ => w = 3) = true) ∧
    (let o := q 0x41 0 0 0
     let s := withHoops (coreOn 3 0xC6 o)
     coreAt s 0 0 3 0xC6 o ∧ reservedZero o useD = true ∧ hoopEnd 0x41 = true ∧ s.k.pushOk 0 0 3 0x41 = true ∧ s.k.quiet 0 0 3 = true ∧
       (entered s.k 0 0 3).fenceReady 0 0 3 1 = true) ∧
    (let o := q 0x41 0 0 0
     let s := withHoops ((coreOn 3 0xC6 o).setHoop 1 { Hoop.empty with openBy := some 0, tail := [entryOf 1] })
     coreAt s 0 0 3 0xC6 o ∧ (entered s.k 0 0 3).fenceReady 0 0 3 1 = false) ∧
    (let o := q 0 0 0 1
     let s := withHoops (coreOn 2 0xC7 o)
     let k := entered s.k 0 0 2
     coreAt s 0 0 2 0xC7 o ∧ reservedZero o 0xF = true ∧ (k.hoopCfg 0 0 1).route ≠ 0 ∧
       (k.hoop (k.tailSlot 0 0 1).1 (k.tailSlot 0 0 1).2.1 (k.tailSlot 0 0 1).2.2).openBy = none) ∧
    (let o := q 0 0 0 1
     let s := withHoops ((coreOn 2 0xC7 o).setHoop 1 { Hoop.empty with openBy := some 0, tail := [entryOf 1] })
     let k := entered s.k 0 0 2
     coreAt s 0 0 2 0xC7 o ∧ (k.hoop (k.tailSlot 0 0 1).1 (k.tailSlot 0 0 1).2.1 (k.tailSlot 0 0 1).2.2).openBy.isSome = true) := by
  unfold coreAt; dsimp only; (repeat' apply And.intro) <;> decide

/-- R390: an entry moved whole from slot 1 to slot 0, CONT 1 leaving its packet open. -/
theorem test_hmov : got (exec (.hmov (.core 0 0 1) (q 0x40 0x41 0 1)) (withHoops (headAt (coreOn 1 0xC3 (q 0x40 0x41 0 1)) 1 [entryOf 3])))
    (fun t => ((t.k.hoop 0 0 1).head.length, (t.k.hoop 0 0 0).openBy)) = some (0, some 1) := by decide

/-- A live core; a waiting push that nothing holds, a waiting fence; sixteen entries on their way into the middle, and a group to be read back; slot 0
of core 0 joined to slot 1 of core 1, which holds an entry. -/
theorem witness_HoopEventsMoveEntriesInOrder :
    (let f : InFlight := .push 0 (entryOf 1) 0
     let s := withHoops { Core.reset with streams := [{ running with inflight := [f] }, { running with inflight := [.fence 0 0] }] }
     liveOn s (s.hasCore 0 0) 0 ∧ (s.k.stream 0 0 0).oldest = some f ∧ s.k.pushHold 0 0 0 0 = none ∧ (s.k.stream 0 0 1).oldest = some (.fence 0 0) ∧
       s.k.fenceReady 0 0 1 0 = true ∧ 0 < (s.k.core 0 0).hoops.length ∧ s.k.hoopFlushing 0 0 0 = false) ∧
    (let x := Core.reset.setHoop 0 { Hoop.empty with
       going := List.replicate 16 (entryOf 7), groups := [{ slot := 3, ends := [{ last := true, fence := false, poison := true }] }] }
     let s := onChip (((readyChip.setReg (Reg.hoopCfg 0 0 0) ((1 <<< 30) + 2)).setReg (Reg.hoopSpillBase 0 0 0) 0x400).setCore 0 0 x)
     liveOn s (s.hasCore 0 0) 0 ∧ (s.k.hoop 0 0 0).going ≠ [] ∧ (s.k.hoop 0 0 0).groups.length < (s.k.hoopCfg 0 0 0).spill ∧
       s.k.middleTurn 0 0x400 = true ∧ 0 < (s.k.core 0 0).hoops.length ∧ (s.k.hoop 0 0 0).back = [] ∧ s.k.middleTurn 0 (0x400 + 1024 * 3) = true ∧
       (0x400 + 1024 * 3) % 32 = 0) ∧
    (let s := onChip ((readyChip.setReg (Reg.hoopCfg 0 0 0) ((3 <<< 30) + (1 <<< 24) + (1 <<< 20))).setCore 0 1 (Core.reset.setHoop 1 { Hoop.empty with tail := [entryOf 7] }))
     let g := s.k.hoopCfg 0 0 0
     g.route = 3 ∧ g.hub = false ∧ (coreKey g.vat g.core, g.slot) ≠ (coreKey 0 0, 0) ∧ 0 < (s.k.core 0 0).hoops.length ∧
       g.slot < (s.k.core g.vat g.core).hoops.length ∧ (s.k.hoop g.vat g.core g.slot).tail = entryOf 7 :: [] ∧ (s.k.hoop 0 0 0).going = [] ∧
       (s.k.hoop 0 0 0).groups = [] ∧ (s.k.hoop 0 0 0).back = [] ∧ (s.k.hoop 0 0 0).head.length < 8) := by
  unfold liveOn live; dsimp only; (repeat' apply And.intro) <;> decide
/-! ### The press, the vector engine and the DMA engines -/

/-- A core whose operand cache begins with 64-bit words. -/
def ocWords (x : Core) (ws : List Nat) : Core := x.ocWrite 0 (ws.flatMap (leBytes 8)) false

/-- Table 8.9: a pass of one row of one block with CLEAR, activations at 0x1000, weights at 0x2000, their scales at 0x1800 and 0x8000. -/
def passWords : List Nat := [0x1000 + 0x1800 * 2 ^ 38, 2 ^ 12 + 2 ^ 27 + 0x2000 * 2 ^ 32 + 2 ^ 60, 0x8000, 0]

/-- Table 8.11: one vector copied from vector register 1 to vector register 2. -/
def chainWords : List Nat := [1, 2 + 4 + 1 * 2 ^ 16, 0, 2 * 2 ^ 24, 0, 0, 0, 0]

/-- Table 3.2: eight bytes of the operand cache in one dimension, of format RAW8 (code 3), from `base`. -/
def rawDesc (base : Nat) : List Nat := [base + 3 * 2 ^ 40 + 2 ^ 45 + 2 ^ 54, 0, 0, 0, 0, 0, 1 + 8 * 2 ^ 38, 8 * 2 ^ 32] ++ List.replicate 8 0

theorem witness_EngineInstructionsIssue :
    (let o := q 0x3C 0x3C 0x3C 0
     let s := withCore (ocWords (coreOn 1 0x60 o) passWords)
     let k := entered s.k 0 0 1
     coreAt s 0 0 1 0x60 o ∧ reservedZero o (useD + useA + useB + useX + useI) = true ∧ pressForm (qForm o) = true ∧ k.pressFull 0 0 = false ∧
       fetched (k.fetchRecord 0 0 1 (qForm o) 32) (fun bs k1 => (passOf bs).2 && decide ((k1.core 0 0).passFault (passOf bs).1 = none) &&
         ((k1.core 0 0).firstOcFault (passOf bs).1.reads true).isNone) = true) ∧
    (let o := q 0x3C 0 0x3C 0x3FF
     coreAt (at_ 1 0x61 o) 0 0 1 0x61 o ∧ reservedZero o (useD + useB + 0x3FF) = true ∧ pressForm (qForm o) = true ∧
       (entered (at_ 1 0x61 o).k 0 0 1).pressFull 0 0 = false) ∧
    (let o := q 0 0x3C 0 0
     let s := withCore (ocWords (coreOn 2 0x80 o) chainWords)
     let k := entered s.k 0 0 2
     coreAt s 0 0 2 0x80 o ∧ reservedZero o (useA + useX + useI) = true ∧ k.vectorFree 0 0 = true ∧
       fetched (k.fetchRecord 0 0 2 (qForm o) 64) (fun bs k1 => (chainOf bs).2 && k1.chainEndsOk 0 0 (chainOf bs).1 &&
         decide ((k1.core 0 0).chainFault (chainOf bs).1 = none) && ((k1.core 0 0).chainOcFault (chainOf bs).1).isNone) = true) ∧
    (let o := q 0 0x3C 0 0
     let s := withCore (ocWords (coreOn 2 0x81 o) [1 + 2 ^ 30, 0x1000, 0x2000, 0x3000])
     let k := entered s.k 0 0 2
     coreAt s 0 0 2 0x81 o ∧
       fetched (k.fetchRecord 0 0 2 (qForm o) 32) (fun bs k1 => let r := (smaxOf bs).1
         (smaxOf bs).2 && smaxLengthOk r.l && decide (r.kind = 1) && ((k1.core 0 0).smaxOcFault r).isNone) = true) ∧
    (let o := q 0x3D 0x3C 0 128
     let s := at_ 2 0x82 o
     coreAt s 0 0 2 0x82 o ∧ reservedZero o (useD + useA + useI) = true ∧ scalarEnd 0x3C = true ∧ s.k.popOk 0 0 2 0x3C = true ∧ s.k.vectorFree 0 0 = true ∧
       (s.k.endValue 0 0 2 0x3C + BitVec.ofInt 64 (qForm o).simm).toNat = 128 ∧ s.k.quiet 0 0 2 = true) ∧
    (let o := q 0x3D 0x3C 0 129
     coreAt (at_ 2 0x82 o) 0 0 2 0x82 o ∧ (at_ 2 0x82 o).k.quiet 0 0 2 = true ∧ 128 < ((0 : Word) + BitVec.ofInt 64 (qForm o).simm).toNat) ∧
    coreAt (at_ 2 0x82 (q 0x2F 0x3C 0 0xFFFFFF)) 0 0 2 0x82 (q 0x2F 0x3C 0 0xFFFFFF) ∧
    (let o := q 0x3D 0x3C 0 128
     let x := coreOn 2 0x82 o
     let s := withCore { x with streams := x.streams.set 2 { running with inflight := [.signal 0 1 (Sequencer.start 0)] } }
     coreAt s 0 0 2 0x82 o ∧ s.k.vectorFree 0 0 = true ∧ s.k.quiet 0 0 2 = false) ∧
    (coreAt (at_ 2 0x83 0) 0 0 2 0x83 0 ∧ (at_ 2 0x83 0).k.vectorFree 0 0 = true) ∧
    (let o := q 0x3C 0x3C 0x3C 0x1000
     let s := withCore (ocWords (coreOn 4 0xA0 o) (rawDesc 0x1000 ++ rawDesc 0x2000))
     let x := (entered s.k 0 0 4).core 0 0
     coreAt s 0 0 4 0xA0 o ∧ (qForm o).d = endZero ∧ (qForm o).a = endZero ∧ (qForm o).b = endZero ∧
       x.firstOcFault [(0, 128, 128), (128, 128, 128)] true = none ∧
       validateDescs (Desc.parse (x.ocBytes 0 128) 0) (Desc.parse (x.ocBytes 128 128) 0) = none) := by
  unfold coreAt; dsimp only; (repeat' apply And.intro) <;> decide

/-- R272: VSET of 129 to VL faults with VL_RANGE, cause 0x47 (Table 6.8). -/
theorem test_vset_range : got (exec (.vset (.core 0 0 2) (q 0x3D 0x3C 0 129)) (at_ 2 0x82 (q 0x3D 0x3C 0 129)))
    (fun t => t.k.getF (Reg.coreFault 0 0) 7 0) = some 0x47 := by decide

/-- A core with an engine instruction incomplete on stream `t`. -/
def doing (t : Nat) (f : InFlight) (x : Core) : State :=
  withCore { x with streams := (List.replicate 5 Stream.idle).set t { running with inflight := [f] } }

/-- A chain that pushes into slot 1, which is full, from vector register 1. -/
def stuckChain : ChainRec := { (chainOf (chainWords.flatMap (leBytes 8))).1 with kind := 3, loc := 1, count := 1 }

/-- A chain that has not begun. -/
def freshRun : ChainRun := { scalars := [], done := 0, got := [], out := [], since := 0 }

/-- A pass and a clear; a chain that ends, one whose source is poisoned, one that waits for room; a soft maximum; a transfer, and one that faults. -/
theorem witness_EnginesComplete :
    (let r := (passOf (passWords.flatMap (leBytes 8))).1
     let f : InFlight := .pass r (Sequencer.start 0)
     let s := doing 1 f Core.reset
     liveOn s (s.hasCore 0 0) 0 ∧ (s.k.stream 0 0 1).oldest = some f ∧ (s.k.core 0 0).firstOcFault r.reads true = none) ∧
    (let r := (passOf (passWords.flatMap (leBytes 8))).1
     let s := doing 1 (.pass r (Sequencer.start 0)) { Core.reset with ocMarks := [(0x200, 1)] }
     liveOn s (s.hasCore 0 0) 0 ∧ (((s.k.core 0 0).firstOcFault r.reads true).map (fun f => (f.1, f.2.1))) = some (.ocUncorrectable, 0x1000)) ∧
    ((doing 1 (.pclr 3 0x80) Core.reset).k.stream 0 0 1).oldest = some (.pclr 3 0x80) ∧
    (let r := (chainOf (chainWords.flatMap (leBytes 8))).1
     let s := doing 2 (.chain r freshRun (Sequencer.start 0)) Core.reset
     s.k.vectorTurn 0 0 = some (.chain r freshRun (Sequencer.start 0)) ∧ (s.k.core 0 0).chainOcFault r = none ∧
       (match s.k.chainRun 0 0 r freshRun with | .finished _ => true | _ => false) = true) ∧
    (let r := { (chainOf (chainWords.flatMap (leBytes 8))).1 with srcA := { (chainOf (chainWords.flatMap (leBytes 8))).1.srcA with kind := 3, loc := 1, fmt := 5 } }
     let x : Core := headAt { Core.reset with vl := 16 } 1 [{ entryOf 0 with poison := true }]
     let s := { doing 2 (.chain r freshRun (Sequencer.start 0)) x with k := (doing 2 (.chain r freshRun (Sequencer.start 0)) x).k.setReg (Reg.hoopCfg 0 0 1) (1 <<< 30) }
     s.k.vectorTurn 0 0 = some (.chain r freshRun (Sequencer.start 0)) ∧ (s.k.core 0 0).chainOcFault r = none ∧
       (match s.k.chainRun 0 0 r freshRun with | .poison _ => true | _ => false) = true) ∧
    (let x : Core := { Core.reset with vl := 16 }.setHoop 1 { Hoop.empty with openBy := some 4 }
     let f : InFlight := .chain stuckChain freshRun (Sequencer.start 0)
     let s := { doing 2 f x with k := (doing 2 f x).k.setReg (Reg.hoopCfg 0 0 1) (1 <<< 30) }
     s.k.vectorTurn 0 0 = some f ∧ (s.k.core 0 0).chainOcFault stuckChain = none ∧
       (match s.k.chainRun 0 0 stuckChain freshRun with | .going _ _ => true | _ => false) = true) ∧
    (let r := (smaxOf ([1 + 2 ^ 30, 0x1000, 0x2000, 0x3000].flatMap (leBytes 8))).1
     (doing 2 (.smax r (Sequencer.start 0)) Core.reset).k.vectorTurn 0 0 = some (.smax r (Sequencer.start 0)) ∧ Core.reset.smaxOcFault r = none) ∧
    (let src := Desc.parse ((rawDesc 0x1000).flatMap (leBytes 8)) 0
     let dst := Desc.parse ((rawDesc 0x2000).flatMap (leBytes 8)) 0
     let s := doing 4 (.xfer src dst 128 (Sequencer.start 0) DmaRows.none) Core.reset
     let r := s.k.pump { v := 0, c := 0, e := true.toNat }
     (s.k.transfer 0 0 1).isSome = true ∧ (r.1.transfer 0 0 1).isSome = true ∧ r.2.any (fun p => p.fault.isNone) = true ∧
       DmaRows.none.asked.length ≤ 64) ∧
    (let src := Desc.parse ((rawDesc 0x1000).flatMap (leBytes 8)) 0
     let dst := Desc.parse ((rawDesc 0x2000).flatMap (leBytes 8)) 0
     ((doing 4 (.xfer src dst 128 (Sequencer.start 0) { DmaRows.none with asked := [5] }) Core.reset).k.pump { v := 0, c := 0, e := 1 }).2.isNone = true) ∧
    (let src := Desc.parse ((rawDesc 0x3FFFF8).flatMap (leBytes 8)) 0
     let dst := Desc.parse ((rawDesc 0x400000).flatMap (leBytes 8)) 0
     let r := (doing 3 (.xfer src dst 128 (Sequencer.start 0) DmaRows.none) Core.reset).k.pump { v := 0, c := 0, e := 0 }
     (r.1.transfer 0 0 0).isSome = true ∧ r.2.any (fun p => p.fault.isSome) = true) := by
  unfold liveOn live; dsimp only; (repeat' apply And.intro) <;> decide

/-- R115: a transfer of eight bytes within the operand cache. -/
theorem test_xfer_copies :
    let src := Desc.parse ((rawDesc 0x1000).flatMap (leBytes 8)) 0
    let dst := Desc.parse ((rawDesc 0x2000).flatMap (leBytes 8)) 0
    got (exec (.dmaTransferComplete 0 0 true) (doing 4 (.xfer src dst 128 (Sequencer.start 0) DmaRows.none) (Core.reset.ocWrite 0x1000 [1, 2, 3, 4, 5, 6, 7, 8] false)))
      (fun t => (t.k.core 0 0).ocBytes 0x2000 8) = some [1, 2, 3, 4, 5, 6, 7, 8] := by decide

/-- Table 8.11: a chain without stages copies vector register 1 to 2, lane 127 with it. -/
theorem test_chain_copies :
    let r := (chainOf (chainWords.flatMap (leBytes 8))).1
    got (exec (.chainComplete 0 0) (doing 2 (.chain r freshRun (Sequencer.start 0)) { Core.reset with vregs := [(255, 77)] }))
      (fun t => lookup 0 (t.k.core 0 0).vregs 383) = some 77 := by decide

theorem witness_PassesAndClearsTouchTheirRowsAlone :
    3 < 4 ∧ Core.reset.accT.length = 4 ∧
    (let r := (passOf (passWords.flatMap (leBytes 8))).1
     r.clear = true ∧ { r with clear := false }.clear = false ∧ r.row0 + r.m ≤ 128 ∧ r.set < 4 ∧ Core.reset.tile = none) := by decide
/-! ### The base die -/

/-- The control stream of core 0 standing at a class-2 command whose record begins the operand cache. -/
def baseAt (op : Nat) (ws : List Nat) (f : Chip → Chip) : State :=
  let s := withCore (ocWords (coreOn 0 op (q 0 0x3C 0 0)) ws)
  { s with k := f s.k }

/-- The record that the command at `baseAt` fetches. -/
def recordOf (s : State) (n : Nat) (f : List Byte → Chip → Bool) : Bool :=
  fetched ((entered s.k 0 0 0).fetchRecord 0 0 0 (qForm (q 0 0x3C 0 0)) n) f

/-- Table 7.6: a load of all 100 bank units, of the last word of their stores, from 0x1000, on die 3. -/
def loadRec : List Nat := [2 ^ 64 - 1, 2 ^ 36 - 1, 511 + 0x1000 * 2 ^ 32, 3]

/-- Table 8.6: 32 bytes from 0x1000 to the last 32 of scratch, die 3, logical index 99; and logical index 0 for a broadcast. -/
def scratchRec (lg : Nat) : List Nat := [0x1000 + 8160 * 2 ^ 32 + 32 * 2 ^ 48, 3 + lg * 256, 0, 0]

/-- Table 4.4: a start of bank units 0 and 95 at entry 511, with a fence of the last row. -/
def startRec : List Nat := [1, 2 ^ 31, 0x0000000200000001, 0x0000000400000003, 511 + 3 * 2 ^ 16 + 65535 * 2 ^ 32 + 1 * 2 ^ 48, 0, 0, 0]

/-- Table 8.7: a merge on lane 3, its image at 0x1000. -/
def mergeRec : List Nat := [0x1000 + 0x2000 * 2 ^ 32, 0x3000 + 0x4000 * 2 ^ 32, 7 + 7 * 2 ^ 16, 0]

theorem witness_BaseDieCommandsAreAccepted :
    (let s := baseAt 0x40 loadRec id
     coreAt s 0 0 0 0x40 (q 0 0x3C 0 0) ∧ reservedZero (q 0 0x3C 0 0) (useA + useX + useI) = true ∧
       recordOf s 32 (fun bs k1 => decide (recField bs 0 16 < 2 ^ 100) && decide (recField bs 16 18 + recField bs 18 20 = 511) &&
         decide (recField bs 20 24 = 0x1000) && decide (recField bs 24 25 = 3) && zeroBytes bs 25 32 && ((k1.core 0 0).ocCheck 0x1000 8 64 true).isNone) = true) ∧
    (let s := baseAt 0x43 (scratchRec 0) id
     coreAt s 0 0 0 0x43 (q 0 0x3C 0 0) ∧ recordOf s 32 (fun bs k1 => decide (scratchRecord bs = some (0x1000, 8160, 32, 3, 0)) &&
       ((k1.core 0 0).ocCheck 0x1000 32 32 true).isNone) = true) ∧
    (let s := baseAt 0x44 (scratchRec 99) id
     coreAt s 0 0 0 0x44 (q 0 0x3C 0 0) ∧ recordOf s 32 (fun bs _ => decide (scratchRecord bs = some (0x1000, 8160, 32, 3, 99))) = true) ∧
    coreAt (baseAt 0x45 (scratchRec 99) id) 0 0 0 0x45 (q 0 0x3C 0 0) ∧
    (let s := baseAt 0x41 startRec id
     coreAt s 0 0 0 0x41 (q 0 0x3C 0 0) ∧
       recordOf s 64 (fun bs k1 => decide (recField bs 0 16 = 1 + 2 ^ 95) && decide (recField bs 32 34 = 511) && decide (recField bs 34 35 = 3) &&
         decide (recField bs 36 38 + recField bs 38 42 = 65536) && zeroBytes bs 35 36 && zeroBytes bs 42 64 &&
         (maskList (1 + 2 ^ 95)).all (fun a => k1.startable 0 3 a && decide (k1.outstanding 0 3 a < 2))) = true) ∧
    (let c : StartCmd := { seq := 1, entry := 0, args := [0, 0, 0, 0], group := false, fenceFirst := 0, fenceRows := 0, domain := 0 }
     let s := baseAt 0x41 startRec (fun k => (k.setDie 0 3 { Die.reset with cmds := [.start 1 false c] }).setBu 0 3 0 { Bu.reset with run := .run, start := some c })
     coreAt s 0 0 0 0x41 (q 0 0x3C 0 0) ∧ (maskList (1 + 2 ^ 95)).any (fun a => s.k.startable 0 3 a && decide (2 ≤ s.k.outstanding 0 3 a)) = true) ∧
    (let s := baseAt 0x42 [1, 2 ^ 31, 3, 0] id
     coreAt s 0 0 0 0x42 (q 0 0x3C 0 0) ∧ recordOf s 32 (fun bs k1 => decide (recField bs 0 16 < 2 ^ 100) && decide (recField bs 16 17 = 3) &&
       zeroBytes bs 17 32 && (pickCmd (fun x => x.isStart && Nat.land x.names (1 + 2 ^ 95) ≠ 0) (k1.startFree 0 3) 0 [] (k1.die 0 3).cmds).isNone) = true) ∧
    (let s := baseAt 0x46 mergeRec id
     coreAt s 0 0 0 0x46 (q 0 0x3C 0 0) ∧ recordOf s 32 (fun bs k1 => decide (recField bs 0 4 = 0x1000) && decide (recField bs 4 8 = 0x2000) &&
       decide (recField bs 8 12 < 2 ^ 22) && decide (recField bs 12 16 < 2 ^ 22) && decide (recField bs 18 19 = 7) && zeroBytes bs 19 32 &&
       decide ((k1.die 0 3).mergeQ.length + (if (k1.die 0 3).merge.isSome then 1 else 0) < 3) &&
       (let h := waveHdr ((k1.core 0 0).ocBytes 0x1000 32)
        ((k1.core 0 0).firstOcFault [(0x1000, 32, 32), (0x1000, 32 * (1 + h.nent), 32)] true).isNone &&
        ((k1.core 0 0).firstOcFault (h.mergeWrites 0x2000 (recField bs 8 12) (recField bs 12 16) true) false).isNone)) = true) := by
  unfold coreAt; dsimp only; (repeat' apply And.intro) <;> decide

/-- R177, R436: the first start of a die takes START_SEQ 1. -/
theorem test_start_seq : got (exec (.bstart (.core 0 0 0) (q 0 0x3C 0 0)) (baseAt 0x41 startRec id))
    (fun t => ((t.k.die 0 3).startSeq, (t.k.die 0 3).cmds.length)) = some (1, 1) := by decide

/-- A start command. -/
def aStart : StartCmd := { seq := 1, entry := 511, args := [1, 2, 3, 4], group := false, fenceFirst := 0, fenceRows := 0, domain := 0 }

/-- A part whose die 0 of vat 0 is `x`. -/
def withDie (x : Die) : State := onChip (readyChip.setDie 0 0 x)

theorem witness_DieQueuesMoveAndStart :
    (let s := withDie { Die.reset with cmds := [.start (2 ^ 95) false aStart], posts := [0], writes := [.write (some 95) 8160 (List.replicate 32 1)] }
     liveOn s (s.hasDie 0 0) 0 ∧ pickCmd DieCmd.isStart (s.k.startFree 0 0) 0 [] (s.k.die 0 0).cmds = some (.start (2 ^ 95) false aStart, []) ∧
       (s.k.die 0 0).posts = [0] ∧ (s.k.core 0 (ownerOf 0)).cpl.length < 1024 ∧ (s.k.die 0 0).writes.length = 1) ∧
    (let s := withDie { Die.reset with cmds := [.load (2 ^ 95) 511 [7]] }
     pickCmd DieCmd.isLoad (s.k.loadFree 0 0) 0 [] (s.k.die 0 0).cmds = some (.load (2 ^ 95) 511 [7], [])) ∧
    (let s := withBu { Bu.reset with waiting := some aStart }
     liveOn s (s.hasDie 0 0) 0 ∧ (s.k.unit 0 0 0).waiting = some aStart ∧ (s.k.unit 0 0 0).run ≠ .run ∧ (s.k.unit 0 0 0).dropped = [] ∧
       s.k.awaitsPlace 0 0 0 = false) ∧
    (let s := withBu { Bu.reset with run := .run, start := some aStart, ending := some .done }
     (s.k.unit 0 0 0).ending = some .done ∧ (s.k.unit 0 0 0).start = some aStart ∧ (s.k.unit 0 0 0).dropped = [] ∧ (s.k.unit 0 0 0).slotsOpen = false) ∧
    (let s := doing 0 (.sread 3 95 8160 32 0x3FFFE0) Core.reset
     liveOn s (s.hasDie 0 3) 0 ∧ (s.k.stream 0 0 0).oldest = some (.sread 3 95 8160 32 0x3FFFE0)) ∧
    aStart.args.length = 4 := by
  unfold liveOn live; dsimp only; (repeat' apply And.intro) <;> decide

theorem witness_DieQueuesMoveAndStart_full : 1024 ≤ ((withCore { Core.reset with cpl := List.replicate 1024 (entryOf 0) }).k.core 0 (ownerOf 3)).cpl.length := by
  have h : ((withCore { Core.reset with cpl := List.replicate 1024 (entryOf 0) }).k.core 0 (ownerOf 3)).cpl = List.replicate 1024 (entryOf 0) := rfl
  rw [h, List.length_replicate]

/-- R178: a program begins with its arguments in S0 to S3 and its logical index in S15. -/
theorem test_program_begins : got (exec (.pendingStartBegin 0 0 0) (withBu { Bu.reset with waiting := some aStart, sregs := List.replicate 16 9 }))
    (fun t => (t.k.bu 0 0 0).sregs) = some [1, 2, 3, 4, 0, 0, 0, 0, 0, 0, 0, 0, 0, 0, 0, 0] := by decide

theorem witness_MergesAndWheyMove :
    (let m : MergeCmd := { core := 0, image := 0, out := 0, status := 0, mass := 0, waveSeq := 9, massEn := false, entries := 255 }
     let s := withDie { Die.reset with mergeQ := [(m, [])], wheyBus := some { src := 0, dst := 99, dstAt := 8160, bytes := List.replicate 32 5 } }
     liveOn s (s.hasDie 0 0) 0 ∧ (s.k.die 0 0).merge = none ∧ (s.k.die 0 0).mergeQ = (m, []) :: [] ∧ (s.k.die 0 0).wheyBus.isSome = true ∧
     (let r : MergeRun := { cmd := m, image := List.replicate 64 0, attach := [] }
      let h := waveHdr (r.image.take 32)
      r.ready h ((List.range h.nent).map (fun j => qEntry ((r.image.drop (32 + 32 * j)).take 32))) = true)) ∧
    (let w : WheySend := { src := 0, dst := 99, dstAt := 0, len := 32, sent := 0 }
     let s := withBu { Bu.reset with wheyQ := [w] }
     (s.k.die 0 0).wheyBus = none ∧ s.k.wheyNext 0 0 = some 0 ∧ (s.k.unit 0 0 0).wheyQ = w :: []) := by
  unfold liveOn live; dsimp only; (repeat' apply And.intro) <;> decide

/-- R194, R197: a whey transfer lands in its destination's scratch and counts there. -/
theorem test_whey_lands : got (exec (.wheyLand 0 0) (withDie { Die.reset with wheyBus := some { src := 0, dst := 99, dstAt := 8160, bytes := List.replicate 32 5 } }))
    (fun t => ((t.k.bu 0 0 99).wheyRx, lookup 0 (t.k.bu 0 0 99).scratch 8191)) = some (1, 5) := by decide

/-! ### Bank units -/

/-- A read of a bank unit's space that succeeds. -/
def readOk {α : Type} (m : BankMem α) : Bool := match m with | .ok _ => true | _ => false

theorem witness_BankInstructionsRun :
    (let o := q 0x3C 0x3C 0 1
     let s := buAt 0xE0 o []
     let k := enteredBank s.k 0 0 0
     bankAt s 0 0 0 0xE0 o ∧ reservedZero o (useD + useA + 1) = true ∧ (qForm o).d = endZero ∧ bankPopOk (qForm o).a = true ∧
       (k.bu 0 0 0).latchBusy false 1 = false ∧ k.rowCheck 0 0 0 0 false = none) ∧
    (let o := q 0x3C 0x3C 0 0
     let s := withBu { buOn 0xE1 o with start := some { aStart with domain := 1 } }
     bankAt s 0 0 0 0xE1 o ∧ ((enteredBank s.k 0 0 0).rowCheck 0 0 0 0 true).isSome = true) ∧
    (let o := q 0x3C 0x3C 0 0
     bankAt (buAt 0xE1 o []) 0 0 0 0xE1 o ∧ (enteredBank (buAt 0xE1 o []).k 0 0 0).rowCheck 0 0 0 0 true = none) ∧
    (let o := q 0x3C 0x3C 15 (2 ^ 31)
     let s := buAt 0xE9 o [0, 0, 0, 0, 0, 0, 0, 0, 0, 0, 0, 0, 0, 0, 0, 95]
     let u := (enteredBank s.k 0 0 0).bu 0 0 0
     bankAt s 0 0 0 0xE9 o ∧ datapathForm (qForm o) = true ∧ bankPopOk 15 = true ∧ wheyFault 0 32 = none ∧
       (u.endValue 15).toNat < 100 ∧ (s.k.die 0 0).startable 95 = true ∧ u.wheyQ.length < 4) ∧
    (bankAt (buAt 0xEA (q 15 0 0 1) []) 0 0 0 0xEA (q 15 0 0 1) ∧ bankPushOk 15 = true) := by
  unfold bankAt; dsimp only; (repeat' apply And.intro) <;> decide

theorem witness_BankInstructionsRun_datapath :
    (let o := q 0x3C 0x3C 0 (2 ^ 31 + 31)
     let s := withBu { buOn 0xE2 o with seq := (Sequencer.start 0).setBase 0 0x400 }
     let u := (enteredBank s.k 0 0 0).bu 0 0 0
     bankAt s 0 0 0 0xE2 o ∧ reservedZero o (useD + useA + useX + 0x1F) = true ∧ datapathForm (qForm o) = true ∧
       readOk (u.copyWords 0 ((qForm o).dest u).toNat 32 0) = true) ∧
    (let o := q 0x3C 0x3C 0x3C (2 ^ 31 + 0x20)
     let s := buAt 0xE3 o []
     let u := (enteredBank s.k 0 0 0).bu 0 0 0
     bankAt s 0 0 0 0xE3 o ∧ datapathForm (qForm o) = true ∧ bankFmt 0 = some .s8 ∧ bankFmt 2 = some .s4 ∧
       readOk (u.dotPairs .s8 .s4 0 0 0 0 false false 1 0 false) = true) ∧
    (let o := q 0x3C 0x3C 0x3C (2 ^ 31)
     let s := buAt 0xE4 o []
     let u := (enteredBank s.k 0 0 0).bu 0 0 0
     bankAt s 0 0 0 0xE4 o ∧ reservedZero o (useD + useA + useB + useX + 0x3F1F) = true ∧ laneCodeOk true 0 = true ∧ readOk (u.lanes 0 8) = true ∧
       readOk (u.write 0 4 (laneBytes (List.replicate 8 0))) = true ∧ bankAt (buAt 0xE5 o []) 0 0 0 0xE5 o) ∧
    (let o := q 15 0x3C 0x3C 2
     bankAt (buAt 0xE6 o []) 0 0 0 0xE6 o ∧ reservedZero o (useD + useA + useB + 3) = true ∧ bankPushOk 15 = true ∧ (qForm o).imm ≤ 2 ∧
       readOk (((buAt 0xE6 o []).k.bu 0 0 0).lanes 0 8) = true) ∧
    (let o := q 0x3C 0x3C 0 (2 ^ 31 + 2)
     let s := buAt 0xE7 o []
     let u := (enteredBank s.k 0 0 0).bu 0 0 0
     bankAt s 0 0 0 0xE7 o ∧ reservedZero o (useD + useA + useX + 0xFF0F) = true ∧ bankFmt 2 = some .s4 ∧ readOk (u.lanes 0 32) = true ∧
       readOk (u.writeAll [(0, 8, packBlock .s4 (List.replicate 32 0)), (0, 2, [0, 0])]) = true ∧
       bankAt (buAt 0xE8 o []) 0 0 0 0xE8 o ∧ readOk (u.block .s4 0 0) = true) := by
  unfold bankAt; dsimp only; (repeat' apply And.intro) <;> decide

/-- Table 8.14: BRED's sum of eight lanes adds S register B: 8 lanes of 1, and 5. -/
theorem test_bred : got (exec (.bred (.bank 0 0 0) (q 1 0x3C 2 2)) (withBu { buOn 0xE6 (q 1 0x3C 2 2) with
      sregs := [0, 0, 5, 0, 0, 0, 0, 0, 0, 0, 0, 0, 0, 0, 0, 0], scratch := (List.range 8).map (fun i => (4 * i, 1)) }))
    (fun t => (t.k.bu 0 0 0).sregs.getD 1 0) = some 13 := by decide

/-! ### Row slots, the arbiter, the walker and takeovers -/

/-- A row-slot request. -/
def slotReq (use : SlotUse) (cls : SlotClass) (row : Option Nat) : SlotReq := { use := use, cls := cls, row := row, arrived := 0, slots := 1 }

theorem witness_RowSlotsRun :
    (let r := slotReq (.buRead 1 65535) .bank (some 65535)
     let s := withBu { Bu.reset with slotQ := [r] }
     live s (s.hasLogical 0 0 0) ∧ (s.k.bu 0 0 0).active = none ∧ s.k.vatRuns 0 = true ∧ (s.k.bu 0 0 0).nextSlot = some r) ∧
    (let r := slotReq (.buRead 1 65535) .bank (some 65535)
     let s := withBu { Bu.reset with active := some r }
     (s.k.bu 0 0 0).active = some r ∧ r.use = .buRead 1 65535 ∧ 1 < (s.k.bu 0 0 0).latches.length) ∧
    (let r := slotReq (.buWrite 0 0) .bank (some 0)
     ((withBu { Bu.reset with active := some r }).k.bu 0 0 0).active = some r ∧ r.use = .buWrite 0 0) := by
  unfold live; dsimp only; (repeat' apply And.intro) <;> decide

theorem witness_ArbiterKeepsItsOrder :
    let b := slotReq (.buRead 0 0) .bank (some 0)
    let h := slotReq .hostStore .base (some 1)
    ({ Bu.reset with slotQ := [b, h], baseRun := 7 } : Bu).nextSlot = some h ∧ ({ Bu.reset with slotQ := [b, h], baseRun := 8 } : Bu).nextSlot = some b ∧
      ({ Bu.reset with slotQ := [slotReq (.scrub 0 0) .scrub (some 0)] } : Bu).nextSlot = some (slotReq (.scrub 0 0) .scrub (some 0)) ∧
      ({ Bu.reset with slotQ := [b, slotReq .refresh .refresh none] } : Bu).nextSlot = some (slotReq .refresh .refresh none) := by decide

theorem witness_BankEventsAndTakeovers :
    (let s := withBu { Bu.reset with run := .run, fenceHeld := true, fenceSince := 0, fenceLimit := 0 }
     liveOn s (s.hasLogical 0 0 0) 0 ∧ (s.k.bu 0 0 0).slotQ.all (fun r => r.cls ≠ .refresh) = true ∧ (s.k.bu 0 0 0).fenceHeld = true ∧
       (s.k.bu 0 0 0).fenceSince + (s.k.bu 0 0 0).fenceLimit ≤ s.k.now ∧ (s.k.bu 0 0 0).run = .run ∧ (s.k.bu 0 0 0).ending = none) ∧
    (let s := onChip (readyChip.setReg (Reg.brineCtl 0) 0x80000000)
     s.k.flag (Reg.brineCtl 0) 31 = true ∧ s.k.vatRuns 0 = true ∧ (s.k.vat 0).passAt = none) ∧
    (let s := withDie { Die.reset with takeoverQ := [(95, 1)] }
     let x := s.k.die 0 0
     live s (s.hasDie 0 0) ∧ s.k.hub.boot.cond = .ready ∧ (onHub (fun h => { h with boot := { h.boot with cond := .booting } })).k.alive = true ∧ x.takeover = none ∧ x.takeoverSpare = some 0 ∧ x.spare 0 = .ready ∧ 0 < x.spares.length) ∧
    (let t : Takeover := { logical := 95, slot := 3, nextRow := 65536, trigger := 1, ueRows := 0 }
     let s := withDie { Die.reset with takeover := some t }
     let x := s.k.die 0 0
     x.takeover = some t ∧ x.bankMap.length = 100 ∧ x.phys 95 ≠ x.phys (96 + 3) ∧ (s.k.bu 0 0 95).active = none ∧ (s.k.bu 0 0 99).run ≠ .run ∧
       (s.k.bu 0 0 99).waiting = none ∧ x.spares.length = 4 ∧ t.slot < x.spares.length ∧ x.phys 95 < 100 ∧ x.phys (96 + 3) < 100) ∧
    (let s := withDie { Die.reset with zeroing := [(3, 7)] }
     let x := s.k.die 0 0
     x.zeroing.find? (fun z => z.1 = 3) = some (3, 7) ∧ x.spares.length = 4 ∧ x.spareDomain.length = 4 ∧ (s.k.bu 0 0 (x.phys (96 + 3))).run ≠ .run ∧
       (s.k.bu 0 0 (x.phys (96 + 3))).active = none) := by
  unfold liveOn live; dsimp only; (repeat' apply And.intro) <;> decide

/-- R175: a fence at its limit is released and its log class is 0x11, severity 2. -/
theorem test_fence_timeout : got (exec (.fenceTimeout 0 0 0) (withBu { Bu.reset with fenceHeld := true }))
    (fun t => ((t.k.bu 0 0 0).fenceHeld, t.k.hub.logQ.map (fun l => (l.cls, l.sev)))) = some (false, [(0x11, 2)]) := by decide
/-! ### Host accesses -/

theorem witness_InterleavingIsOneToOne : (8 = 2 ∨ 8 = 4 ∨ 8 = 8) ∧ capacity 8 - 1 < capacity 8 ∧ (2 = 2 ∨ 2 = 4 ∨ 2 = 8) := by decide

/-- Table 13.9: both columns of the worked example, and the inverse mapping. -/
theorem test_interleaved : interleaved 8 0x0300DE20 = (3, 0x004001A20) ∧ interleaved 8 0x0C8A3F5C40 = (2, 0xB7447E840) ∧
    windowOf 8 2 0xB7447E840 = 0x0C8A3F5C40 := by decide

/-- A part whose decoder 0 has committed; `attr` is the host block entry of the first block. -/
def mapped (attr : Word) : State :=
  onChip ((readyChip.onHub (fun h => { h with decoders := [(0, 0)] })).setReg (Reg.hostBlock 0) attr)

/-- A read of line 0. -/
def lineRead : HostReq := { write := false, dpa := 0, pa := 0, bytes := [], enables := [], poison := false, ahead := 0 }

theorem witness_HostLinesAreReadAndWritten :
    (let s := mapped 7
     s.k.alive = true ∧ s.k.hub.stopped = false ∧ placeOf s.part.vats (64 * (0 : BitVec 36).toNat) = .dram 0 0 0 ∧ s.k.decoderOn 0 = true ∧
       (s.k.vat 0).lost = false ∧ s.k.fencedAt 0 0 = false ∧ s.k.lineWaits 0 0 = false ∧ (s.k.vat 0).power = .awake ∧
       s.k.hostDenied 8 0 0 0 false = false ∧ s.k.hostDenied 8 0 0 0 true = false ∧ (s.k.vat 0).wq.length < 256 ∧ (0 : Nat) ≠ 1 ∧
       s.k.turnOf 0 0 (.host lineRead) 1 = true) ∧
    (((mapped 7).k.setBu 0 0 0 { Bu.reset with active := some (slotReq .refresh .refresh none) }).turnOf 0 0 (.host lineRead) 1 = false) ∧
    ((mapped 6).k.hostDenied 8 0 0 0 false = true ∧ (mapped 3).k.hostDenied 8 0 0 0 true = true) ∧
    placeOf 8 (64 * (BitVec.ofNat 36 (capacity 8 / 64 - 1)).toNat) = .dram 0 (interleaved 8 (capacity 8 - 64)).1 (interleaved 8 (capacity 8 - 64)).2 := by
  decide

/-- A line written reads back from DRAM; a read at once behind it waits (R634); and one that the block does not let is dropped. -/
theorem test_line_read_back :
    got (exec (.cxlMemWrite 0 0xAB false) (mapped 7)) (fun t =>
      (got (exec (.cxlMemRead 0) { mapped 7 with dram := t.dram }) (fun u => decide (u.k.hub.resp = .line 0xAB false)),
       got (exec (.cxlMemRead 0) t) (fun u => decide (u.k.hub.resp = .none)))) = some (some true, some true) := by decide
theorem test_line_denied : got (exec (.cxlMemWrite 0 0xAB false) (mapped 3)) (fun t => (t.dram.cells.length, t.k.getF Reg.hostDenied 47 0)) = some (0, 1) := by
  decide

theorem witness_StoredWordsReadBackCorrected :
    Memory.wf State.reset.dram = true ∧ (List.replicate 32 (1 : Byte)).length = 32 ∧ 0 % 32 = 0 ∧ (readyChip.die 0 (bankAddr 0).die).takeover = none ∧
      readyChip.dramAt 0 0 % 32 = 0 ∧ 32 ≠ readyChip.dramAt 0 0 ∧
      (let dr : Dram := { cells := [], marks := [(0, [(35, 1), (0, 255)]), (1, [(36, 1)]), (2, poisonMark)] }
       lookup [] dr.marks 0 = [(35, 1), (0, 255)] ∧ lookup [] dr.marks 1 = [(36, 1)] ∧ lookup [] dr.marks 2 = poisonMark ∧ lookup [] dr.marks 3 = []) ∧
      (∀ e ∈ [((35 : Nat), (1 : Nat)), (0, 255)], e.1 < 36) ∧ 0 < 255 ∧ 255 < 256 := by decide

/-- R688: a word whose byte 0 was stored wrong in one symbol is corrected. -/
theorem test_ce : ((({ cells := [], marks := [(0, [(0, 0x40)])] } : Dram).word 0).res, (({ cells := [(0, 0x41)], marks := [(0, [(0, 0x40)])] } : Dram).word 0).bytes.head?) =
    (.ce, some 0x01) := by decide

/-- The ARM and FIRE body of the worked example of chapter 4: LAST_SEQ 0x0013, operation 2, 256 rows from row 0x0800. -/
def initBody : BitVec 480 := BitVec.ofNat 480 (0x0013 + 2 * 2 ^ 16 + 0x0800 * 2 ^ 32 + 0x00FF * 2 ^ 80)

/-- The part of that example: LAST_SEQ reads 0x0012, and page 1 of bank 197 lies in a block that the host may write. -/
def initPart (l : LegacyLine) : State :=
  onChip (((((readyChip.setReg Reg.hostWindowCfg 1).setReg (Reg.hostBlock (blockOf 8 0 6305)) 7)).setLegacy 0 2 5 { l with lastSeq := 0x0012 }).onHub
    (fun h => { h with decoders := [(2, 0)] }))

theorem witness_LegacyLinesAct :
    (let s := initPart LegacyLine.reset
     live s (s.hasDie 0 2) ∧ 95 < 96 ∧ s.k.decoderOn 2 = true ∧ s.k.linkDenied = false ∧
       (s.k.setReg Reg.rindStatus 3).linkDenied = true ∧ recField (commandLine armKey initBody) 4 6 = ((s.k.legacy 0 2 5).lastSeq + 1) % 2 ^ 16 ∧
       (s.k.legacy 0 2 5).busy = false ∧ s.k.legacyRefusal 8 0 2 5 (commandLine fireKey initBody) = some 1 ∧
       recField (commandLine armKey 0) 4 6 ≠ ((s.k.legacy 0 2 5).lastSeq + 1) % 2 ^ 16) ∧
    ((initPart { LegacyLine.reset with busy := true }).k.legacy 0 2 5).busy = true ∧
    (let s := initPart { LegacyLine.reset with arm := some (commandLine armKey initBody) }
     s.k.legacyRefusal 8 0 2 5 (commandLine fireKey initBody) = none) ∧
    (let s := { initPart { LegacyLine.reset with arm := some [] } with k := (initPart { LegacyLine.reset with arm := some [] }).k.onHub (fun h => { h with time := 1000000 }) }
     (s.k.legacy 0 2 5).arm.isSome = true ∧ (s.k.legacy 0 2 5).armAt + 1000000 ≤ s.k.now) ∧
    (let s := initPart { LegacyLine.reset with busy := true, rowsDone := 256, command := commandLine fireKey initBody }
     (s.k.legacy 0 2 5).busy = true ∧ (s.k.legacy 0 2 5).rowsDone = recField (s.k.legacy 0 2 5).command 14 16 + 1) := by
  unfold live; dsimp only; (repeat' apply And.intro) <;> decide

/-- The worked example of chapter 4: bytes 0 to 3 of its ARM and FIRE lines, and the FIRE begins with LAST_SEQ 0x0013. -/
theorem test_legacy_example : (commandLine armKey initBody).take 16 = [0x17, 0x2B, 0x9E, 0x4C, 0x13, 0, 2, 0, 0, 8, 0, 0, 0, 0, 0xFF, 0] ∧
    (commandLine fireKey 0).take 4 = [0xE8, 0xD4, 0x61, 0xB3] ∧
    got (exec (.fire 0 2 5 initBody) (initPart { LegacyLine.reset with arm := some (commandLine armKey initBody) }))
      (fun t => ((t.k.legacy 0 2 5).busy, (t.k.legacy 0 2 5).lastSeq)) = some (true, 0x0013) := by decide

/-! ### Barriers, stalls and checkers -/

theorem witness_BarriersStallsAndCheckers :
    (let s := withCore { Core.reset with enrolled := 0x8000 }
     live s true ∧ s.k.enrolled 15 ≠ [] ∧ (s.k.enrolled 15).all (fun x => (s.k.bar 15).arrived.any (fun a => a.1 = x)) = false ∧ s.k.enrolled 0 = []) ∧
    (let s := withCore { Core.reset with enrolled := 0x8000 }
     let k := s.k.setBar 15 { Barrier.reset with arrived := [(0, 0)] }
     (k.enrolled 15).all (fun x => (k.bar 15).arrived.any (fun a => a.1 = x)) = true) ∧
    (let st : Stream := { running with stall := some { kind := 2, index := 0, since := 0 } }
     let s := withHoops { Core.reset with streams := (List.replicate 5 Stream.idle).set 1 st }
     let k := s.k.onHub (fun h => { h with time := 2 ^ 33 })
     liveOn s (s.hasCore 0 0) 0 ∧ ((List.range 5).filterMap (k.waitFinding 0 0)).any (fun f => k.fresh 0 0 f &&
       decide (2 ^ k.getF (Reg.stallCtl 0 0) 4 0 ≤ k.coreCycles 0 0 (k.now - f.since))) = true) ∧
    4 < 5 ∧ 2 < 3 ∧ ((readyChip.setReg Reg.failPolicy 0).flag Reg.failPolicy 3 = false ∧
      (readyChip.setReg Reg.failPolicy 8).flag Reg.failPolicy 3 = true) := by
  unfold liveOn live; dsimp only; (repeat' apply And.intro) <;> decide

/-- R40, R368: the one enrolled core has arrived, so the barrier completes and its control stream goes on. -/
theorem test_barrier :
    let st : Stream := { running with hold := some (.hbar 15) }
    let s := withCore { Core.reset with enrolled := 0x8000, streams := (List.replicate 5 Stream.idle).set 0 st }
    got (exec (.hubBarrierComplete 15) { s with k := s.k.setBar 15 { Barrier.reset with arrived := [(0, 0)] } })
      (fun t => ((t.k.stream 0 0 0).hold, t.k.getF (Reg.hbarEpisodes 15) 31 0)) = some (none, 1) := by decide

/-! ### The host link and the rind -/

/-- A READY part at a time. -/
def readyAt (t : Nat) : State := onHub (fun h => { h with time := t })

theorem witness_LinkAndMailboxAnswer :
    live ready true ∧ (readyAt 5000000).k.hub.boot.endAt + 5000000 ≤ (readyAt 5000000).k.now ∧ (readyAt 4999999).k.now < 0 + 5000000 ∧
    linkMode 3 2 true true = true ∧ linkMode 3 0 false false = false ∧ (readyAt 39999999).k.now < 0 + 40000000 ∧ 0 + 40000000 ≤ (readyAt 40000000).k.now ∧
    ready.k.hub.boot.cond = .ready ∧ ready.part.decoderFits 0 0 (capacity 8) 1 = true ∧ ready.part.decoderFits 2 (2 ^ 40 - capacity 8) (2 ^ 28) 1 = true ∧
    ready.part.decoderFits 3 0 0 1 = false ∧ risingFrom 0 ready.k.hub.decoders = true ∧ 32 + 0 ≤ 32 ∧ 3 < 4 ∧
    ((lookup [] ready.k.hub.log.events 3).take ([] : List Nat).length).map EventRec.handle = [] ∧
    (let l := (onHub (fun h => { h with log := { h.log with dropped := [(3, { count := 1, first := 0, last := 0 })] } })).k.hub.log
     (l.overflow 3).isSome = true ∧ risingFrom 0 l.dropped = true) := by
  unfold live; dsimp only; (repeat' apply And.intro) <;> decide

/-- R612, R614: a BM-8 of 64 lanes has device ID 0x0B08, and its capacity counts 256 MB units: 8 × 96 GB / 256 MB = 3,072. -/
theorem test_ids : (State.reset.part.deviceId, capacity 8 / 2 ^ 28) = (0x0B08, 3072) := by decide

/-- A session that a FINISH has completed, as session 3. -/
def inSession3 (b : Option Nat) (n : Option (List Byte)) : Session := { finished := true, bound := b, nonce := n }

/-- A READY, owned part with that session and two declared domains, 0 and 7. -/
def rinded (x : Session) (dsk : Option (List Byte)) : State :=
  onHub (fun h => { h with
    sessions := [(3, x)], owners := [[1]]
    domains := [(0, { keys := [], finger := [], algs := 3, chain := [], dsk := none, grants := 0 }), (7, { keys := [], finger := [], algs := 3, chain := [], dsk := dsk, grants := 0 })] })

theorem witness_SpdmAnswersOrRefuses :
    live ready true ∧ ready.k.hub.stopped = false ∧ ready.k.getF Reg.rindStatus 1 0 ≠ 0 ∧ ready.k.getF Reg.rindStatus 1 0 ≠ 3 ∧
    (List.range 4).find? (fun j => (ready.k.session j).isNone) = some 0 ∧
    (let x := inSession3 none none
     (onHub (fun h => { h with sessions := [(0, x), (1, x), (2, x), (3, x)] })).k.hub.sessions.length = 4 ∧
     (List.range 4).all (fun j => ((onHub (fun h => { h with sessions := [(0, x), (1, x), (2, x), (3, x)] })).k.session j).isSome) = true ∧
     (rinded x none).k.session 3 = some x ∧ risingFrom 0 (rinded x none).k.hub.sessions = true) ∧ ready.k.session 3 = none ∧
    ((readyChip.setReg Reg.rindStatus 3).getF Reg.rindStatus 1 0 = 3) := by
  unfold live; dsimp only; (repeat' apply And.intro) <;> decide

/-- R666: GET_VERSION answers SPDM 1.3, and TAMPERED refuses with Unspecified. -/
theorem test_versions : got (exec .getVersion ready) (fun t => decide (t.k.hub.resp = .bytes 0x04 [0x13])) = some true := by decide

theorem witness_RindRequestsAct :
    (let x := inSession3 none (some [])
     let s := rinded x none
     live s true ∧ s.k.hub.stopped = false ∧ s.k.getF Reg.rindStatus 1 0 ≠ 0 ∧ s.k.getF Reg.rindStatus 1 0 ≠ 3 ∧ s.k.session 3 = some x ∧ x.finished = true ∧
       (s.k.domain 7).isSome = true ∧ x.nonce.isSome = true ∧ (3 : Nat).testBit (2 - 1) = true ∧ s.k.domain 255 = none ∧ s.k.hub.owners ≠ [] ∧
         x.bound = none ∧
       (s.k.setReg Reg.hostLinkStatus 1).getF Reg.hostLinkStatus 2 0 ≠ 0) ∧
    (let x := inSession3 (some 7) none
     let s := rinded x (some (List.replicate 32 1))
     x.bound = some 7 ∧ s.k.txnNames 7 = false ∧ ((s.k.domain 7).bind Domain.dsk).isSome = true ∧ ((rinded x none).k.domain 7).bind Domain.dsk = none) ∧
    (let x := inSession3 (some 0) none
     let s := rinded x none
     (s.k.domain 0).isSome = true ∧ s.k.txnNames 0 = false ∧ s.k.tenants = true ∧ s.k.hub.owners.length < 4 ∧
       (onHub (fun h => { h with domains := h.domains.take 1 })).k.tenants = false ∧ ready.k.hub.owners = []) := by
  unfold live; dsimp only; (repeat' apply And.intro) <;> decide

/-- R671, R672: a DSK erased in a session bound to its domain. -/
theorem test_key_erase : got (exec (.domainKeyErase (some 3)) (rinded (inSession3 (some 7) none) (some (List.replicate 32 1))))
    (fun t => ((t.k.domain 7).bind Domain.dsk, decide (t.k.hub.resp = .bytes 0 []))) = some (none, true) := by decide
/-! ### The culture image -/

/-- A READY, owned part with an OPEN transaction. -/
def openTxn (t : Txn) : State :=
  onChip ((readyChip.setReg Reg.ciState 1).onHub (fun h => { h with
    txn := some t, owners := [[1]], domains := [(0, { keys := [], finger := [1], algs := 1, chain := [], dsk := none, grants := 0 })] }))

/-- Table 12.1: an image for a BM-8 of 64 lanes with IMAGE_SEQ 1: an empty REGISTERS section and a SIGNATURE section, both of domain 0. -/
def emptyImage : List Byte :=
  [0x43, 0x55, 0x4C, 0x54, 1, 0, 8, 0, 0xA0, 0, 0, 0, 1, 0, 0, 0, 2, 0, 0, 0, 0, 0, 0, 0, 232, 0, 0, 0, 0, 0, 0, 0] ++ List.replicate 32 0 ++
    (5 :: List.replicate 31 0) ++ (0x0F :: List.replicate 7 0) ++ (104 :: List.replicate 23 0) ++ (1 :: List.replicate 103 0)

/-- A part whose OPEN transaction would stage that image, which lies at window address 0. -/
def stageable : State :=
  { openTxn Txn.fresh with
    dram := { cells := (emptyImage.zipIdx.filter (fun b => b.1 ≠ 0)).map (fun b => (b.2, b.1)), marks := [] }
    k := ((openTxn Txn.fresh).k.setReg Reg.ciStageLen 232) }

theorem witness_TransactionsRun :
    (live State.reset true ∧ State.reset.k.ciShut = true) ∧
    (ready.k.ciShut = false ∧ ready.k.ciState = 0 ∧ (ready.k.ciState ≠ 1 ∨ ready.k.hub.txn = none)) ∧
    (let s := openTxn Txn.fresh
     s.k.ciShut = false ∧ s.k.ciState = 1 ∧ s.k.hub.txn = some Txn.fresh ∧
       (match Txn.fresh.stage s.part s.k [] [] false with | .inl _ => true | _ => false) = true ∧
       (checkOf s.part ((s.k.onHub (fun h => { h with txn := some Txn.fresh })).ciTo 2 0) Txn.fresh).validate = none) ∧
    (let r := Mach.windowRun 8 2 (machOf stageable) 0 232
     r.1 = emptyImage ∧ (match Txn.fresh.stage stageable.part r.2.k r.1 [true] false with | .inr _ => true | _ => false) = true) ∧
    (let t := { Txn.fresh with sections := [{ type := 4, signer := 7, vat := 0, core := 0, index := 0, at_ := 96, body := List.replicate 32 0 }] }
     (checkOf Part.reset ((openTxn t).k.ciTo 2 0) t).validate.isSome = true) ∧
    (let k := (openTxn Txn.fresh).k.setReg Reg.ciState 2
     k.serving = true ∧ k.getF Reg.rindStatus 1 0 ≠ 3 ∧ k.ciState = 2) ∧
    (let m : Mach := { dr := State.reset.dram, k := (openTxn Txn.fresh).k.setReg Reg.ciState 0x22 }
     (m.draining Part.reset).any (fun x => x.quiet && decide (x.t.force = false) && decide (x.t.since + 1000 * m.k.getF Reg.ciQuietTimeout 15 0 ≤
       (m.k.onHub (fun h => { h with time := 10 ^ 9 })).now)) = true) ∧
    (let m : Mach := { dr := State.reset.dram, k := (openTxn { Txn.fresh with shape := readyChip.shape 8, force := true }).k.setReg Reg.ciState 0x22 }
     (m.draining Part.reset).any (fun x => decide (x.t.shape = m.k.shape 8) && x.t.force) = true) ∧
    (let m : Mach := { dr := State.reset.dram, k := ((withCore (coreOn 0 1 0)).k.setReg Reg.ciState 0x22).onHub (fun h => { h with txn := some { Txn.fresh with switched := [0] } }) }
     (m.draining Part.reset).any (fun x => !x.quiet) = true) ∧
    ((machOf ready).draining Part.reset).isNone = true ∧ (((openTxn Txn.fresh).k.setReg Reg.ciState 3).ciState = 3) := by
  unfold live; dsimp only; (repeat' apply And.intro) <;> decide +kernel

/-- R578: BEGIN in IDLE opens an empty transaction; a second BEGIN is refused with code 2 (Table 12.15). -/
theorem test_begin_twice : got (exec .begin ready) (fun t => (t.k.ciState, t.k.getF Reg.ciResult 7 0)) = some (1, 0) ∧
    got (exec .begin (openTxn Txn.fresh)) (fun t => (t.k.ciState, t.k.getF Reg.ciResult 7 0)) = some (1, 2) := by decide

theorem witness_OperationsEndWithTheirResult : 3 < 4 ∧ ciOk.code = 0 ∧ (CiResult.of 0xFF).code < 256 ∧ (CiResult.of 0xFF).detail < 256 ∧
    (CiResult.of 0xFF).code ≠ 0 ∧ (CiResult.of 0xFF).code ≠ 0x13 := by decide

/-! ### Rings, jobs and verdicts -/

/-- A READY part whose ring `r` is on with 16 slots at window address 0, its PI at `pi` and CI at `ci`, and DRAM cells. -/
def ringed (r pi ci : Nat) (cells : List Host.Cell) (marks : List (Nat × List (Nat × Nat))) : State :=
  { onChip (((readyChip.setReg (Reg.subqCfg r) 0x80000004).setReg (Reg.subqPi r) (BitVec.ofNat 64 pi)).setReg (Reg.subqCi r) (BitVec.ofNat 64 ci)) with
    dram := { cells := cells, marks := marks } }

/-- The header that RECORD_ACCEPT of ring 15 reads. -/
def ringHead (s : State) : List Byte × Bool × Mach := (machOf s).ringRead 8 15 (s.k.getF (Reg.subqCi 15) 15 0) 1

theorem witness_RingsAreServed :
    (live ready (15 < 16) ∧ ready.k.flag (Reg.subqCfg 15) 31 = false ∧ ready.k.flag (Reg.vringCfg 15) 31 = false ∧
      (readyChip.setReg (Reg.vringCfg 15) 0x8000000A).flag (Reg.vringCfg 15) 31 = true) ∧
    (let s := ringed 15 1 0 [(2, 1)] []
     s.k.flag (Reg.subqCfg 15) 31 = true ∧ (15 : BitVec 16).toNat < s.k.subqSize 15 ∧ s.k.subqSize 15 ≤ (16 : BitVec 16).toNat ∧
       s.k.serving = true ∧ s.k.nextTag.isSome = true ∧ s.k.nextRing = some 15 ∧ (ringHead s).2.1 = false ∧
         (recHdr (ringHead s).1).formed = true ∧
       (recHdr (ringHead s).1).type ≠ 15 ∧ s.k.subqSize 15 < 15 + 2 ∧ (1 + 16 - 0) % 16 < 2) ∧
    (let s := ringed 15 2 0 [(2, 1)] []
     (recHdr (ringHead s).1).formed = true ∧ 0 + 2 ≤ s.k.subqSize 15 ∧ 2 ≤ (2 + 16 - 0) % 16 ∧ ((ringHead s).2.2.ringRead 8 15 1 1).2.1 = false) ∧
    (let k := (((readyChip.setReg (Reg.vringCfg 15) 0x8000000A).setReg (Reg.hostBlock 0) 7).setReg (Reg.vringCi 15) 1).setVring 15 { VRing.empty with waiting := [5] }
     k.vringHeld 15 = true ∧ (k.vring 15).waiting ≠ []) ∧
    (let s := ringed 15 2 0 [(2, 1)] [(2, poisonMark)]
     (ringHead s).2.1 = false ∧ ((ringHead s).2.2.ringRead 8 15 1 1).2.1 = true) ∧
    ((ringHead (ringed 15 1 0 [(2, 1)] [(0, poisonMark)])).2.1 = true) ∧ (recHdr (ringHead (ringed 15 1 0 [] [])).1).formed = false ∧
    (recHdr (ringHead (ringed 15 1 0 [(0, 15)] [])).1).type = 15 ∧ (recHdr (ringHead (ringed 15 1 0 [(0, 15)] [])).1).formed = true ∧
    readyChip.vringSize 15 ≤ (65535 : BitVec 16).toNat ∧ (0 : BitVec 16).toNat < readyChip.vringSize 15 ∧ 3 < 4 := by
  unfold live; dsimp only; (repeat' apply And.intro) <;> decide

/-- R516: a record of DATA_LEN 0 and TYPE 0 is no record: the ring stops with cause 1. R514: a WRAP goes back to slot 0. -/
theorem test_ring_stops : got (exec (.recordAccept 15) (ringed 15 1 0 [] [])) (fun t => (t.k.flag (Reg.subqStatus 15) 31, t.k.getF (Reg.subqStatus 15) 1 0)) =
    some (true, 1) := by decide
theorem test_ring_wraps : got (exec (.recordAccept 15) (ringed 15 2 1 [(64, 15)] [])) (fun t => t.k.getF (Reg.subqCi 15) 15 0) = some 0 := by decide

/-- A job of class 0 for the context of handle 0, as tag 5. -/
def aJob (p : JobPhase) : Job :=
  { origin := .ring 0, order := 1, kind := 1, cls := 0, cookie := 9, accept := 0, deadline := 100, domain := 0, model := 0, key := [1], mayCreate := true
    handle := 0, isNew := false, summary := none, payload := [], tokens := [7], closes := false, phase := p, ahead := [], outcome := none, budget := 0
    byteMax := 0, drop := false, decided := false, aborted := false, late := false, written := false, source := [], raw := [], evicts := none, doom := none }

/-- A context at home on die 0 of vat 0, of the key [1]. -/
def aCtx : Ctx :=
  { gen := 0, state := .live, sampled := false, shadowOk := false, mirrored := false, vat := 0, die := 0, slot := 0, rot := 0, model := 0, cls := 0
    domain := 0, tailCount := 0, oldest := 0, tail := 0, shadowFirst := 0, tokens := 0, lastActive := 0, mirrorSeq := 0, key := [1], hash := 0, place := (0, 0)
    pages := [], shadow := [], spare := none, room := .fits, owed := [], sample := none, migration := none, standby := none, spill := .home, holder := 0, diverged := false }

/-- A model of one layer. -/
def aModel : Model :=
  { signer := 0, pool := 0, layers := 1, spill := false, flush := false, hkv := 1, g := 1, dsel := 1, window := 32, pagesPerBank := 1, waves := 1, batch := 1, tps := 1
    pipe := 1, press := 1, vec64 := 1, vec128 := 1, wbLayer := 1, spillLayer := 0, attnToken := 1, weightBytes := 0, at_ := 0 }

/-- A pool of core 0 of vat 0, with room for pages on each of its dies. -/
def aPool : Pool :=
  let lay : DieLayout := { pidx := 0, pageFirst := 2048, pageLast := 4095, scaleFirst := 4096, scaleLast := 4352, calSpares := 0 }
  { domain := 0, spillGbps := 0, at_ := 0
    cores := [{ core := 0, jobHoop := 0, resultHoop := 1, affHoop := 2, weightPages := 0, weightVa := 0, ledger := 0, token := 0, dies := List.replicate 4 lay }] }

/-- A READY part with that pool and model, the contexts and jobs given, and whatever else. -/
def serve (cs : List (Nat × Ctx)) (js : List (Nat × Job)) (f : Chip → Chip) : State :=
  onChip (f (readyChip.onHub (fun h => { h with pools := [(0, aPool)], models := [(0, aModel)], ctxs := cs, jobs := js })))

/-- A directory walk's two reads, and what holds of the chip after them. -/
def walked (s : State) (f : Mach → Bool) : Bool :=
  let b := bucketsOf 8 (s.k.hashOf 0 0 [1])
  f (((machOf s).readBucket 8 b.1).readBucket 8 b.2)

theorem witness_JobsAndVerdictsRun :
    (let s := serve [(0, aCtx)] [(5, aJob .walking)] id
     live s (s.hasCore 0 0) ∧ s.k.job 5 = some (aJob .walking) ∧ (aJob .walking).phase = .walking ∧
       s.k.hub.jobs.any (fun x => x.2.phase = .walking && x.2.order < (aJob .walking).order && x.2.domain = 0 && x.2.model = 0 && x.2.key = [1]) = false ∧
       walked s (fun m => (m.k.lookupKey 1 0 0 [1]).isSome) = true) ∧
    (let s := serve [] [(5, { aJob .walking with mayCreate := false })] id
     walked s (fun m => (m.k.lookupKey 1 0 0 [1]).isNone) = true ∧ (aJob .walking).kind ≠ 2 ∧ (aJob .walking).mayCreate = true) := by
  unfold live; dsimp only; (repeat' apply And.intro) <;> decide

/-- A job's context made; refused, its model unknown; and waiting, no die open, for the one on its way out. -/
theorem witness_JobsAndVerdictsRun_create :
    walked (serve [] [(5, aJob .walking)] (fun k => k.setReg (Reg.vatStatus 0) 14))
      (fun m => match m.create 8 0 0 0 [1] none with | .ok _ _ => true | _ => false) = true ∧
    walked (onChip (readyChip.setJob 5 (aJob .walking))) (fun m => match m.create 8 0 0 0 [1] none with | .refused _ _ => true | _ => false) = true ∧
    walked (serve [(0, { aCtx with state := .closing })] [(5, { aJob .walking with evicts := some 0 })] (fun k => k.setReg (Reg.vatStatus 0) 15))
      (fun m => (m.k.lookupKey 1 0 0 [1]).isNone && match m.create 8 0 0 0 [1] (some 0) with | .wait _ _ => true | _ => false) = true := by
  refine ⟨?_, ?_, ?_⟩ <;> decide +kernel

/-- A job that the scheduler hands its core. -/
theorem witness_JobsAndVerdictsRun_dispatch :
    (let s := serve [(0, aCtx)] [(5, aJob .waiting)] id
     s.k.serving = true ∧ s.k.releaseFound.serveSpilled = s.k ∧ s.k.nextJob 0 0 = some (5, aJob .waiting) ∧ s.k.jobCtx (aJob .waiting) = some (0, aCtx) ∧
       (s.k.poolCore 0 0).isSome = true ∧ s.k.model 0 = some aModel ∧ s.k.coreRetired 0 0 = false ∧ s.k.hub.drain.contains 0 = false ∧ s.k.vatRuns 0 = true ∧
       s.k.now ≤ (aJob .waiting).deadline ∧ s.k.hubFull 0 0 0 = false ∧ s.k.roomWaits 0 aCtx aModel 1 = false ∧
       ((machOf s).makeRoom 8 0 aCtx aModel 1).2.2 = some [] ∧ ((machOf s).makeRoom 8 0 { aCtx with room := .full } aModel 1).2.2 = none) := by
  dsimp only; (repeat' apply And.intro) <;> decide

/-- A result entry, closes, completion records and snoops. -/
theorem witness_JobsAndVerdictsRun_results :
    (let e := { entryOf 0 with data := entryOfBytes ([0x11, 0, 5, 0] ++ List.replicate 60 0) }
     let s := serve [(0, aCtx)] [(5, aJob (.sent 0))] (fun k => k.setCore 0 0 (headAt Core.reset 1 [e]))
     s.k.headOf 0 0 1 = e :: [] ∧ e.poison = false ∧ (aJob (.sent 0)).settled = none ∧
       ({ aJob (.sent 0) with aborted := true } : Job).settled = some 2 ∧ recField (entryBytes e.data) 2 4 = 5 ∧ recField (entryBytes e.data) 0 1 = 0x11 ∧
         recField (entryBytes e.data) 1 2 = 0 ∧
       recField (entryBytes e.data) 4 8 = (aJob (.sent 0)).handle ∧ (aJob (.sent 0)).phase = .sent (4 * 0 + 0) ∧ s.k.job 6 = none ∧
       s.k.commitWaits 0 aCtx aModel 1 = false ∧ (aJob (.sent 0)).closes = false ∧ (aJob (.sent 0)).aborted = false) ∧
    (let y : Close := { handle := 0, order := 3, tag := none }
     let s := serve [(0, aCtx)] [] (fun k => k.onHub (fun h => { h with closes := [y] }))
     s.k.ctx 0 = some aCtx ∧ s.k.firstClose (aCtx.handle 0) = some y ∧ s.k.jobBefore 3 0 aCtx = false) ∧
    (let s := serve [(0, aCtx)] [] (fun k => (k.setReg (Reg.classIdle 0) 1).onHub (fun h => { h with time := 1000001 }))
     aCtx.state = .live ∧ s.k.getF (Reg.classIdle 0) 31 0 = 1 ∧ 1 * 10 ^ 6 < s.k.now - aCtx.lastActive ∧ s.k.hasJob 0 aCtx = false ∧
       s.k.closePending (aCtx.handle 0) = false) ∧
    (let o : Outcome := { status := 0, verdict := 1, tokens := 1, closed := false }
     let s := serve [(0, aCtx)] [(5, { aJob .ended with outcome := some o })] (fun k => (((k.setReg (Reg.vringCfg 15) 0x8000000A).setReg Reg.hostLinkStatus 0x100).setReg (Reg.hostBlock 0) 7).onHub
       (fun h => { h with vrings := [(15, { VRing.empty with waiting := [5] })], decoders := [(0, 0)] }))
     live s (15 < 16) ∧ (s.k.vring 15).waiting = 5 :: [] ∧ s.k.serving = true ∧ s.k.flag (Reg.vringCfg 15) 31 = true ∧ s.k.vringFull 15 = false ∧
       s.k.decoderOn 0 = true ∧ s.k.flag Reg.hostLinkStatus 8 = true ∧ (s.k.vring 15).snoop = none ∧ s.k.vringCached 15 = true) ∧
    (let k := (readyChip.setReg (Reg.hostBlock 0) 0x17)
     k.vringCached 15 = false) ∧
    (let r : VRing := { VRing.empty with snoop := some (0, 0, false), since := 1 }
     let s := serve [] [] (fun k => ((k.setReg Reg.hostLinkStatus 1).setReg (Reg.vringCfg 15) 0x00000100).onHub (fun h => { h with vrings := [(15, r)], time := 100000 }))
     (s.k.vring 15).snoop = some (0, 0, false) ∧ 0 + 100000 ≤ s.k.now ∧ s.k.getF Reg.hostLinkStatus 2 0 ≠ 0 ∧ (s.k.vring 15).since ≠ 0 ∧
       s.k.getF (Reg.vringCfg 15) 15 8 ≠ 0 ∧
       (s.k.vring 15).firstAt + 1000 * s.k.getF (Reg.vringCfg 15) 27 16 ≤ s.k.now) := by
  unfold live; dsimp only; (repeat' apply And.intro) <;> decide

/-- R473: a context closes once it has been idle for longer than its class's idle time, not at that time. -/
theorem test_idle_close : got (exec (.idleClose 0) (serve [(0, aCtx)] [] (fun k => (k.setReg (Reg.classIdle 0) 1).onHub
    (fun h => { h with time := 1000000 })))) (fun t => (t.k.ctx 0).isSome) = some true := by decide

/-! ### Affinage and migration -/

theorem witness_AffinageMigrationAndCalibrationRun :
    (let p : PageRec := { layer := 0, page := 0, tier := 2, opened := false, bank := 0, row := 2048, gran := 0, entry := 0 }
     let j : AffJob := { ctx := 0, kind := 5, page := p, row := 0, gran := 0 }
     let s := serve [(0, { aCtx with pages := [p] })] [] (fun k => k.onHub (fun h => { h with affs := [j] }))
     live s true ∧ s.k.hub.affs[0]? = some j ∧ s.k.ctx j.ctx = some { aCtx with pages := [p] }) ∧
    (let s := serve [(0, aCtx)] [] id
     s.k.hub.ctxs.find? (fun c => c.2.handle c.1 = recField (entryBytes (BitVec.ofNat 512 (2 ^ 80))) 0 4) = some (0, aCtx) ∧
       s.k.model aCtx.model = some aModel ∧
       (s.k.count (Reg.calRecords 0) 1).calFrozen aModel = true ∧ recField (entryBytes (BitVec.ofNat 512 (2 ^ 80))) 10 11 % 4 = 1 ∧
       recField (entryBytes (BitVec.ofNat 512 (2 ^ 80))) 11 12 = 0) ∧
    (let s := serve [(0, aCtx)] [] (fun k => k.setReg (Reg.vatStatus 0) 1)
     s.k.ctx 0 = some aCtx ∧ s.k.ciState ≠ 2 ∧ s.k.dieShut 0 0 = true ∧ s.k.drains 0 0 = false ∧ s.k.mayMigrate aCtx = true ∧
       ((machOf s).draining s.part).isNone = true) ∧
    (let g : Migration := { since := 0, vat := 0, die := 1, slot := 0, rot := 0, pages := [], bytes := 0 }
     let c := { aCtx with state := .migrating, migration := some g }
     let s := serve [(0, c)] [] id
     s.k.ctx 0 = some c ∧ c.migration = some g ∧ s.k.hub.affs.any (fun j => j.ctx = 0 && !s.k.jobHeld j) = false ∧ g.bytes ≤ 32 * (s.k.now - g.since) ∧
       ((machOf s).catchUp c aModel g ((machOf s).narrower s.part 0 1)).isSome = true ∧
       ((machOf s).catchUp c aModel { g with vat := 7 } ((machOf s).narrower s.part 7 1)).isNone = true) ∧
    (0 + 1 < 16 * (readyChip.setReg (Reg.calCfg 0) 0x10000).getF (Reg.calCfg 0) 23 16 ∧
      16 * (readyChip.setReg (Reg.calCfg 0) 0).getF (Reg.calCfg 0) 23 16 ≤ 0 + 1) := by
  unfold live; dsimp only; (repeat' apply And.intro) <;> decide

/-- The context has a home where one die of its pool is not shut. -/
theorem witness_AffinageMigrationAndCalibrationRun_home :
    let s := serve [(0, aCtx)] [] (fun k => k.setReg (Reg.vatStatus 0) 7)
    (s.k.findHome aModel (some (0, 0)) (fun lay v d rot => if s.k.drains v d then none else s.k.placeAll aModel lay v d rot [] (s.k.keptPages aCtx))).isSome = true := by
  decide

/-- Table 12.4: a POOL body of pool 0 with core 0, whose die 0 keeps its pages to rows 2049 on, its other dies to rows 2048 on. -/
def narrowPool : List Byte :=
  let die (first : Byte) : List Byte := [0, 0, first, 8, 0xFF, 0x0F, 0, 0x10, 0, 0x11] ++ List.replicate 6 0
  List.replicate 8 0 ++ (1 :: List.replicate 55 0) ++ (0x10 :: 2 :: List.replicate 30 0) ++ die 1 ++ die 0 ++ die 0 ++ die 0

/-- A COMMIT that drains takes row 2048 of die 0, where the context has a page: it must move (R606), and has a home. -/
theorem witness_AffinageMigrationAndCalibrationRun_drain :
    let p : PageRec := { layer := 0, page := 0, tier := 0, opened := false, bank := 0, row := 2048, gran := 8192, entry := 0 }
    let c := { aCtx with pages := [p] }
    let t := { Txn.fresh with sections := [{ type := 2, signer := 0, vat := 0, core := 0, index := 0, at_ := 96, body := narrowPool }] }
    let s := serve [(0, c)] [] (fun k => ((k.setReg (Reg.vatStatus 0) 12).setReg Reg.ciState 0x22).onHub (fun h => { h with
      txn := some t, domains := [(0, { keys := [], finger := [], algs := 1, chain := [], dsk := none, grants := 0 })] }))
    ((machOf s).draining s.part).any (fun x => x.moves c && (x.homeFor c aModel (s.k.keptPages c)).isSome) = true ∧ s.k.mayMigrate c = true ∧
      s.k.pageLost 0 0 p = false := by
  decide +kernel

/-- R485: a CULL job that is DONE takes its page away. -/
theorem test_cull_done :
    let p : PageRec := { layer := 0, page := 0, tier := 2, opened := false, bank := 0, row := 2048, gran := 0, entry := 0 }
    got (exec (.affinageJobResult 0 .done) (serve [(0, { aCtx with pages := [p] })] [] (fun k => k.onHub (fun h => { h with
      affs := [{ ctx := 0, kind := 5, page := p, row := 0, gran := 0 }] })))) (fun t => ((t.k.ctx 0).map (·.pages.length), t.k.hub.affs.length)) = some (some 0, 0) := by
  decide
/-! ### The register file and BAR0 -/

/-- A 64-bit register whole and in halves; nothing at the end of BAR0; a register with LCK fields and one without. -/
theorem witness_RegistersAreWrittenByAccess :
    (let o := Reg.jobAbortCookie
     live ready true ∧ ready.k.lostBlock 8 o = false ∧ (readyChip.setVat 0 { Vat.reset with lost := true }).lostBlock 8 0x1000000 = true ∧
       touched 8 o 8 = [(o, 8)] ∧ (regOver o).any (fun r => r.1 = o) = true ∧ touched 8 o 4 ≠ [(o, 4)] ∧
       touched 8 o 4 ≠ [] ∧ ready.k.sleeper 8 o = none ∧
       ((readyChip.setVat 7 { Vat.reset with power := .asleep }).lostBlock 8 0x8FFFFFF = false) ∧
       (readyChip.setVat 7 { Vat.reset with power := .asleep }).sleeper 8 0x8FFFFFF = some 7) ∧
    (touched 8 0xFFFFFF8 8 = [] ∧ 0xFFFFFF8 % 8 = 0 ∧ ¬ (0xFFFFFFA % 8 = 0) ∧ touched 8 0xFFFFFFA 8 = []) ∧
    (BitVec.ofNat 64 (lckAt 8 Reg.pwrPolicy) ≠ 0 ∧ BitVec.ofNat 64 (lckAt 8 Reg.jobAbortCookie) = 0 ∧ ready.k.ciState ≠ 1 ∧
      (openTxn Txn.fresh).k.ciState = 1 ∧ (openTxn Txn.fresh).k.hub.txn = some Txn.fresh) := by
  unfold live; dsimp only; (repeat' apply And.intro) <;> decide

/-- Table 0.3: an RW register takes what is written; R825: a write of half of it is recorded with its offset and writes nothing. -/
theorem test_register_write : got (exec (.registerWrite (BitVec.ofNat 28 Reg.jobAbortCookie) 8 true 0x1234) ready) (fun t => t.k.reg Reg.jobAbortCookie) = some 0x1234 := by
  decide
theorem test_half_write : got (exec (.registerWrite (BitVec.ofNat 28 Reg.jobAbortCookie) 4 true 0x1234) ready)
    (fun t => (t.k.reg Reg.jobAbortCookie, t.k.flag Reg.hubBadAccess 31, t.k.getF Reg.hubBadAccess 27 0)) = some (0, true, Reg.jobAbortCookie) := by decide

theorem witness_Bar0ReadsAnswer :
    live ready true ∧ (readyChip.setVat 0 { Vat.reset with lost := true }).lostBlock 8 0x1000000 = true ∧ ready.k.lostBlock 8 0 = false ∧
    readFits 8 0 3 = false ∧ readFits 8 0 64 = true ∧ ready.k.flag Reg.hubBadAccess 31 = false ∧ (ready.k.badAccess false 0).flag Reg.hubBadAccess 31 = true ∧
    ((readyChip.setVat 7 { Vat.reset with power := .asleep }).vat 7).power = .asleep ∧ 0x8FFFFFF / 0x1000000 = 7 + 1 ∧ ready.k.sleeper 8 0 = none ∧
    (readyChip.setVat 7 { Vat.reset with power := .asleep }).sleeper 8 0x8FFFFFF = some 7 := by
  unfold live; dsimp only; (repeat' apply And.intro) <;> decide

/-! ### Failures, resets, boot, power -/

/-- A FAIL_RESULT that is busy and one that is not; a retired spare; a requalification whose 15.73 ms have passed. -/
theorem witness_FailuresAreHandled :
    live ready true ∧ ready.k.flag Reg.failResult 30 = false ∧ (readyChip.setReg Reg.failResult 0x40000000).flag Reg.failResult 30 = true ∧
    (7 < 8 ∧ 49151 < 49152 ∧ 99 < 100) ∧ ((withDie { Die.reset with spares := [.ready, .ready, .ready, .retired] }).k.die 0 0).spare (99 - 96) = .retired ∧
    ((withDie { Die.reset with requal := some (3, 0) }).k.die 0 0).requal = some (3, 0) ∧ 0 + 15730000 ≤ (readyAt 15730000).k.now ∧
    ready.k.hub.stopped = false := by
  unfold live; dsimp only; (repeat' apply And.intro) <;> decide

/-- Table 15.9: a page retired: bit 31 of RETIRED_PAGES 1 for PPN 63. -/
theorem test_retire_page : got (exec (.retirePage 0 63) ready) (fun t => (t.k.flag (Reg.retiredPages 0 1) 31, t.k.getF Reg.failResult 3 0)) = some (true, 0) := by
  decide
/-- R722: an uncorrectable error in the hub's own memory other than the hot-key cache stops the hub. -/
theorem test_hub_stops : got (exec (.hubSramUe false 0) ready) (fun t => (t.k.alive, t.k.faultOut)) = some (false, true) := by decide

/-- A part in the condition `c`. -/
def inCond (c : Condition) : State := onHub (fun h => { h with boot := { h.boot with cond := c } })

theorem witness_ResetsAndSuppliesKeepTheCave :
    ready.k.resettable = true ∧ (readyChip.setReg Reg.bootCfg 3).flag Reg.bootCfg 1 = true ∧ (readyChip.setReg Reg.bootCfg 3).flag Reg.bootCfg 0 = true ∧
    (0 : BitVec 32) ≠ 0x7A3C0E91 ∧ live ready true ∧ ready.k.ciState ≠ 3 ∧ ((readyChip.setReg Reg.ciState 3).ciState = 3 ∧ readyChip.alive = true ∧
      readyChip.hub.boot.deferred = none) ∧
    ((inCond .held).k.hub.boot.cond = .held ∧ ((inCond .held).k.setReg Reg.bootStatus 2).getF Reg.bootStatus 2 0 = 2 ∧
      (readyAt 1000000).k.hub.boot.heldAt + 1000000 ≤ 1000000) ∧
    ((inCond .cave).k.hub.boot.cond = .cave ∧ (inCond .off).k.hub.boot.cond = .off ∧ (inCond .tripped).k.hub.boot.cond ≠ .off) ∧
    (7 < ready.part.vats ∧ 3 < (if false || decide (16 = 16) then 4 else 2) ∧ (1 : BitVec 4) ≠ 0) ∧ 7 < 8 ∧ ready.k.bus = [] ∧
    (readyChip.setReg Reg.rindStatus 3).getF Reg.rindStatus 1 0 = 3 ∧
      risingFrom 0 (({ readyChip with regs := [] } : Chip).setReg Reg.bootStatus 1).regs = true := by
  unfold live; dsimp only; (repeat' apply And.intro) <;> decide

/-- R801: a supply loss leaves the cave alone, and no byte of DRAM. -/
theorem test_supply_loss : got (exec (.supplyLoss 2) (mapped 7)) (fun t => (t.k.hub.boot.cond, t.dram.cells)) = some (.cave, []) := by decide
/-- R802: a package reset's end lets the part boot. -/
theorem test_reset_ends : got (exec .packageResetEnd { inCond .held with k := (inCond .held).k.setReg Reg.bootStatus 2 }) (fun t => t.k.hub.boot.cond) = some .booting := by
  decide

/-- A part that boots, at a stage and a time. -/
def booting (stage t : Nat) (f : Hub → Hub) : State :=
  withK State.reset ((Chip.reset.setReg Reg.bootStatus (BitVec.ofNat 64 (1 + stage * 256))).onHub (fun h => f { h with time := t }))

/-- A stage of the boot has passed once its greatest duration has. -/
theorem stage_over (k : Chip) (n lo hi : Nat) (h : stageTimes n k.poweredOn = (lo, hi)) (le : lo ≤ hi) (b : k.hub.boot.cond = .booting)
    (at_ : k.stage = n) (late : k.hub.boot.stageAt + 1000 * hi ≤ k.now) : k.stageOver n = true := by
  have := Nat.mod_lt (Config.bootNs k.hub.boot.endAt n) (show 0 < 1000 * (hi - lo) + 1 by omega)
  simp only [Chip.stageOver, b, at_, h, decide_true, Bool.true_and, decide_eq_true_eq]
  omega

/-- The same part after a package reset. -/
def rebooting (stage t : Nat) : State :=
  { booting stage t id with k := (booting stage t id).k.setReg Reg.bootStatus (BitVec.ofNat 64 (2 + stage * 256)) }

theorem witness_BootRunsByStages :
    (let s := booting 1 25000000 id
     live s true ∧ s.k.bootsAt 1 = true ∧ (FwSlot.verified 0).refused (s.k.getF Reg.rindSvn 31 16) = none ∧ FwSlot.unreadable.refused 0 = some 3 ∧
       (FwSlot.badSignature 5).refused 0 ≠ none) ∧
    (let s := booting 3 35000000 id
     s.k.bootsAt 3 = true ∧ s.k.poweredOn = true ∧ s.k.hub.boot.trained = false ∧ s.k.hub.tenantSeen = false ∧
       (booting 3 35000000 (fun h => { h with tenantSeen := true })).k.hub.tenantSeen = true) ∧
    ((booting 4 3930000 id).k.bootsAt 4 = true ∧ (booting 4 3930000 id).k.hub.boot.scrubbed = false) ∧
    ((rebooting 5 1000000).k.bootsAt 5 = true ∧ (rebooting 5 1000000).k.hub.boot.cleared = false) ∧
    (booting 3 63100000 (fun h => { h with boot := { h.boot with trained := true } })).k.bootDone = true ∧
    ready.k.hub.boot.cond ≠ .off ∧ (inCond .off).k.hub.boot.cond = .off := by
  unfold live; dsimp only; (repeat' apply And.intro) <;> decide

/-- The stages that a tick ends, and a part that is in none of them. -/
theorem witness_BootRunsByStages_ticks :
    (booting 0 200000 id).k.stageOver 0 = true ∧ (booting 2 5000000 id).k.stageOver 2 = true ∧
    ((rebooting 3 2000000).k.stageOver 3 = true ∧ (rebooting 3 2000000).k.poweredOn = false ∧ 0 < (rebooting 3 2000000).part.vats) ∧
    (booting 3 0 id).k.poweredOn = true ∧
    (∀ n, (booting 6 0 id).k.stageOver n = false ∨ n = 6) :=
  ⟨stage_over _ 0 100 200 (by decide) (by decide) (by decide) (by decide) (by decide),
   stage_over _ 2 3000 5000 (by decide) (by decide) (by decide) (by decide) (by decide),
   ⟨stage_over _ 3 1000 2000 (by decide) (by decide) (by decide) (by decide) (by decide), by decide, by decide⟩, by decide,
   fun n => by
     by_cases e : n = 6
     · exact .inr e
     · have h : (booting 6 0 id).k.stage = 6 := by decide
       exact .inl (by simp [Chip.stageOver, h, Ne.symm e])⟩

/-- R659: both slots refused: the boot stops FAILED in stage 7. -/
theorem test_no_firmware : got (exec (.firmwareVerify .unreadable .unreadable) (booting 1 25000000 id)) (fun t => (t.k.hub.boot.cond, t.k.getF Reg.bootStatus 11 8)) =
    some (.failed, 7) := by decide

/-- A vat in a power state. -/
def vatIn (p : VatPower) : State := onChip (readyChip.setVat 7 { Vat.reset with power := p })

theorem witness_PowerAndDebugAct :
    (let s := onChip ((readyChip.setReg Reg.pwrPolicy 0x10000).onHub (fun h => { h with time := 1000, pwr := { h.pwr with idleSince := [(7, 0)] } }))
     live s true ∧ 7 < s.part.vats ∧ s.k.getF Reg.pwrPolicy 31 16 = 1 ∧ s.k.awake 7 = true ∧ s.k.flag Reg.pwrWarm 7 = false ∧ s.k.vatIdle 7 = true ∧
       s.k.hub.pwr.idleSince.any (fun e => e.1 = 7 && e.2 + 1000 * 1 ≤ s.k.now) = true) ∧
    (readyChip.setReg Reg.pwrPolicy 0).getF Reg.pwrPolicy 31 16 = 0 ∧ ((vatIn .entering).k.vat 7).power = .entering ∧
      ((vatIn .asleep).k.vat 7).power = .asleep ∧
    ((vatIn .waking).k.vat 7).power = .waking ∧ ((vatIn .awake).k.vat 7).power = .awake ∧ (readyChip.setReg (Reg.vatPwr 7) 0x10000000).boosted 7 = true ∧
    readyChip.boosted 0 = false ∧
    (let s := onHub (fun h => { h with domains := [(0, { keys := [], finger := [], algs := 1, chain := [], dsk := none, grants := 2 })] })
     s.k.dbgTarget.1 < 8 ∧ s.k.scope s.k.dbgTarget.1 s.k.dbgTarget.2 1 = true ∧ ready.k.scope 0 0 1 = false) ∧
    (Part.reset.minWatts ≤ Part.reset.minWatts ∧ readyChip.hub.pwr.thermal = [] ∧ readyChip.capUnmet = false ∧
      (readyChip.setReg Reg.pwrCap 0).getF Reg.pwrCap 15 0 < Part.reset.minWatts) := by
  unfold live; dsimp only; (repeat' apply And.intro) <;> decide

/-- R743: a cap above the part's maximum (750 W for a BM-8 of 64 lanes, Table 16.7) reads the maximum. -/
theorem test_cap_clamped : got (exec (.pwrCapWrite 0xFFFF) ready) (fun t => t.k.getF Reg.pwrCap 15 0) = some 750 := by decide
/-- R730: a wake request of a vat asleep. -/
theorem test_wake : got (exec (.wakeRequest 7) (vatIn .asleep)) (fun t => ((t.k.vat 7).power, t.k.getF (Reg.vatWakes 7) 47 0)) = some (.waking, 1) := by decide

/-! ### The arbiter, the samples and the log -/

/-- A part whose arbiter ticked and whose sensors were sampled at 0, at a time. -/
def tickedAt (t : Nat) : State :=
  onHub (fun h => { h with time := t, pwr := { h.pwr with tickAt := some 0, sampleAt := some 0 } })

/-- A part where a vat stands at a limit and PRESS_LIMIT_FLOOR is 2. -/
def limitAt (v l : Nat) : Chip := (readyChip.setReg Reg.pwrPolicy 2).setF (Reg.vatPwr v) 20 16 l

/-- 999 ns after the last tick and sample, 1,000 ns after, and before the first; a TSV calibration that is due by time, one that is due by heat
and one that is not; a limit at each end of its range; a vat in boost. -/
theorem witness_TicksAndSamplesMoveByOne :
    (live (tickedAt 999) true ∧ (tickedAt 999).k.hub.pwr.tickAt.any (fun t => (tickedAt 999).k.now < t + 1000) = true ∧
      (tickedAt 999).k.hub.pwr.sampleAt.any (fun t => (tickedAt 999).k.now < t + 1000) = true) ∧
    ((tickedAt 1000).k.hub.pwr.tickAt.any (fun t => (tickedAt 1000).k.now < t + 1000) = false ∧
      (tickedAt 1000).k.hub.pwr.sampleAt.any (fun t => (tickedAt 1000).k.now < t + 1000) = false ∧
      ready.k.hub.pwr.tickAt.any (fun t => ready.k.now < t + 1000) = false) ∧
    (let s := onChip ((readyChip.setReg Reg.tsvCalCfg 0x00050001).onHub (fun h => { h with time := 1000000 }))
     7 < s.part.vats ∧ (s.k.die 7 15).calAt + s.k.getF Reg.tsvCalCfg 15 0 * 1000000 ≤ s.k.now) ∧
    (let s := onChip ((readyChip.setReg Reg.tsvCalCfg 0x00050001).onHub (fun h => { h with time := 999999 }))
     s.k.now < (s.k.die 7 15).calAt + s.k.getF Reg.tsvCalCfg 15 0 * 1000000 ∧
       s.k.getF Reg.tsvCalCfg 23 16 ≤ ((s.k.die 7 15).calTemp + 5 - (s.k.die 7 15).calTemp).natAbs ∧
       ((s.k.die 7 15).calTemp - 4 - (s.k.die 7 15).calTemp).natAbs < s.k.getF Reg.tsvCalCfg 23 16) ∧
    ((limitAt 7 1).limitOf 7 = 1 ∧ (limitAt 7 16).limitOf 7 = 16 ∧ (limitAt 7 1).pressLow = 2) ∧
    ((limitAt 7 16).throttled 7 = false ∧ ((limitAt 7 16).onPwr (fun p => { p with throttled := [7] })).throttled 7 = true) := by
  unfold live; dsimp only; (repeat' apply And.intro) <;> decide

/-- R817: a calibration pass that is due counts in its die and notes its time and temperature. -/
theorem test_tsv_counts :
    got (exec (.tsvCalibration 7 15 20 []) (onChip ((readyChip.setReg Reg.tsvCalCfg 0x00050001).onHub (fun h => { h with time := 1000000 }))))
      (fun t => (t.k.getF (Reg.dieTsv 7 15) 31 16, (t.k.die 7 15).calTemp, (t.k.die 7 15).calAt)) = some (1, 20, 1000000) := by decide

/-- An occurrence of a class in bank 0 of die 0 of vat 0. -/
def occOf (c sev : Nat) : LogOcc :=
  { cls := c, sev := sev, vat := 0, die := 0, logical := 0, phys := 0, core := 0, stream := 0, row := 0, word := 0, source := 0, sym := 0, detail := 0
    dpa := none, time := 5 }

/-- A log that holds an occurrence, at index 0, with LOG_WI past it. -/
def loggedChip (o : LogOcc) : Chip :=
  (readyChip.setReg Reg.logWi 1).onLog (fun l => { l with ring := [(0, { first := o, count := 1, last := o.time })], recent := [0] })

/-- A log with nothing waiting and one with an occurrence; a message owed or not, before and after LOG_CFG's gap of 1 µs; a log full and one with
room; an occurrence that coalesces; a bank under suppression. -/
theorem witness_LogEntriesGoAtTheIndex :
    (live ready true ∧ ready.k.hub.logQ = [] ∧ (onHub (fun h => { h with logQ := [occOf 2 2] })).k.hub.logQ = occOf 2 2 :: [] ∧
      ready.k.hub.log.owed = false) ∧
    (let s := onChip (((readyChip.setReg Reg.logCfg 0x10000).onLog (fun l => { l with owed := true, sentAt := some 0 })).onHub
       (fun h => { h with time := 1000 }))
     s.k.hub.log.owed = true ∧ (s.k.hub.log.sentAt.all (fun t => t + 1000 * s.k.getF Reg.logCfg 31 16 ≤ s.k.now)) = true) ∧
    (let s := onChip (((readyChip.setReg Reg.logCfg 0x10000).onLog (fun l => { l with owed := true, sentAt := some 0 })).onHub
       (fun h => { h with time := 999 }))
     s.k.hub.log.sentAt = some 0 ∧ s.k.now < 0 + 1000 * s.k.getF Reg.logCfg 31 16) ∧
    (let k := (readyChip.setReg Reg.logWi 4095).setReg Reg.logRi 0
     (k.getF Reg.logWi 11 0 + 1) % 4096 = k.getF Reg.logRi 11 0) ∧
    ((readyChip.getF Reg.logWi 11 0 + 1) % 4096 ≠ readyChip.getF Reg.logRi 11 0 ∧ (occOf 127 0).cls < 128) ∧
    ((loggedChip (occOf 2 2)).logMatch (occOf 2 2) = some (0, { first := occOf 2 2, count := 1, last := 5 }) ∧ ¬ ((occOf 2 2).cls = 0x01)) ∧
    ((occOf 1 0).cls = 0x01 ∧ (readyChip.setReg (Reg.buEccState 0 0 0) 1).flag (Reg.buEccState 0 0 0) 0 = true) := by
  unfold live; dsimp only; (repeat' apply And.intro) <;> decide

/-- R705: a full log counts what it loses in its class. -/
theorem test_log_full : ((((readyChip.setReg Reg.logWi 4095).setReg Reg.logRi 0).newEntry (occOf 2 2)).getF (Reg.logOvf 2) 15 0) = 1 := by decide
/-- R703: the second occurrence of one kind counts in the first's entry. -/
theorem test_log_coalesces : (((loggedChip (occOf 2 2)).writeLog (occOf 2 2)).hub.log.ring.map (fun e => e.2.count)) = [2] := by decide

/-! ### The Kwadan link -/

/-- A part whose port `p` is in state `st` with package 2 at its other end, whose own package number is 1, and whatever else. -/
def linked (p st : Nat) (f : Chip → Chip) : State :=
  onChip (f ((readyChip.setReg Reg.kwCfg 1).setReg (Reg.kwPortStatus p) (BitVec.ofNat 64 (st + 2 * 1024))))

theorem witness_PortsMoveThroughTheirStates :
    (live (linked 3 1 id) (3 < 4) ∧ (linked 3 1 id).k.portState 3 = 1 ∧ ((linked 3 1 id).k.port 3).failed = false ∧
       (linked 3 1 id).k.portsRun = true ∧ (linked 3 1 (fun k => k.onBoot (fun b => { b with cond := .booting }))).k.portsRun = false) ∧
    ((linked 3 2 id).k.portState 3 = 2 ∧ trainedWidth 0 = none ∧ trainedWidth 15 = some (2, 15) ∧ trainedWidth 13 = some (1, 12) ∧
       trainedWidth 6 = some (0, 2)) ∧
    (linked 3 3 id).k.portState 3 = 3 ∧
    (let s := linked 3 4 (fun k => k.onHub (fun h => { h with owners := [[7]] }))
     let c : PeerCheck := { chain := true, finger := [7], pool := 0, pkg := 2, svn := 0xFFFF }
     s.k.portState 3 = 4 ∧ s.k.getF Reg.rindStatus 1 0 ≠ 3 ∧ (s.k.setReg Reg.rindStatus 3).getF Reg.rindStatus 1 0 = 3 ∧
       s.k.authFails c = none ∧ s.k.authFails { c with chain := false } = some 1 ∧ s.k.authFails { c with finger := [8] } = some 2 ∧
       s.k.authFails { c with pkg := 1 } = some 3 ∧ (s.k.setF Reg.rindSvn 31 16 1).authFails { c with svn := 0 } = some 4) ∧
    (let s := linked 3 1 (fun k => (k.setPort 3 { Port.reset with failed := true }).onHub (fun h => { h with time := 10 ^ 9 }))
     s.k.portState 3 = 1 ∧ (s.k.port 3).failed = true ∧ (s.k.port 3).since + 10 ^ 9 ≤ s.k.now) ∧
    (let x : Port := { Port.reset with lanes := 3, txKeyed := 2 ^ 40, rxKeyed := some (2 ^ 40) }
     let s := linked 3 5 (fun k => k.setPort 3 x)
     s.k.portState 3 = 5 ∧ s.k.port 3 = x ∧ (6 : BitVec 4).toNat &&& x.lanes ≠ 0 ∧ (12 : BitVec 4).toNat &&& x.lanes = 0 ∧
       (decide (2 ^ 40 ≤ x.txKeyed) && x.replay.isEmpty) = true ∧ decide (2 ^ 40 ≤ x.rxKeyed.getD 0) = true ∧
       (decide (2 ^ 40 ≤ Port.reset.txKeyed) && Port.reset.replay.isEmpty) = false ∧ decide (2 ^ 40 ≤ Port.reset.rxKeyed.getD 0) = false) ∧
    (let s := linked 3 6 (fun k => k.onHub (fun h => { h with time := 19999999 }))
     s.k.portState 3 = 6 ∧ s.k.portsRun = true ∧ s.k.now < (s.k.port 3).since + 20 * 10 ^ 6) ∧
    (let s := linked 3 6 (fun k => k.onHub (fun h => { h with time := 20000000 }))
     s.k.portState 3 = 6 ∧ (s.k.port 3).since + 20 * 10 ^ 6 ≤ s.k.now ∧ s.k.portState 3 ≠ 5) := by
  unfold live; dsimp only; (repeat' apply And.intro) <;> decide

/-- R771: ENABLE takes a port from OFF to DETECT. -/
theorem test_port_enable : got (exec (.kwPortEnable 3 true) ready) (fun t => (t.k.portState 3, t.k.getF (Reg.kwPortCtl 3) 0 0)) = some (1, 1) := by decide
/-- R770: a port that has not come back in 20 ms goes to DETECT. -/
theorem test_retrain_fails :
    got (exec (.retrainEnd 3) (linked 3 6 (fun k => k.onHub (fun h => { h with time := 20000000 })))) (fun t => t.k.portState 3) = some 1 := by decide

/-- A DATA flit of no payload byte on channel 1 that ends a message, with whatever type and FSEQ, whose CRC holds; and the same with a tag. -/
def bareFlit (typ fseq : Nat) (more : List Byte) : List Byte :=
  let bs := leBytes 1 (typ + 8 + 64) ++ [0, 0, 0] ++ leBytes 2 fseq ++ [0, 0] ++ more
  bs ++ (leBytes 8 (crc64 bs).toNat).reverse

/-- A MIRROR_CLOSE of handle 77. -/
def closeMsg : List Byte := (KwMsg.mirrorClose { domain := 0, model := 0, handle := 77, seq := 6, tokens := 0, tail := 0, tailCount := 0, oldest := 0 }).encode

/-- A port in the middle of a message on channel 1. -/
def midPort : Port := { Port.reset with rxMsg := [[], closeMsg, [], []] }

theorem witness_FlitsAreReliable :
    (let s := linked 3 5 (fun k => k.setPort 3 midPort)
     let k0 := s.k.noteFec 3 (0, 1)
     let y := (k0.takeAck 3 0).port 3
     live s (3 < 4) ∧ s.k.portState 3 = 5 ∧ uncorrectable (0, 1) = false ∧ uncorrectable (5, 0) = true ∧ uncorrectable (4, 4) = false ∧
       crcHolds [1] = false ∧ crcHolds (bareFlit 1 0 []) = true ∧ crcHolds (bareFlit 1 5 []) = true ∧ crcHolds (bareFlit 2 0 []) = true ∧
       flitType (bareFlit 1 0 []) = 1 ∧ flitType (bareFlit 2 0 []) ≠ 1 ∧
       openFlit (k0.port 3).rxKey ((k0.port 3).countOf 0) (bareFlit 1 0 []) = some [] ∧
       openFlit (k0.port 3).rxKey ((k0.port 3).countOf 5) (bareFlit 1 5 []) = some [] ∧
       flitFseq (bareFlit 1 0 []) = y.rxSeq ∧ flitFseq (bareFlit 1 5 []) ≠ y.rxSeq ∧ flitAckseq (bareFlit 1 0 []) = 0 ∧
       (byteAt (bareFlit 1 0 []) 0).testBit 6 = true ∧ (byteAt (bareFlit 1 0 []) 0).testBit 5 = false ∧
       flitChannel (bareFlit 1 0 []) = 1 ∧ y.rxMsg.getD 1 [] = closeMsg) ∧
    ((linked 3 6 id).k.portState 3 ≠ 5) ∧
    (let x : Port := { Port.reset with txSeq := 3, replay := List.replicate 4 { channel := 0, som := false, eom := false, payload := [] }
                                       lastResent := 65535, resends := 7 }
     x.txOldest = 65535 ∧ (65535 + 2 ^ 16 - x.txOldest) % 2 ^ 16 < x.replay.length ∧ x.lastResent = (65535 : BitVec 16).toNat ∧ 8 ≤ x.resends + 1 ∧
       x.lastResent ≠ (1 : BitVec 16).toNat ∧ (1 + 2 ^ 16 - x.txOldest) % 2 ^ 16 < x.replay.length ∧
       x.replay.length ≤ (3 + 2 ^ 16 - x.txOldest) % 2 ^ 16) := by
  unfold live; dsimp only; (repeat' apply And.intro) <;> decide +kernel

/-- A flit whose tag fails: its CRC holds. -/
theorem witness_FlitsAreReliable_tag :
    crcHolds (bareFlit 1 0 (List.replicate 224 0)) = true ∧ openFlit [] 0 (bareFlit 1 0 (List.replicate 224 0)) = none := by
  constructor <;> decide +kernel

/-- What a message reads as: one about a context, one of no type of Table 17.4 but the two that the part decides, and a MIRROR_FULL. -/
theorem witness_FlitsAreReliable_messages (k : Chip) :
    k.readMsg closeMsg = some (.mirrorClose { domain := 0, model := 0, handle := 77, seq := 6, tokens := 0, tail := 0, tailCount := 0, oldest := 0 }) ∧
    (k.readMsg ([1] ++ List.replicate 31 0)).isSome = true ∧ (∃ t : Byte, k.readMsg [t] = none) := by
  refine ⟨rfl, rfl, ?_⟩
  by_cases a : (0x30 : Nat) ≠ Config.askType.toNat ∧ (0x30 : Nat) ≠ Config.manifestType.toNat
  · exact ⟨0x30, by simp [Chip.readMsg, byteAt, a]⟩
  · by_cases b : (0x31 : Nat) ≠ Config.askType.toNat ∧ (0x31 : Nat) ≠ Config.manifestType.toNat
    · exact ⟨0x31, by simp [Chip.readMsg, byteAt, b]⟩
    · have c : (0x32 : Nat) ≠ Config.askType.toNat ∧ (0x32 : Nat) ≠ Config.manifestType.toNat := by omega
      exact ⟨0x32, by simp [Chip.readMsg, byteAt, c]⟩

/-- R766, R775: a flit in order moves the number expected; its message ends. -/
theorem test_data_flit :
    got (exec (.dataFlit 3 { content := bareFlit 1 0 [], errors := (0, 1) }) (linked 3 5 (fun k => k.setPort 3 midPort)))
      (fun t => ((t.k.port 3).rxSeq, (t.k.port 3).rxMsg)) = some (1, [[], [], [], []]) := by decide +kernel
/-- R775: a credit count of a channel stops at 256. -/
theorem test_credit_cap : got (exec (.credit 3 0 { n := 1, head := { ackseq := 0, errors := (0, 0) } }) (linked 3 5 id)) (fun t => (t.k.port 3).credits) =
    some [256, 256, 256, 256] := by decide

/-- An empty flit on a channel. -/
def flitOn (c : Nat) : DataOut := { channel := c, som := true, eom := true, payload := [] }

theorem witness_PumpingSpendsCredits :
    Port.reset.txWait = [] ∧ Port.reset.txSeq < 2 ^ 16 ∧ (∀ f, f ∈ [flitOn 0, flitOn 3, flitOn 0] → f.channel < Port.reset.credits.length) ∧
    Port.reset.replay.length ≤ 1024 ∧ Port.reset.txKeyed ≤ 2 ^ 40 := by decide

/-- R775: a channel without a credit waits, and another passes it. -/
theorem test_pump : ((Port.pump [flitOn 0, flitOn 1] { Port.reset with credits := [0, 1, 0, 0] } 0).1.txWait,
    (Port.pump [flitOn 0, flitOn 1] { Port.reset with credits := [0, 1, 0, 0] } 0).2) = ([flitOn 0], 1) := by decide

/-- A copy held for package 2. -/
def held (b : Standby) : Ctx := { aCtx with state := .standby, standby := some b }

/-- What a copy of package 2's context of handle 77 at sequence 5 carries. -/
def aCopy : Standby := { pkg := 2, handle := 77, seq := 5, reviewed := none, spill := true, held := [], asked := false }

/-- A message's header for handle 77. -/
def hdrAt (seq : Nat) : CtxHdr := { domain := 0, model := 0, handle := 77, seq := seq, tokens := 0, tail := 0, tailCount := 0, oldest := 0 }

/-- The same part with the contexts given, its port 3 ACTIVE, and die 3 of vat 0 alone to place a copy on. -/
def peered (cs : List (Nat × Ctx)) (f : Chip → Chip) : State :=
  serve cs [] (fun k => f (((k.setReg (Reg.vatStatus 0) 7).setReg Reg.kwCfg 1).setReg (Reg.kwPortStatus 3) (5 + 2 * 1024)))

/-- An image of page 0 of the model's one layer. -/
def anImage : PageImage := { layer := 0, page := 0, tier := 2, opened := true, data := List.replicate 2048 0, scales := List.replicate 256 0 }

/-- An affinage job of the context at index 0 on the bank of its page 1. -/
def anAff : AffJob :=
  { ctx := 0, kind := 1, page := { layer := 0, page := 1, tier := 2, opened := false, bank := 1, row := 2048, gran := 0, entry := 0 }, row := 2048, gran := 0 }

/-- A copy that finds room and one that does not (its model unknown). -/
theorem witness_CopiesFollowAndChangeHands_new :
    (live (peered [] id) (3 < 4) ∧ (peered [] id).k.portState 3 = 5 ∧ (peered [] id).k.peerOfPort 3 = 2 ∧ (peered [] id).k.copyOf 2 77 = none) ∧
    ((machOf (peered [] id)).holdCopy 8 2 (hdrAt 1) [1] [anImage] false).isSome = true ∧
    ((machOf (peered [] id)).holdCopy 8 2 (hdrAt 1) [1] [anImage] true).isSome = true ∧
    ((machOf (peered [] id)).holdCopy 8 2 { hdrAt 1 with model := 9 } [1] [anImage] false).isNone = true ∧
    ((machOf (peered [] id)).holdCopy 8 2 { hdrAt 1 with model := 9 } [1] [anImage] true).isNone = true := by
  unfold live; dsimp only; (repeat' apply And.intro) <;> decide +kernel

/-- A copy that is held: sequence numbers old, next and beyond a gap; one spilled here. -/
theorem witness_CopiesFollowAndChangeHands_held :
    let s := peered [(0, held aCopy)] id
    let w := peered [(0, held aCopy)] (fun k => k.onHub (fun h => { h with affs := [anAff] }))
    s.k.copyOf 2 77 = some (0, held aCopy, aCopy) ∧ newer aCopy.seq 5 = false ∧ newer aCopy.seq 6 = true ∧ 6 = (aCopy.seq + 1) % 2 ^ 32 ∧
      newer aCopy.seq 7 = true ∧ 7 ≠ (aCopy.seq + 1) % 2 ^ 32 ∧ newer aCopy.seq 4 = false ∧ 4 ≠ (aCopy.seq + 1) % 2 ^ 32 ∧ aCopy.spill = true ∧
      s.k.hasAff 0 = false ∧ w.k.hasAff 0 = true ∧ w.k.copyOf 2 77 = some (0, held aCopy, aCopy) ∧
      ((machOf s).replaceCopy 8 0 (held aCopy) { aCopy with spill := true, held := [] } (hdrAt 6) [anImage]).isSome = true ∧
      ((machOf s).replaceCopy 8 0 (held aCopy) aCopy (hdrAt 6) [anImage]).isSome = true ∧
      ((machOf s).replaceCopy 8 0 { held aCopy with model := 9 } aCopy { hdrAt 6 with model := 9 } []).isNone = true ∧
      s.k.updateWaits 0 (held aCopy) { hdrAt 6 with tail := 1 } = false ∧ w.k.updateWaits 0 (held aCopy) { hdrAt 6 with tail := 1 } = true ∧
      ((machOf s).applyUpdate 8 0 (held aCopy) aCopy (hdrAt 6) []).isSome = true ∧
      ((machOf s).applyUpdate 8 0 { held aCopy with model := 9 } aCopy (hdrAt 6) []).isNone = true ∧
      ((machOf w).takeFull 8 2 (hdrAt 6) [] []).isNone = true ∧
      s.k.ctx 0 = some (held aCopy) ∧ aCopy.seq = (hdrAt 5).seq ∧ aCopy.reviewed ≠ some 5 ∧ { aCopy with reviewed := some 5 }.reviewed = some 5 ∧
      { aCopy with spill := false }.spill = false := by
  dsimp only; (repeat' apply And.intro) <;> decide +kernel

/-- A context that has been recalled, one that is offered, and neither. -/
theorem witness_CopiesFollowAndChangeHands_spilled :
    (let c := { aCtx with state := .spilled, spill := .recalled, holder := 2, mirrorSeq := 6 }
     let s := peered [(0, c)] id
     s.k.hub.ctxs.find? (fun x => x.2.handle x.1 = c.handle 0 && x.2.state = .spilled && x.2.spill = .recalled && x.2.holder = 2) = some (0, c) ∧
       c.mirrorSeq = (hdrAt 6).seq ∧ c.mirrorSeq ≠ (hdrAt 5).seq ∧ c.mirrored = false ∧ { c with mirrored := true }.mirrored = true ∧
       (s.k.homeImages 0 [anImage]).isSome = true ∧ ((s.k.setReg (Reg.vatStatus 0) 15).homeImages 0 [anImage]).isNone = true) ∧
    (let c := { aCtx with vat := 5, spill := .offered, holder := 2, mirrorSeq := 6 }
     let s := peered [(0, c)] id
     s.k.offeredTo 2 { hdrAt 6 with handle := c.handle 0 } = some (0, c) ∧ (1 : BitVec 8).toNat ≠ 0 ∧ s.k.hasAff 0 = false ∧
       ((machOf s).freePages c).k.model c.model = some aModel ∧
       (s.k.onHub (fun h => { h with affs := [anAff] })).hasAff 0 = true) ∧
    ((peered [(0, held aCopy)] id).k.offeredTo 2 (hdrAt 5) = none ∧ (peered [(0, held aCopy)] id).k.copyOf 2 77 = some (0, held aCopy, aCopy) ∧
       aCopy.spill = true ∧ aCopy.seq = (hdrAt 5).seq ∧ aCopy.seq ≠ (hdrAt 4).seq) ∧
    ((peered [] id).k.offeredTo 2 (hdrAt 6) = none ∧ (peered [] id).k.copyOf 2 77 = none) := by
  dsimp only; (repeat' apply And.intro) <;> decide +kernel

/-- A gap that is 1 ms old, one that is filled, and none; a backlog at half its limit and one below it; a source that is there and one that is not,
with copies and without; a holder lost for LOST_MS and for less. -/
theorem witness_CopiesFollowAndChangeHands_own :
    (let b := { aCopy with held := [(0, .mirrorUpdate (hdrAt 7) [])] }
     let s := peered [(0, held b)] (fun k => k.onHub (fun h => { h with time := 10 ^ 6 }))
     let old (x : Nat × KwMsg) : Bool := decide (x.1 + 10 ^ 6 ≤ s.k.now)
     live s true ∧ s.k.ctx 0 = some (held b) ∧ (held b).standby = some b ∧ b.asked = false ∧ b.held.any old = true ∧ aCopy.held.any old = false ∧
       ((Mach.drainHeld 8 0 b.held.length (machOf s)).k.ctx 0).bind (·.standby) = some b) ∧
    (let b := { aCopy with held := [(0, .mirrorReview (hdrAt 5) [])] }
     let s := peered [(0, held b)] (fun k => k.onHub (fun h => { h with time := 10 ^ 6 }))
     s.k.ctx 0 = some (held b) ∧ b.held.any (fun x => decide (x.1 + 10 ^ 6 ≤ s.k.now)) = true ∧
       (((Mach.drainHeld 8 0 b.held.length (machOf s)).k.ctx 0).bind (·.standby)).map (·.held) = some []) ∧
    ((peered [] (fun k => k.setReg Reg.kwMirror 0)).k.backlogLimit ≤ 2 * (peered [] (fun k => k.setReg Reg.kwMirror 0)).k.backlog 0) ∧
    (2 * (peered [] (fun k => k.setReg Reg.kwMirror 1)).k.backlog 0 < (peered [] (fun k => k.setReg Reg.kwMirror 1)).k.backlogLimit) ∧
    ((peered [] id).k.portTo (2 : BitVec 2).toNat).isSome = true ∧ (peered [] id).k.portTo (3 : BitVec 2).toNat = none ∧
    ((peered [(0, held aCopy)] id).k.hub.ctxs.filter (fun c => c.2.state = .standby &&
      match c.2.standby with | some b => b.pkg = (2 : BitVec 2).toNat | none => false) ≠ []) ∧
    ((peered [] id).k.hub.ctxs.filter (fun c => c.2.state = .standby &&
      match c.2.standby with | some b => b.pkg = (2 : BitVec 2).toNat | none => false) = []) ∧
    (let c := { aCtx with state := .spilled, spill := .away, holder := 3 }
     let s := peered [(0, c)] (fun k => (k.setReg Reg.kwSpill 0x40000001).onHub (fun h => { h with time := 10 ^ 6, peerDown := [(3, 0)] }))
     s.k.ctx 0 = some c ∧ c.state = .spilled ∧ s.k.downSince c.holder = some 0 ∧ 0 + s.k.getF Reg.kwSpill 15 0 * 10 ^ 6 ≤ s.k.now ∧
       0 < 0 + s.k.getF Reg.kwSpill 15 0 * 10 ^ 6) := by
  unfold live; dsimp only; (repeat' apply And.intro) <;> decide +kernel

/-- R783: a promoted copy is LIVE, of the next generation, and KW_PROMOTE_RESULT says so. -/
theorem test_promote : got (exec (.kwPromote 2 true) (peered [(0, held aCopy)] id)) (fun t => ((t.k.ctx 0).map (fun c => (c.state, c.gen)), t.k.getF Reg.kwPromoteResult 20 0)) =
    some (some (.live, 1), 1) := by decide

/-- The 32 bytes of a record of a cookie. -/
def fwdRecord (cookie : Nat) : List Byte := List.replicate 8 0 ++ leBytes 8 cookie ++ List.replicate 16 0

/-- A FWD_JOB new, seen before, answered before, and accepted on another port; a part that serves none; a job that waits for a result; jobs forwarded to
a peer lost for 1 ms and for less. -/
theorem witness_ForwardedJobsRun :
    (let s := linked 3 5 (fun k => k.setPort 3 { Port.reset with fwdSeen := 4, answers := [(4, fwdRecord 1)] })
     live s (3 < 4) ∧ s.k.portState 3 = 5 ∧ s.k.peerOfPort 3 = 2 ∧ s.k.serving = true ∧ (s.k.setReg Reg.bootStatus 0).serving = false ∧ 15 < 16 ∧
       s.k.fwdAnswer 3 2 4 (fwdRecord 9) = some (fwdRecord 1) ∧ s.k.fwdAnswer 3 2 5 (fwdRecord 9) = none ∧
       newer (s.k.port 3).fwdSeen 5 = true ∧ newer (s.k.port 3).fwdSeen 3 = false ∧ s.k.fwdTwice 3 2 5 (fwdRecord 9) = false ∧ s.k.nextTag.isSome = true ∧
       (s.k.onHub (fun h => { h with nextTag := 65536 })).nextTag = none) ∧
    (let j := { aJob .waiting with origin := .port 1 5, source := fwdRecord 9 }
     let s := linked 3 5 (fun k => (k.setReg (Reg.kwPortStatus 1) (5 + 2 * 1024)).onHub (fun h => { h with jobs := [(5, j)] }))
     s.k.fwdTwice 3 2 5 (fwdRecord 9) = true) ∧
    (let s := linked 3 5 (fun k => k.onHub (fun h => { h with jobs := [(5, aJob (.forwarded 2 9))] }))
     s.k.peerOfPort 3 = 2 ∧ s.k.hub.jobs.find? (fun j => j.2.phase = .forwarded 2 9) = some (5, aJob (.forwarded 2 9)) ∧
       s.k.hub.jobs.find? (fun j => j.2.phase = .forwarded 2 8) = none) ∧
    ((linked 3 6 id).k.portState 3 ≠ 5) ∧
    (let s := onHub (fun h => { h with time := 10 ^ 6, peerDown := [(2, 0)], jobs := [(5, aJob (.forwarded 2 9))] })
     s.k.downSince 2 = some 0 ∧ 0 + 10 ^ 6 ≤ s.k.now ∧
       s.k.hub.jobs.filter (fun j => match j.2.phase with | .forwarded q _ => q = 2 | _ => false) ≠ []) ∧
    (ready.k.downSince 2 = some 0 ∧ ready.k.now < 0 + 10 ^ 6 ∧
       ready.k.hub.jobs.filter (fun j => match j.2.phase with | .forwarded q _ => q = 2 | _ => false) = []) := by
  unfold live; dsimp only; (repeat' apply And.intro) <;> decide +kernel

end Sys2Proof.Tests
end

section
/-!
PROOFS. Family 04, bank units: the events of a die's queues (O29). Each event has one lemma that says what `exec` comes to once the event's condition
holds; the registers of a program that begins have lemmas of their own about `Bu.begin`.
-/

namespace Sys2Proof.Proofs

open Sys2Proof.Machine Sys2Proof.Safety Sys2Proof.Laws

/-! ### A unit whose vat runs -/

/-- What a vat's clocks make on a unit that is there. -/
theorem onVat_liveOn {s : State} {ok : Bool} {v : Nat} (f : Chip → Chip) (h : liveOn s ok v) :
    s.onVat ok v f = .next (withK s (f s.k)) := by
  obtain ⟨⟨hok, halive⟩, hruns⟩ := h
  exact onVat_next s ok v f hok halive hruns

theorem liveOn_hasLogical {s : State} {v d a : Nat} (h : liveOn s (s.hasDie v d) v) (ha : a < 100) : liveOn s (s.hasLogical v d a) v := by
  obtain ⟨⟨hdie, halive⟩, hruns⟩ := h
  exact ⟨⟨by simp [State.hasLogical, hdie, ha], halive⟩, hruns⟩

theorem liveOn_hasCore {s : State} {v d c : Nat} (h : liveOn s (s.hasDie v d) v) (hc : c < 4) : liveOn s (s.hasCore v c) v := by
  obtain ⟨⟨hdie, halive⟩, hruns⟩ := h
  simp only [State.hasDie, Bool.and_eq_true] at hdie
  exact ⟨⟨by simp [State.hasCore, hdie.1, hc], halive⟩, hruns⟩

/-! ### Completions in CPL -/

@[simp] theorem count_die (k : Chip) (o n v d : Nat) : (k.count o n).die v d = k.die v d := by
  simp only [Chip.count]; split <;> rfl

theorem postCpl_landed_iff (k : Chip) (v c : Nat) (e : BitVec 512) : (k.postCpl v c e).2 = true ↔ (k.core v c).cpl.length < 1024 := by
  simp only [Chip.postCpl]; split <;> simp [*]

theorem postCpl_full (k : Chip) (v c : Nat) (e : BitVec 512) (h : 1024 ≤ (k.core v c).cpl.length) :
    k.postCpl v c e = (k.raise (Reg.cplStatus v c) 31, false) := by
  simp only [Chip.postCpl, if_neg (Nat.not_lt.mpr h)]

@[simp] theorem postCpl_die (k : Chip) (v c : Nat) (e : BitVec 512) (v' d : Nat) : (k.postCpl v c e).1.die v' d = k.die v' d := by
  simp only [Chip.postCpl]
  split
  · rw [count_die, setCore_die]
  · rfl

/-! ### The events -/

/-- R190: the bytes of a write land in the scratch of one bank unit. -/
def landScratch (v d off : Nat) (bs : List Byte) (k : Chip) (a : Nat) : Chip := k.setUnit v d a ((k.unit v d a).scratchWrite off bs)

/-- Which bank units can be started does not depend on the writes that wait. -/
@[simp] theorem startable_withWrites (x : Die) (ws : List DieCmd) : Die.startable { x with writes := ws } = x.startable := rfl

section Events

variable {s : State} {v d : Nat} (h : liveOn s (s.hasDie v d) v)
include h

/-- R180, R181: the first start that nothing holds reaches each bank unit of its mask. -/
theorem exec_buStartArrival {mask : Nat} {group : Bool} {cmd : StartCmd} {rest : List DieCmd}
    (hp : pickCmd DieCmd.isStart (s.k.startFree v d) 0 [] (s.k.die v d).cmds = some (.start mask group cmd, rest)) (hm : mask ≠ 0) :
    exec (.buStartArrival v d) s = .next (withK s
      ((maskList mask).foldl (fun k a => k.startUnit v d a cmd) (s.k.setDie v d { s.k.die v d with cmds := rest }))) := by
  change execBuStartArrival v d s = _
  rw [execBuStartArrival, onVat_liveOn _ h]
  simp only [hp, if_neg hm]

/-- R339, R342: the first load that nothing holds is written into the store of each bank unit of its mask that can be started. -/
theorem exec_buPstoreLoad {mask off : Nat} {ws : List Word} {rest : List DieCmd}
    (hp : pickCmd DieCmd.isLoad (s.k.loadFree v d) 0 [] (s.k.die v d).cmds = some (.load mask off ws, rest)) :
    exec (.buPstoreLoad v d) s = .next (withK s
      ((maskList mask).foldl (fun k a => if (k.die v d).startable a then k.setUnit v d a ((k.unit v d a).loadStore off ws) else k)
        ((s.k.setDie v d { s.k.die v d with cmds := rest }).count (Reg.tsvDownBytes v) (8 * ws.length)))) := by
  change execBuPstoreLoad v d s = _
  rw [execBuPstoreLoad, onVat_liveOn _ h]
  simp only [hp]

/-- R179, R181, R433: the pending start of a bank unit begins, or is NOT_STARTED on one that serves no program. -/
theorem exec_pendingStartBegin {a : Nat} {cmd : StartCmd} (ha : a < 100) (hw : (s.k.unit v d a).waiting = some cmd)
    (hr : (s.k.unit v d a).run ≠ .run) (hd : (s.k.unit v d a).dropped = []) (hc : s.k.awaitsPlace v d a = false) :
    exec (.pendingStartBegin v d a) s = .next (withK s
      (if s.k.startable v d a then
        s.k.setUnit v d a ({ s.k.unit v d a with waiting := none }.begin a s.k.now (s.k.fenceLimit v d) cmd)
      else (s.k.setUnit v d a { s.k.unit v d a with waiting := none }).completeStart v d a cmd.seq .notStarted)) := by
  change execPendingStartBegin v d a s = _
  rw [execPendingStartBegin, onVat_liveOn _ (liveOn_hasLogical h ha)]
  by_cases hs : s.k.startable v d a = true
  · simp [hw, hr, hd, hc, hs]
  · simp [hw, hr, hd, hc, hs]

/-- R183, R184, R858: a program whose slots have ended completes its start; then the starts that a stop discarded are NOT_STARTED. -/
theorem exec_buProgramEnd {a : Nat} {st : EndStatus} {cmd : StartCmd} (ha : a < 100) (he : (s.k.unit v d a).ending = some st)
    (hst : (s.k.unit v d a).start = some cmd) (ho : (s.k.unit v d a).slotsOpen = false) :
    exec (.buProgramEnd v d a) s = .next (withK s
      ((s.k.unit v d a).dropped.foldl (fun k w => k.completeStart v d a w.seq .notStarted)
        ((s.k.setUnit v d a { (s.k.unit v d a).ended st with dropped := [] }).completeStart v d a cmd.seq st))) := by
  change execBuProgramEnd v d a s = _
  rw [execBuProgramEnd, onVat_liveOn _ (liveOn_hasLogical h ha)]
  simp only [he, hst, ho, Bool.false_eq_true, if_false]

/-- R433, R434: the oldest completion lands in a CPL that has room. -/
theorem exec_buCompletionPost_room {e : BitVec 512} {rest : List (BitVec 512)} (hp : (s.k.die v d).posts = e :: rest)
    (hroom : (s.k.core v (ownerOf d)).cpl.length < 1024) :
    exec (.buCompletionPost v d) s = .next (withK s
      ((s.k.postCpl v (ownerOf d) (e ||| BitVec.ofNat 512 (s.k.now * 2 ^ 448))).1.setDie v d { s.k.die v d with posts := rest })) := by
  change execBuCompletionPost v d s = _
  rw [execBuCompletionPost, onVat_liveOn _ h]
  simp only [hp, (postCpl_landed_iff _ _ _ _).mpr hroom, if_true, postCpl_die]

/-- R433: it waits where CPL is full. -/
theorem exec_buCompletionPost_full {e : BitVec 512} {rest : List (BitVec 512)} (hp : (s.k.die v d).posts = e :: rest)
    (hfull : 1024 ≤ (s.k.core v (ownerOf d)).cpl.length) :
    exec (.buCompletionPost v d) s = .next (withK s (s.k.raise (Reg.cplStatus v (ownerOf d)) 31)) := by
  change execBuCompletionPost v d s = _
  rw [execBuCompletionPost, onVat_liveOn _ h]
  simp only [hp, postCpl_full _ _ _ _ hfull, Bool.false_eq_true, if_false]

/-- R189: the oldest write, where it is a broadcast, lands in every bank unit of indices 0 to 95 that serves one. -/
theorem exec_tsvWriteLand_broadcast {off : Nat} {bs : List Byte} {rest : List DieCmd} (hw : (s.k.die v d).writes = .write none off bs :: rest) :
    exec (.tsvWriteLand v d) s = .next (withK s (((List.range 96).filter (s.k.die v d).startable).foldl (landScratch v d off bs)
      ((s.k.setDie v d { s.k.die v d with writes := rest }).count (Reg.tsvDownBytes v) bs.length))) := by
  change execTsvWriteLand v d s = _
  rw [execTsvWriteLand, onVat_liveOn _ h]
  simp only [hw, die_setDie_same, startable_withWrites]
  rfl

/-- R381: the oldest write, where it is directed, lands in its bank unit, if that serves one. -/
theorem exec_tsvWriteLand_directed {a off : Nat} {bs : List Byte} {rest : List DieCmd}
    (hw : (s.k.die v d).writes = .write (some a) off bs :: rest) :
    exec (.tsvWriteLand v d) s = .next (withK s
      (if (s.k.die v d).startable a then
        landScratch v d off bs ((s.k.setDie v d { s.k.die v d with writes := rest }).count (Reg.tsvDownBytes v) bs.length) a
      else s.k.setDie v d { s.k.die v d with writes := rest })) := by
  change execTsvWriteLand v d s = _
  rw [execTsvWriteLand, onVat_liveOn _ h]
  simp only [hw, die_setDie_same, startable_withWrites]
  rfl

/-- R274, R381: the oldest scratch read comes back into the operand cache, from a bank unit that serves one. -/
theorem exec_scratchReadComplete {c a off len oc : Nat} (hc : c < 4) (ho : (s.k.stream v c 0).oldest = some (.sread d a off len oc)) :
    exec (.scratchReadComplete v c) s = .next (withK s (Chip.finish
      (if (s.k.die v d).startable a then
        (s.k.setCore v c ((s.k.core v c).ocWrite oc (lookupRun 0 (s.k.unit v d a).scratch off len) false)).count (Reg.tsvUpBytes v) len
       else s.k) v c 0 (.sread d a off len oc))) := by
  change execScratchReadComplete v c s = _
  rw [execScratchReadComplete, onVat_liveOn _ (liveOn_hasCore h hc)]
  simp only [ho]

end Events

/-! ### A program that begins (R178, R343) -/

section Begin

variable (u : Bu) (a now limit : Nat) (cmd : StartCmd)

theorem begin_sregs : (u.begin a now limit cmd).sregs = cmd.args ++ (List.replicate 11 0 ++ [BitVec.ofNat 32 a]) :=
  List.append_assoc ..

variable (hargs : cmd.args.length = 4)
include hargs

theorem begin_sregs_length : (u.begin a now limit cmd).sregs.length = 16 := by
  simp [begin_sregs, hargs]

/-- S0 to S3 take the arguments. -/
theorem begin_sregs_arg (i : Nat) (hi : i < 4) : (u.begin a now limit cmd).sregs.getD i 0 = cmd.args.getD i 0 := by
  rw [begin_sregs, List.getD_append _ _ _ _ (by omega)]

/-- S4 to S14 take zero. -/
theorem begin_sregs_zero (i : Nat) (hlo : 4 ≤ i) (hhi : i < 15) : (u.begin a now limit cmd).sregs.getD i 0 = 0 := by
  rw [begin_sregs, List.getD_append_right _ _ _ _ (by omega), List.getD_append _ _ _ _ (by simp; omega), List.getD_replicate _ (by omega)]

/-- S15 takes the bank unit's own logical index. -/
theorem begin_sregs_index : (u.begin a now limit cmd).sregs.getD 15 0 = BitVec.ofNat 32 a := by
  rw [begin_sregs, List.getD_append_right _ _ _ _ (by omega), hargs]
  rfl

end Begin

/-- Settles O29: each event by the lemma that says what it comes to, and the registers of a program that begins by those about `Bu.begin`. No
register moves when a bank unit is replaced, so BU_NUMFLAGS stays. -/
theorem dieQueuesMoveAndStart : Obligations.DieQueuesMoveAndStart := by
  unfold Obligations.DieQueuesMoveAndStart
  refine ⟨fun s v d h => ⟨?start, ?load, ?pending, ?programEnd, ?room, ?full, ?write, ?read⟩, ?registers⟩
  case start => exact fun _ _ _ _ hp hm => exec_buStartArrival h hp hm
  case load => exact fun _ _ _ _ hp => exec_buPstoreLoad h hp
  case pending => exact fun _ _ ha hw hr hd hc => exec_pendingStartBegin h ha hw hr hd hc
  case programEnd => exact fun _ _ _ ha he hst ho => exec_buProgramEnd h ha he hst ho
  case room => exact fun _ _ hp hroom => exec_buCompletionPost_room h hp hroom
  case full => exact fun _ _ hp hfull => exec_buCompletionPost_full h hp hfull
  case write =>
    intro target off bs rest hw
    cases target with
    | none => exact exec_tsvWriteLand_broadcast h hw
    | some a => exact exec_tsvWriteLand_directed h hw
  case read => exact fun _ _ _ _ _ hc ho => exec_scratchReadComplete h hc ho
  case registers =>
    intro u a now limit cmd hargs
    exact ⟨rfl, rfl, rfl, rfl, begin_sregs_arg u a now limit cmd hargs, begin_sregs_zero u a now limit cmd hargs,
      begin_sregs_index u a now limit cmd hargs, begin_sregs_length u a now limit cmd hargs, rfl, rfl, rfl, fun k v d => setBu_reg ..⟩

end Sys2Proof.Proofs
end

section
/-!
PROOFS. Family 06, the tensor core: the fault record of a core (O11), and what the press's clears and passes touch (O27). A fault comes to one of two
equations, by CORE_FAULT.VALID; a pass is a run of writes of accumulator words, so a property that each of those keeps holds of the pass.
-/

namespace Sys2Proof.Proofs

open Sys2Proof.Machine Sys2Proof.Laws

/-! ### Fields of a register -/

@[simp] theorem setStream_getF (k : Chip) (v c t : Nat) (y : Stream) (o hi lo : Nat) : (k.setStream v c t y).getF o hi lo = k.getF o hi lo := rfl

@[simp] theorem setStream_core (k : Chip) (v c t : Nat) (y : Stream) : (k.setStream v c t y).core v c = (k.core v c).setStream t y :=
  core_setCore_same ..

theorem getF_raise_other (k : Chip) (o i hi lo : Nat) (h : i < 64) (d : hi < i ∨ i < lo) : (k.raise o i).getF o hi lo = k.getF o hi lo :=
  getF_setF_other k o i i 1 hi lo h (Nat.le_refl i) d

theorem coreFaultPc_ne_coreFault (v c : Nat) : Reg.coreFaultPc v c ≠ Reg.coreFault v c := by
  simp [Reg.coreFaultPc, Reg.coreFault]

/-! ### A fault of a stream (R311, R313) -/

/-- The stream as a fault leaves it. -/
def faultedStream (k : Chip) (v c t : Nat) (q : Sequencer) : Stream :=
  { k.stream v c t with run := .fault, seq := q, hold := none, stall := none, inflight := [], stoppedAt := k.now }

/-- The first fault record of a core: cause, stream, VALID and program counter. -/
def recordFault (k : Chip) (v c t code : Nat) (q : Sequencer) : Chip :=
  (((((k.setF (Reg.coreFault v c) 10 8 t).setF (Reg.coreFault v c) 7 0 code).raise (Reg.coreFault v c) 31).setF
    (Reg.coreFaultPc v c) 13 13 q.lib.toNat).setF (Reg.coreFaultPc v c) 12 0 q.pc)

section Fault

variable (k : Chip) (v c t code : Nat) (q : Sequencer)

/-- With VALID at 1 a fault sets OVERRUN. -/
theorem coreFault_held (h : k.flag (Reg.coreFault v c) 31 = true) :
    k.coreFault v c t code q = (k.setStream v c t (faultedStream k v c t q)).raise (Reg.coreFault v c) 30 :=
  if_pos h

/-- With VALID at 0 a fault is recorded. -/
theorem coreFault_first (h : k.flag (Reg.coreFault v c) 31 = false) :
    k.coreFault v c t code q = recordFault (k.setStream v c t (faultedStream k v c t q)) v c t code q := by
  have hlib : (if q.lib then 1 else 0) = q.lib.toNat := by cases q.lib <;> rfl
  rw [recordFault, ← hlib]
  exact if_neg (ne_true_of_eq_false h)

/-- Beside registers a fault changes its stream alone. -/
theorem coreFault_eq_setStream_with_regs :
    k.coreFault v c t code q = { k.setStream v c t (faultedStream k v c t q) with regs := (k.coreFault v c t code q).regs } := by
  cases h : k.flag (Reg.coreFault v c) 31 with
  | false => rw [coreFault_first k v c t code q h]; rfl
  | true => rw [coreFault_held k v c t code q h]; rfl

theorem coreFault_core : (k.coreFault v c t code q).core v c = (k.core v c).setStream t (faultedStream k v c t q) := by
  rw [coreFault_eq_setStream_with_regs]
  exact setStream_core ..

theorem coreFault_stream (ht : t < (k.core v c).streams.length) : (k.coreFault v c t code q).stream v c t = faultedStream k v c t q := by
  rw [Chip.stream, coreFault_core, setStream_stream_same _ _ _ ht]

theorem coreFault_hub : (k.coreFault v c t code q).hub = k.hub := by rw [coreFault_eq_setStream_with_regs]; rfl

theorem coreFault_bus : (k.coreFault v c t code q).bus = k.bus := by rw [coreFault_eq_setStream_with_regs]; rfl

theorem coreFault_dies : (k.coreFault v c t code q).dies = k.dies := by rw [coreFault_eq_setStream_with_regs]; rfl

/-- No register but the two of the record changes. -/
theorem coreFault_reg_other (r : Nat) (ho : r ≠ Reg.coreFault v c) (hp : r ≠ Reg.coreFaultPc v c) :
    (k.coreFault v c t code q).reg r = k.reg r := by
  cases h : k.flag (Reg.coreFault v c) 31 with
  | false => rw [coreFault_first k v c t code q h]; simp only [recordFault, Chip.raise, reg_setF_other, ho, hp, ne_eq, not_false_eq_true]; rfl
  | true => rw [coreFault_held k v c t code q h, Chip.raise, reg_setF_other _ _ _ _ _ _ ho]; rfl

/-- CORE_FAULT of a record: what was written last of each field stands. -/
theorem recordFault_fields (hcode : code < 256) (ht : t < 5) :
    let n := recordFault k v c t code q
    let o := Reg.coreFault v c
    n.getF o 7 0 = code ∧ n.getF o 10 8 = t ∧ n.flag o 31 = true ∧ n.flag o 30 = k.flag o 30 := by
  have hpc := (coreFaultPc_ne_coreFault v c).symm
  have hc : code % 256 = code := Nat.mod_eq_of_lt hcode
  have ht' : t % 8 = t := Nat.mod_eq_of_lt (by omega)
  simp [recordFault, Chip.flag, Chip.raise, getF_setF_register, getF_setF_same, getF_setF_other, hpc, hc, ht']

theorem recordFault_pc_fields (hq : q.pc < 8192) :
    (recordFault k v c t code q).getF (Reg.coreFaultPc v c) 12 0 = q.pc ∧
      (recordFault k v c t code q).getF (Reg.coreFaultPc v c) 13 13 = q.lib.toNat := by
  have hp : q.pc % 8192 = q.pc := Nat.mod_eq_of_lt hq
  have hl : q.lib.toNat % 2 = q.lib.toNat := Nat.mod_eq_of_lt (Bool.toNat_lt q.lib)
  simp [recordFault, getF_setF_same, getF_setF_other, hp, hl]

end Fault

/-- Settles O11: by the two equations of a fault, the field laws, and the frame that a fault keeps beside registers. -/
theorem firstFaultRecordIsKept : Obligations.FirstFaultRecordIsKept := by
  unfold Obligations.FirstFaultRecordIsKept
  intro k v c t code q ht hcode ht5 hpc n o
  have hstream : n.stream v c t = faultedStream k v c t q := coreFault_stream k v c t code q ht
  refine ⟨?run, ?inflight, ?hold, ?seq, ?core, ?first, ?held, coreFault_reg_other k v c t code q, coreFault_hub k v c t code q,
    coreFault_bus k v c t code q, coreFault_dies k v c t code q⟩
  case run | inflight | hold | seq => rw [hstream]; rfl
  case core => rw [hstream]; exact coreFault_core k v c t code q
  case first =>
    intro h
    have hn : n = _ := coreFault_first k v c t code q h
    obtain ⟨hcause, hstr, hvalid, hover⟩ := recordFault_fields (k.setStream v c t (faultedStream k v c t q)) v c t code q hcode ht5
    obtain ⟨haddr, hlib⟩ := recordFault_pc_fields (k.setStream v c t (faultedStream k v c t q)) v c t code q hpc
    rw [hn]
    exact ⟨hcause, hstr, hvalid, haddr, hlib, hover⟩
  case held =>
    intro h
    have hn : n = _ := coreFault_held k v c t code q h
    rw [hn]
    exact ⟨flag_raise_same _ _ _ (by decide), getF_raise_other _ _ _ _ _ (by decide) (by decide),
      getF_raise_other _ _ _ _ _ (by decide) (by decide), reg_setF_other _ _ _ _ _ _ (coreFaultPc_ne_coreFault v c)⟩

/-! ### A clear of a set (R286) -/

/-- Entries left out by their keys read as the default, and the others as before. -/
theorem lookup_filter_key {α : Type} (d : α) (p : Nat → Bool) (t : List (Nat × α)) (j : Nat) :
    lookup d (t.filter fun a => p a.1) j = if p j then lookup d t j else d := by
  induction t with
  | nil => simp [lookup]
  | cons a rest ih =>
    obtain ⟨b, x⟩ := a
    cases hb : p b with
    | false =>
      rw [List.filter_cons_of_neg (by simpa using hb), ih]
      by_cases hj : j = b
      · simp [hj, hb]
      · simp [lookup, hj]
    | true =>
      rw [List.filter_cons_of_pos (by simpa using hb)]
      by_cases hj : j = b
      · simp [lookup, hj, hb]
      · simp only [lookup, if_neg hj, ih]

/-- The keys that a clear of a set keeps. -/
def outsideSet (set a : Nat) : Bool := a < accAt set 0 0 || accAt (set + 1) 0 0 ≤ a

/-- They are the places of the other sets. -/
theorem outsideSet_accAt_iff {o set i w : Nat} (hi : i < 128) (hw : w < 128) : outsideSet set (accAt o i w) = true ↔ o ≠ set := by
  rw [outsideSet, Bool.or_eq_true, decide_eq_true_iff, decide_eq_true_iff]
  unfold accAt
  omega

section Clear

variable (x : Core) (set : Nat) (e : BitVec 8)

/-- A clear keeps the words of the other sets, and leaves zero in its own. -/
theorem clearSet_accWord (o i w : Nat) (hi : i < 128) (hw : w < 128) :
    (x.clearSet set e).accWord o i w = if o = set then 0 else x.accWord o i w := by
  change (lookup 0 (x.acc.filter fun a => outsideSet set a.1) (accAt o i w)).toInt = _
  rw [lookup_filter_key, apply_ite BitVec.toInt]
  simp only [outsideSet_accAt_iff hi hw, ne_eq, ite_not]
  rfl

theorem clearSet_texp_same (h : set < x.accT.length) : (x.clearSet set e).texp set = (true, e) := by
  simp [Core.clearSet, Core.latchT, Core.texp, setAt, h]

theorem clearSet_texp_other (o : Nat) (ho : o ≠ set) : (x.clearSet set e).texp o = x.texp o := by
  simp [Core.clearSet, Core.latchT, Core.texp, setAt, List.getElem?_set_ne ho.symm]

end Clear

/-! ### A pass (R281 to R286) -/

section Pass

variable (x : Core) (r : PassRec)

/-- R281: the weight tile that is active in a pass. -/
def passTile : Tile := if r.wreuse then x.tile.getD { kb := 0, fmtW := 0, cols := [] } else x.tileOf r

/-- A tile has at most 128 columns where the one held has. -/
theorem passTile_cols_length_le (h : ∀ t, x.tile = some t → t.cols.length ≤ 128) : (passTile x r).cols.length ≤ 128 := by
  unfold passTile
  split
  · cases ht : x.tile with
    | none => exact Nat.zero_le _
    | some t => exact h t ht
  · simp [Core.tileOf]

/-- R286: a pass with CLEAR begins with the clear of its set, and reads nothing that the clear changes. -/
theorem runPass_clear (h : r.clear = true) :
    x.runPass r = (x.clearSet r.set (BitVec.ofInt 8 r.texp)).runPass { r with clear := false } := by
  cases r
  subst h
  rfl

variable {x r} in
/-- A pass without CLEAR takes its tile and then replaces words of its own rows, one after another: what each of these keeps, the pass keeps. -/
theorem runPass_induction {P : Core → Prop} (hclear : r.clear = false) (htile : P { x with tile := some (passTile x r) })
    (hset : ∀ y i n a, i < r.m → n < (passTile x r).cols.length → P y → P (y.setAcc r.set (r.row0 + i) n a)) : P (x.runPass r).1 := by
  unfold Core.runPass
  rw [hclear]
  refine List.foldlRecOn (motive := fun a : Core × Bool => P a.1) _ _ htile fun row hrow i hi => ?_
  refine List.foldlRecOn (motive := fun a : Core × Bool => P a.1) _ _ hrow fun y hy col hcol => ?_
  exact hset _ _ _ _ (List.mem_range.mp hi) (List.snd_lt_of_mem_zipIdx hcol) hy

theorem setAcc_accWord_other (set i n : Nat) (a : Int) (o j w : Nat) (h : accAt o j w ≠ accAt set i n) :
    (x.setAcc set i n a).accWord o j w = x.accWord o j w := by
  rw [Core.accWord, Core.setAcc, lookup_store_other _ _ _ _ _ h, ← Core.accWord]

/-- Words of different rows, or of different sets, have different places. -/
theorem accAt_ne {o j w set i n : Nat} (hj : j < 128) (hw : w < 128) (hi : i < 128) (hn : n < 128) (h : o ≠ set ∨ j ≠ i) :
    accAt o j w ≠ accAt set i n := by
  unfold accAt
  omega

/-- R283: outside rows ROW0 to ROW0 + M − 1 of its set a pass without CLEAR changes no word. -/
theorem runPass_accWord_other (hclear : r.clear = false) (hrows : r.row0 + r.m ≤ 128) (htile : ∀ t, x.tile = some t → t.cols.length ≤ 128)
    (o j w : Nat) (hj : j < 128) (hw : w < 128) (hout : o ≠ r.set ∨ j < r.row0 ∨ r.row0 + r.m ≤ j) :
    (x.runPass r).1.accWord o j w = x.accWord o j w := by
  have hcols := passTile_cols_length_le x r htile
  refine runPass_induction (P := fun y => y.accWord o j w = x.accWord o j w) hclear rfl fun y i n a hi hn hy => ?_
  have hne : accAt o j w ≠ accAt r.set (r.row0 + i) n := accAt_ne hj hw (by omega) (by omega) (by omega)
  exact (setAcc_accWord_other y r.set (r.row0 + i) n a o j w hne).trans hy

/-- A pass without CLEAR writes no operand cache, no vector register, no tile exponent and no stream. -/
theorem runPass_frame (hclear : r.clear = false) :
    (x.runPass r).1.oc = x.oc ∧ (x.runPass r).1.vregs = x.vregs ∧ (x.runPass r).1.accT = x.accT ∧ (x.runPass r).1.streams = x.streams :=
  runPass_induction (P := fun y => y.oc = x.oc ∧ y.vregs = x.vregs ∧ y.accT = x.accT ∧ y.streams = x.streams) hclear
    ⟨rfl, rfl, rfl, rfl⟩ fun _ _ _ _ _ _ hy => hy

end Pass

/-- Settles O27: a clear by what its filter keeps of the accumulator table, a pass by induction over the words it replaces. -/
theorem passesAndClearsTouchTheirRowsAlone : Obligations.PassesAndClearsTouchTheirRowsAlone := by
  unfold Obligations.PassesAndClearsTouchTheirRowsAlone
  refine ⟨?clear, fun x r => ⟨runPass_clear x r, ?pass⟩⟩
  case clear =>
    intro x set e hset hlen
    exact ⟨fun i w hi hw => (clearSet_accWord x set e set i w hi hw).trans (if_pos rfl),
      fun o i w ho hi hw => (clearSet_accWord x set e o i w hi hw).trans (if_neg ho),
      clearSet_texp_same x set e (hlen ▸ hset), clearSet_texp_other x set e, rfl, rfl, rfl⟩
  case pass =>
    intro hclear
    exact ⟨fun o j w hj hw hrows _ _ hout htile => runPass_accWord_other x r hclear hrows htile o j w hj hw hout, runPass_frame x r hclear⟩

end Sys2Proof.Proofs
end

section
/-!
PROOFS. Family 07, the instruction set: RET and the frames of calls (O14), and the scalar functions of two sources (O16). RET comes to one equation
per profile over `Sequencer.ret`; the functions are stated against integer arithmetic one by one, and their instructions come to one equation per
profile.
-/

namespace Sys2Proof.Proofs

open Sys2Proof.Machine Sys2Proof.Safety Sys2Proof.Laws

/-! ### RET at a unit whose routine has no contract pending -/

theorem ret_eq_none_of_frames_nil {q : Sequencer} (h : q.frames = []) : q.ret = none := by
  simp only [Sequencer.ret, h]

theorem exec_ret_core {s : State} {v c t : Nat} (h : coreAt s v c t 0x07 0) (hr : (s.k.stream v c t).seq.routine = none) :
    exec (.ret (.core v c t) 0) s = .next (withK s
      (((s.k.stream v c t).seq.ret.elim (s.k.haltStream v c t) fun q => s.k.setStream v c t { s.k.stream v c t with seq := q }).issued v c t)) := by
  have hissue : retIssue s.k (.core v c t) 0 = _ := core_run_ret s v c t 0 0 _ _ _ _ h rfl rfl
  obtain ⟨hunit, halive, -⟩ := h
  change execRet (.core v c t) 0 s = _
  unfold execRet
  rw [onBoth_next _ _ _ hunit halive]
  simp only [Chip.seqOf, hr, hissue]
  cases (s.k.stream v c t).seq.ret <;> rfl

theorem exec_ret_bank {s : State} {v d a : Nat} (h : bankAt s v d a 0x07 0) (hr : (s.k.bu v d (s.k.phys v d a)).seq.routine = none) :
    exec (.ret (.bank v d a) 0) s = .next (withK s
      ((s.k.bu v d (s.k.phys v d a)).seq.ret.elim (s.k.haltBank v d (s.k.phys v d a)) fun q =>
        s.k.setBu v d (s.k.phys v d a) { s.k.bu v d (s.k.phys v d a) with seq := q })) := by
  have hissue : retIssue s.k (.bank v d a) 0 = _ := bank_run_ret s v d a 0 0 _ _ _ _ h rfl rfl
  obtain ⟨hunit, halive, -⟩ := h
  change execRet (.bank v d a) 0 s = _
  unfold execRet
  rw [onBoth_next _ _ _ hunit halive]
  simp only [Chip.bankSeqOf, hr, hissue]
  cases (s.k.bu v d (s.k.phys v d a)).seq.ret <;> rfl

/-! ### Calls and their frames -/

/-- A call that goes has a frame left, saves the caller in it and folds the caller's AI registers (R359, R360). -/
theorem call_goto_iff {q q' : Sequencer} {bank lib : Bool} {pc : Nat} {r : Option Nat} :
    q.call bank lib pc r = .goto q' ↔ q.frames.length < (if bank then 2 else 4) ∧
      q' = { lib := lib, pc := pc, loops := [], ais := q.folded (if bank then 32 else 64), routine := r
             frames := { lib := q.lib, pc := q.pc, loops := q.loops, ais := q.ais, routine := q.routine } :: q.frames } := by
  unfold Sequencer.call
  by_cases hfull : (if bank then 2 else 4) ≤ q.frames.length
  · rw [if_pos hfull]
    exact ⟨nofun, fun ⟨hroom, _⟩ => absurd hfull (Nat.not_le.mpr hroom)⟩
  · rw [if_neg hfull]
    exact ⟨fun h => ⟨Nat.not_le.mp hfull, (SeqRes.goto.inj h).symm⟩, fun ⟨_, hq⟩ => congrArg _ hq.symm⟩

theorem ai_lt (q : Sequencer) (w n : Nat) : q.ai w n < 2 ^ w := BitVec.isLt _

theorem folded_getD (q : Sequencer) (w n : Nat) (h : n < 8) :
    (q.folded w).getD n AiReg.zero = { q.ais.getD n AiReg.zero with base := BitVec.ofNat 64 (q.ai w n) } := by
  simp [Sequencer.folded, h]

theorem folded_base_toNat (q : Sequencer) (w n : Nat) (h : n < 8) (hw : w ≤ 64) :
    ((q.folded w).getD n AiReg.zero).base.toNat = q.ai w n := by
  rw [folded_getD q w n h, BitVec.toNat_ofNat]
  exact Nat.mod_eq_of_lt ((ai_lt q w n).trans_le (Nat.pow_le_pow_right (by decide) hw))

/-- Settles O14: RET by its equation in each profile; a call by the frame it pushes, which holds all that `Sequencer.ret` restores. -/
theorem retUndoesTheCallOrHalts : Obligations.RetUndoesTheCallOrHalts := by
  unfold Obligations.RetUndoesTheCallOrHalts
  refine ⟨fun s q' => ⟨?stream, ?bankUnit⟩, ?calls⟩
  case stream =>
    intro v c t h hr
    exact ⟨fun hret => by rw [exec_ret_core h hr, hret]; rfl, fun hnil => by rw [exec_ret_core h hr, ret_eq_none_of_frames_nil hnil]; rfl⟩
  case bankUnit =>
    intro v d a h hr
    exact ⟨fun hret => by rw [exec_ret_bank h hr, hret]; rfl, fun hnil => by rw [exec_ret_bank h hr, ret_eq_none_of_frames_nil hnil]; rfl⟩
  case calls =>
    intro q q' bank lib pc r hcall
    obtain ⟨hdepth, rfl⟩ := call_goto_iff.mp hcall
    have hwidth : (if bank then 32 else 64) ≤ 64 := by cases bank <;> decide
    exact ⟨rfl, rfl, rfl, rfl, hdepth,
      fun n hn => ⟨folded_base_toNat q _ n hn hwidth, by rw [folded_getD q _ n hn]⟩,
      fun _ _ _ _ _ => rfl⟩

/-! ### The functions of two sources against integer arithmetic (Table 8.1) -/

section Functions

variable {w : Nat} (a b : BitVec w)

theorem eval_sub_add_mod : ((ScalarFn.sub.eval a b).toNat + b.toNat) % 2 ^ w = a.toNat := by
  rw [← BitVec.toNat_add]
  exact congrArg _ (BitVec.sub_add_cancel a b)

theorem eval_shl_toNat : (ScalarFn.shl.eval a b).toNat = a.toNat * 2 ^ (b.toNat % w) % 2 ^ w := by
  simp only [ScalarFn.eval, BitVec.toNat_shiftLeft, Nat.shiftLeft_eq]

theorem eval_shr_toNat : (ScalarFn.shr.eval a b).toNat = a.toNat / 2 ^ (b.toNat % w) := by
  simp only [ScalarFn.eval, BitVec.toNat_ushiftRight, Nat.shiftRight_eq_div_pow]

theorem eval_sar_toInt : (ScalarFn.sar.eval a b).toInt = a.toInt / 2 ^ (b.toNat % w) := by
  simp only [ScalarFn.eval, BitVec.toInt_sshiftRight, Int.shiftRight_eq_div_pow, Nat.cast_pow, Nat.cast_ofNat]

theorem eval_min_toInt : (ScalarFn.min.eval a b).toInt = min a.toInt b.toInt := by
  simp only [ScalarFn.eval, BitVec.slt_iff_toInt_lt]
  split <;> omega

theorem eval_max_toInt : (ScalarFn.max.eval a b).toInt = max a.toInt b.toInt := by
  simp only [ScalarFn.eval, BitVec.slt_iff_toInt_lt]
  split <;> omega

/-- A comparison's truth value, 1 or 0, is itself at every width but 0. -/
theorem toNat_truth (hw : 0 < w) (p : Prop) [Decidable p] : (if p then 1 else 0 : BitVec w).toNat = if p then 1 else 0 := by
  split
  · exact BitVec.toNat_one hw
  · rfl

theorem eval_slt_toNat (hw : 0 < w) : (ScalarFn.slt.eval a b).toNat = if a.toInt < b.toInt then 1 else 0 := by
  simp only [ScalarFn.eval, BitVec.slt_iff_toInt_lt, toNat_truth hw]

theorem eval_seq_toNat (hw : 0 < w) : (ScalarFn.seq.eval a b).toNat = if a.toNat = b.toNat then 1 else 0 := by
  simp only [ScalarFn.eval, BitVec.toNat_inj, toNat_truth hw]

end Functions

/-! ### Two pops and a push -/

theorem supplies_one_of_popEnd {k k' : Chip} {v c t e : Nat} {x : BitVec 512} (h : k.popEnd v c t e = .done x k') : k.supplies v c t e 1 = true := by
  unfold Chip.popEnd at h
  unfold Chip.supplies
  cases he : hoopEnd e with
  | false => rfl
  | true =>
    rw [if_pos he] at h
    cases hq : k.headFor v c t (slotOf e) with
    | nil => simp [hq] at h
    | cons => simp

theorem supplies_mono {k : Chip} {v c t e m n : Nat} (hmn : m ≤ n) (h : k.supplies v c t e n = true) : k.supplies v c t e m = true := by
  simp only [Chip.supplies, Bool.or_eq_true, decide_eq_true_eq] at h ⊢
  exact h.imp_right hmn.trans

/-- R322, R323: two pops that both ends can supply. -/
theorem popTwo_done {k k1 k2 : Chip} {v c t a b : Nat} {x y : BitVec 512} (f : Word → Word → Chip → PopRes)
    (hs : k.supplies v c t b (if a = b then 2 else 1) = true) (hx : k.popEnd v c t a = .done x k1) (hy : k1.popEnd v c t b = .done y k2) :
    k.popTwo v c t a b f = f (entryWord x) (entryWord y) k2 := by
  have ha := supplies_one_of_popEnd hx
  have hb : k.supplies v c t b 1 = true := supplies_mono (by split <;> decide) hs
  have hab : ¬(a = b ∧ (!k.supplies v c t b 2) = true) := by
    rintro ⟨he, h2⟩
    rw [if_pos he] at hs
    simp [hs] at h2
  simp only [Chip.popTwo, ha, hb, hab, hx, hy, Bool.not_true, Bool.false_eq_true, if_false]

theorem coreOp_step {q : QForm} {f : Word → Word → Word} {k k1 k2 : Chip} {v c t : Nat} {x y : BitVec 512} (hready : k.pushReady v c t q.d = true)
    (hs : k.supplies v c t q.b (if q.a = q.b then 2 else 1) = true) (hx : k.popEnd v c t q.a = .done x k1) (hy : k1.popEnd v c t q.b = .done y k2) :
    coreOp q f v c t k = .step (k2.pushEnd v c t q.d (f (entryWord x) (entryWord y))) := by
  simp only [coreOp, hready, popTwo_done _ hs hx hy, entryWord_wordEntry, Bool.not_true, Bool.false_eq_true, if_false]

/-- A push of a bank unit's instruction leaves its sequencer. -/
@[simp] theorem pushEnd_seq (u : Bu) (e : Nat) (w : Lane) : (u.pushEnd e w).seq = u.seq := by
  simp only [Bu.pushEnd]; split <;> rfl

/-! ### The instructions ADD to SEQ -/

theorem exec_scalarInstr (f : ScalarFn) (u : IssueUnit) (ops : BitVec 56) (s : State) :
    exec (scalarInstr f u ops) s = scalarOp (scalarOpcode f) f u ops s := by
  cases f <;> rfl

theorem scalarOpcode_ne_ret (f : ScalarFn) : scalarOpcode f ≠ 0x07 := by
  cases f <;> decide

theorem exec_scalarInstr_core {f : ScalarFn} {s : State} {ops : BitVec 56} {v c : Nat} {x y : BitVec 512} {k1 k2 : Chip}
    (h : coreAt s v c 0 (scalarOpcode f) ops) (hz : reservedZero ops (useD + useA + useB + useI) = true)
    (hlegal : (s.k.popOk v c 0 (qForm ops).a && s.k.popOk v c 0 (qForm ops).b && s.k.pushOk v c 0 (qForm ops).d) = true)
    (hready : (entered s.k v c 0).pushReady v c 0 (qForm ops).d = true)
    (hs : (entered s.k v c 0).supplies v c 0 (qForm ops).b (if (qForm ops).a = (qForm ops).b then 2 else 1) = true)
    (hx : (entered s.k v c 0).popEnd v c 0 (qForm ops).a = .done x k1) (hy : k1.popEnd v c 0 (qForm ops).b = .done y k2) :
    exec (scalarInstr f (.core v c 0) ops) s = .next (withK s ((k2.pushEnd v c 0 (qForm ops).d
      (f.eval (entryWord x) (entryWord y + BitVec.ofInt 64 (qForm ops).simm))).advanceCore v c 0)) := by
  rw [exec_scalarInstr]
  unfold scalarOp
  refine (core_run s v c 0 _ ops _ _ _ _ _ h (scalarOpcode_ne_ret f) hz ?legal).trans ?effect
  case legal => exact hlegal
  case effect => rw [coreOp_step hready hs hx hy]; rfl

theorem exec_scalarInstr_bank {f : ScalarFn} {s : State} {ops : BitVec 56} {v d a : Nat} (h : bankAt s v d a (scalarOpcode f) ops)
    (hz : reservedZero ops (useD + useA + useB + useI) = true)
    (hlegal : (bankPopOk (qForm ops).a && bankPopOk (qForm ops).b && bankPushOk (qForm ops).d) = true) :
    exec (scalarInstr f (.bank v d a) ops) s = .next (withK s
      (let k := enteredBank s.k v d (s.k.phys v d a)
       let u := k.bu v d (s.k.phys v d a)
       bankStepped k v d (s.k.phys v d a)
        (u.pushEnd (qForm ops).d (f.eval (u.endValue (qForm ops).a) (u.endValue (qForm ops).b + BitVec.ofInt 32 (qForm ops).simm))))) := by
  rw [exec_scalarInstr]
  unfold scalarOp
  refine (bank_run s v d a _ ops _ _ _ _ _ h (scalarOpcode_ne_ret f) hz ?legal).trans ?effect
  case legal => exact hlegal
  case effect => simp only [bankOp, bankStepped, QForm.immW, bu_setBu_same, setBu_setBu, pushEnd_seq]

/-- Settles O16: each function by its law against the integers, and the instructions by their equation in each profile. -/
theorem scalarArithmeticWraps : Obligations.ScalarArithmeticWraps := by
  unfold Obligations.ScalarArithmeticWraps
  refine ⟨?functions, fun f s ops hz => ⟨?stream, ?bankUnit⟩⟩
  case functions =>
    intro w a b hw
    have hpos : 0 < w := Nat.zero_lt_of_lt hw
    exact ⟨BitVec.toNat_add a b, eval_sub_add_mod a b, BitVec.toNat_mul a b,
      fun i => by simp only [ScalarFn.eval, BitVec.toNat_and, Nat.testBit_and],
      fun i => by simp only [ScalarFn.eval, BitVec.toNat_or, Nat.testBit_or],
      fun i => by simp only [ScalarFn.eval, BitVec.toNat_xor, Nat.testBit_xor],
      eval_shl_toNat a b, eval_shr_toNat a b, eval_sar_toInt a b, eval_min_toInt a b, eval_max_toInt a b, eval_slt_toNat a b hpos,
      eval_seq_toNat a b hpos⟩
  case stream =>
    intro v c h k ha hb hd hready hs x y k1 k2 hx hy
    rw [entered_popOk] at ha hb
    rw [entered_pushOk] at hd
    exact exec_scalarInstr_core h hz (by simp only [ha, hb, hd, Bool.and_self]) hready hs hx hy
  case bankUnit =>
    intro v d a h ha hb hd
    exact exec_scalarInstr_bank h hz (by simp only [ha, hb, hd, Bool.and_self])

end Sys2Proof.Proofs
end

section
/-!
PROOFS. Family 11, jobs and verdicts: the registers of the rings and the records of submission rings (O45). What an update leaves of the registers and
units is said by `regsOnly`, which the updates of this family are shown to keep one by one and which composes; RECORD_ACCEPT comes to `acceptHead`
and `acceptData` of what it reads, with an equation for each end of a record.
-/

namespace Sys2Proof.Safety

open Sys2Proof.Machine Sys2Proof.Laws

/-! ### What an update leaves of registers and units -/

section RegsOnly

variable {k k' k'' : Chip} {named : Nat → Prop} {o : Nat}

theorem regsOnly.refl : regsOnly k k named := ⟨fun _ _ => rfl, rfl, rfl, rfl, rfl⟩

theorem regsOnly.trans (h : regsOnly k k' named) (h' : regsOnly k' k'' named) : regsOnly k k'' named := by
  obtain ⟨hreg, hcores, hdies, hbus, hvats⟩ := h
  obtain ⟨hreg', hcores', hdies', hbus', hvats'⟩ := h'
  exact ⟨fun o ho => (hreg' o ho).trans (hreg o ho), hcores'.trans hcores, hdies'.trans hdies, hbus'.trans hbus, hvats'.trans hvats⟩

theorem regsOnly.mono {named' : Nat → Prop} (h : regsOnly k k' named) (hsub : ∀ o, named o → named' o) : regsOnly k k' named' :=
  ⟨fun o ho => h.1 o (fun ho' => ho (hsub o ho')), h.2⟩

theorem regsOnly.setF (h : regsOnly k k' named) (hi lo n : Nat) (ho : named o) : regsOnly k (k'.setF o hi lo n) named :=
  h.trans ⟨fun _ ho' => reg_setF_other _ _ _ _ _ _ (fun he => ho' (he ▸ ho)), rfl, rfl, rfl, rfl⟩

theorem regsOnly.raise (h : regsOnly k k' named) (i : Nat) (ho : named o) : regsOnly k (k'.raise o i) named :=
  h.setF i i 1 ho

theorem regsOnly.onHub (h : regsOnly k k' named) (f : Hub → Hub) : regsOnly k (k'.onHub f) named :=
  h.trans ⟨fun _ _ => rfl, rfl, rfl, rfl, rfl⟩

theorem regsOnly.getF (h : regsOnly k k' named) (hi lo : Nat) (ho : ¬ named o) : k'.getF o hi lo = k.getF o hi lo := by
  rw [Chip.getF, h.1 o ho, Chip.getF]

theorem regsOnly.flag (h : regsOnly k k' named) (i : Nat) (ho : ¬ named o) : k'.flag o i = k.flag o i := by
  rw [Chip.flag, h.getF i i ho, Chip.flag]

end RegsOnly

end Sys2Proof.Safety

namespace Sys2Proof.Proofs

open Sys2Proof.Machine Sys2Proof.Safety Sys2Proof.Laws

/-! ### Commands of a hub that runs -/

theorem onChip_live {s : State} {ok : Bool} (f : Chip → Chip) (h : live s ok) : s.onChip ok f = .next (withK s (f s.k)) :=
  onChip_next s ok f h.1 h.2

theorem onTurn_live {s : State} {ok : Bool} (f : Mach → Mach) (h : live s ok) : s.onTurn ok f = .next (turned s (f (machOf s))) :=
  onTurn_next s ok f h.1 h.2

@[simp] theorem setF_hub (k : Chip) (o hi lo n : Nat) : (k.setF o hi lo n).hub = k.hub := rfl

@[simp] theorem raise_hub (k : Chip) (o i : Nat) : (k.raise o i).hub = k.hub := rfl

theorem flag_setF_other (k : Chip) (o hi lo n i : Nat) (h : hi < 64) (hl : lo ≤ hi) (d : i < lo ∨ hi < i) :
    (k.setF o hi lo n).flag o i = k.flag o i := by
  rw [Chip.flag, getF_setF_other k o hi lo n i i h hl d, Chip.flag]

theorem flag_setF_register (k : Chip) (o o' hi lo n i : Nat) (h : o' ≠ o) : (k.setF o hi lo n).flag o' i = k.flag o' i := by
  rw [Chip.flag, getF_setF_register k o o' hi lo n i i h, Chip.flag]

/-! ### FULL_WAIT (R560) -/

section NoteWait

variable (k : Chip) (c : Nat)

/-- FULL_WAIT is raised where records wait at a ring that takes none; else nothing happens. -/
theorem noteWait_cases :
    (k.noteWait c = k.raise (Reg.vringStatus c) 31) ∨ (k.noteWait c = k ∧ ¬ (k.vringHeld c = true ∧ (k.vring c).waiting ≠ [])) := by
  unfold Chip.noteWait
  split
  · exact .inl rfl
  · next hnot => exact .inr ⟨rfl, hnot⟩

@[simp] theorem noteWait_hub : (k.noteWait c).hub = k.hub := by
  rcases noteWait_cases k c with h | ⟨h, -⟩ <;> rw [h]
  exact raise_hub ..

theorem noteWait_regsOnly {named : Nat → Prop} (ho : named (Reg.vringStatus c)) : regsOnly k (k.noteWait c) named := by
  rcases noteWait_cases k c with hw | ⟨hw, -⟩ <;> rw [hw]
  · exact regsOnly.refl.raise 31 ho
  · exact .refl

/-- No register but VRING_STATUS changes. -/
theorem getF_noteWait_other {o : Nat} (hi lo : Nat) (h : o ≠ Reg.vringStatus c) : (k.noteWait c).getF o hi lo = k.getF o hi lo :=
  (noteWait_regsOnly k c (named := (· = Reg.vringStatus c)) rfl).getF hi lo h

theorem flag_noteWait_other {o : Nat} (i : Nat) (h : o ≠ Reg.vringStatus c) : (k.noteWait c).flag o i = k.flag o i :=
  (noteWait_regsOnly k c (named := (· = Reg.vringStatus c)) rfl).flag i h

/-- Where records wait at a ring that takes none, FULL_WAIT shows it. -/
theorem noteWait_fullWait (hheld : (k.noteWait c).vringHeld c = true) (hwaiting : (k.vring c).waiting ≠ []) :
    (k.noteWait c).flag (Reg.vringStatus c) 31 = true := by
  rcases noteWait_cases k c with h | ⟨h, hnot⟩
  · rw [h]
    exact flag_raise_same _ _ _ (by decide)
  · rw [h] at hheld
    exact absurd ⟨hheld, hwaiting⟩ hnot

@[simp] theorem vring_setVring_same (x : VRing) : (k.setVring c x).vring c = x := lookup_insert_same _ _ _ _

end NoteWait

/-! ### Switching a ring on (R515, R516, R555) -/

theorem subqRegs_ne (r : Nat) : Reg.subqCfg r ≠ Reg.subqPi r ∧ Reg.subqCfg r ≠ Reg.subqCi r ∧ Reg.subqPi r ≠ Reg.subqCi r := by
  simp [Reg.subqCfg, Reg.subqPi, Reg.subqCi]

theorem vringRegs_ne (c : Nat) : Reg.vringCfg c ≠ Reg.vringWi c ∧ Reg.vringCfg c ≠ Reg.vringStatus c ∧ Reg.vringWi c ≠ Reg.vringStatus c ∧
    Reg.vringCi c ≠ Reg.vringStatus c := by
  simp [Reg.vringCfg, Reg.vringWi, Reg.vringCi, Reg.vringStatus]

section Enable

variable {k : Chip} {r : Nat}

theorem enableSubq_on (h : k.flag (Reg.subqCfg r) 31 = true) : k.enableSubq r = k := if_pos h

theorem enableSubq_off (h : k.flag (Reg.subqCfg r) 31 = false) :
    k.enableSubq r = (((k.raise (Reg.subqCfg r) 31).setF (Reg.subqPi r) 15 0 0).setF (Reg.subqCi r) 15 0 0).onHub
      (fun hb => { hb with badRings := hb.badRings.filter (· ≠ r) }) :=
  if_neg (ne_true_of_eq_false h)

/-- A submission ring that was off is on, with its indices at zero, and runs. -/
theorem enableSubq_starts (h : k.flag (Reg.subqCfg r) 31 = false) :
    (k.enableSubq r).flag (Reg.subqCfg r) 31 = true ∧ (k.enableSubq r).getF (Reg.subqPi r) 15 0 = 0 ∧
    (k.enableSubq r).getF (Reg.subqCi r) 15 0 = 0 ∧ ¬ r ∈ (k.enableSubq r).hub.badRings := by
  obtain ⟨hcfgPi, hcfgCi, hpiCi⟩ := subqRegs_ne r
  rw [enableSubq_off h]
  refine ⟨?on, ?pi, getF_setF_same _ _ 15 0 0 (by decide) (by decide), ?runs⟩
  case on =>
    calc _ = ((k.raise (Reg.subqCfg r) 31).setF (Reg.subqPi r) 15 0 0).flag (Reg.subqCfg r) 31 := flag_setF_register _ _ _ _ _ _ _ hcfgCi
      _ = (k.raise (Reg.subqCfg r) 31).flag (Reg.subqCfg r) 31 := flag_setF_register _ _ _ _ _ _ _ hcfgPi
      _ = true := flag_raise_same k _ 31 (by decide)
  case pi => exact (getF_setF_register _ _ _ 15 0 0 15 0 hpiCi).trans (getF_setF_same _ _ 15 0 0 (by decide) (by decide))
  case runs => simp

theorem enableSubq_regsOnly (h : k.flag (Reg.subqCfg r) 31 = false) :
    regsOnly k (k.enableSubq r) (fun o => o = Reg.subqCfg r ∨ o = Reg.subqPi r ∨ o = Reg.subqCi r) := by
  rw [enableSubq_off h]
  exact (((regsOnly.refl.raise 31 (.inl rfl)).setF 15 0 0 (.inr (.inl rfl))).setF 15 0 0 (.inr (.inr rfl))).onHub _

theorem enableVring_on (h : k.flag (Reg.vringCfg r) 31 = true) : k.enableVring r = k := if_pos h

theorem enableVring_off (h : k.flag (Reg.vringCfg r) 31 = false) :
    k.enableVring r = ((((k.raise (Reg.vringCfg r) 31).setF (Reg.vringWi r) 15 0 0).setF (Reg.vringWi r) 16 16 1).setVring r
      { k.vring r with snoop := none }).noteWait r :=
  if_neg (ne_true_of_eq_false h)

/-- A verdict ring that was off is on, with its index at zero, PHASE 1 and no snoop in hand. -/
theorem enableVring_starts (h : k.flag (Reg.vringCfg r) 31 = false) :
    (k.enableVring r).flag (Reg.vringCfg r) 31 = true ∧ (k.enableVring r).getF (Reg.vringWi r) 15 0 = 0 ∧
    (k.enableVring r).getF (Reg.vringWi r) 16 16 = 1 ∧ (k.enableVring r).vring r = { k.vring r with snoop := none } ∧
    (k.enableVring r).hub.jobs = k.hub.jobs := by
  obtain ⟨hcfgWi, hcfgStatus, hwiStatus, -⟩ := vringRegs_ne r
  rw [enableVring_off h]
  refine ⟨?on, ?index, ?phase, ?snoop, by rw [noteWait_hub]; rfl⟩
  case on =>
    rw [flag_noteWait_other _ _ 31 hcfgStatus]
    calc _ = ((k.raise (Reg.vringCfg r) 31).setF (Reg.vringWi r) 15 0 0).flag (Reg.vringCfg r) 31 := flag_setF_register _ _ _ _ _ _ _ hcfgWi
      _ = (k.raise (Reg.vringCfg r) 31).flag (Reg.vringCfg r) 31 := flag_setF_register _ _ _ _ _ _ _ hcfgWi
      _ = true := flag_raise_same k _ 31 (by decide)
  case index =>
    rw [getF_noteWait_other _ _ 15 0 hwiStatus]
    exact (getF_setF_other _ _ 16 16 1 15 0 (by decide) (by decide) (by decide)).trans (getF_setF_same _ _ 15 0 0 (by decide) (by decide))
  case phase =>
    rw [getF_noteWait_other _ _ 16 16 hwiStatus]
    exact getF_setF_same _ _ 16 16 1 (by decide) (by decide)
  case snoop =>
    rw [Chip.vring, noteWait_hub]
    exact vring_setVring_same ..

theorem enableVring_regsOnly (h : k.flag (Reg.vringCfg r) 31 = false) :
    regsOnly k (k.enableVring r) (fun o => o = Reg.vringCfg r ∨ o = Reg.vringWi r ∨ o = Reg.vringStatus r) := by
  rw [enableVring_off h]
  exact ((((regsOnly.refl.raise 31 (.inl rfl)).setF 15 0 0 (.inr (.inl rfl))).setF 16 16 1 (.inr (.inl rfl))).onHub _).trans
    (noteWait_regsOnly _ r (.inr (.inr rfl)))

end Enable

/-! ### The indices (R558, R560) -/

section Indices

variable {k : Chip} {r : Nat} (x : BitVec 16)

/-- An index that is written reads back whole. -/
theorem getF_setF_index (o : Nat) : (k.setF o 15 0 x.toNat).getF o 15 0 = x.toNat := by
  rw [getF_setF_same _ _ 15 0 _ (by decide) (by decide)]
  exact Nat.mod_eq_of_lt x.isLt

theorem writePi_inside (h : x.toNat < k.subqSize r) : k.writePi r x.toNat = k.setF (Reg.subqPi r) 15 0 x.toNat := if_neg (Nat.not_le.mpr h)

theorem writePi_outside (h : k.subqSize r ≤ x.toNat) : k.writePi r x.toNat = k.logPlain 0x18 (r + x.toNat * 2 ^ 16) := by
  rw [Chip.writePi, if_pos h, Nat.mod_eq_of_lt x.isLt]

theorem writeCi_inside (h : x.toNat < k.vringSize r) : k.writeCi r x.toNat = (k.setF (Reg.vringCi r) 15 0 x.toNat).noteWait r :=
  if_neg (Nat.not_le.mpr h)

theorem writeCi_outside (h : k.vringSize r ≤ x.toNat) : k.writeCi r x.toNat = k.logPlain 0x18 (r + 2 ^ 8 + x.toNat * 2 ^ 16) := by
  rw [Chip.writeCi, if_pos h, Nat.mod_eq_of_lt x.isLt]

theorem writeCi_regsOnly (h : x.toNat < k.vringSize r) :
    regsOnly k (k.writeCi r x.toNat) (fun o => o = Reg.vringCi r ∨ o = Reg.vringStatus r) := by
  rw [writeCi_inside x h]
  exact (regsOnly.refl.setF 15 0 x.toNat (.inl rfl)).trans (noteWait_regsOnly _ r (.inr rfl))

theorem writeCi_hub (h : x.toNat < k.vringSize r) : (k.writeCi r x.toNat).hub = k.hub := by
  rw [writeCi_inside x h, noteWait_hub, setF_hub]

theorem writeCi_getF (h : x.toNat < k.vringSize r) : (k.writeCi r x.toNat).getF (Reg.vringCi r) 15 0 = x.toNat := by
  obtain ⟨-, -, -, hciStatus⟩ := vringRegs_ne r
  rw [writeCi_inside x h, getF_noteWait_other _ _ 15 0 hciStatus, getF_setF_index]

theorem writeCi_fullWait (h : x.toNat < k.vringSize r) (hheld : (k.writeCi r x.toNat).vringHeld r = true) (hwaiting : (k.vring r).waiting ≠ []) :
    (k.writeCi r x.toNat).flag (Reg.vringStatus r) 31 = true := by
  rw [writeCi_inside x h] at hheld ⊢
  exact noteWait_fullWait _ r hheld hwaiting

end Indices

/-! ### Aborts (R551) -/

/-- The jobs of ring `r` that JOB_ABORT_COOKIE names. -/
def abortNames (k : Chip) (r : Nat) (j : Job) : Bool := j.origin = .ring r && j.cookie = (k.reg Reg.jobAbortCookie).toNat

section Abort

variable {k : Chip} {r : Nat}

theorem abortRing_miss (h : k.hub.jobs.any (fun j => abortNames k r j.2) = false) : k.abortRing r = k.count Reg.jobAbortMiss 1 :=
  if_neg (ne_true_of_eq_false h)

theorem abortRing_some (h : k.hub.jobs.any (fun j => abortNames k r j.2) = true) : k.abortRing r = k.abortJobs (abortNames k r) := if_pos h

end Abort

/-! ### The commands that write a ring's registers -/

section RingCommands

variable {s : State} {r : Nat} (h : live s (r < 16))
include h

theorem exec_subqEnable : exec (.subqEnable r) s = .next (withK s (s.k.enableSubq r)) := onChip_live (fun k => k.enableSubq r) h

theorem exec_vringEnable : exec (.vringEnable r) s = .next (withK s (s.k.enableVring r)) := onChip_live (fun k => k.enableVring r) h

theorem exec_subqPiWrite (x : BitVec 16) : exec (.subqPiWrite r x) s = .next (withK s (s.k.writePi r x.toNat)) :=
  onChip_live (fun k => k.writePi r x.toNat) h

theorem exec_vringCiWrite (x : BitVec 16) : exec (.vringCiWrite r x) s = .next (withK s (s.k.writeCi r x.toNat)) :=
  onChip_live (fun k => k.writeCi r x.toNat) h

theorem exec_jobAbort : exec (.jobAbort r) s = .next (withK s (s.k.abortRing r)) := onChip_live (fun k => k.abortRing r) h

end RingCommands

/-! ### The log and the messages of the hub -/

section LogAndMessages

variable (k : Chip)

/-- R702, R705: an occurrence joins the queue, or counts in LOG_OVF of its class. -/
theorem log_regsOnly (e : LogOcc) : regsOnly k (k.log e) (· = Reg.logOvf e.cls) := by
  unfold Chip.log
  split
  · exact regsOnly.refl.onHub (fun hb => { hb with logQ := hb.logQ ++ [e] })
  · exact regsOnly.refl.setF 15 0 _ rfl

theorem log_hub (e : LogOcc) : ∃ q, (k.log e).hub = { k.hub with logQ := q } := by
  unfold Chip.log
  split
  · exact ⟨_, rfl⟩
  · exact ⟨_, rfl⟩

/-- R651, R685, R833: a message is withheld, held in the pending array or sent. -/
theorem msix_cases (n : Nat) : k.msix n = k.event n ∨ k.msix n = (k.event n).raise Reg.msixPba n ∨ k.msix n = (k.event n).send (.msix n) := by
  unfold Chip.msix Chip.msixSend
  split
  · exact .inl rfl
  · split
    · exact .inr (.inl rfl)
    · exact .inr (.inr rfl)

theorem msix_regsOnly (n : Nat) : regsOnly k (k.msix n) (fun o => o = Reg.hubEvent ∨ o = Reg.msixPba) := by
  have hevent : regsOnly k (k.event n) (fun o => o = Reg.hubEvent ∨ o = Reg.msixPba) := regsOnly.refl.raise n (.inl rfl)
  rcases msix_cases k n with h | h | h <;> rw [h]
  · exact hevent
  · exact hevent.raise n (.inr rfl)
  · exact hevent.onHub _

theorem msix_hub (n : Nat) : ∃ out, (k.msix n).hub = { k.hub with out := out } := by
  rcases msix_cases k n with h | h | h <;> rw [h] <;> exact ⟨_, rfl⟩

end LogAndMessages

/-! ### A ring that stops (R516) -/

/-- STOPPED and the cause in the ring's status, and the ring among those that are not served: what a stop does before it is told. -/
def markStopped (k : Chip) (r cause : Nat) : Chip :=
  ((k.raise (Reg.subqStatus r) 31).setF (Reg.subqStatus r) 1 0 cause).onHub (fun hb => { hb with badRings := r :: hb.badRings })

section StopRing

variable (k : Chip) (r cause : Nat)

theorem stopRing_eq : k.stopRing r cause = ((markStopped k r cause).logPlain 0x14 r).msix 18 := rfl

/-- What tells of a stop writes no register of a ring. -/
theorem stopRing_regsOnly_marked :
    regsOnly (markStopped k r cause) (k.stopRing r cause) (fun o => o = Reg.logOvf 0x14 ∨ o = Reg.hubEvent ∨ o = Reg.msixPba) := by
  have hlog := log_regsOnly (markStopped k r cause) { occ 0x14 (markStopped k r cause).now with detail := r }
  have hmsix := msix_regsOnly ((markStopped k r cause).logPlain 0x14 r) 18
  rw [stopRing_eq]
  exact (hlog.mono (fun _ => .inl)).trans (hmsix.mono (fun _ => .inr))

theorem stopRing_unitsKept : unitsKept k (k.stopRing r cause) := (stopRing_regsOnly_marked k r cause).2

/-- The ring joins those not served; of the hub else only the log's queue and what leaves the part move. -/
theorem stopRing_hub : ∃ q out, (k.stopRing r cause).hub = { k.hub with badRings := r :: k.hub.badRings, logQ := q, out := out } := by
  obtain ⟨q, hq⟩ := log_hub (markStopped k r cause) { occ 0x14 (markStopped k r cause).now with detail := r }
  obtain ⟨out, hout⟩ := msix_hub ((markStopped k r cause).logPlain 0x14 r) 18
  refine ⟨q, out, ?_⟩
  rw [stopRing_eq, hout, Chip.logPlain, hq]
  rfl

/-- SUBQ_STATUS is none of the registers that tell of a stop. -/
theorem subqStatus_not_told : ¬ (Reg.subqStatus r = Reg.logOvf 0x14 ∨ Reg.subqStatus r = Reg.hubEvent ∨ Reg.subqStatus r = Reg.msixPba) := by
  simp only [Reg.subqStatus, Reg.logOvf, Reg.hubEvent, Reg.msixPba]
  omega

theorem stopRing_stopped : (k.stopRing r cause).flag (Reg.subqStatus r) 31 = true := by
  rw [(stopRing_regsOnly_marked k r cause).flag 31 (subqStatus_not_told r)]
  exact (flag_setF_other _ _ 1 0 cause 31 (by decide) (by decide) (by decide)).trans (flag_raise_same k _ 31 (by decide))

theorem stopRing_cause (h : cause < 4) : (k.stopRing r cause).getF (Reg.subqStatus r) 1 0 = cause := by
  rw [(stopRing_regsOnly_marked k r cause).getF 1 0 (subqStatus_not_told r)]
  exact (getF_setF_same _ _ 1 0 cause (by decide) (by decide)).trans (Nat.mod_eq_of_lt h)

theorem stopRing_not_ready : (k.stopRing r cause).subqReady r = false := by
  obtain ⟨q, out, hhub⟩ := stopRing_hub k r cause
  simp [Chip.subqReady, hhub]

end StopRing

/-- The ring served next is one that may be read. -/
theorem nextRing_ne {k : Chip} {r : Nat} (h : k.subqReady r = false) : k.nextRing ≠ some r := by
  intro hnext
  have hready : k.subqReady r = true := List.find?_some hnext
  exact Bool.false_ne_true (h.symm.trans hready)

/-! ### The records of a submission ring (R514 to R518, R521) -/

/-- The slots of the record that a header begins. -/
def recSlots (hb : List Byte) : Nat := 1 + ((recHdr hb).len + 63) / 64

/-- The slots that a ring holds unaccepted. -/
def heldSlots (k : Chip) (r : Nat) : Nat :=
  (k.getF (Reg.subqPi r) 15 0 + k.subqSize r - k.getF (Reg.subqCi r) 15 0) % k.subqSize r

/-- A record of ring `r` accepted: CI, as the chip `k0` had it, moves past the record's slots, and the record becomes a job. -/
def takeRecord (k0 : Chip) (r : Nat) (hb db : List Byte) (k : Chip) : Chip :=
  let k := (k.setF (Reg.subqCi r) 15 0 ((k0.getF (Reg.subqCi r) 15 0 + recSlots hb) % k0.subqSize r)).onHub (fun x => { x with lastRing := r })
  k.acceptRecord (.ring r) (hb ++ db) (k.now + k.classDeadline (recHdr hb).cls)

/-- What a record comes to with the read `b` of the slots behind its header. -/
def acceptData (k0 : Chip) (r : Nat) (hb : List Byte) (b : List Byte × Bool × Mach) : Mach :=
  let (db, bad, m) := b
  if bad then m.onChip (fun k => k.stopRing r 3) else m.onChip (takeRecord k0 r hb db)

/-- What the next record of a ring comes to with the read `a` of its header's slot, `more` reading the slots behind it. -/
def acceptHead (k0 : Chip) (r : Nat) (more : Mach → Nat → List Byte × Bool × Mach) (a : List Byte × Bool × Mach) : Mach :=
  let (hb, bad, m) := a
  if bad then m.onChip (fun k => k.stopRing r 3)
  else if !(recHdr hb).formed then m.onChip (fun k => k.stopRing r 1)
  else if (recHdr hb).type = 15 then m.onChip (fun k => k.setF (Reg.subqCi r) 15 0 0)
  else if k0.subqSize r < k0.getF (Reg.subqCi r) 15 0 + recSlots hb ∨ heldSlots k0 r < recSlots hb then m.onChip (fun k => k.stopRing r 2)
  else acceptData k0 r hb (more m (recSlots hb - 1))

/-- RECORD_ACCEPT of the ring whose turn it is, with a tag to give. The read of the ring stands as a variable while the two sides are compared, for
the kernel would run it. -/
theorem exec_recordAccept {s : State} {r : Nat} (h : live s (r < 16)) (hserving : s.k.serving = true) (htag : s.k.nextTag.isSome = true)
    (hnext : s.k.nextRing = some r) : exec (.recordAccept r) s = .next (turned s
      (acceptHead s.k r (fun m n => m.ringRead s.part.vats r (s.k.getF (Reg.subqCi r) 15 0 + 1) n)
        ((machOf s).ringRead s.part.vats r (s.k.getF (Reg.subqCi r) 15 0) 1))) := by
  change execRecordAccept r s = _
  have hturn : ¬((!(machOf s).k.serving) = true ∨ (machOf s).k.nextTag.isNone = true ∨ (machOf s).k.nextRing ≠ some r) := by
    simp [machOf, hserving, hnext, Option.ne_none_iff_isSome.mpr htag]
  rw [execRecordAccept, onTurn_live _ h, if_neg hturn]
  obtain ⟨read, hread⟩ : ∃ read, read = Mach.ringRead := ⟨_, rfl⟩
  rw [← hread]
  rfl

section Record

variable {k0 : Chip} {r : Nat} {hb : List Byte} {more : Mach → Nat → List Byte × Bool × Mach} {a b : List Byte × Bool × Mach}

theorem acceptData_bad (hbad : b.2.1 = true) : acceptData k0 r hb b = b.2.2.onChip (fun k => k.stopRing r 3) := if_pos hbad

theorem acceptData_good (hgood : b.2.1 = false) : acceptData k0 r hb b = b.2.2.onChip (takeRecord k0 r hb b.1) :=
  if_neg (ne_true_of_eq_false hgood)

theorem acceptHead_bad (hbad : a.2.1 = true) : acceptHead k0 r more a = a.2.2.onChip (fun k => k.stopRing r 3) := if_pos hbad

variable (hgood : a.2.1 = false)
include hgood

theorem acceptHead_unformed (hform : (recHdr a.1).formed = false) : acceptHead k0 r more a = a.2.2.onChip (fun k => k.stopRing r 1) := by
  simp [acceptHead, hgood, hform]

variable (hform : (recHdr a.1).formed = true)
include hform

theorem acceptHead_wrap (htype : (recHdr a.1).type = 15) :
    acceptHead k0 r more a = a.2.2.onChip (fun k => k.setF (Reg.subqCi r) 15 0 0) := by
  simp [acceptHead, hgood, hform, htype]

variable (htype : (recHdr a.1).type ≠ 15)
include htype

theorem acceptHead_cut (hcut : k0.subqSize r < k0.getF (Reg.subqCi r) 15 0 + recSlots a.1 ∨ heldSlots k0 r < recSlots a.1) :
    acceptHead k0 r more a = a.2.2.onChip (fun k => k.stopRing r 2) := by
  simp [acceptHead, hgood, hform, htype, hcut]

theorem acceptHead_held (hring : k0.getF (Reg.subqCi r) 15 0 + recSlots a.1 ≤ k0.subqSize r) (hheld : recSlots a.1 ≤ heldSlots k0 r) :
    acceptHead k0 r more a = acceptData k0 r a.1 (more a.2.2 (recSlots a.1 - 1)) := by
  simp [acceptHead, hgood, hform, htype, hring, hheld]

end Record

/-- Settles O45: the registers by what their writes come to, the records by the ends of `acceptHead` and `acceptData`, and a stop by what it marks. -/
theorem ringsAreServed : Obligations.RingsAreServed := by
  unfold Obligations.RingsAreServed
  refine ⟨fun s r h => ⟨?subqOff, ?subqOn, ?vringOff, ?vringOn, fun x => ⟨?piInside, ?piOutside, ?ciInside, ?ciOutside⟩,
      ?abortMiss, ?abortAll⟩,
    fun s r h hserving htag hnext => ?records, fun k r cause _ hcause => ?stops⟩
  case subqOff =>
    intro hoff
    obtain ⟨hon, hpi, hci, hruns⟩ := enableSubq_starts hoff
    exact ⟨_, exec_subqEnable h, hon, hpi, hci, hruns, enableSubq_regsOnly hoff⟩
  case subqOn =>
    intro hon
    rw [exec_subqEnable h, enableSubq_on hon]
    rfl
  case vringOff =>
    intro hoff
    obtain ⟨hon, hindex, hphase, hsnoop, hjobs⟩ := enableVring_starts hoff
    exact ⟨_, exec_vringEnable h, hon, hindex, hphase, hsnoop, hjobs, enableVring_regsOnly hoff⟩
  case vringOn =>
    intro hon
    rw [exec_vringEnable h, enableVring_on hon]
    rfl
  case piInside =>
    intro hx
    refine ⟨_, exec_subqPiWrite h x, ?_⟩
    rw [writePi_inside x hx]
    exact ⟨getF_setF_index x _, rfl, regsOnly.refl.setF 15 0 _ rfl⟩
  case piOutside =>
    intro hx
    rw [exec_subqPiWrite h, writePi_outside x hx]
  case ciInside =>
    exact fun hx => ⟨_, exec_vringCiWrite h x, writeCi_getF x hx, writeCi_fullWait x hx, writeCi_hub x hx, writeCi_regsOnly x hx⟩
  case ciOutside =>
    intro hx
    rw [exec_vringCiWrite h, writeCi_outside x hx]
  case abortMiss =>
    intro hnone
    rw [exec_jobAbort h, abortRing_miss hnone]
  case abortAll =>
    intro hsome
    rw [exec_jobAbort h, abortRing_some hsome]
    rfl
  case records =>
    intro V n ci held a hd slots b e
    have hexec {m : Mach} (hm : acceptHead s.k r (fun m n => m.ringRead V r (ci + 1) n) a = m) : e = .next (turned s m) :=
      hm ▸ exec_recordAccept h hserving htag hnext
    refine ⟨?headBad, ?unformed, ?wrap, ?cut, ?held⟩
    case headBad => exact fun hbad => hexec (acceptHead_bad hbad)
    case unformed => exact fun hgood hform => hexec (acceptHead_unformed hgood hform)
    case wrap => exact fun hgood hform htype => hexec (acceptHead_wrap hgood hform htype)
    case cut => exact fun hgood hform htype hcut => hexec (acceptHead_cut hgood hform htype hcut)
    case held =>
      intro hgood hform htype hring hheld
      have hwhole : acceptHead s.k r (fun m n => m.ringRead V r (ci + 1) n) a = acceptData s.k r a.1 b :=
        acceptHead_held hgood hform htype hring hheld
      exact ⟨fun hbad => hexec (hwhole.trans (acceptData_bad hbad)), fun hdata => hexec (hwhole.trans (acceptData_good hdata))⟩
  case stops =>
    obtain ⟨q, out, hhub⟩ := stopRing_hub k r cause
    have hready := stopRing_not_ready k r cause
    exact ⟨stopRing_stopped k r cause, stopRing_cause k r cause hcause, hready, nextRing_ne hready, by rw [hhub], stopRing_unitsKept k r cause⟩

end Sys2Proof.Proofs
end

section
/-!
PROOFS. Family 12, the culture image: what a write of BAR0 makes of a register (O48). Each way that a REGISTER_WRITE can go has one equation of
`Mach.barWrite`; the two halves of a register's write have theirs of `Chip.putPlain`, bit by bit, and of `Chip.putLocked`. That the LCK bits of every
register fit in its 64 bits is what makes a register without LCK bits one that takes no notice.
-/

namespace Sys2Proof.Proofs

open Sys2Proof.Machine Sys2Proof.Safety Sys2Proof.Laws

/-! ### The LCK bits of the register tables -/

theorem findReg_mem {rows : List RegRow} {o a : Nat} {r : RegRow} (h : findReg rows o = some (a, r)) : r ∈ rows := by
  induction rows with
  | nil => cases h
  | cons q rest ih =>
    unfold findReg at h
    split at h
    · cases h
      exact List.mem_cons_self
    · exact List.mem_cons_of_mem _ (ih h)

/-- The row of the register over an offset is one of the table that governs the offset. -/
theorem regOver_mem {o a : Nat} {r : RegRow} (h : regOver o = some (a, r)) : r ∈ (regTableAt o).1 := by
  simp only [regOver] at h
  split at h
  · next hfind =>
    cases h
    exact findReg_mem hfind
  · cases h

/-- The LCK bits of a register lie in its 64 bits. -/
def lckFits (r : RegRow) : Bool := decide (r.lck < 2 ^ 64)

/-- Table 13.5: a table that governs an offset is that of one kind of block, or of none. -/
theorem regTableAt_cases (o : Nat) : (regTableAt o).1 ∈ [hubRegs, vatRegs, coreRegs, buRegs, dieRegs, []] := by
  unfold regTableAt
  dsimp only
  repeat' split
  all_goals simp

theorem tables_lckFit : ∀ rows ∈ [hubRegs, vatRegs, coreRegs, buRegs, dieRegs, []], rows.all lckFits = true := by
  decide

theorem lckAt_lt (V o : Nat) : lckAt V o < 2 ^ 64 := by
  unfold lckAt
  split
  · decide
  · split
    · next r hover =>
      have hfits : lckFits r = true := List.all_eq_true.mp (tables_lckFit _ (regTableAt_cases o)) r (regOver_mem hover)
      split
      · exact of_decide_eq_true hfits
      · decide
    · decide

/-- A register has no LCK bit where its 64 bits have none. -/
theorem ofNat_lckAt_eq_zero_iff (V o : Nat) : BitVec.ofNat 64 (lckAt V o) = 0 ↔ lckAt V o = 0 := by
  rw [← BitVec.toNat_inj, BitVec.toNat_ofNat, Nat.mod_eq_of_lt (lckAt_lt V o)]
  rfl

/-! ### The LCK fields of a register written (R18, R571, R583) -/

/-- A transaction with the value `x` staged for the register at `o`, with domain 0's authority. -/
def stageWrite (t : Txn) (o : Nat) (x : Word) : Txn :=
  { t.putReg o x.toNat 0 with writes := t.writes ++ [(o, x)] }

section PutLocked

variable {k : Chip} {V o : Nat} (w : Word)

theorem putLocked_unlocked (h : lckAt V o = 0) : k.putLocked V o w = k := if_pos h

variable (h : lckAt V o ≠ 0)
include h

theorem putLocked_shut (hshut : k.ciState ≠ 1 ∨ k.hub.txn = none) : k.putLocked V o w = k.logPlain 0x10 o := by
  unfold Chip.putLocked
  dsimp only
  rw [if_neg h]
  split
  · next t ht => exact if_neg (hshut.resolve_right (by simp [ht]))
  · rfl

theorem putLocked_open {t : Txn} (hopen : k.ciState = 1) (ht : k.hub.txn = some t) :
    k.putLocked V o w = k.onHub (fun x => { x with txn := some (stageWrite t o (w &&& ~~~BitVec.ofNat 64 (rwAt o))) }) := by
  simp only [Chip.putLocked, if_neg h, ht, if_pos hopen, stageWrite]

end PutLocked

/-- Whether the value is staged or logged, no register but a LOG_OVF changes. -/
theorem putLocked_regsOnly (k : Chip) (V o : Nat) (w : Word) : regsOnly k (k.putLocked V o w) (· = Reg.logOvf 0x10) := by
  by_cases h : lckAt V o = 0
  · rw [putLocked_unlocked w h]
    exact regsOnly.refl
  · by_cases hshut : k.ciState ≠ 1 ∨ k.hub.txn = none
    · rw [putLocked_shut w h hshut]
      exact log_regsOnly k { occ 0x10 k.now with detail := o }
    · obtain ⟨hopen, htxn⟩ := not_or.mp hshut
      obtain ⟨t, ht⟩ := Option.ne_none_iff_exists'.mp htxn
      rw [putLocked_open w h (not_not.mp hopen) ht]
      exact regsOnly.refl.onHub _

/-! ### The other fields of a register written (Table 0.3) -/

/-- A word with the bits of `rw` taken from `w`, and those of `clr` cleared where `w` has them. -/
theorem getLsbD_written (x rw clr w : Word) (i : Nat) (h : i < 64) :
    (((x &&& ~~~rw) ||| (w &&& rw)) &&& ~~~(w &&& clr)).getLsbD i =
      ((if rw.getLsbD i then w.getLsbD i else x.getLsbD i) && !(clr.getLsbD i && w.getLsbD i)) := by
  simp only [BitVec.getLsbD_and, BitVec.getLsbD_or, BitVec.getLsbD_not, h, decide_true, Bool.true_and]
  cases rw.getLsbD i <;> simp [Bool.and_comm]

/-- Each bit of a register by its access type: an RW bit that does not act, a W1C or sticky bit, and any other. -/
theorem putPlain_bits (k : Chip) (o : Nat) (r : RegRow) (w : Word) (i : Nat) (h : i < 64) :
    ((k.putPlain o r w).reg o).getLsbD i =
      ((if (BitVec.ofNat 64 (r.bitsOf (· = .rw) - (r.bitsOf (· = .rw) &&& actingBits o))).getLsbD i then w.getLsbD i else (k.reg o).getLsbD i) &&
        !((BitVec.ofNat 64 (r.bitsOf (fun a => a = .w1c || a = .sticky))).getLsbD i && w.getLsbD i)) := by
  rw [Chip.putPlain, reg_setReg_same]
  exact getLsbD_written _ _ _ w i h

/-! ### The ways that a write of BAR0 can go (R730, R825, R829) -/

section BarWrite

variable {m : Mach} {p : Part} {a n : Nat} {full : Bool} {w : Word}

theorem barPut_lost (h : m.k.lostBlock p.vats a = true) : m.barPut p a n full w = m := if_pos h

theorem barWrite_lost (h : m.k.lostBlock p.vats a = true) : m.barWrite p a n full w = m := by
  unfold Mach.barWrite
  split
  · exact if_pos h
  · exact barPut_lost h

theorem barWrite_awake (h : m.k.sleeper p.vats a = none) : m.barWrite p a n full w = m.barPut p a n full w := by
  simp only [Mach.barWrite, h]

variable (hkept : m.k.lostBlock p.vats a = false)
include hkept

theorem barWrite_asleep {v : Nat} (h : m.k.sleeper p.vats a = some v) : m.barWrite p a n full w =
    m.onChip (fun k => k.holdBar { vat := v, offset := a, size := n, write := true, full := full, value := w }) := by
  simp only [Mach.barWrite, h, hkept, Bool.false_eq_true, if_false]

theorem barPut_whole {r : RegRow} (h : touched p.vats a n = [(a, n)]) (hfull : full = true) (hover : regOver a = some (a, r)) :
    m.barPut p a n full w = m.writeReg p a r w := by
  simp only [Mach.barPut, hkept, h, hfull, hover, Bool.false_eq_true, if_false, and_self, if_true]

theorem barPut_nowhere (h : touched p.vats a n = []) (hformed : full = true ∧ (n = 4 ∨ n = 8) ∧ a % n = 0) : m.barPut p a n full w = m := by
  simp only [Mach.barPut, hkept, h, Bool.false_eq_true, if_false, if_pos hformed]

theorem barPut_unformed (h : touched p.vats a n = []) (hform : ¬ (full = true ∧ (n = 4 ∨ n = 8) ∧ a % n = 0)) :
    m.barPut p a n full w = m.onChip (fun k => k.badAccess true a) := by
  simp only [Mach.barPut, hkept, h, Bool.false_eq_true, if_false, if_neg hform]

/-- Part of a register, or more than one, is no write of a register. -/
theorem barPut_partial (h : touched p.vats a n ≠ []) (hpart : full = false ∨ touched p.vats a n ≠ [(a, n)]) :
    m.barPut p a n full w = m.onChip (fun k => k.badAccess true a) := by
  unfold Mach.barPut
  rw [if_neg (ne_true_of_eq_false hkept)]
  split
  · next hnone => exact absurd hnone h
  · next b c hone =>
    refine if_neg fun hwhole => ?_
    obtain ⟨hfull, rfl, rfl⟩ := hwhole
    exact hpart.elim (fun hnot => Bool.false_ne_true (hnot.symm.trans hfull)) (fun hnot => hnot hone)
  · rfl

end BarWrite

theorem exec_registerWrite {s : State} (o : BitVec 28) (n : Nat) (full : Bool) (w : Word) (h : live s true) :
    exec (.registerWrite o n full w) s = .next (withM s ((machOf s).barWrite s.part o.toNat n full w)) :=
  onMach_next s true (fun m => m.barWrite s.part o.toNat n full w) h.1 h.2

/-- Settles O48: the command by the ways that a write of BAR0 can go, the halves of a register's write by their equations. -/
theorem registersAreWrittenByAccess : Obligations.RegistersAreWrittenByAccess := by
  unfold Obligations.RegistersAreWrittenByAccess
  refine ⟨?lost, ?command, ?locked, ?plain⟩
  case lost =>
    intro s o n full w h hlost
    rw [exec_registerWrite o n full w h, barWrite_lost hlost]
    rfl
  case command =>
    intro s o n full w h hkept a k e
    have hexec {m : Mach} (hm : (machOf s).barWrite s.part a n full w = m) : e = .next (withM s m) :=
      hm ▸ exec_registerWrite o n full w h
    refine ⟨fun v hasleep => hexec (barWrite_asleep hkept hasleep), fun hawake => ?_⟩
    have hput {m : Mach} (hm : (machOf s).barPut s.part a n full w = m) : e = .next (withM s m) :=
      hexec ((barWrite_awake hawake).trans hm)
    exact ⟨fun r hone hfull hover => hput (barPut_whole hkept hone hfull hover),
      fun hnone hfull hsize halign => hput (barPut_nowhere hkept hnone ⟨hfull, hsize, halign⟩),
      fun hnone hform => hput (barPut_unformed hkept hnone hform),
      fun hsome hpart => hput (barPut_partial hkept hsome hpart)⟩
  case locked =>
    intro k V o w k'
    rw [ne_eq, ofNat_lckAt_eq_zero_iff]
    refine ⟨fun a ha => (putLocked_regsOnly k V o w).1 a (ha 0x10), putLocked_unlocked w, putLocked_shut w, ?_⟩
    intro t hlck hopen ht x
    have hstaged : k' = _ := putLocked_open w hlck hopen ht
    rw [hstaged]
    exact ⟨_, rfl, rfl, rfl, rfl, rfl, rfl, rfl, rfl, rfl⟩
  case plain =>
    intro k o r w rw clr k'
    exact ⟨putPlain_bits k o r w, fun a ha => reg_setReg_other _ _ _ _ ha, rfl, rfl, rfl, rfl, rfl⟩

end Sys2Proof.Proofs
end

section
/-!
PROOFS. The step law, the reset state and the passing of time (O1, O2, O5): an entry that lands in a hoop leaves the hub as it was, so what moves in a
tick moves on the clock that the tick has set.
-/

namespace Sys2Proof.Proofs

open Sys2Proof.Machine Sys2Proof.Safety Sys2Proof.Laws

/-- Settles O1: `step` is the front command's `exec`. -/
theorem stepRunsTheFrontCommand : Obligations.StepRunsTheFrontCommand := by
  unfold Obligations.StepRunsTheFrontCommand
  intro s c rest h
  simp only [step, h]

/-- Settles O5: no cell is listed at reset, so every address reads 0. -/
theorem resetIsCanonical : Obligations.ResetIsCanonical := by
  unfold Obligations.ResetIsCanonical
  exact ⟨by decide, rfl, fun _ => rfl⟩

/-! ### What an entry's landing leaves of the hub -/

section HoopHub

variable (k : Chip) (v c h : Nat)

@[simp] theorem count_hub (o n : Nat) : (k.count o n).hub = k.hub := by
  simp only [Chip.count]; split <;> rfl

theorem onPeer_hub (f : Hoop → Hoop) : (k.onPeer v c h f).hub = k.hub := by
  unfold Chip.onPeer; split <;> rfl

theorem notePush_hub : (k.notePush v c h).hub = k.hub := by
  unfold Chip.notePush
  dsimp only
  split <;> simp [onPeer_hub]

theorem noteDepth_hub : (k.noteDepth v c h).hub = k.hub := by
  unfold Chip.noteDepth
  dsimp only
  split <;> rfl

theorem flushHoop_hub : (k.flushHoop v c h).hub = k.hub := by
  unfold Chip.flushHoop
  dsimp only
  split <;> rfl

theorem settleHoop_hub : (k.settleHoop v c h).hub = k.hub := rfl

theorem landOne_hub (e : Entry) : (k.landOne v c h e).hub = k.hub := by
  unfold Chip.landOne
  dsimp only
  split
  · split
    · exact (flushHoop_hub _ v c h).trans (notePush_hub k v c h)
    · exact notePush_hub k v c h
  · exact (settleHoop_hub _ v c h).trans ((noteDepth_hub _ v c h).trans (notePush_hub k v c h))

theorem pushOf_hub {s : Nat} {e : Entry} {k' : Chip} (hp : k.pushOf v c s h = some (e, k')) : k'.hub = k.hub := by
  unfold Chip.pushOf at hp
  split at hp
  · cases hp
  · split at hp
    · exact (congrArg Chip.hub (Prod.ext_iff.mp (Option.some.inj hp)).2).symm
    · exact (congrArg Chip.hub (Prod.ext_iff.mp (Option.some.inj hp)).2).symm
    · obtain ⟨_, _, he⟩ := Option.map_eq_some_iff.mp hp
      exact (congrArg Chip.hub (Prod.ext_iff.mp he).2).symm
    · cases hp

theorem nextPush_hub {but : Nat} {e : Entry} {k' : Chip} (hp : k.nextPush v c h but = some (e, k')) : k'.hub = k.hub := by
  obtain ⟨s, _, hs⟩ := List.exists_of_findSome?_eq_some hp
  split at hs
  · cases hs
  · exact pushOf_hub k v c h hs

theorem landWaiting_hub (fuel but : Nat) : (Chip.landWaiting fuel k v c h but).hub = k.hub := by
  induction fuel generalizing k with
  | zero => rfl
  | succ n ih =>
    unfold Chip.landWaiting
    split
    · rename_i hp
      rw [ih, landOne_hub, nextPush_hub k v c h hp]
    · rfl

theorem landEntry_hub (e : Entry) : (k.landEntry v c h e).hub = k.hub := by
  unfold Chip.landEntry
  split
  · rw [landWaiting_hub, landOne_hub]
  · exact landOne_hub k v c h e

end HoopHub

/-! ### The clock -/

theorem feedHub_now (k : Chip) : k.feedHub.now = k.now := by
  have hub : ∀ (l : List FeedEntry) (a : Chip × List FeedEntry), a.1.hub = k.hub → (l.foldl (fun a x =>
      if a.2.any (fun y => y.core = x.core && y.hoop = x.hoop) || a.1.hubFull (x.core / 4) (x.core % 4) x.hoop || !a.1.vatRuns (x.core / 4)
        || a.1.feedHeld x then (a.1, a.2 ++ [x])
      else (a.1.landEntry (x.core / 4) (x.core % 4) x.hoop x.entry, a.2)) a).1.hub = k.hub := by
    intro l a ha
    refine foldl_keeps (fun a => a.1.hub = k.hub) _ l a ha (fun a x hx => ?_)
    split
    · exact hx
    · exact (landEntry_hub _ _ _ _ _).trans hx
  have htime := congrArg Hub.time (hub k.hub.feed (k, []) rfl)
  exact htime

@[simp] theorem setPower_hub (k : Chip) (v : Nat) (st : VatPower) : (k.setPower v st).hub = k.hub := rfl

theorem bootTick_now (k : Chip) (p : Part) : (k.bootTick p).now = k.now := by
  unfold Chip.bootTick
  split
  · rfl
  · split
    · rfl
    · split
      · have htime := congrArg Hub.time (foldl_keeps (fun x : Chip => x.hub = k.hub) (fun x v => x.setPower v .awake) (List.range p.vats) k rfl
          (fun x v hx => (setPower_hub x v .awake).trans hx))
        exact htime
      · rfl

/-! ### The vats noted idle -/

theorem lookup_map_self_ne_zero {l : List Nat} {f : Nat → Nat} {v : Nat} (h : lookup 0 (l.map (fun v => (v, f v))) v ≠ 0) : v ∈ l := by
  induction l with
  | nil => exact absurd rfl h
  | cons a l ih =>
    by_cases hv : v = a
    · exact hv ▸ List.mem_cons_self
    · simp only [List.map_cons, lookup, hv, if_false] at h
      exact List.mem_cons_of_mem a (ih h)

theorem noteIdle_vatIdle {k : Chip} {V v : Nat} (h : lookup 0 (k.noteIdle V).hub.pwr.idleSince v ≠ 0) : k.vatIdle v = true := by
  have hmem := lookup_map_self_ne_zero (f := fun v => lookup k.now k.hub.pwr.idleSince v) h
  exact ((Bool.and_eq_true _ _).mp (List.mem_filter.mp hmem).2).2

/-- Settles O2: `step` ticks the clock, and what a tick moves leaves the hub's time. -/
theorem emptyQueueLetsTimePass : Obligations.EmptyQueueLetsTimePass := by
  unfold Obligations.EmptyQueueLetsTimePass
  intro s hq
  refine ⟨by simp only [step, hq], ⟨rfl, rfl, rfl⟩, ?unpowered, ?powered⟩
  case unpowered =>
    intro hp
    simp only [State.tick, Chip.tick, hp, Bool.not_false, if_true]
  case powered =>
    intro hp
    have halive : ∀ x : Chip, x.hub.boot.cond = s.k.hub.boot.cond → x.alive = s.k.alive := fun x hx => by simp only [Chip.alive, hx]
    have hon := halive (s.k.onHub (fun h => { h with time := h.time + 1 })) rfl
    have htick : s.tick.k = if s.k.alive then
        (((s.k.onHub (fun h => { h with time := h.time + 1 })).feedHub.bootTick s.part).noteIdle s.part.vats)
        else s.k.onHub (fun h => { h with time := h.time + 1 }) := by
      simp only [State.tick, Chip.tick, hp, Bool.not_true, Bool.false_eq_true, if_false, hon]
    cases ha : s.k.alive
    · simp only [ha, Bool.false_eq_true, if_false] at htick
      exact ⟨by rw [htick]; rfl, fun _ => htick, fun h => absurd h (by decide)⟩
    · simp only [ha, if_true] at htick
      refine ⟨?now, fun h => absurd h (by decide), fun _ => ⟨htick, fun v hv => ?idle⟩⟩
      case now =>
        rw [htick]
        exact (bootTick_now _ _).trans (feedHub_now _)
      case idle =>
        rw [htick] at hv
        exact noteIdle_vatIdle hv

end Sys2Proof.Proofs
end

section
/-!
PROOFS. Flow (O12, O13, O15): what follows an instruction under the open loop levels, and the flow instructions in both profiles. A flow instruction
that goes through leaves its unit with the sequencer that `SeqRes` gives: `coreSeq` and `bankSeq` say so once for all of them.
-/

namespace Sys2Proof.Proofs

open Sys2Proof.Machine Sys2Proof.Safety Sys2Proof.Laws

/-! ### Loop levels -/

theorem after_nil {q : Sequencer} (h : q.loops = []) (pc : Nat) : q.after pc = { q with pc := pc + 1 } := by
  cases q; cases h; rfl

theorem after_elsewhere {q : Sequencer} {outer : List LoopLevel} {l : LoopLevel} {pc : Nat} (h : q.loops = outer ++ [l]) (hl : l.last ≠ pc) :
    q.after pc = { q with pc := pc + 1 } := by
  simp [Sequencer.after, h, closeLevels, hl]

theorem after_again {q : Sequencer} {outer : List LoopLevel} {l : LoopLevel} {pc : Nat} (h : q.loops = outer ++ [l]) (hl : l.last = pc)
    (hmore : l.forever = true ∨ l.li + 1 < l.count) :
    q.after pc = { q with loops := outer ++ [{ l with li := l.li + 1 }], pc := l.first } := by
  simp [Sequencer.after, h, closeLevels, hl, hmore]

theorem after_closes {q : Sequencer} {outer : List LoopLevel} {l : LoopLevel} {pc : Nat} (h : q.loops = outer ++ [l]) (hl : l.last = pc)
    (hend : l.forever = false) (hcount : l.count ≤ l.li + 1) :
    q.after pc = ({ q with loops := outer } : Sequencer).after pc := by
  simp [Sequencer.after, h, closeLevels, hl, hend, Nat.not_lt.mpr hcount]

/-- Settles O12: the four cases of the innermost level, read off `closeLevels` at the end of the list of levels. -/
theorem loopsCloseFromTheInside : Obligations.LoopsCloseFromTheInside := by
  unfold Obligations.LoopsCloseFromTheInside
  intro q outer l
  exact ⟨fun h => after_nil h _, fun h hl => after_elsewhere h hl, fun h hl hmore => after_again h hl hmore,
    fun h hl hend hcount => after_closes h hl hend hcount⟩

/-! ### Flow on a stream -/

section Stream

variable {s : State} {v c t : Nat} {ops : BitVec 56}

/-- A popped register end gives its value and leaves the chip as it is (R320). -/
theorem popEnd_register {k : Chip} {v c t e : Nat} (h : hoopEnd e = false) : k.popEnd v c t e = .done (wordEntry (k.endValue v c t e)) k := by
  simp [Chip.popEnd, h]

theorem exec_loop_core (h : coreAt s v c t 0x03 ops) (hz : reservedZero ops useL = true) (hcnt : (lForm ops).cnt < 0x20)
    (hforever : (lForm ops).forever = true → (lForm ops).cnt = 0) {r : SeqRes}
    (hr : ((entered s.k v c t).stream v c t).seq.loop false (lForm ops) ((entered s.k v c t).endValue v c t (lForm ops).cnt).toNat = r) :
    exec (.loop (.core v c t) ops) s = .next (withK s (match coreSeq (entered s.k v c t) v c t r with
        | .fault f k' => s.k.faultHere k' v c t f.code
        | .dmaFault k' => k'
        | .stall a b => s.k.noteStall v c t a b
        | .wait => s.k
        | .step k' => k'.advanceCore v c t
        | .jump k' => k'.issued v c t
        | .held k' => k')) := by
  subst hr
  change execLoop _ _ _ = _
  unfold execLoop
  refine (core_run s v c t 0x03 ops _ _ _ _ _ h (by decide) hz ?legal).trans rfl
  simp only [hcnt, decide_true, Bool.true_and, Bool.or_eq_true, Bool.not_eq_true', decide_eq_true_eq]
  cases hf : (lForm ops).forever
  · exact .inl rfl
  · exact .inr (hforever hf)

theorem exec_callL_core (h : coreAt s v c t 0x04 ops) (hz : reservedZero ops useTarget = true) {q' : Sequencer}
    (hq : ((entered s.k v c t).stream v c t).seq.call false false (cTarget ops) none = .goto q') :
    exec (.callL (.core v c t) ops) s = .next (withK s (((entered s.k v c t).setStream v c t
      { (entered s.k v c t).stream v c t with seq := q' }).issued v c t)) := by
  change execCallL _ _ _ = _
  unfold execCallL
  refine (core_run s v c t 0x04 ops _ _ _ _ _ h (by decide) hz ?legal).trans ?effect
  case legal => rfl
  case effect => simp only [Chip.seqOf, hq, coreSeq]

theorem exec_callR_core (h : coreAt s v c t 0x05 ops) (hz : reservedZero ops (0xFF * 2 ^ 40) = true) {q' : Sequencer}
    (hq : ((entered s.k v c t).stream v c t).seq.callR (entered s.k v c t) false (cTarget ops) = .goto q') :
    exec (.callR (.core v c t) ops) s = .next (withK s (((entered s.k v c t).setStream v c t
      { (entered s.k v c t).stream v c t with seq := q' }).issued v c t)) := by
  change execCallR _ _ _ = _
  unfold execCallR
  refine (core_run s v c t 0x05 ops _ _ _ _ _ h (by decide) hz ?legal).trans ?effect
  case legal => rfl
  case effect => simp only [Chip.seqOf, hq, coreSeq]

theorem exec_ljmp_core (h : coreAt s v c t 0x06 ops) (hz : reservedZero ops (0xFF * 2 ^ 40) = true) {q' : Sequencer}
    (hq : ((entered s.k v c t).stream v c t).seq.ljmp (entered s.k v c t) false (cTarget ops) = .goto q') :
    exec (.ljmp (.core v c t) ops) s = .next (withK s (((entered s.k v c t).setStream v c t
      { (entered s.k v c t).stream v c t with seq := q' }).issued v c t)) := by
  change execLjmp _ _ _ = _
  unfold execLjmp
  refine (core_run s v c t 0x06 ops _ _ _ _ _ h (by decide) hz ?legal).trans ?effect
  case legal => rfl
  case effect => simp only [Chip.seqOf, hq, coreSeq]

theorem exec_aiset_immediate (h : coreAt s v c t 0x09 ops) (hz : reservedZero ops useAiset = true) (hsrc : (aForm ops).src = false)
    (ha : (aForm ops).a = 0) :
    exec (.aiset (.core v c t) ops) s = .next (withK s (((entered s.k v c t).setStream v c t { (entered s.k v c t).stream v c t with
      seq := ((entered s.k v c t).stream v c t).seq.setBase (aForm ops).k (BitVec.ofInt 64 (signedOf 32 (aForm ops).imm)) }).advanceCore v c t)) := by
  change execAiset _ _ _ = _
  unfold execAiset
  refine (core_run s v c t 0x09 ops _ _ _ _ _ h (by decide) hz ?legal).trans ?effect
  case legal => simp [hsrc, ha]
  case effect => simp only [hsrc, Bool.false_eq_true, if_false, Chip.seqOf, coreSeq]

theorem exec_aistep_core (h : coreAt s v c t 0x0A ops) (hz : reservedZero ops useAistep = true) :
    exec (.aistep (.core v c t) ops) s = .next (withK s (((entered s.k v c t).setStream v c t { (entered s.k v c t).stream v c t with
      seq := ((entered s.k v c t).stream v c t).seq.setStep (aForm ops).k (aForm ops).level (BitVec.ofNat 32 (aForm ops).imm) }).advanceCore v c t)) := by
  change execAistep _ _ _ = _
  unfold execAistep
  refine (core_run s v c t 0x0A ops _ _ _ _ _ h (by decide) hz ?legal).trans ?effect
  case legal => rfl
  case effect => simp only [Chip.seqOf, coreSeq]

theorem exec_aiset_operand (h : coreAt s v c t 0x09 ops) (hz : reservedZero ops useAiset = true) (hsrc : (aForm ops).src = true)
    (himm : (aForm ops).imm = 0) (ha : s.k.popOk v c t (aForm ops).a = true) {d : BitVec 512} {k1 : Chip}
    (hd : (entered s.k v c t).popEnd v c t (aForm ops).a = .done d k1) :
    exec (.aiset (.core v c t) ops) s = .next (withK s ((k1.setStream v c t { k1.stream v c t with
      seq := (k1.stream v c t).seq.setBase (aForm ops).k (entryWord d) }).advanceCore v c t)) := by
  change execAiset _ _ _ = _
  unfold execAiset
  refine (core_run s v c t 0x09 ops _ _ _ _ _ h (by decide) hz ?legal).trans ?effect
  case legal => simp [hsrc, himm, ha]
  case effect => simp only [hsrc, if_true, hd, Chip.seqOf, coreSeq]

/-- A pending contract ends as a library word other than RET is issued; the space the program counter lies in stays. -/
theorem entered_stream_lib (k : Chip) (v c t : Nat) (h : ((entered k v c t).stream v c t).seq.lib = true) : (k.stream v c t).seq.lib = true := by
  by_cases hl : (k.stream v c t).seq.lib = true
  · exact hl
  · simp only [entered, hl, Bool.false_eq_true, if_false] at h

theorem exec_skipZ_core (h : coreAt s v c t 0x0B ops) (hz : reservedZero ops useA = true)
    (hlib : ((entered s.k v c t).stream v c t).seq.lib = true) (ha : s.k.popOk v c t (qForm ops).a = true) {d : BitVec 512} {k1 : Chip}
    (hd : (entered s.k v c t).popEnd v c t (qForm ops).a = .done d k1) :
    exec (.skipZ (.core v c t) ops) s = .next (withK s
      (if entryWord d = 0 then
        (k1.setStream v c t { k1.stream v c t with seq := (k1.stream v c t).seq.advance.advance }).issued v c t
      else (k1.setStream v c t { k1.stream v c t with seq := (k1.stream v c t).seq }).advanceCore v c t)) := by
  change execSkipZ _ _ _ = _
  unfold execSkipZ
  refine (core_run s v c t 0x0B ops _ _ _ (fun _ => false) _ h (by decide) hz ?legal).trans ?effect
  case legal => simp [Chip.seqOf, entered_stream_lib _ _ _ _ hlib, ha]
  case effect =>
    simp only [hd, Chip.seqOf, decide_eq_true_eq]
    by_cases hw : entryWord d = 0
    · simp only [hw, if_true, coreSeq]
    · simp only [hw, if_false, coreSeq]

end Stream

/-- Settles O13: each instruction by its equation on a stream that stands at it. -/
theorem flowOnAStream : Obligations.FlowOnAStream := by
  unfold Obligations.FlowOnAStream
  refine ⟨?registers, ?popped⟩
  case registers =>
    intro s v c t ops
    refine ⟨?nop, ?halt, ?loop, ?callL, ?callR, ?ljmp, ?aiset, ?aistep, ?skipZ⟩
    case nop =>
      intro h hz
      change execNop _ _ _ = _
      unfold execNop
      refine (core_run s v c t 0x01 ops _ _ _ _ _ h (by decide) ?zero ?legal).trans rfl
      case zero => subst hz; decide
      case legal => rfl
    case halt =>
      intro h hz
      change execHalt _ _ _ = _
      unfold execHalt
      refine (core_run s v c t 0x02 ops _ _ _ _ _ h (by decide) ?zero ?legal).trans rfl
      case zero => subst hz; decide
      case legal => rfl
    case loop =>
      intro q' h hz hcnt hforever
      exact ⟨fun hr => exec_loop_core h hz hcnt hforever hr, fun hr => exec_loop_core h hz hcnt hforever hr⟩
    case callL => exact fun q' h hz hq => exec_callL_core h hz hq
    case callR => exact fun q' h hz hq => exec_callR_core h hz hq
    case ljmp => exact fun q' h hz hq => exec_ljmp_core h hz hq
    case aiset => exact fun h hz hsrc ha => exec_aiset_immediate h hz hsrc ha
    case aistep => exact fun h hz => exec_aistep_core h hz
    case skipZ =>
      intro h hz hlib hreg ha
      rw [entered_popOk] at ha
      have hrun := exec_skipZ_core h hz hlib ha (popEnd_register hreg)
      rwa [entryWord_wordEntry] at hrun
  case popped =>
    intro s v c t ops d k1
    refine ⟨fun h hz hsrc himm ha hd => ?_, fun h hz hlib ha hd => ?_⟩
    · rw [entered_popOk] at ha
      exact exec_aiset_operand h hz hsrc himm ha hd
    · rw [entered_popOk] at ha
      exact exec_skipZ_core h hz hlib ha hd

/-! ### Flow on a bank unit -/

section Bank

variable {s : State} {v d a : Nat} {ops : BitVec 56}

theorem enteredBank_lib (k : Chip) (v d b : Nat) (h : ((enteredBank k v d b).bu v d b).seq.lib = true) : (k.bu v d b).seq.lib = true := by
  by_cases hl : (k.bu v d b).seq.lib = true
  · exact hl
  · simp only [enteredBank, hl, Bool.false_eq_true, if_false] at h

/-- The bank unit's next instruction, its sequencer being `q` when it has completed this one. -/
theorem stepped_of_seq (k : Chip) (v d b : Nat) (u : Bu) :
    (k.setBu v d b u).setBu v d b { (k.setBu v d b u).bu v d b with seq := ((k.setBu v d b u).bu v d b).seq.advance } = bankStepped k v d b u := by
  rw [bu_setBu_same, setBu_setBu]
  rfl

theorem exec_nop_bank (h : bankAt s v d a 0x01 ops) (hz : ops = 0) :
    exec (.nop (.bank v d a) ops) s = .next (withK s (bankStepped (enteredBank s.k v d (s.k.phys v d a)) v d (s.k.phys v d a)
      ((enteredBank s.k v d (s.k.phys v d a)).bu v d (s.k.phys v d a)))) :=
  bank_run s v d a 0x01 ops _ (fun _ _ _ _ => true) (fun _ _ _ _ k => .step k) (fun _ => true) (fun _ _ _ _ k => .step k) h (by decide)
    (by subst hz; decide) rfl

/-- LOOP's operands are legal: a count register of the B profile, or FOREVER with none. -/
theorem loop_legal {f : LForm} (hcnt : f.cnt < 0x10) (hforever : f.forever = true → f.cnt = 0) :
    (decide (f.cnt < 0x10) && (!f.forever || decide (f.cnt = 0))) = true := by
  cases hf : f.forever
  · simp [hcnt]
  · simp [hforever hf]

theorem exec_loop_bank (h : bankAt s v d a 0x03 ops) (hz : reservedZero ops useL = true) (hcnt : (lForm ops).cnt < 0x10)
    (hforever : (lForm ops).forever = true → (lForm ops).cnt = 0) {r : SeqRes}
    (hr : ((enteredBank s.k v d (s.k.phys v d a)).bu v d (s.k.phys v d a)).seq.loop true (lForm ops)
      (((enteredBank s.k v d (s.k.phys v d a)).bu v d (s.k.phys v d a)).endValue (lForm ops).cnt).toNat = r) :
    exec (.loop (.bank v d a) ops) s = .next (withK s (match bankSeq (enteredBank s.k v d (s.k.phys v d a)) v d (s.k.phys v d a) r with
        | .fault f k' => k'.bankFault v d (s.k.phys v d a) f (s.k.bu v d (s.k.phys v d a)).seq.lib (s.k.bu v d (s.k.phys v d a)).seq.pc
        | .wait => s.k
        | .step k' => k'.setBu v d (s.k.phys v d a) { k'.bu v d (s.k.phys v d a) with seq := (k'.bu v d (s.k.phys v d a)).seq.advance }
        | .jump k' => k')) := by
  subst hr
  change execLoop _ _ _ = _
  unfold execLoop
  refine (bank_run s v d a 0x03 ops _ _ _ _ _ h (by decide) hz ?legal).trans rfl
  exact loop_legal hcnt hforever

end Bank

/-- Settles O15: each instruction by its equation on a bank unit that stands at it. -/
theorem flowOnABankUnit : Obligations.FlowOnABankUnit := by
  unfold Obligations.FlowOnABankUnit
  intro s v d a ops b k u w
  refine ⟨?nop, ?halt, ?loop, ?callL, ?callR, ?ljmp, ?aiset, ?aistep, ?skipZ⟩
  case nop => exact fun h hz => exec_nop_bank h hz
  case halt =>
    intro h hz
    change execHalt _ _ _ = _
    unfold execHalt
    refine (bank_run s v d a 0x02 ops _ _ _ _ _ h (by decide) ?zero ?legal).trans rfl
    case zero => subst hz; decide
    case legal => rfl
  case loop =>
    intro q' h hz hcnt hforever
    exact ⟨fun hr => (exec_loop_bank h hz hcnt hforever hr).trans (by simp only [bankSeq, stepped_of_seq, k, b, u]),
      fun hr => exec_loop_bank h hz hcnt hforever hr⟩
  case callL =>
    intro q' h hz ht hq
    change execCallL _ _ _ = _
    unfold execCallL
    refine (bank_run s v d a 0x04 ops _ _ _ _ _ h (by decide) hz ?legal).trans ?effect
    case legal => exact decide_eq_true ht
    case effect => simp only [Chip.bankSeqOf, hq, bankSeq, k, b, u]
  case callR =>
    intro q' h hz hq
    change execCallR _ _ _ = _
    unfold execCallR
    refine (bank_run s v d a 0x05 ops _ _ _ _ _ h (by decide) hz ?legal).trans ?effect
    case legal => rfl
    case effect => simp only [Chip.bankSeqOf, hq, bankSeq, k, b, u]
  case ljmp =>
    intro q' h hz hq
    change execLjmp _ _ _ = _
    unfold execLjmp
    refine (bank_run s v d a 0x06 ops _ _ _ _ _ h (by decide) hz ?legal).trans ?effect
    case legal => rfl
    case effect => simp only [Chip.bankSeqOf, hq, bankSeq, k, b, u]
  case aiset =>
    intro h hz hlegal
    change execAiset _ _ _ = _
    unfold execAiset
    refine (bank_run s v d a 0x09 ops _ _ _ _ _ h (by decide) hz ?legal).trans ?effect
    case legal =>
      cases hsrc : (aForm ops).src <;> simpa [hsrc] using hlegal
    case effect => simp only [Chip.bankSeqOf, bankSeq, stepped_of_seq, k, b, u, w]
  case aistep =>
    intro h hz
    change execAistep _ _ _ = _
    unfold execAistep
    refine (bank_run s v d a 0x0A ops _ _ _ _ _ h (by decide) hz ?legal).trans ?effect
    case legal => rfl
    case effect => simp only [Chip.bankSeqOf, bankSeq, stepped_of_seq, k, b, u]
  case skipZ =>
    intro h hz hlib ha
    change execSkipZ _ _ _ = _
    unfold execSkipZ
    refine (bank_run s v d a 0x0B ops _ (fun k v c t => (k.seqOf v c t).lib && k.popOk v c t (qForm ops).a) _ (fun k => (k.bankSeqOf v d (k.phys v d a)).lib && bankPopOk (qForm ops).a) _ h (by decide)
      hz ?legal).trans ?effect
    case legal =>
      have hl : (s.k.bu v d (s.k.phys v d a)).seq.lib = true := enteredBank_lib _ _ _ _ hlib
      simp only [Chip.bankSeqOf, hl, ha, Bool.and_self]
    case effect =>
      simp only [Chip.bankSeqOf, decide_eq_true_eq, k, b, u]
      by_cases hw : ((enteredBank s.k v d (s.k.phys v d a)).bu v d (s.k.phys v d a)).endValue (qForm ops).a = 0
      · simp only [hw, if_true, bankSeq]
      · simp only [hw, if_false, bankSeq, stepped_of_seq]

end Sys2Proof.Proofs
end

section
/-!
PROOFS. A unit that may not issue, and a bad fetch or class (O10). Every instruction of the processors is one `issue`, RET apart, which is one
wherever
its fetch does not give it: so the outcome is read off the unit and its fetch alone.
-/

namespace Sys2Proof.Proofs

open Sys2Proof.Machine Sys2Proof.Safety Sys2Proof.Laws

/-- The chip after an issue of `op`, whatever the checks and the effect of the instruction are. -/
def isIssue (k : Chip) (u : IssueUnit) (op : Nat) (ops : BitVec 56) (k' : Chip) : Prop :=
  ∃ (used : Nat) (lc : Nat → Nat → Nat → Bool) (core : Nat → Nat → Nat → Chip → CoreEff) (lb : Bool) (bank : Nat → Nat → Nat → Chip → BankEff),
    k' = issue k u op ops used lc core lb bank

/-- Every instruction but RET is an issue on the chip. -/
theorem exec_onChip_issue {i : Instr} {u : IssueUnit} {op : Nat} {ops : BitVec 56} (h : spaith i = some (u, op, ops)) (hret : op ≠ 0x07) :
    ∃ f : Chip → Chip, (∀ s : State, exec i s = s.onChip (s.hasUnit u) f) ∧ ∀ k, isIssue k u op ops (f k) := by
  cases i with
  | ret => cases h; exact absurd rfl hret
  | _ =>
    cases h <;> simp only [exec, scalarOp, scalarMove, bankSlot, baseCommand, issueT, issueB,
      execNop, execHalt, execLoop, execCallL, execCallR, execLjmp, execBar, execAiset, execAistep, execSkipZ, execMov, execLui, execLui2,
      execAdd, execSub, execMul, execAnd, execOr, execXor, execShl, execShr, execSar, execMin, execMax, execSlt, execSeq, execLd, execSt,
      execBload, execBstart, execBstop, execBcast, execSwrite, execSread, execMerge, execHbar, execPass, execPclr, execVchain, execVsmax,
      execVset, execVrsclr, execXfer, execSignal, execWait, execPoll, execHmov, execHpush, execHpop, execFence, execHflush, execBrd, execBwr,
      execBcpy, execBdot, execBalu, execBexp, execBred, execBquant, execBdec, execBwsend, execBwstat] <;>
      exact ⟨_, fun _ => rfl, fun _ => ⟨_, _, _, _, _, rfl⟩⟩

/-- RET is an issue where the unit is not ready or its fetch gives no RET: then no routine is performed. -/
theorem exec_ret_issue {s : State} {u : IssueUnit} {ops : BitVec 56} (hl : live s (s.hasUnit u))
    (h : unitReady s u = false ∨ unitFetch s u 0x07 ops ≠ .ok) : exec (.ret u ops) s = .next (withK s (retIssue s.k u ops)) := by
  change execRet u ops s = _
  unfold execRet
  rw [onBoth_next _ _ _ hl.1 hl.2]
  cases u with
  | core v c t =>
    cases hr : (s.k.seqOf v c t).routine with
    | none => simp only [hr]; rfl
    | some e =>
      have hno : (s.k.canIssue v c t && t = 0 && (s.k.seqOf v c t).lib && ops = 0 && s.k.quiet v c t
          && s.k.fetch false (s.k.seqOf v c t) (s.k.core v c).pstore (s.k.core v c).pstoreBad 0x07 ops = .ok) = false := by
        rcases h with h | h
        · have h' : s.k.canIssue v c t = false := h
          simp only [h', Bool.false_and]
        · exact Bool.and_eq_false_iff.mpr (.inr (decide_eq_false h))
      simp only [hr, hno]; rfl
  | bank v d a =>
    cases hr : (s.k.bu v d (s.k.phys v d a)).seq.routine with
    | none => simp only [hr]; rfl
    | some e =>
      have hno : (s.k.bankCanIssue v d (s.k.phys v d a) && (s.k.bu v d (s.k.phys v d a)).seq.lib && ops = 0 && s.k.fetch true
          (s.k.bu v d (s.k.phys v d a)).seq (s.k.bu v d (s.k.phys v d a)).pstore (s.k.bu v d (s.k.phys v d a)).pstoreBad 0x07 ops = .ok) = false := by
        rcases h with h | h
        · have h' : s.k.bankCanIssue v d (s.k.phys v d a) = false := h
          simp only [h', Bool.false_and]
        · exact Bool.and_eq_false_iff.mpr (.inr (decide_eq_false h))
      simp only [hr, hno]; rfl

/-- An instruction of a unit that is there is an issue, but for a RET that its unit stands at. -/
theorem exec_issue {i : Instr} {u : IssueUnit} {op : Nat} {ops : BitVec 56} {s : State} (h : spaith i = some (u, op, ops))
    (hl : live s (s.hasUnit u)) (hne : op ≠ 0x07 ∨ unitReady s u = false ∨ unitFetch s u op ops ≠ .ok) :
    ∃ k', exec i s = .next (withK s k') ∧ isIssue s.k u op ops k' := by
  by_cases hret : op = 0x07
  · have hi : i = .ret u ops := by
      subst hret
      (cases i <;> cases h); rfl
    subst hret hi
    exact ⟨_, exec_ret_issue hl (hne.resolve_left (absurd rfl)), _, _, _, _, _, rfl⟩
  · obtain ⟨f, hexec, hissue⟩ := exec_onChip_issue h hret
    exact ⟨_, (hexec s).trans (onChip_live f hl), hissue s.k⟩

/-! ### What an issue comes to -/

section Issue

variable {s : State} {u : IssueUnit} {op : Nat} {ops : BitVec 56} {k' : Chip}

theorem issue_not_ready (h : isIssue s.k u op ops k') (hr : unitReady s u = false) : k' = s.k := by
  obtain ⟨used, lc, core, lb, bank, rfl⟩ := h
  cases u with
  | core v c t => exact issueCore_unready s.k v c t op ops used _ _ hr
  | bank v d a => exact issueBank_unready s.k v d _ op ops used _ _ hr

theorem issue_other_word (h : isIssue s.k u op ops k') (hf : unitFetch s u op ops = .other) : k' = s.k := by
  by_cases hr : unitReady s u = true
  · obtain ⟨used, lc, core, lb, bank, rfl⟩ := h
    cases u with
    | core v c t =>
      have hi : s.k.canIssue v c t = true := hr
      have ho : s.k.fetch false ((s.k.core v c).stream t).seq (s.k.core v c).pstore (s.k.core v c).pstoreBad op ops = .other := hf
      simp only [issue, issueCore, hi, ho, Bool.not_true, Bool.false_eq_true, if_false]
    | bank v d a =>
      have hi : s.k.bankCanIssue v d (s.k.phys v d a) = true := hr
      have ho : s.k.fetch true (s.k.bu v d (s.k.phys v d a)).seq (s.k.bu v d (s.k.phys v d a)).pstore (s.k.bu v d (s.k.phys v d a)).pstoreBad
        op ops = .other := hf
      simp only [issue, issueBank, hi, ho, Bool.not_true, Bool.false_eq_true, if_false]
  · exact issue_not_ready h (Bool.eq_false_iff.mpr hr)

end Issue

/-- A fault of a stream with nothing incomplete is raised at once (R311). -/
theorem faultHere_quiet {k0 k : Chip} {v c t code : Nat} (h : k0.quiet v c t = true) :
    k0.faultHere k v c t code = k.coreFault v c t code (k0.stream v c t).seq := by
  have hnil : (k0.stream v c t).inflight = [] := List.isEmpty_iff.mp h
  simp only [Chip.faultHere, hnil, List.all_nil, if_true]

section CoreIssue

variable {s : State} {v c t op : Nat} {ops : BitVec 56} {k' : Chip}

/-- The cause of a fetch that gives no instruction, on a stream. -/
def coreFetchCause : Fetched → Option Nat
  | .pcRange => some 0x52
  | .check => some 0x51
  | .illegal => some 0x50
  | .other | .ok => none

theorem issueCore_badFetch (h : isIssue s.k (.core v c t) op ops k') (hi : s.k.canIssue v c t = true) (hq : s.k.quiet v c t = true) {code : Nat}
    (hc : coreFetchCause (unitFetch s (.core v c t) op ops) = some code) : k' = s.k.coreFault v c t code (s.k.stream v c t).seq := by
  obtain ⟨used, lc, core, lb, bank, rfl⟩ := h
  have hfetch : unitFetch s (.core v c t) op ops =
    s.k.fetch false ((s.k.core v c).stream t).seq (s.k.core v c).pstore (s.k.core v c).pstoreBad op ops := rfl
  rw [hfetch] at hc
  simp only [issue, issueCore, hi, Bool.not_true, Bool.false_eq_true, if_false]
  cases hf : s.k.fetch false ((s.k.core v c).stream t).seq (s.k.core v c).pstore (s.k.core v c).pstoreBad op ops
  all_goals
    rw [hf] at hc
    cases hc <;> exact faultHere_quiet hq

theorem issueCore_badClass (h : isIssue s.k (.core v c t) op ops k') (hi : s.k.canIssue v c t = true) (hq : s.k.quiet v c t = true)
    (hf : unitFetch s (.core v c t) op ops = .ok) (hc : classOkCore op t = false) : k' = s.k.coreFault v c t 0x50 (s.k.stream v c t).seq := by
  obtain ⟨used, lc, core, lb, bank, rfl⟩ := h
  have ho : s.k.fetch false ((s.k.core v c).stream t).seq (s.k.core v c).pstore (s.k.core v c).pstoreBad op ops = .ok := hf
  simp only [issue, issueCore, hi, ho, hc, Bool.not_true, Bool.not_false, Bool.false_and, Bool.false_eq_true, if_false, if_true]
  exact faultHere_quiet hq

end CoreIssue

section BankIssue

variable {s : State} {v d a op : Nat} {ops : BitVec 56} {k' : Chip}

/-- The cause of a fetch that gives no instruction, on a bank unit. -/
def bankFetchCause : Fetched → Option BankCause
  | .pcRange => some .pcRange
  | .check => some .pstoreCheck
  | .illegal => some .illegal
  | .other | .ok => none

theorem issueBank_badFetch (h : isIssue s.k (.bank v d a) op ops k') (hi : unitReady s (.bank v d a) = true) {cause : BankCause}
    (hc : bankFetchCause (unitFetch s (.bank v d a) op ops) = some cause) :
    k' = s.k.bankFault v d (s.k.phys v d a) cause (s.k.bu v d (s.k.phys v d a)).seq.lib (s.k.bu v d (s.k.phys v d a)).seq.pc := by
  obtain ⟨used, lc, core, lb, bank, rfl⟩ := h
  have hready : s.k.bankCanIssue v d (s.k.phys v d a) = true := hi
  have hfetch : unitFetch s (.bank v d a) op ops = s.k.fetch true (s.k.bu v d (s.k.phys v d a)).seq (s.k.bu v d (s.k.phys v d a)).pstore
    (s.k.bu v d (s.k.phys v d a)).pstoreBad op ops := rfl
  rw [hfetch] at hc
  simp only [issue, issueBank, hready, Bool.not_true, Bool.false_eq_true, if_false]
  cases hf : s.k.fetch true (s.k.bu v d (s.k.phys v d a)).seq (s.k.bu v d (s.k.phys v d a)).pstore (s.k.bu v d (s.k.phys v d a)).pstoreBad op ops
  all_goals
    rw [hf] at hc
    cases hc <;> rfl

theorem issueBank_badClass (h : isIssue s.k (.bank v d a) op ops k') (hi : unitReady s (.bank v d a) = true)
    (hf : unitFetch s (.bank v d a) op ops = .ok) (hc : classOkBank op = false) :
    k' = s.k.bankFault v d (s.k.phys v d a) .illegal (s.k.bu v d (s.k.phys v d a)).seq.lib (s.k.bu v d (s.k.phys v d a)).seq.pc := by
  obtain ⟨used, lc, core, lb, bank, rfl⟩ := h
  have hready : s.k.bankCanIssue v d (s.k.phys v d a) = true := hi
  have ho : s.k.fetch true (s.k.bu v d (s.k.phys v d a)).seq (s.k.bu v d (s.k.phys v d a)).pstore (s.k.bu v d (s.k.phys v d a)).pstoreBad
    op ops = .ok := hf
  simp only [issue, issueBank, hready, ho, hc, Bool.not_true, Bool.not_false, Bool.false_and, Bool.false_eq_true, if_false, if_true]

end BankIssue

/-- Settles O10: whatever instruction is claimed, its issue ends at the unit, the fetch or the class. -/
theorem unissuableInstructionsStop : Obligations.UnissuableInstructionsStop := by
  unfold Obligations.UnissuableInstructionsStop
  refine ⟨?nothing, ?badFetch, ?badClass⟩
  case nothing =>
    intro i u op ops s h hl hstop
    obtain ⟨k', hexec, hissue⟩ := exec_issue h hl (.inr (hstop.imp_right (fun hf => by rw [hf]; decide)))
    have hk : k' = s.k := hstop.elim (issue_not_ready hissue) (issue_other_word hissue)
    rw [hexec, hk]
    rfl
  case badFetch =>
    intro i op ops s
    refine ⟨fun v c t h hl hi hq => ?_, fun v d a h hl hi => ?_⟩
    · have fault : ∀ f code, unitFetch s (.core v c t) op ops = f → coreFetchCause f = some code →
          exec i s = .next (withK s (s.k.coreFault v c t code (s.k.stream v c t).seq)) := by
        intro f code hf hc
        obtain ⟨k', hexec, hissue⟩ := exec_issue h hl (.inr (.inr (by rintro hok; rw [← hf, hok] at hc; cases hc)))
        rw [hexec, issueCore_badFetch hissue hi hq (hf ▸ hc)]
      exact ⟨fun hf => fault _ _ hf rfl, fun hf => fault _ _ hf rfl, fun hf => fault _ _ hf rfl⟩
    · have fault : ∀ f cause, unitFetch s (.bank v d a) op ops = f → bankFetchCause f = some cause →
          exec i s = .next (withK s (s.k.bankFault v d (s.k.phys v d a) cause (s.k.bu v d (s.k.phys v d a)).seq.lib
            (s.k.bu v d (s.k.phys v d a)).seq.pc)) := by
        intro f cause hf hc
        obtain ⟨k', hexec, hissue⟩ := exec_issue h hl (.inr (.inr (by rintro hok; rw [← hf, hok] at hc; cases hc)))
        rw [hexec, issueBank_badFetch hissue hi (hf ▸ hc)]
      exact ⟨fun hf => fault _ _ hf rfl, fun hf => fault _ _ hf rfl, fun hf => fault _ _ hf rfl⟩
  case badClass =>
    intro i op ops s
    refine ⟨fun v c t h hl hi hq hf hc => ?_, fun v d a h hl hi hf hc => ?_⟩
    · obtain ⟨k', hexec, hissue⟩ := exec_issue h hl (.inl (by rintro rfl; cases hc))
      rw [hexec, issueCore_badClass hissue hi hq hf hc]
    · obtain ⟨k', hexec, hissue⟩ := exec_issue h hl (.inl (by rintro rfl; cases hc))
      rw [hexec, issueBank_badClass hissue hi hf hc]

end Sys2Proof.Proofs
end

section
/-!
PROOFS. The operand cache, pops, moves, loads and stores (O17, O18, O19).
-/

namespace Sys2Proof.Proofs

open Sys2Proof.Machine Sys2Proof.Safety Sys2Proof.Laws

/-! ### Effects at issue -/

/-- The chip after an instruction of a stream whose effect on the chip `k` that it found comes to `e`. -/
def effected (k : Chip) (v c t : Nat) (e : CoreEff) : Chip :=
  match e with
  | .fault f k' => k.faultHere k' v c t f.code
  | .dmaFault k' => k'
  | .stall a b => k.noteStall v c t a b
  | .wait => k
  | .step k' => k'.advanceCore v c t
  | .jump k' => k'.issued v c t
  | .held k' => k'

/-- `core_run` with its outcome as `effected`. -/
theorem core_run_effected (s : State) (v c t op : Nat) (ops : BitVec 56) (used : Nat) (lc : Chip → Nat → Nat → Nat → Bool)
    (core : Chip → Nat → Nat → Nat → Chip → CoreEff) (lb : Chip → Bool) (bank : Chip → Nat → Nat → Nat → Chip → BankEff)
    (h : coreAt s v c t op ops) (n : op ≠ 0x07) (r : reservedZero ops used = true) (l : lc s.k v c t = true) {e : CoreEff}
    (he : core s.k v c t (entered s.k v c t) = e) :
    s.onChip (s.hasUnit (.core v c t)) (fun k => issue k (.core v c t) op ops used (lc k) (core k) (lb k) (bank k)) =
      .next (withK s (effected s.k v c t e)) := by
  rw [core_run s v c t op ops used lc core lb bank h n r l, he]
  cases e <;> rfl

/-- A fault of a stream with nothing incomplete. -/
theorem effected_fault_quiet {k k' : Chip} {v c t : Nat} {f : CoreCause} (h : k.quiet v c t = true) :
    effected k v c t (.fault f k') = k'.coreFault v c t f.code (k.stream v c t).seq := faultHere_quiet h

/-! ### The operand cache -/

/-- The marks of the words `ws`, all stored as sound. -/
def clearMarks (m : List (Nat × Nat)) (ws : List Nat) : List (Nat × Nat) := ws.foldl (fun m w => store 0 m w 0) m

theorem clearMarks_keeps_zero {ws : List Nat} {m : List (Nat × Nat)} {w : Nat} (h : lookup 0 m w = 0) (hc : canonical 0 m = true) :
    lookup 0 (clearMarks m ws) w = 0 := by
  induction ws generalizing m with
  | nil => exact h
  | cons v ws ih =>
    refine ih ?_ (canonical_store 0 m v 0 hc)
    by_cases hv : w = v
    · rw [hv]; exact lookup_store_same 0 m v 0 hc
    · rw [lookup_store_other 0 m v w 0 hv]; exact h

theorem lookup_clearMarks {ws : List Nat} {m : List (Nat × Nat)} {w : Nat} (hw : w ∈ ws) (hc : canonical 0 m = true) :
    lookup 0 (clearMarks m ws) w = 0 := by
  induction ws generalizing m with
  | nil => cases hw
  | cons v ws ih =>
    have hc' := canonical_store 0 m v 0 hc
    rcases List.mem_cons.mp hw with rfl | hmem
    · exact clearMarks_keeps_zero (ws := ws) (lookup_store_same 0 m w 0 hc) hc'
    · exact ih hmem hc'

/-- The words that an access of `n` bytes at `a` touches. -/
def ocWords (a n : Nat) : List Nat := (List.range ((n + a % 8 + 7) / 8)).map (fun i => a / 8 + i)

/-- A write of whole words marks each of them sound. -/
theorem ocWrite_marks_whole {x : Core} {a : Nat} {bs : List Byte} (ha : a % 8 = 0) (hn : bs.length % 8 = 0) :
    (x.ocWrite a bs false).ocMarks = clearMarks x.ocMarks (ocWords a bs.length) := by
  refine List.foldl_ext _ _ _ (fun m w hw => ?_)
  obtain ⟨i, hi, rfl⟩ := List.mem_map.mp hw
  have hlt := List.mem_range.mp hi
  have hfull : (decide (a ≤ 8 * (a / 8 + i)) && decide (8 * (a / 8 + i) + 8 ≤ a + bs.length)) = true := by
    rw [Bool.and_eq_true, decide_eq_true_iff, decide_eq_true_iff]
    omega
  simp only [Bool.false_eq_true, if_false, hfull, if_true]

theorem ocBad_ocWrite_whole {x : Core} {a : Nat} {bs : List Byte} (ha : a % 8 = 0) (hn : bs.length % 8 = 0) (hm : canonical 0 x.ocMarks = true) :
    (x.ocWrite a bs false).ocBad a bs.length = none := by
  refine List.find?_eq_none.mpr (fun w hw => ?_)
  have hzero : lookup 0 (x.ocWrite a bs false).ocMarks w = 0 := by
    rw [ocWrite_marks_whole ha hn]
    exact lookup_clearMarks hw hm
  rw [hzero]
  decide

/-- Settles O18: bytes by the laws of stored runs, marks by those of the words that a write touches. -/
theorem operandCacheReadsBack : Obligations.OperandCacheReadsBack := by
  unfold Obligations.OperandCacheReadsBack
  intro x a bs hc
  refine ⟨lookupRun_storeRun 0 bs x.oc a hc, fun b hb => lookup_storeRun_other 0 bs x.oc a b hb, canonical_storeRun 0 bs x.oc a hc,
    fun ha hn hm => ocBad_ocWrite_whole ha hn hm, fun n al => ?unchecked, fun n al w hr ha hw => ?marked, fun n al hr => if_pos hr,
    fun n al hr ha => ?misaligned⟩
  case unchecked =>
    unfold Core.ocCheck
    split
    · simp; omega
    · split <;> simp <;> omega
  case marked => simp only [Core.ocCheck, Nat.not_lt.mpr hr, ha, hw, ne_eq, not_true_eq_false, if_false, Option.isSome_some, Bool.and_self, if_true]
  case misaligned => simp only [Core.ocCheck, Nat.not_lt.mpr hr, ha, ne_eq, not_false_eq_true, if_false, if_true]

/-! ### Pops -/

theorem popEnd_scalar {k : Chip} {v c t e : Nat} (h : e < 0x20) : k.popEnd v c t e = .done (wordEntry ((k.core v c).sregs.getD e 0)) k := by
  rw [popEnd_register (by simp only [hoopEnd, Bool.and_eq_false_iff, decide_eq_false_iff_not]; omega)]
  simp only [Chip.endValue, h, if_true]

theorem popEnd_ai {k : Chip} {v c t n : Nat} (h : n < 8) :
    k.popEnd v c t (0x30 + n) = .done (wordEntry (BitVec.ofNat 64 ((k.stream v c t).seq.ai 64 n))) k := by
  rw [popEnd_register (by simp only [hoopEnd, Bool.and_eq_false_iff, decide_eq_false_iff_not]; omega)]
  have h1 : ¬ 0x30 + n < 0x20 := by omega
  have h2 : 0x30 ≤ 0x30 + n ∧ 0x30 + n < 0x38 := by omega
  simp only [Chip.endValue, h1, h2, if_false, if_true, Nat.add_sub_cancel_left, and_self]
  rfl

theorem popEnd_li {k : Chip} {v c t n : Nat} (h : n < 4) :
    k.popEnd v c t (0x38 + n) = .done (wordEntry (BitVec.ofNat 64 ((k.stream v c t).seq.li n))) k := by
  rw [popEnd_register (by simp only [hoopEnd, Bool.and_eq_false_iff, decide_eq_false_iff_not]; omega)]
  have h1 : ¬ 0x38 + n < 0x20 := by omega
  have h2 : ¬ (0x30 ≤ 0x38 + n ∧ 0x38 + n < 0x38) := by omega
  have h3 : 0x38 ≤ 0x38 + n ∧ 0x38 + n < 0x3C := by omega
  simp only [Chip.endValue, h1, h2, h3, if_false, if_true, Nat.add_sub_cancel_left, and_self]
  rfl

theorem popEnd_zero (k : Chip) (v c t : Nat) : k.popEnd v c t 0x3C = .done (wordEntry 0) k := rfl

theorem hoopEnd_slot {h : Nat} (hh : h ≤ 16) : hoopEnd (0x40 + h) = true := by
  simp only [hoopEnd, Bool.and_eq_true, decide_eq_true_eq]; omega

theorem slotOf_end (h : Nat) : slotOf (0x40 + h) = h := Nat.add_sub_cancel_left ..

section HoopPop

variable {k : Chip} {v c t h : Nat} (hh : h ≤ 16)
include hh

theorem popEnd_empty (hq : k.headFor v c t h = []) : k.popEnd v c t (0x40 + h) = .stall 2 h := by
  simp only [Chip.popEnd, hoopEnd_slot hh, if_true, slotOf_end, hq]

theorem popEnd_sound {x : Entry} {rest : List Entry} (hq : k.headFor v c t h = x :: rest) (hp : x.poison = false) :
    k.popEnd v c t (0x40 + h) = .done x.data (k.popEntry v c t h) := by
  simp only [Chip.popEnd, hoopEnd_slot hh, if_true, slotOf_end, hq, hp, Bool.false_eq_true, if_false]

theorem popEnd_poisoned {x : Entry} {rest : List Entry} (hq : k.headFor v c t h = x :: rest) (hp : x.poison = true) :
    k.popEnd v c t (0x40 + h) = .poison (k.notePoison v c h) := by
  simp only [Chip.popEnd, hoopEnd_slot hh, if_true, slotOf_end, hq, hp]

end HoopPop

/-! ### MOV, LUI and LUI2 -/

section Move

variable {s : State} {v c : Nat} {ops : BitVec 56}

/-- What `coreMove` comes to, by what its pop gives. -/
theorem coreMove_popped {q : QForm} {f : Word → Word} {k k1 : Chip} {t : Nat} {x : BitVec 512} (hready : k.pushReady v c t q.d = true)
    (hx : k.popEnd v c t q.a = .done x k1) : coreMove q f v c t k = .step (k1.pushEnd v c t q.d (f (entryWord x))) := by
  simp only [coreMove, hready, hx, Bool.not_true, Bool.false_eq_true, if_false]

theorem exec_mov_core (h : coreAt s v c 0 0x20 ops) (hz : reservedZero ops (useD + useA + useI) = true)
    (hlegal : (s.k.popOk v c 0 (qForm ops).a && s.k.pushOk v c 0 (qForm ops).d) = true) {e : CoreEff}
    (he : coreMove (qForm ops) (fun a => a + (qForm ops).immW 64) v c 0 (entered s.k v c 0) = e) :
    exec (.mov (.core v c 0) ops) s = .next (withK s (effected s.k v c 0 e)) := by
  change execMov _ _ _ = _
  unfold execMov scalarMove
  exact core_run_effected s v c 0 0x20 ops _ _ _ _ _ h (by decide) hz hlegal he

theorem exec_lui_core (h : coreAt s v c 0 0x21 ops) (hz : reservedZero ops (useD + useA + useI) = true)
    (hlegal : (s.k.popOk v c 0 (qForm ops).a && s.k.pushOk v c 0 (qForm ops).d) = true)
    (hready : (entered s.k v c 0).pushReady v c 0 (qForm ops).d = true) {x : BitVec 512} {k1 : Chip}
    (hx : (entered s.k v c 0).popEnd v c 0 (qForm ops).a = .done x k1) :
    exec (.lui (.core v c 0) ops) s = .next (withK s
      ((k1.pushEnd v c 0 (qForm ops).d (entryWord x + BitVec.ofNat 64 ((qForm ops).imm * 2 ^ 24))).advanceCore v c 0)) := by
  change execLui _ _ _ = _
  unfold execLui scalarMove
  refine (core_run s v c 0 0x21 ops _ _ _ _ _ h (by decide) hz ?legal).trans ?effect
  case legal => exact hlegal
  case effect => rw [coreMove_popped hready hx]

theorem exec_lui2_core (h : coreAt s v c 0 0x22 ops) (hz : reservedZero ops (useD + useA + 0xFFFF) = true)
    (hlegal : (s.k.popOk v c 0 (qForm ops).a && s.k.pushOk v c 0 (qForm ops).d) = true)
    (hready : (entered s.k v c 0).pushReady v c 0 (qForm ops).d = true) {x : BitVec 512} {k1 : Chip}
    (hx : (entered s.k v c 0).popEnd v c 0 (qForm ops).a = .done x k1) :
    exec (.lui2 (.core v c 0) ops) s = .next (withK s
      ((k1.pushEnd v c 0 (qForm ops).d (entryWord x + BitVec.ofNat 64 (bitsAt (qForm ops).imm 15 0 * 2 ^ 48))).advanceCore v c 0)) := by
  change execLui2 _ _ _ = _
  unfold execLui2 issueT
  refine (core_run s v c 0 0x22 ops _ _ _ _ _ h (by decide) hz ?legal).trans ?effect
  case legal => exact hlegal
  case effect => rw [coreMove_popped hready hx]

end Move

/-- Settles O19: the pops by the end's kind, and MOV by what its pop gives. -/
theorem popsGiveTheEndOrStop : Obligations.PopsGiveTheEndOrStop := by
  unfold Obligations.PopsGiveTheEndOrStop
  refine ⟨?pops, ?mov⟩
  case pops =>
    intro k v c t e
    refine ⟨popEnd_scalar, ?_, ?_, ?_, ?_, ?_, ?_⟩
    · rintro n hn rfl; exact popEnd_ai hn
    · rintro n hn rfl; exact popEnd_li hn
    · rintro rfl; exact popEnd_zero k v c t
    · rintro h hh rfl hq; exact popEnd_empty hh hq
    · rintro h x rest hh rfl hq hp; exact popEnd_sound hh hq hp
    · rintro h x rest hh rfl hq hp; exact popEnd_poisoned hh hq hp
  case mov =>
    intro s ops v c q k hz ha hd hready
    rw [entered_popOk] at ha
    rw [entered_pushOk] at hd
    have hlegal : (s.k.popOk v c 0 q.a && s.k.pushOk v c 0 q.d) = true := by rw [ha, hd]; rfl
    refine ⟨fun n hstall h => ?_, fun k1 hpoison h hquiet => ?_⟩
    · refine exec_mov_core h hz hlegal (e := .stall 2 n) ?_
      simp only [coreMove, hready, hstall, q, k, Bool.not_true, Bool.false_eq_true, if_false]
    · refine (exec_mov_core h hz hlegal (e := .fault .hoopDataError k1) ?_).trans ?_
      · simp only [coreMove, hready, hpoison, q, k, Bool.not_true, Bool.false_eq_true, if_false]
      · rw [effected_fault_quiet hquiet]; rfl

/-! ### LD and ST -/

section LoadStore

variable {s : State} {v c : Nat} {ops : BitVec 56} {x y : BitVec 512} {k1 k2 : Chip}

/-- What LD does with the address that its pop of chip `k` gives. -/
def loadAt (q : QForm) (v c : Nat) (k : Chip) (x : BitVec 512) (k1 : Chip) : CoreEff :=
  match (k1.core v c).ocCheck (q.address (k1.stream v c 0).seq 64 (entryWord x).toNat) 8 8 true with
  | some f => .fault f (k.noteOc v c (q.address (k1.stream v c 0).seq 64 (entryWord x).toNat) 8 f)
  | none => .step (k1.pushEnd v c 0 q.d
      (BitVec.ofNat 64 (leNat ((k1.core v c).ocBytes (q.address (k1.stream v c 0).seq 64 (entryWord x).toNat) 8))))

theorem exec_ld_core (h : coreAt s v c 0 0x30 ops) (hz : reservedZero ops (useD + useA + useX + useI) = true)
    (hlegal : (s.k.popOk v c 0 (qForm ops).a && s.k.pushOk v c 0 (qForm ops).d) = true)
    (hready : (entered s.k v c 0).pushReady v c 0 (qForm ops).d = true)
    (hx : (entered s.k v c 0).popEnd v c 0 (qForm ops).a = .done x k1) {e : CoreEff}
    (he : loadAt (qForm ops) v c (entered s.k v c 0) x k1 = e) :
    exec (.ld (.core v c 0) ops) s = .next (withK s (effected s.k v c 0 e)) := by
  change execLd _ _ _ = _
  unfold execLd
  refine core_run_effected s v c 0 0x30 ops _ _ _ _ _ h (by decide) hz ?legal ?effect
  case legal => exact hlegal
  case effect =>
    simp only [hready, hx, Bool.not_true, Bool.false_eq_true, if_false, ← he]
    rfl

/-- The two words that ST pops, as one entry. -/
theorem entryWord_pair (x y : Word) : entryWord (BitVec.ofNat 512 (x.toNat + 2 ^ 64 * y.toNat)) = x := by
  apply BitVec.eq_of_toNat_eq
  have hx := x.isLt
  have hy := y.isLt
  simp only [entryWord, BitVec.toNat_ofNat]
  omega

theorem pair_high (x y : Word) : bitsAt (BitVec.ofNat 512 (x.toNat + 2 ^ 64 * y.toNat)).toNat 127 64 = y.toNat := by
  have hx := x.isLt
  have hy := y.isLt
  simp only [bitsAt, BitVec.toNat_ofNat, Nat.shiftRight_eq_div_pow]
  omega

theorem exec_st_core (h : coreAt s v c 0 0x31 ops) (hz : reservedZero ops (useD + useA + useB + useX + useI) = true)
    (hlegal : (s.k.popOk v c 0 (qForm ops).a && s.k.popOk v c 0 (qForm ops).b && decide ((qForm ops).d = endZero)) = true)
    (hs : (entered s.k v c 0).supplies v c 0 (qForm ops).b (if (qForm ops).a = (qForm ops).b then 2 else 1) = true)
    (hx : (entered s.k v c 0).popEnd v c 0 (qForm ops).a = .done x k1) (hy : k1.popEnd v c 0 (qForm ops).b = .done y k2)
    (hcheck : (k2.core v c).ocCheck ((qForm ops).address (k2.stream v c 0).seq 64 (entryWord x).toNat) 8 8 false = none) :
    exec (.st (.core v c 0) ops) s = .next (withK s ((k2.inOrder v c 0
      (.store ((qForm ops).address (k2.stream v c 0).seq 64 (entryWord x).toNat) (leBytes 8 (entryWord y).toNat))).advanceCore v c 0)) := by
  change execSt _ _ _ = _
  unfold execSt
  refine (core_run s v c 0 0x31 ops _ _ _ _ _ h (by decide) hz ?legal).trans ?effect
  case legal => exact hlegal
  case effect =>
    have hcheck' : (k2.core v c).ocCheck ((qForm ops).address ((k2.core v c).stream 0).seq 64 (entryWord x).toNat) 8 8 false = none := hcheck
    simp only [popTwo_done _ hs hx hy, entryWord_pair, pair_high, hcheck']
    rfl

end LoadStore

section BankMoves

variable {s : State} {v d a : Nat} {ops : BitVec 56}

theorem write_seq {u u' : Bu} {a al : Nat} {bs : List Byte} (h : u.write a al bs = .ok u') : u'.seq = u.seq := by
  unfold Bu.write at h
  split at h
  · cases h
  · split at h
    · cases h
    · split at h
      · cases h; rfl
      · split at h <;> cases h
        rfl

theorem exec_ld_bank (h : bankAt s v d a 0x30 ops) (hz : reservedZero ops (useD + useA + useX + useI) = true)
    (hlegal : (bankPopOk (qForm ops).a && bankPushOk (qForm ops).d) = true) {r : BankMem (List Byte)}
    (hr : ((enteredBank s.k v d (s.k.phys v d a)).bu v d (s.k.phys v d a)).read
      ((qForm ops).address ((enteredBank s.k v d (s.k.phys v d a)).bu v d (s.k.phys v d a)).seq 32
        (((enteredBank s.k v d (s.k.phys v d a)).bu v d (s.k.phys v d a)).endValue (qForm ops).a).toNat) 4 4 = r) :
    exec (.ld (.bank v d a) ops) s = .next (withK s (match r with
      | .fault f => (enteredBank s.k v d (s.k.phys v d a)).bankFault v d (s.k.phys v d a) f (s.k.bu v d (s.k.phys v d a)).seq.lib
          (s.k.bu v d (s.k.phys v d a)).seq.pc
      | .wait => s.k
      | .ok bs => bankStepped (enteredBank s.k v d (s.k.phys v d a)) v d (s.k.phys v d a)
          (((enteredBank s.k v d (s.k.phys v d a)).bu v d (s.k.phys v d a)).pushEnd (qForm ops).d (BitVec.ofNat 32 (leNat bs))))) := by
  change execLd _ _ _ = _
  unfold execLd
  refine (bank_run s v d a 0x30 ops _ _ _ _ _ h (by decide) hz ?legal).trans ?effect
  case legal => exact hlegal
  case effect =>
    simp only [hr]
    cases r with
    | fault f => rfl
    | wait => rfl
    | ok bs => simp only [stepped_of_seq]

theorem exec_st_bank (h : bankAt s v d a 0x31 ops) (hz : reservedZero ops (useD + useA + useB + useX + useI) = true)
    (hlegal : (bankPopOk (qForm ops).a && bankPopOk (qForm ops).b && decide ((qForm ops).d = endZero)) = true) {u' : Bu}
    (hr : ((enteredBank s.k v d (s.k.phys v d a)).bu v d (s.k.phys v d a)).write
      ((qForm ops).address ((enteredBank s.k v d (s.k.phys v d a)).bu v d (s.k.phys v d a)).seq 32
        (((enteredBank s.k v d (s.k.phys v d a)).bu v d (s.k.phys v d a)).endValue (qForm ops).a).toNat) 4
      (leBytes 4 (((enteredBank s.k v d (s.k.phys v d a)).bu v d (s.k.phys v d a)).endValue (qForm ops).b).toNat) = .ok u') :
    exec (.st (.bank v d a) ops) s = .next (withK s (bankStepped (enteredBank s.k v d (s.k.phys v d a)) v d (s.k.phys v d a) u')) := by
  change execSt _ _ _ = _
  unfold execSt
  refine (bank_run s v d a 0x31 ops _ _ _ _ _ h (by decide) hz ?legal).trans ?effect
  case legal => exact hlegal
  case effect => simp only [hr, stepped_of_seq]

theorem exec_mov_bank (h : bankAt s v d a 0x20 ops) (hz : reservedZero ops (useD + useA + useI) = true)
    (hlegal : (bankPopOk (qForm ops).a && bankPushOk (qForm ops).d) = true) :
    exec (.mov (.bank v d a) ops) s = .next (withK s (bankStepped (enteredBank s.k v d (s.k.phys v d a)) v d (s.k.phys v d a)
      (((enteredBank s.k v d (s.k.phys v d a)).bu v d (s.k.phys v d a)).pushEnd (qForm ops).d
        (((enteredBank s.k v d (s.k.phys v d a)).bu v d (s.k.phys v d a)).endValue (qForm ops).a + BitVec.ofInt 32 (qForm ops).simm)))) := by
  change execMov _ _ _ = _
  unfold execMov scalarMove
  refine (bank_run s v d a 0x20 ops _ _ _ _ _ h (by decide) hz ?legal).trans ?effect
  case legal => exact hlegal
  case effect => simp only [bankMove, stepped_of_seq]; rfl

theorem exec_lui_bank (h : bankAt s v d a 0x21 ops) (hz : reservedZero ops (useD + useA + useI) = true)
    (hlegal : (bankPopOk (qForm ops).a && bankPushOk (qForm ops).d) = true) :
    exec (.lui (.bank v d a) ops) s = .next (withK s (bankStepped (enteredBank s.k v d (s.k.phys v d a)) v d (s.k.phys v d a)
      (((enteredBank s.k v d (s.k.phys v d a)).bu v d (s.k.phys v d a)).pushEnd (qForm ops).d
        (((enteredBank s.k v d (s.k.phys v d a)).bu v d (s.k.phys v d a)).endValue (qForm ops).a + BitVec.ofNat 32 ((qForm ops).imm * 2 ^ 24))))) := by
  change execLui _ _ _ = _
  unfold execLui scalarMove
  refine (bank_run s v d a 0x21 ops _ _ _ _ _ h (by decide) hz ?legal).trans ?effect
  case legal => exact hlegal
  case effect => simp only [bankMove, stepped_of_seq]

end BankMoves

/-- Settles O17: each instruction by its equation, on a stream by what its pops give and on a bank unit by what its access meets. -/
theorem movesLoadsAndStores : Obligations.MovesLoadsAndStores := by
  unfold Obligations.MovesLoadsAndStores
  refine ⟨fun s ops => ⟨?moves, ?bankMoves⟩, fun s ops => ⟨?loads, ?bankLoads⟩⟩
  case moves =>
    intro v c k ha hd hready x k1 hx
    rw [entered_popOk] at ha
    rw [entered_pushOk] at hd
    have hlegal : (s.k.popOk v c 0 (qForm ops).a && s.k.pushOk v c 0 (qForm ops).d) = true := by rw [ha, hd]; rfl
    exact ⟨fun h hz => exec_mov_core h hz hlegal (coreMove_popped hready hx), fun h hz => exec_lui_core h hz hlegal hready hx,
      fun h hz => exec_lui2_core h hz hlegal hready hx⟩
  case bankMoves =>
    intro v d a ha hd hz
    have hlegal : (bankPopOk (qForm ops).a && bankPushOk (qForm ops).d) = true := by rw [ha, hd]; rfl
    exact ⟨fun h => exec_mov_bank h hz hlegal, fun h => exec_lui_bank h hz hlegal⟩
  case loads =>
    intro v c k x k1 hx ha
    rw [entered_popOk] at ha
    refine ⟨fun h hz hd hready => ?load, fun y k2 h hz hb hd hs hy hcheck => ?store⟩
    case load =>
      rw [entered_pushOk] at hd
      have hlegal : (s.k.popOk v c 0 (qForm ops).a && s.k.pushOk v c 0 (qForm ops).d) = true := by rw [ha, hd]; rfl
      refine ⟨fun hcheck => exec_ld_core h hz hlegal hready hx (e := .step _) (by simp only [loadAt, hcheck]), fun hcheck hquiet => ?_⟩
      refine (exec_ld_core h hz hlegal hready hx (e := .fault .ocAlign k) ?_).trans ?_
      · simp only [loadAt, hcheck]
        rfl
      · rw [effected_fault_quiet hquiet]; rfl
    case store =>
      rw [entered_popOk] at hb
      exact exec_st_core h hz (by rw [ha, hb, hd]; rfl) hs hx hy hcheck
  case bankLoads =>
    intro v d a ha
    refine ⟨fun bs h hz hd hr => ?_, fun u' h hz hb hd hw => ?_, fun h hz hd hr => ?_⟩
    · exact exec_ld_bank h hz (by rw [ha, hd]; rfl) hr
    · exact exec_st_bank h hz (by rw [ha, hb, hd]; rfl) hw
    · exact exec_ld_bank h hz (by rw [ha, hd]; rfl) hr

end Sys2Proof.Proofs
end

section
/-!
PROOFS. The instructions of class 6, BAR and HBAR at issue (O20, O23): each is `core_run_effected` with the effect that its conditions leave.
-/

namespace Sys2Proof.Proofs

open Sys2Proof.Machine Sys2Proof.Safety Sys2Proof.Laws

section Sync

variable {s : State} {v c t : Nat} {ops : BitVec 56}

theorem exec_signal_core (h : coreAt s v c t 0xC0 ops) (hz : reservedZero ops (useA + 0x3FFFFF) = true) (ho : (qForm ops).obj < 48)
    (ha : scalarEnd (qForm ops).a = true) (hp : s.k.popOk v c t (qForm ops).a = true) :
    exec (.signal (.core v c t) ops) s = .next (withK s (((entered s.k v c t).inflight v c t
      (.signal (qForm ops).obj ((qForm ops).amount + ((entered s.k v c t).endValue v c t (qForm ops).a).toInt)
        ((entered s.k v c t).stream v c t).seq)).advanceCore v c t)) := by
  change execSignal _ _ _ = _
  unfold execSignal issueT
  refine core_run_effected s v c t 0xC0 ops _ _ _ _ _ h (by decide) hz ?legal (e := .step _) rfl
  simp only [ho, ha, hp, decide_true, Bool.and_self]

theorem exec_wait_core (h : coreAt s v c t 0xC1 ops) (hz : reservedZero ops useI = true) (ho : (qForm ops).obj < 48) (hc : (qForm ops).cond < 3) :
    exec (.wait (.core v c t) ops) s = .next (withK s (effected s.k v c t (.held
      (let k := entered s.k v c t
       let x := k.stream v c t
       let k1 := k.setStream v c t { x with
        hold := some (.watch { obj := (qForm ops).obj, cond := (qForm ops).cond, threshold := (qForm ops).threshold }), seq := x.seq.advance
        stall := some { kind := 1, index := (qForm ops).obj, since := k.now }, reported := false }
       k1.setCore v c (k1.core v c).evaluate)))) := by
  change execWait _ _ _ = _
  unfold execWait issueT
  refine core_run_effected s v c t 0xC1 ops _ _ _ _ _ h (by decide) hz ?legal (e := .held _) rfl
  have hne : (qForm ops).cond ≠ 3 := by omega
  simp only [ho, hne, ne_eq, not_false_eq_true, decide_true, Bool.and_self]

theorem exec_poll_core (h : coreAt s v c t 0xC2 ops) (hz : reservedZero ops (useD + 0x3F) = true) (ho : (qForm ops).obj < 48)
    (hd : scalarEnd (qForm ops).d = true ∨ hoopEnd (qForm ops).d = true) (hp : s.k.pushOk v c t (qForm ops).d = true)
    (hq : (if hoopEnd (qForm ops).d then (entered s.k v c t).pushQuiet v c t (slotOf (qForm ops).d) else (entered s.k v c t).quiet v c t) = true) :
    exec (.poll (.core v c t) ops) s = .next (withK s (((entered s.k v c t).pushEnd v c t (qForm ops).d
      (BitVec.ofNat 64 (((entered s.k v c t).core v c).object (qForm ops).obj))).advanceCore v c t)) := by
  change execPoll _ _ _ = _
  unfold execPoll issueT
  refine core_run_effected s v c t 0xC2 ops _ _ _ _ _ h (by decide) hz ?legal (e := .step _) ?effect
  case legal => simp only [ho, hp, (Bool.or_eq_true _ _).mpr hd, decide_true, Bool.and_self]
  case effect => simp only [hq, Bool.not_true, Bool.false_eq_true, if_false]

theorem exec_bar_core (h : coreAt s v c t 0x08 ops) (hz : reservedZero ops (3 * 2 ^ 38 + 0x1F * 2 ^ 32) = true) (hm : (cMask ops).testBit t = true)
    (hi : ((entered s.k v c t).stream v c t).inflight = [])
    (ha : ∀ o ∈ ((entered s.k v c t).core v c).streams, ∀ m, o.hold = some (.bar (cId ops) m) → m = cMask ops) :
    exec (.bar (.core v c t) ops) s = .next (withK s (effected s.k v c t (.held
      (let k := entered s.k v c t
       let x := k.stream v c t
       (k.setStream v c t { x with
          hold := some (.bar (cId ops) (cMask ops)), seq := x.seq.advance, reported := false
          stall := some { kind := 5, index := cId ops, since := k.now } }).barRelease v c (cId ops) (cMask ops))))) := by
  change execBar _ _ _ = _
  unfold execBar issueT
  refine core_run_effected s v c t 0x08 ops _ _ _ _ _ h (by decide) hz ?legal (e := .held _) ?effect
  case legal => exact hm
  case effect =>
    have hi' : (((entered s.k v c t).core v c).stream t).inflight = [] := hi
    have hsame : ((entered s.k v c t).core v c).streams.any (fun o => match o.hold with
        | some (.bar i m) => decide (i = cId ops) && decide (m ≠ cMask ops)
        | _ => false) = false := by
      refine List.any_eq_false.mpr (fun o ho => ?_)
      split
      · rename_i i m hold
        by_cases hid : i = cId ops
        · simp [ha o ho m (hid ▸ hold)]
        · simp [hid]
      · exact Bool.false_ne_true
    dsimp only
    rw [if_neg (not_not.mpr hi'), if_neg (by rw [Bool.not_eq_true]; exact hsame)]
    rfl

theorem exec_hbar_core (h : coreAt s v c t 0x47 ops) (hz : reservedZero ops 0xF = true) (hq : (entered s.k v c t).quiet v c t = true)
    (he : ((entered s.k v c t).core v c).enrolled.testBit (qForm ops).imm = true) :
    exec (.hbar (.core v c t) ops) s = .next (withK s (effected s.k v c t (.held
      (let k := entered s.k v c t
       let x := k.stream v c t
       (k.setStream v c t { x with
          hold := some (.hbar (qForm ops).imm), seq := x.seq.advance, reported := false
          stall := some { kind := 6, index := (qForm ops).imm, since := k.now } }).setBar (qForm ops).imm
            { k.bar (qForm ops).imm with arrived := (k.bar (qForm ops).imm).arrived ++ [(coreKey v c, k.now)] })))) := by
  change execHbar _ _ _ = _
  unfold execHbar issueT
  refine core_run_effected s v c t 0x47 ops _ _ _ _ _ h (by decide) hz ?legal (e := .held _) ?effect
  case legal => rfl
  case effect =>
    simp only [hq, he, Bool.not_true, Bool.false_eq_true, if_false]
    rfl

end Sync

/-- Settles O20: each instruction by its equation on a stream that stands at it. -/
theorem syncInstructionsIssue : Obligations.SyncInstructionsIssue := by
  unfold Obligations.SyncInstructionsIssue
  intro s v c t ops q k x
  refine ⟨fun h hz ho ha hp => ?_, fun h hz ho hc => exec_wait_core h hz ho hc, fun h hz ho hd hp hq => ?_,
    fun h hz hm hi ha => exec_bar_core h hz hm hi ha, fun h hz hq he => exec_hbar_core h hz hq he⟩
  · rw [entered_popOk] at hp
    exact exec_signal_core h hz ho ha hp
  · rw [entered_pushOk] at hp
    exact exec_poll_core h hz ho hd hp hq

section Hoops

variable {s : State} {v c t : Nat} {ops : BitVec 56}

theorem exec_hmov_core (h : coreAt s v c t 0xC3 ops) (hz : reservedZero ops (useD + useA + 1) = true) (ha : hoopEnd (qForm ops).a = true)
    (hd : hoopEnd (qForm ops).d = true) (hpop : s.k.popOk v c t (qForm ops).a = true) (hpush : s.k.pushOk v c t (qForm ops).d = true)
    (hq : (entered s.k v c t).pushQuiet v c t (slotOf (qForm ops).d) = true) {e : Entry} {rest : List Entry}
    (he : (entered s.k v c t).headFor v c t (slotOf (qForm ops).a) = e :: rest) :
    exec (.hmov (.core v c t) ops) s = .next (withK s ((((entered s.k v c t).popEntry v c t (slotOf (qForm ops).a)).pushHoop v c t
      (slotOf (qForm ops).d) { e with last := !(qForm ops).cont, src := t }).advanceCore v c t)) := by
  change execHmov _ _ _ = _
  unfold execHmov issueT
  refine core_run_effected s v c t 0xC3 ops _ _ _ _ _ h (by decide) hz ?legal (e := .step _) ?effect
  case legal => simp only [ha, hd, hpop, hpush, Bool.and_self]
  case effect => simp only [hq, he, Bool.not_true, Bool.false_eq_true, if_false]

theorem exec_hpush_core (h : coreAt s v c t 0xC4 ops) (hz : reservedZero ops (useD + useA + 1) = true) (hd : hoopEnd (qForm ops).d = true)
    (hpop : s.k.popOk v c t (qForm ops).a = true) (hpush : s.k.pushOk v c t (qForm ops).d = true)
    (hq : (entered s.k v c t).pushQuiet v c t (slotOf (qForm ops).d) = true) {x : BitVec 512} {k1 : Chip}
    (hx : (entered s.k v c t).popEnd v c t (qForm ops).a = .done x k1) :
    exec (.hpush (.core v c t) ops) s = .next (withK s ((k1.pushHoop v c t (slotOf (qForm ops).d)
      { data := wordEntry (entryWord x), last := !(qForm ops).cont, fence := false, poison := false, src := t }).advanceCore v c t)) := by
  change execHpush _ _ _ = _
  unfold execHpush issueT
  refine core_run_effected s v c t 0xC4 ops _ _ _ _ _ h (by decide) hz ?legal (e := .step _) ?effect
  case legal => simp only [hd, hpop, hpush, Bool.and_self]
  case effect => simp only [hq, hx, Bool.not_true, Bool.false_eq_true, if_false]

theorem exec_hpop_core (h : coreAt s v c t 0xC5 ops) (hz : reservedZero ops (useD + useA) = true) (ha : hoopEnd (qForm ops).a = true)
    (hd : (qForm ops).d < 0x20 ∨ (qForm ops).d = endZero) (hpop : s.k.popOk v c t (qForm ops).a = true)
    (hpush : s.k.pushOk v c t (qForm ops).d = true) (hq : (entered s.k v c t).quiet v c t = true) {x : BitVec 512} {k1 : Chip}
    (hx : (entered s.k v c t).popEnd v c t (qForm ops).a = .done x k1) :
    exec (.hpop (.core v c t) ops) s = .next (withK s ((k1.pushEnd v c t (qForm ops).d (entryWord x)).advanceCore v c t)) := by
  change execHpop _ _ _ = _
  unfold execHpop issueT
  refine core_run_effected s v c t 0xC5 ops _ _ _ _ _ h (by decide) hz ?legal (e := .step _) ?effect
  case legal =>
    have hd' : (decide ((qForm ops).d < 0x20) || decide ((qForm ops).d = endZero)) = true := by
      rw [Bool.or_eq_true, decide_eq_true_iff, decide_eq_true_iff]; exact hd
    simp only [ha, hd', hpop, hpush, Bool.and_self]
  case effect => simp only [hq, hx, Bool.not_true, Bool.false_eq_true, if_false]

/-- What a FENCE does: its entry lands, or is pending. -/
def fenceEffect (k : Chip) (v c t h : Nat) : Chip :=
  if k.fenceReady v c t h then k.landEntry v c h (k.fenceEntry v c t) else k.inflight v c t (.fence h k.now)

theorem exec_fence_core (h : coreAt s v c t 0xC6 ops) (hz : reservedZero ops useD = true) (hd : hoopEnd (qForm ops).d = true)
    (hpush : s.k.pushOk v c t (qForm ops).d = true) (hq : (entered s.k v c t).quiet v c t = true) :
    exec (.fence (.core v c t) ops) s =
      .next (withK s ((fenceEffect (entered s.k v c t) v c t (slotOf (qForm ops).d)).advanceCore v c t)) := by
  change execFence _ _ _ = _
  unfold execFence issueT
  refine core_run_effected s v c t 0xC6 ops _ _ _ _ _ h (by decide) hz ?legal (e := .step _) ?effect
  case legal => simp only [hd, hpush, Bool.and_self]
  case effect =>
    simp only [hq, Bool.not_true, Bool.false_eq_true, if_false, fenceEffect]
    split <;> rfl

/-- What an HFLUSH does: a hoop between packets is emptied, another is left flushing. -/
def flushEffect (k : Chip) (v c t h : Nat) : Chip :=
  let p := k.tailSlot v c h
  if (k.hoop p.1 p.2.1 p.2.2).openBy.isNone then k.flushNow p.1 p.2.1 p.2.2
  else (k.setHoop v c h { k.hoop v c h with flushing := true }).inflight v c t (.flush h)

theorem exec_hflush_core (h : coreAt s v c t 0xC7 ops) (hz : reservedZero ops 0xF = true)
    (hr : (s.k.hoopCfg v c (qForm ops).imm).route ≠ 0) :
    exec (.hflush (.core v c t) ops) s = .next (withK s ((flushEffect (entered s.k v c t) v c t (qForm ops).imm).advanceCore v c t)) := by
  change execHflush _ _ _ = _
  unfold execHflush issueT
  refine core_run_effected s v c t 0xC7 ops _ _ _ _ _ h (by decide) hz ?legal (e := .step _) ?effect
  case legal => exact decide_eq_true hr
  case effect =>
    unfold flushEffect
    dsimp only
    split <;> rfl

end Hoops

/-- Settles O23: each instruction by its equation on a stream that stands at it. -/
theorem hoopInstructionsIssue : Obligations.HoopInstructionsIssue := by
  unfold Obligations.HoopInstructionsIssue
  intro s v c t ops q k h
  simp only [k, entered_popOk, entered_pushOk, entered_hoopCfg]
  refine ⟨fun e rest hat hz ha hd hpop hpush hq he => exec_hmov_core hat hz ha hd hpop hpush hq he,
    fun x k1 hat hz hd hpop hpush hq hx => exec_hpush_core hat hz hd hpop hpush hq hx,
    fun x k1 hat hz ha hd hpop hpush hq hx => exec_hpop_core hat hz ha hd hpop hpush hq hx,
    fun hat hz hd hpush hq => ⟨fun hready => ?ready, fun hready => ?pending⟩, fun hat hz hr => ⟨fun hopen => ?now, fun hopen => ?later⟩⟩
  case ready =>
    rw [exec_fence_core hat hz hd hpush hq, fenceEffect, if_pos hready]
  case pending =>
    rw [exec_fence_core hat hz hd hpush hq, fenceEffect, if_neg (by rw [hready]; exact Bool.false_ne_true)]
  case now =>
    rw [exec_hflush_core hat hz hr, flushEffect, if_pos (by rw [hopen]; rfl)]
  case later =>
    rw [exec_hflush_core hat hz hr, flushEffect, if_neg (by rw [Option.isNone_iff_eq_none]; exact Option.isSome_iff_ne_none.mp hopen)]

end Sys2Proof.Proofs
end

section
/-!
PROOFS. The sync unit (O21, O22). An evaluation only releases streams that wait on watches and only takes from objects: `Woken` says that once, every
step of the evaluation keeps it, and what an earlier step has settled stays settled under it.
-/

namespace Sys2Proof.Proofs

open Sys2Proof.Machine Sys2Proof.Safety Sys2Proof.Laws

/-! ### What an evaluation may change -/

/-- Core `y` is core `x` after some watches of `x` have released their streams and taken from their objects. -/
structure Woken (x y : Core) : Prop where
  streams : ∀ j, y.stream j = x.stream j ∨ ∃ w, (x.stream j).hold = some (.watch w) ∧ y.stream j = (x.stream j).release
  objects : ∀ o, y.object o ≤ x.object o
  canonical : canonical 0 x.sync = true → canonical 0 y.sync = true
  length : y.streams.length = x.streams.length
  rest : y = { x with streams := y.streams, sync := y.sync }

theorem Woken.refl (x : Core) : Woken x x := ⟨fun _ => .inl rfl, fun _ => le_rfl, id, rfl, rfl⟩

theorem Woken.trans {x y z : Core} (h : Woken x y) (g : Woken y z) : Woken x z where
  streams j := by
    rcases g.streams j with hz | ⟨w, hw, hz⟩
    · rw [hz]; exact h.streams j
    · rcases h.streams j with hy | ⟨w', _, hy⟩
      · exact .inr ⟨w, hy ▸ hw, by rw [hz, hy]⟩
      · rw [hy] at hw; cases hw
  objects o := (g.objects o).trans (h.objects o)
  canonical hc := g.canonical (h.canonical hc)
  length := g.length.trans h.length
  rest := by rw [g.rest, h.rest]

/-- A stream that still waits after an evaluation waited before it. -/
theorem Woken.hold {x y : Core} (h : Woken x y) {j : Nat} {w : Watch} (hy : (y.stream j).hold = some (.watch w)) :
    (x.stream j).hold = some (.watch w) := by
  rcases h.streams j with he | ⟨_, _, he⟩
  · rwa [← he]
  · rw [he] at hy; cases hy

/-! ### The plain watches -/

theorem wakePlain_stream (x : Core) (j : Nat) : x.wakePlain.stream j = match (x.stream j).hold with
    | some (.watch w) => if w.cond ≠ 2 ∧ w.met x then (x.stream j).release else x.stream j
    | _ => x.stream j := by
  unfold Core.wakePlain Core.stream
  simp only [List.getD_eq_getElem?_getD, List.getElem?_map]
  cases x.streams[j]? <;> rfl

theorem wakePlain_woken (x : Core) : Woken x x.wakePlain where
  streams j := by
    rw [wakePlain_stream]
    split
    · rename_i w hw
      split
      · exact .inr ⟨w, hw, rfl⟩
      · exact .inl rfl
    · exact .inl rfl
  objects _ := le_rfl
  canonical := id
  length := List.length_map _
  rest := rfl

/-- No stream waits on a satisfied plain watch after the plain watches have been judged. -/
theorem wakePlain_settles (x : Core) {j : Nat} {w : Watch} (h : (x.wakePlain.stream j).hold = some (.watch w)) (hc : w.cond ≠ 2) :
    w.met x = false := by
  have hx := (wakePlain_woken x).hold h
  rw [wakePlain_stream, hx] at h
  by_cases hm : w.met x = true
  · simp only [hc, hm, ne_eq, not_false_eq_true, and_self, if_true] at h
    cases h
  · exact Bool.eq_false_iff.mpr hm

/-! ### The consuming watches -/

theorem object_store (x : Core) (y : List Stream) (o n p : Nat) (hc : canonical 0 x.sync = true) :
    Core.object { x with streams := y, sync := store 0 x.sync o n } p = if p = o then n else x.object p := by
  by_cases h : p = o
  · subst h
    rw [if_pos rfl]
    exact lookup_store_same 0 x.sync p n hc
  · rw [if_neg h]
    exact lookup_store_other 0 x.sync o p n h

/-- The consuming watch of stream `s` takes effect. -/
def consume (x : Core) (s : Nat) (w : Watch) : Core :=
  { (x.setStream s (x.stream s).release) with sync := store 0 x.sync w.obj (x.object w.obj - w.threshold) }

theorem wakeConsuming_met {x : Core} {s : Nat} {w : Watch} (h : (x.stream s).hold = some (.watch w)) (hm : w.cond = 2 ∧ w.met x = true) :
    x.wakeConsuming s = consume x s w := by
  simp only [Core.wakeConsuming, h, hm, and_self, if_true, consume]

theorem wakeConsuming_unmet {x : Core} {s : Nat} (h : ∀ w, (x.stream s).hold = some (.watch w) → ¬ (w.cond = 2 ∧ w.met x = true)) :
    x.wakeConsuming s = x := by
  unfold Core.wakeConsuming
  split
  · rename_i w hw
    rw [if_neg (h w hw)]
  · rfl

theorem wakeConsuming_cases (x : Core) (s : Nat) :
    (∃ w, (x.stream s).hold = some (.watch w) ∧ (w.cond = 2 ∧ w.met x = true) ∧ x.wakeConsuming s = consume x s w) ∨
    ((∀ w, (x.stream s).hold = some (.watch w) → ¬ (w.cond = 2 ∧ w.met x = true)) ∧ x.wakeConsuming s = x) := by
  by_cases h : ∃ w, (x.stream s).hold = some (.watch w) ∧ (w.cond = 2 ∧ w.met x = true)
  · obtain ⟨w, hw, hm⟩ := h
    exact .inl ⟨w, hw, hm, wakeConsuming_met hw hm⟩
  · have hn : ∀ w, (x.stream s).hold = some (.watch w) → ¬ (w.cond = 2 ∧ w.met x = true) := fun w hw hm => h ⟨w, hw, hm⟩
    exact .inr ⟨hn, wakeConsuming_unmet hn⟩

/-- A stream that waits is one of the core's. -/
theorem stream_lt_of_hold {x : Core} {s : Nat} {h : Hold} (hw : (x.stream s).hold = some h) : s < x.streams.length := by
  by_contra hlt
  rw [Core.stream, List.getD_eq_default _ _ (Nat.le_of_not_lt hlt)] at hw
  cases hw

theorem consume_stream_same {x : Core} {s : Nat} {w : Watch} (hw : (x.stream s).hold = some (.watch w)) :
    (consume x s w).stream s = (x.stream s).release := setStream_stream_same x s _ (stream_lt_of_hold hw)

theorem consume_woken {x : Core} {s : Nat} {w : Watch} (hc : canonical 0 x.sync = true) (hw : (x.stream s).hold = some (.watch w)) :
    Woken x (consume x s w) where
  streams j := by
    by_cases hj : s = j
    · exact .inr ⟨w, hj ▸ hw, by rw [← hj]; exact consume_stream_same hw⟩
    · exact .inl (setStream_stream_other x s j _ hj)
  objects o := by
    rw [consume, Core.setStream, object_store x _ _ _ o hc]
    split
    · rename_i ho
      exact ho ▸ Nat.sub_le _ _
    · exact le_rfl
  canonical _ := canonical_store 0 x.sync _ _ hc
  length := by simp only [consume, Core.setStream, setAt, List.length_set]
  rest := rfl

theorem wakeConsuming_woken {x : Core} (s : Nat) (hc : canonical 0 x.sync = true) : Woken x (x.wakeConsuming s) := by
  rcases wakeConsuming_cases x s with ⟨w, hw, _, he⟩ | ⟨_, he⟩
  · rw [he]; exact consume_woken hc hw
  · rw [he]; exact Woken.refl x

/-- Stream `j` does not wait on a consuming watch that is satisfied. -/
def consumedAt (x : Core) (j : Nat) : Prop := ∀ w, (x.stream j).hold = some (.watch w) → w.cond = 2 → w.met x = false

theorem wakeConsuming_settles (x : Core) (s : Nat) : consumedAt (x.wakeConsuming s) s := by
  intro w hw hc
  rcases wakeConsuming_cases x s with ⟨w', hw', _, he⟩ | ⟨hn, he⟩
  · rw [he, consume_stream_same hw'] at hw
    cases hw
  · rw [he] at hw ⊢
    exact Bool.eq_false_iff.mpr (fun hm => hn w hw ⟨hc, hm⟩)

theorem consumedAt_woken {x y : Core} {j : Nat} (h : Woken x y) (hj : consumedAt x j) : consumedAt y j := by
  intro w hw hc
  have hx := hj w (h.hold hw) hc
  have ho := h.objects w.obj
  simp only [Watch.met, hc, OfNat.ofNat_ne_one, if_false, decide_eq_false_iff_not, not_le] at hx ⊢
  omega

/-- After the consuming watches of the streams `l`, none of them waits on one that is satisfied. -/
theorem foldl_wakeConsuming (l : List Nat) {x : Core} (hc : canonical 0 x.sync = true) :
    Woken x (l.foldl Core.wakeConsuming x) ∧ ∀ j, (j ∈ l ∨ consumedAt x j) → consumedAt (l.foldl Core.wakeConsuming x) j := by
  induction l generalizing x with
  | nil => exact ⟨Woken.refl x, fun j hj => hj.resolve_left List.not_mem_nil⟩
  | cons s l ih =>
    have hs := wakeConsuming_woken s hc
    obtain ⟨hwoken, hsettled⟩ := ih (hs.canonical hc)
    refine ⟨hs.trans hwoken, fun j hj => hsettled j ?_⟩
    rcases hj with hmem | hj
    · rcases List.mem_cons.mp hmem with rfl | hmem
      · exact .inr (wakeConsuming_settles x j)
      · exact .inl hmem
    · exact .inr (consumedAt_woken hs hj)

/-- Settles O21: the plain watches first, then the consuming ones stream by stream; each step is `Woken`, under which what is settled stays so. -/
theorem noSatisfiedWatchIsLeft : Obligations.NoSatisfiedWatchIsLeft := by
  unfold Obligations.NoSatisfiedWatchIsLeft
  intro x _ hc y
  have hplain := wakePlain_woken x
  obtain ⟨hconsuming, hsettled⟩ := foldl_wakeConsuming (List.range 5) (x := x.wakePlain) hc
  have hy : Woken x y := hplain.trans hconsuming
  exact ⟨fun j w _ hw hcond => wakePlain_settles x (hconsuming.hold hw) hcond,
    fun j w hj hw hcond => hsettled j (.inl (List.mem_range.mpr hj)) w hw hcond,
    hy.streams, hy.objects, hy.canonical hc, hy.length, hy.rest⟩

/-! ### Signals -/

section Signal

variable {k : Chip} {v c t obj : Nat} {n : Int} {q : Sequencer}

/-- The core with the sum of a signal in its object and the signal noted in SYNC_LAST. -/
def signalled (k : Chip) (v c t obj : Nat) (n : Int) (q : Sequencer) : Core :=
  let x := k.core v c
  { x with
    sync := store 0 x.sync obj (x.object obj + n).toNat
    syncLast := store none x.syncLast obj (some { stream := t, lib := q.lib, pc := q.pc, since := match lookup none x.syncLast obj with
      | some l => if l.stream = t then l.since else k.now
      | none => k.now }) }

theorem applySignal_underflow (h : ((k.core v c).object obj : Int) + n < 0) : k.applySignal v c t obj n q = k.coreFault v c t 0x60 q := if_pos h

theorem applySignal_overflow (h : 65535 < ((k.core v c).object obj : Int) + n) : k.applySignal v c t obj n q = k.coreFault v c t 0x61 q := by
  have h0 : ¬ ((k.core v c).object obj : Int) + n < 0 := by omega
  simp only [Chip.applySignal, h0, h, if_false, if_true]
  rfl

theorem applySignal_core (h0 : 0 ≤ ((k.core v c).object obj : Int) + n) (h1 : ((k.core v c).object obj : Int) + n ≤ 65535) :
    (k.applySignal v c t obj n q).core v c = (signalled k v c t obj n q).finish k.now t (.signal obj n q) := by
  have hu : ¬ ((k.core v c).object obj : Int) + n < 0 := by omega
  have ho : ¬ 65535 < ((k.core v c).object obj : Int) + n := by omega
  simp only [Chip.applySignal, hu, ho, if_false, Chip.finish, core_setCore_same]
  rfl

/-- An instruction that completes with nothing behind it that it held back leaves its stream the rest. -/
theorem finish_alone {x : Core} {now t : Nat} {f : InFlight} {rest : List InFlight} (h : (x.stream t).inflight = f :: rest)
    (hput : ∀ e w, rest.head? ≠ some (.put e w)) (hstore : ∀ a bs, rest.head? ≠ some (.store a bs)) (ht : t < x.streams.length) :
    x.finish now t f = x.setStream t (Stream.settle { x.stream t with inflight := rest } now) := by
  have hlen : t < (x.setStream t { x.stream t with inflight := rest }).streams.length := by
    simpa only [Core.setStream, setAt, List.length_set] using ht
  have hs : (x.setStream t { x.stream t with inflight := rest }).stream t = { x.stream t with inflight := rest } := setStream_stream_same x t _ ht
  have hset : ∀ y : Stream, (x.setStream t { x.stream t with inflight := rest }).setStream t y = x.setStream t y := fun y => by
    simp only [Core.setStream, setAt, List.set_set]
  unfold Core.finish
  dsimp only
  rw [h, List.erase_cons_head]
  unfold List.length Core.complete
  split
  · rename_i e w rest' he
    rw [hs] at he
    exact absurd (congrArg List.head? he) (hput e w)
  · rename_i a bs rest' he
    rw [hs] at he
    exact absurd (congrArg List.head? he) (hstore a bs)
  · rw [hs, hset]

theorem settle_inflight (x : Stream) (now : Nat) : (x.settle now).inflight = x.inflight := by
  unfold Stream.settle; split <;> rfl

end Signal

/-- The streams that a mask of one stream, or of two, names. -/
theorem range_filter_one : ∀ t < 5, (List.range 5).filter (fun m => decide (m = t)) = [t] := by decide

theorem range_filter_two : ∀ j < 5, ∀ i < j, (List.range 5).filter (fun m => decide (m = i ∨ m = j)) = [i, j] := by decide

/-- SIGNAL_APPLIED: the signals of the streams that the mask names, in ascending order, then the watches. -/
theorem exec_signalApplied {s : State} {v c : Nat} {mask : BitVec 5} (h : liveOn s (s.hasCore v c) v) {l : List Nat}
    (hl : (List.range 5).filter (fun t => mask.toNat.testBit t) = l) : exec (.signalApplied v c mask) s =
      .next (withK s ((l.foldl (fun k t => k.signalStep v c t) s.k).setCore v c ((l.foldl (fun k t => k.signalStep v c t) s.k).core v c).evaluate)) := by
  subst hl
  rw [List.foldl_filter]
  change execSignalApplied v c mask s = _
  unfold execSignalApplied
  rw [onVat_liveOn _ h]

/-- Settles O22: the three sums of a signal, and the streams of a mask in their order. -/
theorem signalsApply : Obligations.SignalsApply := by
  unfold Obligations.SignalsApply
  refine ⟨?signal, ?mask⟩
  case signal =>
    intro k v c t obj n q hc hl sum since
    refine ⟨applySignal_underflow, applySignal_overflow, fun h0 h1 rest hin hput hstore ht => ?_⟩
    have hcore : (k.applySignal v c t obj n q).core v c =
        (signalled k v c t obj n q).setStream t (Stream.settle { k.stream v c t with inflight := rest } k.now) :=
      (applySignal_core h0 h1).trans (finish_alone (x := signalled k v c t obj n q) hin hput hstore ht)
    intro m
    have hm : m = (signalled k v c t obj n q).setStream t (Stream.settle { k.stream v c t with inflight := rest } k.now) := hcore
    have hobj : ∀ o, m.object o = if o = obj then sum.toNat else (k.core v c).object o := fun o => by
      rw [hm]
      exact object_store (k.core v c) [] obj sum.toNat o hc
    refine ⟨?_, ?_, ?_, fun o ho => ?_, by rw [hm]; rfl, by rw [hm]; rfl⟩
    · rw [hobj, if_pos rfl]
      exact Int.toNat_of_nonneg h0
    · rw [hm]
      change lookup none (store none (k.core v c).syncLast obj (some { stream := t, lib := q.lib, pc := q.pc, since := since })) obj = _
      exact lookup_store_same none (k.core v c).syncLast obj _ hl
    · rw [hm, setStream_stream_same (signalled k v c t obj n q) t _ ht]
      exact settle_inflight _ _
    · rw [hobj, if_neg ho]
  case mask =>
    intro s v c mask hlive
    refine ⟨fun h0 => ?_, fun t ht hmask obj n q hold => ?_, fun i j hij hj hmask => ?_⟩
    · exact exec_signalApplied hlive (l := []) (by subst h0; decide)
    · have hl : (List.range 5).filter (fun t => mask.toNat.testBit t) = [t] :=
        (List.filter_congr (fun m hm => hmask m (List.mem_range.mp hm))).trans (range_filter_one t ht)
      have hstep : s.k.signalStep v c t = s.k.applySignal v c t obj n q := by simp only [Chip.signalStep, hold]
      rw [exec_signalApplied hlive hl, List.foldl_cons, List.foldl_nil, hstep]
    · have hl : (List.range 5).filter (fun t => mask.toNat.testBit t) = [i, j] :=
        (List.filter_congr (fun m hm => hmask m (List.mem_range.mp hm))).trans (range_filter_two j hj i hij)
      exact exec_signalApplied hlive hl

end Sys2Proof.Proofs
end

section
/-!
PROOFS. Hoop events (O24). Inside a slot entries only move on (`Hoop.order` stays), a write to one slot leaves the others, and reading DRAM
leaves cores
and bank maps, so that every word of a group is read at the address that the first one had.
-/

namespace Sys2Proof.Proofs

open Sys2Proof.Machine Sys2Proof.Safety Sys2Proof.Laws

/-! ### Moves inside a slot -/

/-- The entries of a slot outside its groups, from the head to the tail. -/
def hoopOrder (q : Hoop) : List Entry := q.head ++ q.back ++ q.going ++ q.tail

/-- Slot `q'` is `q` with its entries moved on in their order. -/
structure MovedOn (q q' : Hoop) : Prop where
  order : hoopOrder q' = hoopOrder q
  rest : q' = { q with head := q'.head, back := q'.back, going := q'.going, tail := q'.tail }

theorem MovedOn.refl (q : Hoop) : MovedOn q q := ⟨rfl, rfl⟩

theorem MovedOn.trans {p q r : Hoop} (h : MovedOn p q) (g : MovedOn q r) : MovedOn p r :=
  ⟨g.order.trans h.order, by rw [g.rest, h.rest]⟩

theorem readBack_movedOn {q q' : Hoop} (h : q.readBack = some q') : MovedOn q q' := by
  unfold Hoop.readBack at h
  split at h
  · rename_i e rest hb
    split at h
    · cases h
      exact ⟨by simp only [hoopOrder, hb, List.append_assoc, List.cons_append, List.nil_append], rfl⟩
    · cases h
  · cases h

theorem leaveTail_movedOn {q q' : Hoop} {spill : Nat} (h : q.leaveTail spill = some q') : MovedOn q q' := by
  unfold Hoop.leaveTail at h
  split at h
  · cases h
  · rename_i e rest ht
    split at h
    · rename_i hempty
      obtain ⟨hg, _, hb, _⟩ := hempty
      cases h
      exact ⟨by simp only [hoopOrder, ht, hg, hb, List.append_nil, List.append_assoc, List.cons_append, List.nil_append], rfl⟩
    · split at h
      · cases h
        exact ⟨by simp only [hoopOrder, ht, List.append_assoc, List.cons_append, List.nil_append], rfl⟩
      · cases h

theorem advance_movedOn {q q' : Hoop} {own : Bool} {spill : Nat} (h : q.advance own spill = some q') : MovedOn q q' := by
  unfold Hoop.advance at h
  cases hb : q.readBack with
  | some p =>
    rw [hb] at h
    cases h
    exact readBack_movedOn hb
  | none =>
    rw [hb] at h
    cases own
    · cases h
    · exact leaveTail_movedOn h

theorem settle_movedOn (own : Bool) (spill fuel : Nat) (q : Hoop) : MovedOn q (Hoop.settle own spill fuel q) := by
  induction fuel generalizing q with
  | zero => exact MovedOn.refl q
  | succ n ih =>
    unfold Hoop.settle
    split
    · rename_i p hp
      exact (advance_movedOn hp).trans (ih p)
    · exact MovedOn.refl q

/-- With nothing read back, a slot whose tail is elsewhere stands as it is. -/
theorem settle_remote {q : Hoop} (spill fuel : Nat) (h : q.back = []) : Hoop.settle false spill fuel q = q := by
  cases fuel with
  | zero => rfl
  | succ n => simp only [Hoop.settle, Hoop.advance, Hoop.readBack, h, Option.orElse_none, Bool.false_eq_true, if_false]

/-! ### Slots of the chip -/

theorem core_congr (k : Chip) {v c v' c' : Nat} (h : coreKey v' c' = coreKey v c) : k.core v' c' = k.core v c := by
  simp only [Chip.core, h]

theorem hoop_setHoop_same {k : Chip} {v c h : Nat} (q : Hoop) (hh : h < (k.core v c).hoops.length) : (k.setHoop v c h q).hoop v c h = q := by
  simp only [Chip.hoop, Chip.setHoop, core_setCore_same, Core.hoop, Core.setHoop, setAt, List.getD_eq_getElem?_getD,
    List.getElem?_set_self hh, Option.getD_some]

theorem hoop_setHoop_other {k : Chip} {v c h v' c' h' : Nat} (q : Hoop) (hne : (coreKey v' c', h') ≠ (coreKey v c, h)) :
    (k.setHoop v c h q).hoop v' c' h' = k.hoop v' c' h' := by
  by_cases hk : coreKey v' c' = coreKey v c
  · have hj : h ≠ h' := fun he => hne (by rw [hk, he])
    simp only [Chip.hoop, core_congr _ hk, Chip.setHoop, core_setCore_same, Core.hoop, Core.setHoop, setAt, List.getD_eq_getElem?_getD,
      List.getElem?_set_ne hj]
  · simp only [Chip.hoop, Chip.setHoop, core_setCore_other _ _ _ _ _ _ hk]

theorem hoops_length_setHoop (k : Chip) (v c h : Nat) (q : Hoop) (v' c' : Nat) :
    ((k.setHoop v c h q).core v' c').hoops.length = (k.core v' c').hoops.length := by
  by_cases hk : coreKey v' c' = coreKey v c
  · simp only [core_congr _ hk, Chip.setHoop, core_setCore_same, Core.setHoop, setAt, List.length_set]
  · simp only [Chip.setHoop, core_setCore_other _ _ _ _ _ _ hk]

@[simp] theorem setF_core (k : Chip) (o hi lo n v c : Nat) : (k.setF o hi lo n).core v c = k.core v c := rfl

@[simp] theorem count_core (k : Chip) (o n v c : Nat) : (k.count o n).core v c = k.core v c := by
  simp only [Chip.count]; split <;> rfl

@[simp] theorem count_hoop (k : Chip) (o n v c h : Nat) : (k.count o n).hoop v c h = k.hoop v c h := by
  simp only [Chip.hoop, count_core]

@[simp] theorem satMax_core (k : Chip) (o hi lo n v c : Nat) : (k.satMax o hi lo n).core v c = k.core v c := rfl

@[simp] theorem noteDepth_core (k : Chip) (v c h v' c' : Nat) : (k.noteDepth v c h).core v' c' = k.core v' c' := by
  unfold Chip.noteDepth
  dsimp only
  split <;> rfl

/-! ### An entry that lands -/

theorem notePush_hoops_length (k : Chip) (v c h v' c' : Nat) :
    ((k.notePush v c h).core v' c').hoops.length = (k.core v' c').hoops.length := by
  unfold Chip.notePush Chip.onPeer
  dsimp only
  cases (k.peerOf v c h) <;> cases ((k.count (Reg.hoopPushes v c h) 1).peerOf v c h) <;>
    simp only [count_core, hoops_length_setHoop]

theorem hoop_setHoop_cases (k : Chip) (v c h : Nat) (q : Hoop) (v' c' h' : Nat) :
    (k.setHoop v c h q).hoop v' c' h' = k.hoop v' c' h' ∨
    ((coreKey v' c', h') = (coreKey v c, h) ∧ (k.setHoop v c h q).hoop v' c' h' = q) := by
  by_cases he : (coreKey v' c', h') = (coreKey v c, h)
  · obtain ⟨hk, rfl⟩ := Prod.mk.inj he
    have hx : ∀ x : Chip, x.hoop v' c' h' = x.hoop v c h' := fun x => by simp only [Chip.hoop, core_congr x hk]
    by_cases hh : h' < (k.core v c).hoops.length
    · exact .inr ⟨he, by rw [hx, hoop_setHoop_same q hh]⟩
    · refine .inl ?_
      rw [hx, hx]
      simp only [Chip.hoop, Chip.setHoop, core_setCore_same, Core.hoop, Core.setHoop, setAt, List.set_eq_of_length_le (Nat.le_of_not_lt hh)]
  · exact .inl (hoop_setHoop_other q he)

theorem count_reg_other (k : Chip) (o n o' : Nat) (h : o' ≠ o) : (k.count o n).reg o' = k.reg o' := by
  simp only [Chip.count]
  split <;> simp only [Chip.raise, reg_setF_other _ _ _ _ _ _ h]

/-- HOOP_PUSHES of no slot is HOOP_CFG of another. -/
theorem hoopCfg_ne_hoopPushes (v c h v' c' h' : Nat) : Reg.hoopCfg v c h ≠ Reg.hoopPushes v' c' h' := by
  simp only [Reg.hoopCfg, Reg.hoopPushes, coreBase, vatBase]
  omega

theorem hoopCfg_congr {k k' : Chip} {v c h : Nat} (hr : k'.reg (Reg.hoopCfg v c h) = k.reg (Reg.hoopCfg v c h)) :
    k'.hoopCfg v c h = k.hoopCfg v c h := by
  unfold Chip.hoopCfg Chip.getF
  dsimp only
  rw [hr]

@[simp] theorem hoopCfg_count_pushes (k : Chip) (v c h n v' c' h' : Nat) :
    (k.count (Reg.hoopPushes v' c' h') n).hoopCfg v c h = k.hoopCfg v c h :=
  hoopCfg_congr (count_reg_other _ _ _ _ (hoopCfg_ne_hoopPushes v c h v' c' h'))

@[simp] theorem peerOf_count_pushes (k : Chip) (v c h n v' c' h' : Nat) :
    (k.count (Reg.hoopPushes v' c' h') n).peerOf v c h = k.peerOf v c h := by
  simp only [Chip.peerOf, hoopCfg_count_pushes]

@[simp] theorem peerOf_setHoop (k : Chip) (v c h : Nat) (q : Hoop) (v' c' h' : Nat) : (k.setHoop v' c' h' q).peerOf v c h = k.peerOf v c h := rfl

/-- A push notes the hoop's other slot, if there is one, and counts at both. -/
theorem notePush_eq (k : Chip) (v c h : Nat) : k.notePush v c h = match k.peerOf v c h with
    | some (pv, pc, ph) => ((k.count (Reg.hoopPushes v c h) 1).setHoop pv pc ph
        ((k.hoop pv pc ph).pushedBy k.now 5)).count (Reg.hoopPushes pv pc ph) 1
    | none => k.count (Reg.hoopPushes v c h) 1 := by
  unfold Chip.notePush Chip.onPeer
  simp only [peerOf_count_pushes, count_hoop]
  cases k.peerOf v c h with
  | none => rfl
  | some p => obtain ⟨pv, pc, ph⟩ := p; rfl

theorem notePush_peerOf (k : Chip) (v c h v' c' h' : Nat) : (k.notePush v c h).peerOf v' c' h' = k.peerOf v' c' h' := by
  rw [notePush_eq]
  split <;> simp only [peerOf_count_pushes, peerOf_setHoop]

theorem notePush_flushing (k : Chip) (v c h v' c' h' : Nat) : ((k.notePush v c h).hoop v' c' h').flushing = (k.hoop v' c' h').flushing := by
  rw [notePush_eq]
  split
  · rename_i pv pc ph hp
    rw [count_hoop]
    rcases hoop_setHoop_cases (k.count (Reg.hoopPushes v c h) 1) pv pc ph
      ((k.hoop pv pc ph).pushedBy k.now 5) v' c' h' with he | ⟨hk, he⟩
    · rw [he, count_hoop]
    · obtain ⟨hkey, rfl⟩ := Prod.mk.inj hk
      rw [he]
      simp only [Hoop.pushedBy, Chip.hoop, core_congr k hkey]
  · rw [count_hoop]

theorem notePush_hoopFlushing (k : Chip) (v c h : Nat) : (k.notePush v c h).hoopFlushing v c h = k.hoopFlushing v c h := by
  simp only [Chip.hoopFlushing, notePush_peerOf, notePush_flushing]

/-- A slot of the same core that is not the other slot of the hoop. -/
theorem notePush_hoop_other {k : Chip} {v c h j : Nat} (hp : ∀ pv pc, k.peerOf v c h = some (pv, pc, j) → coreKey pv pc ≠ coreKey v c) :
    (k.notePush v c h).hoop v c j = k.hoop v c j := by
  rw [notePush_eq]
  split
  · rename_i pv pc ph hpeer
    rw [count_hoop, hoop_setHoop_other, count_hoop]
    intro he
    obtain ⟨hk, rfl⟩ := Prod.mk.inj he
    exact hp pv pc hpeer hk.symm
  · rw [count_hoop]

/-- A slot's entries and sideband with an entry landed at its tail, before they move on. -/
def landedHoop (k : Chip) (v c h : Nat) (e : Entry) : Hoop :=
  { (k.hoop v c h).landed k.now e with tail := (k.hoop v c h).tail ++ [e] }

theorem landOne_open {k : Chip} {v c h : Nat} (e : Entry) (hf : k.hoopFlushing v c h = false) :
    k.landOne v c h e = (((k.notePush v c h).setHoop v c h (landedHoop k v c h e)).noteDepth v c h).settleHoop v c h := by
  unfold Chip.landOne
  dsimp only
  rw [notePush_hoopFlushing, hf, if_neg Bool.false_ne_true]
  rfl

theorem settleHoop_same {k : Chip} {v c h : Nat} (hh : h < (k.core v c).hoops.length) :
    (k.settleHoop v c h).hoop v c h = (k.hoop v c h).settle ((k.hoopCfg v c h).route = 1) (k.hoopCfg v c h).spill 64 := hoop_setHoop_same _ hh

theorem settleHoop_other {k : Chip} {v c h v' c' h' : Nat} (hne : (coreKey v' c', h') ≠ (coreKey v c, h)) :
    (k.settleHoop v c h).hoop v' c' h' = k.hoop v' c' h' := hoop_setHoop_other _ hne

@[simp] theorem noteDepth_hoop (k : Chip) (v c h v' c' h' : Nat) : (k.noteDepth v c h).hoop v' c' h' = k.hoop v' c' h' := by
  simp only [Chip.hoop, noteDepth_core]

theorem landOne_movedOn {k : Chip} {v c h : Nat} (e : Entry) (hh : h < (k.core v c).hoops.length) (hf : k.hoopFlushing v c h = false) :
    MovedOn (landedHoop k v c h e) ((k.landOne v c h e).hoop v c h) := by
  have hlen : h < ((k.notePush v c h).core v c).hoops.length := by rw [notePush_hoops_length]; exact hh
  rw [landOne_open e hf, settleHoop_same (by rw [noteDepth_core, hoops_length_setHoop]; exact hlen), noteDepth_hoop, hoop_setHoop_same _ hlen]
  exact settle_movedOn _ _ _ _

theorem landOne_hoop_other {k : Chip} {v c h j : Nat} (e : Entry) (hf : k.hoopFlushing v c h = false) (hj : j ≠ h)
    (hp : ∀ pv pc, k.peerOf v c h = some (pv, pc, j) → coreKey pv pc ≠ coreKey v c) : (k.landOne v c h e).hoop v c j = k.hoop v c j := by
  have hne : (coreKey v c, j) ≠ (coreKey v c, h) := fun he => hj (Prod.mk.inj he).2
  rw [landOne_open e hf, settleHoop_other hne, noteDepth_hoop, hoop_setHoop_other _ hne, notePush_hoop_other hp]

/-! ### Pushes that land -/

theorem landNext_push {k : Chip} {v c t j n : Nat} {e : Entry} (ho : (k.stream v c t).oldest = some (.push j e n))
    (hh : k.pushHold v c t j = none) : k.landNext v c t j = (k.finish v c t (.push j e n)).landEntry v c j e := by
  have hw : k.waitsPush v c t j = true := by simp only [Chip.waitsPush, ho, decide_true]
  simp only [Chip.landNext, Chip.pushOf, hw, hh, ho, Option.isSome_none, Bool.not_true, Bool.or_self, Bool.false_eq_true, if_false]

theorem landNext_fence {k : Chip} {v c t j n : Nat} (ho : (k.stream v c t).oldest = some (.fence j n)) (hr : k.fenceReady v c t j = true) :
    k.landNext v c t j = (k.finish v c t (.fence j n)).landEntry v c j (k.fenceEntry v c t) := by
  obtain ⟨harrived, hnone⟩ := (Bool.and_eq_true _ _).mp hr
  have hh : k.pushHold v c t j = none := Option.isNone_iff_eq_none.mp hnone
  have hw : k.waitsPush v c t j = true := by simp only [Chip.waitsPush, ho, harrived, decide_true, Bool.and_self]
  simp only [Chip.landNext, Chip.pushOf, hw, hh, ho, Option.isSome_none, Bool.not_true, Bool.or_self, Bool.false_eq_true, if_false]

theorem exec_hoopPushLands {s : State} {v c t : Nat} (h : liveOn s (s.hasCore v c) v) (ht : t < 5) :
    exec (.hoopPushLands v c t) s = .next (withK s (match (s.k.stream v c t).oldest with
      | some (.push j ..) => s.k.landNext v c t j
      | some (.fence j _) => s.k.landNext v c t j
      | _ => s.k)) := by
  obtain ⟨⟨hcore, halive⟩, hruns⟩ := h
  change execHoopPushLands v c t s = _
  unfold execHoopPushLands
  exact (onVat_liveOn _ ⟨⟨by rw [hcore, decide_eq_true ht]; rfl, halive⟩, hruns⟩).trans rfl

/-! ### An entry that reaches the head -/

theorem hoopCfg_ne_xbarTx {v c h v' : Nat} (hh : h < 16) : Reg.hoopCfg v c h ≠ Reg.xbarTx v' := by
  simp only [Reg.hoopCfg, Reg.xbarTx, coreBase, vatBase]
  omega

theorem hoopCfg_ne_xbarRx (v c h v' : Nat) : Reg.hoopCfg v c h ≠ Reg.xbarRx v' := by
  simp only [Reg.hoopCfg, Reg.xbarRx, coreBase, vatBase]
  omega

/-- The chip with the oldest tail entry of the other slot at the head of slot `h`, before the crossbar's counts. -/
def crossed (k : Chip) (v c h : Nat) (e : Entry) (rest : List Entry) : Chip :=
  let g := k.hoopCfg v c h
  (k.setHoop g.vat g.core g.slot { k.hoop g.vat g.core g.slot with tail := rest }).setHoop v c h
    { k.hoop v c h with head := (k.hoop v c h).head ++ [e] }

section Cross

variable {k : Chip} {v c h : Nat} {e : Entry} {rest : List Entry}

theorem deliverEntry_crossed (hroute : (k.hoopCfg v c h).route = 3) (hhub : (k.hoopCfg v c h).hub = false)
    (hne : (coreKey (k.hoopCfg v c h).vat (k.hoopCfg v c h).core, (k.hoopCfg v c h).slot) ≠ (coreKey v c, h))
    (ht : (k.hoop (k.hoopCfg v c h).vat (k.hoopCfg v c h).core (k.hoopCfg v c h).slot).tail = e :: rest)
    (hgoing : (k.hoop v c h).going = []) (hgroups : (k.hoop v c h).groups = []) (hback : (k.hoop v c h).back = [])
    (hroom : (k.hoop v c h).head.length < 8) :
    k.deliverEntry v c h = if (k.hoopCfg v c h).vat = v then crossed k v c h e rest
      else ((crossed k v c h e rest).count (Reg.xbarTx (k.hoopCfg v c h).vat) 1).count (Reg.xbarRx v) 1 := by
  unfold Chip.deliverEntry crossed
  simp only [hroute, hhub, ht, hgoing, hgroups, hback, hroom, decide_true, Bool.and_self, Bool.true_or, Bool.not_true, Bool.false_eq_true,
    and_false, ne_eq, not_true_eq_false, or_self, if_false, if_true, hoop_setHoop_other _ hne.symm]

theorem crossed_counts (hh : h < 16) (hroute : (k.hoopCfg v c h).route = 3) (hhub : (k.hoopCfg v c h).hub = false)
    (hne : (coreKey (k.hoopCfg v c h).vat (k.hoopCfg v c h).core, (k.hoopCfg v c h).slot) ≠ (coreKey v c, h))
    (ht : (k.hoop (k.hoopCfg v c h).vat (k.hoopCfg v c h).core (k.hoopCfg v c h).slot).tail = e :: rest)
    (hgoing : (k.hoop v c h).going = []) (hgroups : (k.hoop v c h).groups = []) (hback : (k.hoop v c h).back = [])
    (hroom : (k.hoop v c h).head.length < 8) :
    (∀ v' c' h', (k.deliverEntry v c h).hoop v' c' h' = (crossed k v c h e rest).hoop v' c' h') ∧
    ((k.deliverEntry v c h).core v c = (crossed k v c h e rest).core v c) ∧ (k.deliverEntry v c h).hoopCfg v c h = k.hoopCfg v c h := by
  rw [deliverEntry_crossed hroute hhub hne ht hgoing hgroups hback hroom]
  split
  · exact ⟨fun _ _ _ => rfl, rfl, rfl⟩
  · refine ⟨fun _ _ _ => by simp only [count_hoop], by simp only [count_core], hoopCfg_congr ?_⟩
    rw [count_reg_other _ _ _ _ (hoopCfg_ne_xbarRx v c h v), count_reg_other _ _ _ _ (hoopCfg_ne_xbarTx hh)]
    rfl

end Cross

/-! ### The middle -/

theorem onVatBoth_liveOn {s : State} {ok : Bool} {v : Nat} (f : Dram → Chip → Dram × Chip) (h : liveOn s ok v) :
    s.onVatBoth ok v f = .next { s with dram := (f s.dram s.k).1, k := (f s.dram s.k).2 } := by
  obtain ⟨⟨hok, halive⟩, hruns⟩ := h
  unfold State.onVatBoth
  rw [onBoth_next _ _ _ hok halive]
  simp only [hruns, if_true]

/-- What reading DRAM leaves of the chip: every core, and the bank behind every index. -/
structure ReadKept (k k' : Chip) : Prop where
  cores : k'.cores = k.cores
  phys : ∀ v d a, k'.phys v d a = k.phys v d a

theorem ReadKept.refl (k : Chip) : ReadKept k k := ⟨rfl, fun _ _ _ => rfl⟩

theorem ReadKept.trans {k k' k'' : Chip} (h : ReadKept k k') (g : ReadKept k' k'') : ReadKept k k'' :=
  ⟨g.cores.trans h.cores, fun v d a => (g.phys v d a).trans (h.phys v d a)⟩

theorem ReadKept.dramAt {k k' : Chip} (h : ReadKept k k') (v p : Nat) : k'.dramAt v p = k.dramAt v p := by
  simp only [Chip.dramAt, h.phys]

theorem count_readKept (k : Chip) (o n : Nat) : ReadKept k (k.count o n) := by
  simp only [Chip.count]; split <;> exact ⟨rfl, fun _ _ _ => rfl⟩

theorem log_readKept (k : Chip) (o : LogOcc) : ReadKept k (k.log o) := by
  unfold Chip.log; split <;> exact ⟨rfl, fun _ _ _ => rfl⟩

theorem trigger_readKept (k : Chip) (v d a code : Nat) : ReadKept k (k.trigger v d a code) := by
  unfold Chip.trigger
  dsimp only
  generalize (if (k.die v d).takeover.isSome then 4 else 5) = room
  split
  · exact ReadKept.refl k
  · split
    · refine ⟨rfl, fun v' d' a' => ?_⟩
      by_cases hk : dieKey v' d' = dieKey v d
      · simp only [Chip.phys, Chip.die, Chip.setDie, hk, lookup_insert_same]
        rfl
      · simp only [Chip.phys, die_setDie_other _ _ _ _ _ _ hk]
    · exact log_readKept k _

theorem autoTrigger_readKept (k : Chip) (v d a code : Nat) : ReadKept k (k.autoTrigger v d a code) := by
  unfold Chip.autoTrigger
  split
  · exact trigger_readKept k v d a code
  · exact ReadKept.refl k

theorem takeSlots_readKept (k : Chip) (v d b n : Nat) : ReadKept k (k.takeSlots v d b n) := by
  unfold Chip.takeSlots
  dsimp only
  split
  · exact count_readKept k _ _
  · exact (count_readKept k _ _).trans ⟨rfl, fun _ _ _ => rfl⟩

theorem baseSlots_readKept (k : Chip) (v p n : Nat) : ReadKept k (k.baseSlots v p n) :=
  foldl_keeps (ReadKept k) _ _ k (ReadKept.refl k) (fun x _ hx => hx.trans (takeSlots_readKept x _ _ _ _))

theorem noteRead_readKept (k : Chip) (v d b row word src : Nat) (r : WordRead) : ReadKept k (k.noteRead v d b row word src r) := by
  have hsat : ∀ o, ReadKept k (k.satAdd o 31 0 1) := fun o => ⟨rfl, fun _ _ _ => rfl⟩
  unfold Chip.noteRead
  dsimp only
  split
  · exact ReadKept.refl k
  · exact ReadKept.refl k
  · split
    · exact hsat _
    · exact (hsat _).trans (log_readKept _ _)
  · exact (hsat _).trans (log_readKept _ _)
  · exact ((hsat _).trans (log_readKept _ _)).trans (autoTrigger_readKept _ _ _ _ _)

theorem readAt_readKept (k : Chip) (dr : Dram) (v p src : Nat) : ReadKept k (k.readAt dr v p src).2 :=
  (noteRead_readKept k _ _ _ _ _ _ _).trans (count_readKept _ _ _)

theorem bytes_length (dr : Dram) (a n : Nat) : (dr.bytes a n).length = n := by
  simp only [Dram.bytes, lookupRun, List.length_map, List.length_range]

theorem xorPattern_length (bs : List Byte) (p : List (Nat × Nat)) : (xorPattern bs p).length = bs.length := by
  refine foldl_keeps (fun l : List Byte => l.length = bs.length) _ p bs rfl (fun l e hl => ?_)
  split
  · rw [List.length_set, hl]
  · exact hl

theorem word_bytes_length (dr : Dram) (a : Nat) : (dr.word a).bytes.length = 32 := by
  unfold Dram.word
  dsimp only
  split
  · rw [xorPattern_length, bytes_length]
  · exact bytes_length dr a 32

/-- A word read at its own address. -/
theorem readAt_word (k : Chip) (dr : Dram) (v p src : Nat) (hp : p % 32 = 0) : (k.readAt dr v p src).1 = dr.word (k.dramAt v p) := by
  have hbyte : (bankAddr p).byte / 32 * 32 = (bankAddr p).byte := by
    simp only [bankAddr]
    omega
  unfold Chip.readAt Chip.dramAt
  dsimp only
  rw [hbyte]

/-- A run of two whole words. -/
theorem readRun_two_words (dr : Dram) (v src : Nat) (k : Chip) (p : Nat) (hp : p % 32 = 0) :
    ∃ k', ReadKept k k' ∧ Chip.readRun dr v src 4 k p 64 =
      ((dr.word (k.dramAt v p)).bytes ++ (dr.word (k.dramAt v (p + 32))).bytes,
        (dr.word (k.dramAt v p)).res.bad || (dr.word (k.dramAt v (p + 32))).res.bad, k') := by
  have h1 := readAt_readKept k dr v p src
  have hp' : (p + 32) % 32 = 0 := by omega
  have w1 := readAt_word k dr v p src hp
  have w2 := readAt_word (k.readAt dr v p src).2 dr v (p + 32) src hp'
  rw [h1.dramAt] at w2
  have t1 := List.take_of_length_le (Nat.le_of_eq (word_bytes_length dr (k.dramAt v p)))
  have t2 := List.take_of_length_le (Nat.le_of_eq (word_bytes_length dr (k.dramAt v (p + 32))))
  refine ⟨_, h1.trans (readAt_readKept _ dr v (p + 32) src), ?_⟩
  simp only [Chip.readRun, hp, hp', w1, w2, OfNat.ofNat_ne_zero, if_false, Nat.sub_zero, Nat.reduceSub, min_self, Nat.reduceLeDiff, inf_of_le_right,
    List.drop_zero, t1, t2, if_true, List.append_nil, Bool.or_false]

/-- Entry `i` of a group that lies at `p`, as the middle reads it back through the bank maps of `k`. -/
def readEntry (dr : Dram) (k : Chip) (v p : Nat) (e : Sideband) (i : Nat) : Entry :=
  let word (j : Nat) : WordRead := dr.word (k.dramAt v (p + 32 * j))
  { data := entryOfBytes ((word (2 * i)).bytes ++ (word (2 * i + 1)).bytes), last := e.last, fence := e.fence
    poison := e.poison || (word (2 * i)).res.bad || (word (2 * i + 1)).res.bad, src := 7 }

/-- One entry of a group read back, after those before it. -/
def readNext (dr : Dram) (v src p : Nat) (a : List Entry × Chip) (e : Sideband × Nat) : List Entry × Chip :=
  let (bs, bad, k) := Chip.readRun dr v src 4 a.2 (p + 64 * e.2) 64
  (a.1 ++ [{ data := entryOfBytes bs, last := e.1.last, fence := e.1.fence, poison := e.1.poison || bad, src := 7 }], k)

theorem readNext_eq (dr : Dram) {k : Chip} {v src p : Nat} {a : List Entry × Chip} (e : Sideband × Nat) (hp : p % 32 = 0) (ha : ReadKept k a.2) :
    ∃ k', ReadKept k k' ∧ readNext dr v src p a e = (a.1 ++ [readEntry dr k v p e.1 e.2], k') := by
  have hp2 : (p + 64 * e.2) % 32 = 0 := by omega
  obtain ⟨k', hk', hrun⟩ := readRun_two_words dr v src a.2 (p + 64 * e.2) hp2
  have e1 : p + 64 * e.2 = p + 32 * (2 * e.2) := by omega
  have e2 : p + 32 * (2 * e.2) + 32 = p + 32 * (2 * e.2 + 1) := by omega
  refine ⟨k', ha.trans hk', ?_⟩
  unfold readNext
  rw [hrun, ha.dramAt, ha.dramAt, e1, e2]
  simp only [readEntry, Bool.or_assoc]

theorem readGroup_eq (dr : Dram) {k : Chip} {v src p : Nat} (hp : p % 32 = 0) (l : List (Sideband × Nat)) (a : List Entry × Chip)
    (ha : ReadKept k a.2) :
    ∃ k', ReadKept k k' ∧ l.foldl (readNext dr v src p) a = (a.1 ++ l.map (fun e => readEntry dr k v p e.1 e.2), k') := by
  induction l generalizing a with
  | nil => exact ⟨a.2, ha, by simp only [List.foldl_nil, List.map_nil, List.append_nil]⟩
  | cons e l ih =>
    obtain ⟨k1, hk1, hnext⟩ := readNext_eq (v := v) (src := src) dr e hp ha
    obtain ⟨k', hk', hl⟩ := ih (a.1 ++ [readEntry dr k v p e.1 e.2], k1) hk1
    exact ⟨k', hk', by simp only [List.foldl_cons, hnext, hl, List.map_cons, List.append_assoc, List.cons_append, List.nil_append]⟩

/-- Where the middle's group at unit `u` of a slot lies. -/
def groupAt (k : Chip) (v c h u : Nat) : Nat := k.getF (Reg.hoopSpillBase v c h) 36 0 + 1024 * u

/-- A slot whose oldest group has been read back as `es`, before its entries move on. -/
def regrouped (q : Hoop) (rest : List SpillGroup) (es : List Entry) : Hoop := { q with groups := rest, back := es }

theorem middleRead_movedOn {dr : Dram} {k : Chip} {v c h : Nat} {m : SpillGroup} {rest : List SpillGroup} (hh : h < (k.core v c).hoops.length)
    (hg : (k.hoop v c h).groups = m :: rest) (hb : (k.hoop v c h).back = []) (ht : k.middleTurn v (groupAt k v c h m.slot) = true)
    (hp : groupAt k v c h m.slot % 32 = 0) :
    MovedOn (regrouped (k.hoop v c h) rest (m.ends.mapIdx (fun i e => readEntry dr k v (groupAt k v c h m.slot) e i)))
      ((Chip.middleRead dr k v c h).hoop v c h) := by
  obtain ⟨k', hk', hread⟩ := readGroup_eq dr (src := Config.middleSource % 8) hp m.ends.zipIdx
    ([], k.baseSlots v (groupAt k v c h m.slot) 1024) (baseSlots_readKept k v _ 1024)
  have hlen : h < (k'.core v c).hoops.length := by
    rw [show k'.core v c = k.core v c by simp only [Chip.core, hk'.cores]]
    exact hh
  have hmid : Chip.middleRead dr k v c h = ((m.ends.zipIdx.foldl (readNext dr v (Config.middleSource % 8) (groupAt k v c h m.slot))
      ([], k.baseSlots v (groupAt k v c h m.slot) 1024)).2.setHoop v c h (regrouped (k.hoop v c h) rest
        (m.ends.zipIdx.foldl (readNext dr v (Config.middleSource % 8) (groupAt k v c h m.slot))
          ([], k.baseSlots v (groupAt k v c h m.slot) 1024)).1)).settleHoop v c h := by
    have hgo : ¬ ((k.hoop v c h).back ≠ [] ∨ (!k.middleTurn v (k.getF (Reg.hoopSpillBase v c h) 36 0 + 1024 * m.slot)) = true) := by
      rintro (hne | hno)
      · exact hne hb
      · rw [show k.middleTurn v (k.getF (Reg.hoopSpillBase v c h) 36 0 + 1024 * m.slot) = true from ht] at hno
        cases hno
    unfold Chip.middleRead
    dsimp only
    rw [hg]
    dsimp only
    rw [if_neg hgo]
    rfl
  rw [hmid, hread, settleHoop_same (by rw [hoops_length_setHoop]; exact hlen), hoop_setHoop_same _ hlen, List.nil_append,
    List.mapIdx_eq_zipIdx_map]
  exact settle_movedOn _ _ _ _

/-- What stays of a slot whose entries move on. -/
theorem MovedOn.groups {q q' : Hoop} (h : MovedOn q q') : q'.groups = q.groups := by rw [h.rest]
theorem MovedOn.openBy {q q' : Hoop} (h : MovedOn q q') : q'.openBy = q.openBy := by rw [h.rest]
theorem MovedOn.lastPush {q q' : Hoop} (h : MovedOn q q') : q'.lastPush = q.lastPush := by rw [h.rest]

theorem exec_hoopMiddleGroup {s : State} {v c : Nat} {h : BitVec 4} (write : Bool) (hl : liveOn s (s.hasCore v c) v) :
    exec (.hoopMiddleGroup v c h write) s = .next
      { s with dram := (if write then Chip.middleWrite s.dram s.k v c h.toNat else (s.dram, Chip.middleRead s.dram s.k v c h.toNat)).1
               k := (if write then Chip.middleWrite s.dram s.k v c h.toNat else (s.dram, Chip.middleRead s.dram s.k v c h.toNat)).2 } := by
  change execHoopMiddleGroup v c h write s = _
  unfold execHoopMiddleGroup
  rw [onVatBoth_liveOn _ hl]

theorem middleWrite_group {dr : Dram} {k : Chip} {v c h : Nat} (hg : (k.hoop v c h).going ≠ [])
    (hroom : (k.hoop v c h).groups.length < (k.hoopCfg v c h).spill) (ht : k.middleTurn v (groupAt k v c h (k.hoop v c h).nextUnit) = true) :
    Chip.middleWrite dr k v c h =
      (let q := k.hoop v c h
       let es := q.going.take 16
       let r := k.writeBytes dr v (groupAt k v c h q.nextUnit) (Config.middleSource % 8) (es.flatMap (fun e => entryBytes e.data))
       (r.1, r.2.setHoop v c h { q with
          going := q.going.drop 16, nextUnit := (q.nextUnit + 1) % (k.hoopCfg v c h).spill
          groups := q.groups ++ [{ slot := q.nextUnit, ends := es.map (fun e => { last := e.last, fence := e.fence, poison := e.poison }) }] })) := by
  have hgo : ¬ ((k.hoop v c h).going.take 16 = [] ∨ (k.hoopCfg v c h).spill ≤ (k.hoop v c h).groups.length ∨
      (!k.middleTurn v (k.getF (Reg.hoopSpillBase v c h) 36 0 + 1024 * (k.hoop v c h).nextUnit)) = true) := by
    rintro (hnil | hfull | hno)
    · exact hg ((List.take_eq_nil_iff.mp hnil).resolve_left (by decide))
    · exact absurd hroom (Nat.not_lt.mpr hfull)
    · rw [show k.middleTurn v (k.getF (Reg.hoopSpillBase v c h) 36 0 + 1024 * (k.hoop v c h).nextUnit) = true from ht] at hno
      cases hno
  unfold Chip.middleWrite
  dsimp only
  rw [if_neg hgo]
  rfl

/-- Settles O24: the events by their equations, and what becomes of the entries by `MovedOn`. -/
theorem hoopEventsMoveEntriesInOrder : Obligations.HoopEventsMoveEntriesInOrder := by
  unfold Obligations.HoopEventsMoveEntriesInOrder
  refine ⟨?events, ?landing⟩
  case events =>
    intro s v c h hl q g
    have harrive : exec (.hoopEntryAtHead v c h) s = .next (withK s ((s.k.deliverEntry v c h.toNat).settleHoop v c h.toNat)) := by
      change execHoopEntryAtHead v c h s = _
      unfold execHoopEntryAtHead
      rw [onVat_liveOn _ hl]
    refine ⟨harrive, ?head, ?push, ?fence, ?write, ?read⟩
    case head =>
      intro e rest hroute hhub hne hh hslot ht hgoing hgroups hback hroom
      obtain ⟨hhoops, hcore, hcfg⟩ := crossed_counts (k := s.k) h.isLt hroute hhub hne ht hgoing hgroups hback hroom
      have hlen : h.toNat < ((s.k.setHoop g.vat g.core g.slot { s.k.hoop g.vat g.core g.slot with tail := rest }).core v c).hoops.length := by
        rw [hoops_length_setHoop]; exact hh
      have hhere : (crossed s.k v c h.toNat e rest).hoop v c h.toNat = { q with head := q.head ++ [e] } := hoop_setHoop_same _ hlen
      have hthere : (crossed s.k v c h.toNat e rest).hoop g.vat g.core g.slot = { s.k.hoop g.vat g.core g.slot with tail := rest } :=
        (hoop_setHoop_other _ hne).trans (hoop_setHoop_same _ hslot)
      have hlen' : h.toNat < ((s.k.deliverEntry v c h.toNat).core v c).hoops.length := by
        rw [hcore, crossed, hoops_length_setHoop]; exact hlen
      refine ⟨_, harrive, ?_, ?_⟩
      · rw [settleHoop_other hne, hhoops, hthere]
      · rw [settleHoop_same hlen', hcfg, hroute, hhoops, hhere]
        exact settle_remote _ _ hback
    case push =>
      intro t j e n ht ho hhold
      rw [exec_hoopPushLands hl ht, ho, ← landNext_push ho hhold]
    case fence =>
      intro t j n ht ho hready
      rw [exec_hoopPushLands hl ht, ho, ← landNext_fence ho hready]
    case write =>
      intro p hg hroom ht
      rw [exec_hoopMiddleGroup true hl, if_pos rfl, middleWrite_group hg hroom ht]
      rfl
    case read =>
      intro m rest hh hg hb p word ht hp
      have hm := middleRead_movedOn (dr := s.dram) hh hg hb ht hp
      refine ⟨Chip.middleRead s.dram s.k v c h.toNat, (exec_hoopMiddleGroup false hl).trans rfl, hm.groups, ?_⟩
      exact hm.order
  case landing =>
    intro k v c h e hh hf q n
    have hm := landOne_movedOn e hh hf
    refine ⟨hm.order.trans ?_, hm.groups, hm.openBy, hm.lastPush, fun j hj hp => landOne_hoop_other e hf hj hp⟩
    exact (List.append_assoc _ _ _).symm

end Sys2Proof.Proofs
end

section
/-!
PROOFS. The bank arbiter (O33), the interleaved window (O35) and the words of DRAM (O37).
-/

namespace Sys2Proof.Proofs

open Sys2Proof.Machine Sys2Proof.Safety Sys2Proof.Laws

/-! ### Lists in the order of a key -/

section Order

variable {α : Type} (key : α → Nat)

theorem mem_placeBy (x z : α) (l : List α) : z ∈ placeBy key x l ↔ z = x ∨ z ∈ l := by
  induction l with
  | nil => simp only [placeBy, List.mem_singleton, List.not_mem_nil, or_false]
  | cons y ys ih =>
    unfold placeBy
    split
    · simp only [List.mem_cons]
    · simp only [List.mem_cons, ih]
      exact or_left_comm

theorem mem_orderBy (z : α) (l : List α) : z ∈ orderBy key l ↔ z ∈ l := by
  have hfold : ∀ (l a : List α), z ∈ l.foldl (fun a x => placeBy key x a) a ↔ z ∈ a ∨ z ∈ l := by
    intro l
    induction l with
    | nil => simp
    | cons x l ih =>
      intro a
      rw [List.foldl_cons, ih, mem_placeBy, List.mem_cons, or_comm (a := z = x), or_assoc]
  rw [orderBy, hfold]
  simp

/-- The first of the list has the least key. -/
def headLeast (l : List α) : Prop := ∀ h, l.head? = some h → ∀ z ∈ l, key h ≤ key z

theorem headLeast_placeBy (x : α) {l : List α} (h : headLeast key l) : headLeast key (placeBy key x l) := by
  cases l with
  | nil =>
    rintro y hy z hz
    cases hy
    rw [List.mem_singleton.mp hz]
  | cons y ys =>
    have hy : ∀ z ∈ y :: ys, key y ≤ key z := h y rfl
    unfold placeBy
    split
    · rename_i hlt
      rintro w hw z hz
      cases hw
      rcases List.mem_cons.mp hz with rfl | hz
      · exact le_rfl
      · exact hlt.le.trans (hy z hz)
    · rename_i hge
      rintro w hw z hz
      cases hw
      rcases List.mem_cons.mp hz with rfl | hz
      · exact le_rfl
      · rcases (mem_placeBy key x z ys).mp hz with rfl | hz
        · exact Nat.le_of_not_lt hge
        · exact hy z (List.mem_cons_of_mem y hz)

theorem headLeast_orderBy (l : List α) : headLeast key (orderBy key l) :=
  foldl_keeps (headLeast key) _ l [] (fun _ h => nomatch h) (fun _ x h => headLeast_placeBy key x h)

end Order

/-! ### The arbiter -/

section Arbiter

variable {u : Bu} {c : SlotClass} {r : SlotReq}

theorem firstOf_some (h : u.firstOf c = some r) :
    r ∈ u.slotQ ∧ r.cls = c ∧ u.holds r = false ∧ ∀ x ∈ u.slotQ, x.cls = c → u.holds x = false → r.arrived ≤ x.arrived := by
  have hmem := (mem_orderBy _ r _).mp (List.mem_of_mem_head? h)
  obtain ⟨hq, hr⟩ := List.mem_filter.mp hmem
  obtain ⟨hc, hh⟩ := (Bool.and_eq_true _ _).mp hr
  refine ⟨hq, of_decide_eq_true hc, (Bool.not_eq_true' _).mp hh, fun x hx hxc hxh => ?_⟩
  refine headLeast_orderBy _ _ r h x ((mem_orderBy _ x _).mpr (List.mem_filter.mpr ⟨hx, ?_⟩))
  rw [hxc, hxh, decide_eq_true rfl]
  rfl

theorem firstOf_none (h : u.firstOf c = none) {x : SlotReq} (hx : x ∈ u.slotQ) (hc : x.cls = c) : u.holds x = true := by
  by_contra hh
  have hmem : x ∈ orderBy (·.arrived) (u.slotQ.filter (fun r => r.cls = c && !u.holds r)) :=
    (mem_orderBy _ x _).mpr (List.mem_filter.mpr ⟨hx, by simp [hc, hh]⟩)
  rw [List.head?_eq_none_iff.mp h] at hmem
  cases hmem

/-- R173, R174: a fence holds base-die and scrub requests alone. -/
theorem holds_false (h : r.cls = .refresh ∨ r.cls = .bank) : u.holds r = false := by
  rcases h with h | h <;> simp [Bu.holds, h]

/-- Which class the next slot is of, and why. -/
theorem nextSlot_cases (h : u.nextSlot = some r) :
    u.firstOf .refresh = some r ∨
    (u.firstOf .refresh = none ∧ u.firstOf .base = some r ∧ (u.runFull r = true → u.firstOf .bank = none)) ∨
    (u.firstOf .refresh = none ∧ u.firstOf .bank = some r ∧ (u.firstOf .base = none ∨ ∃ x, u.firstOf .base = some x ∧ u.runFull x = true)) ∨
    (u.firstOf .refresh = none ∧ u.firstOf .base = none ∧ u.firstOf .bank = none ∧ u.firstOf .scrub = some r) := by
  unfold Bu.nextSlot at h
  dsimp only at h
  split at h
  · rename_i x hx
    cases h
    exact .inl hx
  · rename_i x hnone hx
    split at h
    · rename_i hfull
      obtain ⟨hf, _⟩ := (Bool.and_eq_true _ _).mp hfull
      exact .inr (.inr (.inl ⟨hnone, h, .inr ⟨x, hx, hf⟩⟩))
    · rename_i hroom
      cases h
      refine .inr (.inl ⟨hnone, hx, fun hf => ?_⟩)
      rw [hf, Bool.true_and] at hroom
      exact Option.not_isSome_iff_eq_none.mp hroom
  · rename_i hnone hbase
    split at h
    · exact .inr (.inr (.inl ⟨hnone, h, .inl hbase⟩))
    · rename_i hbank
      exact .inr (.inr (.inr ⟨hnone, hbase, Option.not_isSome_iff_eq_none.mp hbank, h⟩))

end Arbiter

/-- Settles O33: the class that is granted, case by case, and the first of a class by its arrival. -/
theorem arbiterKeepsItsOrder : Obligations.ArbiterKeepsItsOrder := by
  unfold Obligations.ArbiterKeepsItsOrder
  intro u r h
  have noRefresh : u.firstOf .refresh = none → ¬ ∃ x ∈ u.slotQ, x.cls = .refresh := by
    rintro hn ⟨x, hx, hc⟩
    have hh := firstOf_none hn hx hc
    rw [holds_false (.inl hc)] at hh
    cases hh
  have noBank : u.firstOf .bank = none → ∀ x ∈ u.slotQ, x.cls ≠ .bank := by
    rintro hn x hx hc
    have hh := firstOf_none hn hx hc
    rw [holds_false (.inr hc)] at hh
    cases hh
  have first : ∀ c, u.firstOf c = some r → r ∈ u.slotQ ∧ u.holds r = false ∧
      (∀ x ∈ u.slotQ, x.cls = r.cls → u.holds x = false → r.arrived ≤ x.arrived) := by
    intro c hc
    obtain ⟨hq, rfl, hh, hmin⟩ := firstOf_some hc
    exact ⟨hq, hh, hmin⟩
  have other : ∀ {c d : SlotClass}, r.cls = c → c ≠ d → r.cls ≠ d := fun hc hne he => hne (hc.symm.trans he)
  rcases nextSlot_cases h with hr | ⟨hn, hr, hroom⟩ | ⟨hn, hr, hbase⟩ | ⟨hn, hbase, hbank, hr⟩
  · obtain ⟨hq, hh, hmin⟩ := first _ hr
    have hc : r.cls = .refresh := (firstOf_some hr).2.1
    exact ⟨hq, hh, hmin, fun _ => hc, fun he => absurd he (other hc (by decide)), fun he => absurd he (other hc (by decide)),
      fun he => absurd he (other hc (by decide))⟩
  · obtain ⟨hq, hh, hmin⟩ := first _ hr
    have hc : r.cls = .base := (firstOf_some hr).2.1
    exact ⟨hq, hh, hmin, fun hx => absurd hx (noRefresh hn), fun he => absurd he (other hc (by decide)),
      fun he => absurd he (other hc (by decide)), fun _ hfull => noBank (hroom (decide_eq_true hfull))⟩
  · obtain ⟨hq, hh, hmin⟩ := first _ hr
    have hc : r.cls = .bank := (firstOf_some hr).2.1
    refine ⟨hq, hh, hmin, fun hx => absurd hx (noRefresh hn), fun he => absurd he (other hc (by decide)), fun _ => ?_,
      fun he => absurd he (other hc (by decide))⟩
    rcases hbase with hnone | ⟨x, hx, hfull⟩
    · exact .inl (fun x hx hxc => firstOf_none hnone hx hxc)
    · obtain ⟨hxq, hxc, _⟩ := firstOf_some hx
      exact .inr ⟨x, hxq, hxc, of_decide_eq_true hfull⟩
  · obtain ⟨hq, hh, hmin⟩ := first _ hr
    have hc : r.cls = .scrub := (firstOf_some hr).2.1
    refine ⟨hq, hh, hmin, fun hx => absurd hx (noRefresh hn), fun _ x hx => ?_, fun he => absurd he (other hc (by decide)),
      fun he => absurd he (other hc (by decide))⟩
    cases hxc : x.cls with
    | refresh => exact absurd ⟨x, hx, hxc⟩ (noRefresh hn)
    | base => exact .inl (firstOf_none hbase hx hxc)
    | bank => exact absurd hxc (noBank hbank x hx)
    | scrub => exact .inr rfl

/-! ### The interleaved window -/

/-- The bank-row index that the interleaving rotates, turned back. -/
theorem unrotate {q p : Nat} (hp : p < 32) : ((q % 192 + 37 * p) % 192 + 192 * 37 - 37 * p) % 192 = q % 192 := by omega

theorem unswizzle (a b : Nat) : Nat.xor (Nat.xor a b) b = a := Nat.xor_xor_cancel_right a b

theorem swizzle_lt {a b : Nat} (ha : a < 8) (hb : b < 8) : Nat.xor a b < 8 := Nat.xor_lt_two_pow (n := 3) ha hb

/-- What the inverse map reads of a physical address with its parts in range. -/
theorem windowOf_parts {V v o j p r e : Nat} (hj : j < 8) (hp : p < 32) (hr : r < 2048) (he : e < 1024) :
    windowOf V v ((8 * o + j) * 2 ^ 26 + (2048 * p + r) * 2 ^ 10 + e) =
      ((192 * p + (o + 192 * 37 - 37 * p) % 192) * V + v) * 2 ^ 24 + r * 2 ^ 13 + Nat.xor j (r % 8) * 2 ^ 10 + e := by
  have hn : ((8 * o + j) * 2 ^ 26 + (2048 * p + r) * 2 ^ 10 + e) / 2 ^ 26 = 8 * o + j := by omega
  have hrow : ((8 * o + j) * 2 ^ 26 + (2048 * p + r) * 2 ^ 10 + e) % 2 ^ 26 / 1024 = 2048 * p + r := by omega
  have hbyte : ((8 * o + j) * 2 ^ 26 + (2048 * p + r) * 2 ^ 10 + e) % 2 ^ 10 = e := by omega
  have ho : (8 * o + j) / 8 = o := by omega
  have hj' : (8 * o + j) % 8 = j := by omega
  have hp' : (2048 * p + r) / 2048 = p := by omega
  have hr' : (2048 * p + r) % 2048 = r := by omega
  unfold windowOf
  dsimp only
  rw [hn, hrow, hbyte, ho, hj', hp', hr']

/-- Settles O35: the parts of the physical address, and that each is read back. -/
theorem interleavingIsOneToOne : Obligations.InterleavingIsOneToOne := by
  unfold Obligations.InterleavingIsOneToOne
  intro V x hV hx
  unfold capacity at hx
  have hq : x / 2 ^ 24 / V < 6144 := by rcases hV with rfl | rfl | rfl <;> omega
  have hp : x / 2 ^ 24 / V / 192 < 32 := by omega
  have hr : bitsAt x 23 13 < 2048 := Nat.mod_lt _ (by decide)
  have ha : bitsAt x 12 10 < 8 := Nat.mod_lt _ (by decide)
  have hb : bitsAt x 15 13 < 8 := Nat.mod_lt _ (by decide)
  have hrb : bitsAt x 23 13 % 8 = bitsAt x 15 13 := by
    simp only [bitsAt, Nat.shiftRight_eq_div_pow]
    omega
  have hj := swizzle_lt ha hb
  refine ⟨?vat, ?address, ?inverse⟩
  case vat => exact Nat.mod_lt _ (by rcases hV with rfl | rfl | rfl <;> decide)
  case address =>
    have he : x % 2 ^ 10 < 1024 := Nat.mod_lt _ (by decide)
    have ho : (x / 2 ^ 24 / V % 192 + 37 * (x / 2 ^ 24 / V / 192)) % 192 < 192 := Nat.mod_lt _ (by decide)
    simp only [interleaved]
    omega
  case inverse =>
    have hwindow := windowOf_parts (V := V) (v := x / 2 ^ 24 % V) (o := (x / 2 ^ 24 / V % 192 + 37 * (x / 2 ^ 24 / V / 192)) % 192) hj hp hr
      (Nat.mod_lt x (by decide : 0 < 2 ^ 10))
    rw [unrotate hp, hrb, unswizzle] at hwindow
    refine hwindow.trans ?_
    simp only [bitsAt, Nat.shiftRight_eq_div_pow]
    rcases hV with rfl | rfl | rfl <;> omega

/-! ### Words of DRAM -/

/-- With no takeover a store goes to the one bank behind the index. -/
theorem storeAt_word {k : Chip} {v p : Nat} (dr : Dram) (bs : List Byte) (bad : Bool) (hp : p % 32 = 0)
    (ht : (k.die v (bankAddr p).die).takeover = none) : k.storeAt dr v p bs bad = dr.putEither (k.dramAt v p) bs bad := by
  have hbyte : (bankAddr p).byte / 32 * 32 = (bankAddr p).byte := by
    simp only [bankAddr]
    omega
  simp only [Chip.storeAt, Chip.writePlaces, ht, hbyte, List.foldl_cons, List.foldl_nil]
  rfl

theorem take_word {bs : List Byte} (n : bs.length = 32) : bs.take 32 = bs := List.take_of_length_le (Nat.le_of_eq n)

theorem bytes_storeRun_same {dr : Dram} {a : Nat} {bs : List Byte} (m : List (Nat × List (Nat × Nat))) (h : Memory.wf dr = true)
    (n : bs.length = 32) :
    Dram.bytes { cells := storeRun 0 dr.cells a bs, marks := m } a 32 = bs := by
  have hrun := lookupRun_storeRun 0 bs dr.cells a ((wf_parts dr).mp h).1
  rwa [n] at hrun

theorem word_putMarked {dr : Dram} {a : Nat} {bs : List Byte} (h : Memory.wf dr = true) (n : bs.length = 32) :
    (dr.putMarked a bs).word a = { bytes := bs, res := .poisoned, syms := [] } := by
  have hm : lookup [] (store [] dr.marks (a / 32) poisonMark) (a / 32) = poisonMark := lookup_store_same [] dr.marks _ _ ((wf_parts dr).mp h).2
  have hdec : decodePattern poisonMark = (.poisoned, []) := by decide
  simp only [Dram.word, Dram.putMarked, take_word n, bytes_storeRun_same _ h n, hm, hdec]
  rfl

/-- A word elsewhere reads as before. -/
theorem word_putWord_other {dr : Dram} {a b : Nat} {bs : List Byte} (n : bs.length = 32) (ha : a % 32 = 0) (hb : b % 32 = 0) (hne : b ≠ a) :
    (dr.putWord a bs).word b = dr.word b := by
  have hbytes : (dr.putWord a bs).bytes b 32 = dr.bytes b 32 := by
    simp only [Dram.bytes, lookupRun]
    refine List.map_congr_left (fun i hi => ?_)
    have hi' := List.mem_range.mp hi
    exact byte_putWord_other dr a (b + i) bs n (by omega)
  have hmark : lookup [] (dr.putWord a bs).marks (b / 32) = lookup [] dr.marks (b / 32) :=
    lookup_store_other [] dr.marks (a / 32) (b / 32) [] (by omega)
  simp only [Dram.word, hbytes, hmark]

/-! ### The decoder -/

section Decoder

variable {dr : Dram} {a : Nat} {p : List (Nat × Nat)} (hp : lookup [] dr.marks (a / 32) = p)
include hp

theorem word_decoded {r : EccResult} {q : List (Nat × Nat)} (hd : decodePattern p = (r, q)) :
    (dr.word a).res = r ∧ (dr.word a).bytes = if r = .ce then xorPattern (dr.bytes a 32) q else dr.bytes a 32 := by
  simp only [Dram.word, hp, hd, and_self]

theorem word_clean (h : p = []) : (dr.word a).res = .clean ∧ (dr.word a).bytes = dr.bytes a 32 :=
  word_decoded hp (q := []) (by rw [h]; decide)

theorem word_corrected (hne : p ≠ []) (hlen : p.length ≤ 2) (hall : ∀ e ∈ p, e.1 < 36) :
    (dr.word a).res = .ce ∧ (dr.word a).bytes = xorPattern (dr.bytes a 32) p := by
  have hclass : classOf p = .ce := by
    rw [classOf, if_neg hne, if_pos (List.all_eq_true.mpr (fun e he => decide_eq_true (hall e he)))]
  exact word_decoded hp (by rw [decodePattern, if_pos hlen, hclass])

theorem word_misaddressed (hlen : p.length ≤ 2) (hex : ∃ e ∈ p, 36 ≤ e.1) : (dr.word a).res = .misaddr ∧ (dr.word a).bytes = dr.bytes a 32 := by
  obtain ⟨e, he, h36⟩ := hex
  have hclass : classOf p = .misaddr := by
    rw [classOf, if_neg (List.ne_nil_of_mem he), if_neg]
    intro hall
    exact absurd (of_decide_eq_true (List.all_eq_true.mp hall e he)) (Nat.not_lt.mpr h36)
  exact word_decoded hp (by rw [decodePattern, if_pos hlen, hclass])

theorem word_poisoned (h : p = poisonMark) : (dr.word a).res = .poisoned := (word_decoded hp (r := .poisoned) (q := []) (by rw [h]; decide)).1

end Decoder

/-- A pattern of one data symbol, applied twice. -/
theorem xorPattern_twice {bs : List Byte} {e : Nat × Nat} (he : e.1 < 32) (n : bs.length = 32) : xorPattern (xorPattern bs [e]) [e] = bs := by
  have hlt : e.1 < bs.length := by omega
  simp only [xorPattern, List.foldl_cons, List.foldl_nil, he, if_true, List.set_set]
  have hget : (bs.set e.1 (bs.getD e.1 0 ^^^ BitVec.ofNat 8 e.2)).getD e.1 0 = bs.getD e.1 0 ^^^ BitVec.ofNat 8 e.2 := by
    rw [List.getD_eq_getElem?_getD, List.getElem?_set_self hlt, Option.getD_some]
  rw [hget, BitVec.xor_assoc, BitVec.xor_self, BitVec.xor_zero, List.getD_eq_getElem _ _ hlt, List.set_getElem_self]

/-- A word stored with an error in one data symbol is read corrected. -/
theorem word_putPattern_one {dr : Dram} {a : Nat} {bs : List Byte} {e : Nat × Nat} (h : Memory.wf dr = true) (n : bs.length = 32) (he : e.1 < 32) :
    ((dr.putPattern a bs [e]).word a).res = .ce ∧ ((dr.putPattern a bs [e]).word a).bytes = bs := by
  have hm : lookup [] (dr.putPattern a bs [e]).marks (a / 32) = [e] :=
    lookup_store_same [] dr.marks (a / 32) [e] ((wf_parts dr).mp h).2
  obtain ⟨hres, hbytes⟩ := word_corrected hm (List.cons_ne_nil e []) (Nat.le_succ 1) (fun x hx => by rw [List.mem_singleton.mp hx]; omega)
  refine ⟨hres, hbytes.trans ?_⟩
  have hraw : (dr.putPattern a bs [e]).bytes a 32 = xorPattern bs [e] := by
    rw [Dram.putPattern, take_word n]
    exact bytes_storeRun_same _ h ((xorPattern_length bs [e]).trans n)
  rw [hraw, xorPattern_twice he n]

/-- Settles O37: a store without a takeover is one `putEither`, and the decoder's result is that of the stored pattern. -/
theorem storedWordsReadBackCorrected : Obligations.StoredWordsReadBackCorrected := by
  unfold Obligations.StoredWordsReadBackCorrected
  refine ⟨?store, ?decoder⟩
  case store =>
    intro k dr v p bs h n hp ht
    simp only [storeAt_word dr bs _ hp ht, Dram.putEither, if_true, Bool.false_eq_true, if_false]
    exact ⟨word_putWord dr _ bs h n, word_putMarked h n, fun a ha => byte_putWord_other dr _ a bs n ha,
      fun a ha hne hat => word_putWord_other n hat ha hne⟩
  case decoder =>
    intro dr a p hp
    exact ⟨word_clean hp, word_corrected hp, word_misaddressed hp, word_poisoned hp, fun bs e h n _ he _ _ => word_putPattern_one h n he⟩

end Sys2Proof.Proofs
end

section
/-!
PROOFS. Pumping a port (O58): `Pumped` says what becomes of the waiting flits and of the port, by induction over the flits.
-/

namespace Sys2Proof.Proofs

open Sys2Proof.Machine Sys2Proof.Safety Sys2Proof.Laws

theorem sum_set_add (l : List Nat) (i y : Nat) (h : i < l.length) : (l.set i y).sum + l.getD i 0 = l.sum + y := by
  induction l generalizing i with
  | nil => cases h
  | cons a l ih =>
    cases i with
    | zero => simp only [List.set_cons_zero, List.sum_cons, List.getD_cons_zero]; omega
    | succ i =>
      have := ih i (Nat.lt_of_succ_lt_succ h)
      simp only [List.set_cons_succ, List.sum_cons, List.getD_cons_succ]
      omega

/-- A flit's leaving takes one credit of its channel. -/
theorem leave_credits_sum {x : Port} {f : DataOut} (hf : f.channel < x.credits.length) (hc : 0 < x.credits.getD f.channel 0) :
    (x.leave f).credits.sum + 1 = x.credits.sum := by
  have := sum_set_add x.credits f.channel (x.credits.getD f.channel 0 - 1) hf
  simp only [Port.leave, setAt]
  omega

theorem leave_credits_le (x : Port) (f : DataOut) (c : Nat) : (x.leave f).credits.getD c 0 ≤ x.credits.getD c 0 := by
  simp only [Port.leave, setAt, List.getD_eq_getElem?_getD, List.getElem?_set]
  split
  · rename_i he
    subst he
    split
    · exact Nat.sub_le _ _
    · exact Nat.zero_le _
  · exact le_rfl

theorem mayLeave_iff (x : Port) (f : DataOut) :
    x.mayLeave f = true ↔ 0 < x.credits.getD f.channel 0 ∧ x.replay.length < 1024 ∧ x.txKeyed < 2 ^ 40 := by
  simp only [Port.mayLeave, Bool.and_eq_true, decide_eq_true_eq, and_assoc]

/-- What pumping the flits `l` from port `x` comes to, `n` flits having left before. -/
structure Pumped (l : List DataOut) (x : Port) (n : Nat) (r : Port × Nat) : Prop where
  count : r.2 + r.1.txWait.length = n + l.length
  more : n ≤ r.2
  waits : r.1.txWait.Sublist l
  creditSum : r.1.credits.sum + r.2 = x.credits.sum + n
  credit : ∀ c, r.1.credits.getD c 0 ≤ x.credits.getD c 0
  seq : r.1.txSeq = (x.txSeq + (r.2 - n)) % 2 ^ 16
  keyed : r.1.txKeyed = x.txKeyed + (r.2 - n)
  replay : ∃ out, r.1.replay = x.replay ++ out ∧ out.length = r.2 - n ∧ out.Sublist l
  room : x.replay.length ≤ 1024 → r.1.replay.length ≤ 1024
  left : x.txKeyed ≤ 2 ^ 40 → r.1.txKeyed ≤ 2 ^ 40
  stay : ∀ f, f ∈ r.1.txWait → r.1.mayLeave f = false
  rest : r.1 = { x with txSeq := r.1.txSeq, replay := r.1.replay, credits := r.1.credits, txKeyed := r.1.txKeyed, txWait := r.1.txWait }

/-- A flit that leaves goes ahead of those behind it. -/
theorem Pumped.leave {l : List DataOut} {x : Port} {n : Nat} {f : DataOut} {r : Port × Nat} (h : Pumped l (x.leave f) (n + 1) r)
    (hf : f.channel < x.credits.length) (hgo : x.mayLeave f = true) : Pumped (f :: l) x n r := by
  obtain ⟨hc, hr, hk⟩ := (mayLeave_iff x f).mp hgo
  obtain ⟨out, hout, hlen, hsub⟩ := h.replay
  have hsum := leave_credits_sum hf hc
  have hcount := h.count
  have hmore := h.more
  have hcredits := h.creditSum
  have hseq : r.1.txSeq = ((x.txSeq + 1) % 2 ^ 16 + (r.2 - (n + 1))) % 2 ^ 16 := h.seq
  have hkeyed : r.1.txKeyed = x.txKeyed + 1 + (r.2 - (n + 1)) := h.keyed
  refine ⟨?_, by omega, h.waits.trans (List.sublist_cons_self f l), by omega, fun c => (h.credit c).trans (leave_credits_le x f c), by omega,
    by omega,
    ⟨f :: out, ?_, ?_, hsub.cons_cons f⟩, fun _ => h.room ?_, fun _ => h.left ?_, h.stay, h.rest⟩
  · rw [List.length_cons]; omega
  · rw [hout]; simp only [Port.leave, List.append_assoc, List.cons_append, List.nil_append]
  · rw [List.length_cons]; omega
  · simp only [Port.leave, List.length_append, List.length_cons, List.length_nil]; omega
  · exact Nat.succ_le_of_lt hk

/-- A flit that may not leave stays ahead of those behind it, and may not leave later either. -/
theorem Pumped.wait {l : List DataOut} {x : Port} {n : Nat} {f : DataOut} {r : Port × Nat} (h : Pumped l x n r) (hstay : x.mayLeave f = false) :
    Pumped (f :: l) x n ({ r.1 with txWait := f :: r.1.txWait }, r.2) := by
  obtain ⟨out, hout, hlen, hsub⟩ := h.replay
  have hcount := h.count
  refine ⟨?_, h.more, h.waits.cons_cons f, h.creditSum, h.credit, h.seq, h.keyed, ⟨out, hout, hlen, hsub.trans (List.sublist_cons_self f l)⟩,
    h.room, h.left, ?_, ?_⟩
  · simp only [List.length_cons]; omega
  · intro g hg
    rcases List.mem_cons.mp hg with rfl | hg
    · refine Bool.eq_false_iff.mpr (fun hgo => ?_)
      obtain ⟨hc, hr, hk⟩ := (mayLeave_iff _ g).mp hgo
      have hkeyed := h.keyed
      have hcredit := h.credit g.channel
      have hreplay : x.replay.length ≤ r.1.replay.length := by rw [hout, List.length_append]; exact Nat.le_add_right _ _
      have hgo' : x.mayLeave g = true := (mayLeave_iff x g).mpr ⟨Nat.lt_of_lt_of_le hc hcredit, Nat.lt_of_le_of_lt hreplay hr, by
        have : r.1.txKeyed < 2 ^ 40 := hk
        omega⟩
      rw [hstay] at hgo'
      cases hgo'
    · exact h.stay g hg
  · have hrest := h.rest
    rw [hrest]

theorem pump_pumped (l : List DataOut) (x : Port) (n : Nat) (hw : x.txWait = []) (hs : x.txSeq < 2 ^ 16)
    (hl : ∀ f, f ∈ l → f.channel < x.credits.length) : Pumped l x n (Port.pump l x n) := by
  induction l generalizing x n with
  | nil =>
    refine ⟨by simp only [Port.pump, hw], le_rfl, by simp only [Port.pump, hw]; exact List.Sublist.refl _, rfl, fun _ => le_rfl, ?_,
      by simp [Port.pump],
      ⟨[], by simp [Port.pump], by simp [Port.pump], List.Sublist.refl _⟩, id, id, fun f hf => ?_, rfl⟩
    · simp only [Port.pump, Nat.sub_self, Nat.add_zero]
      exact (Nat.mod_eq_of_lt hs).symm
    · simp only [Port.pump, hw, List.not_mem_nil] at hf
  | cons f l ih =>
    have hrest : ∀ g, g ∈ l → g.channel < x.credits.length := fun g hg => hl g (List.mem_cons_of_mem f hg)
    by_cases hgo : x.mayLeave f = true
    · have hlen : (x.leave f).credits.length = x.credits.length := by simp only [Port.leave, setAt, List.length_set]
      rw [Port.pump, if_pos hgo]
      exact (ih (x.leave f) (n + 1) hw (Nat.mod_lt _ (by decide)) (fun g hg => hlen ▸ hrest g hg)).leave (hl f List.mem_cons_self) hgo
    · rw [Port.pump, if_neg hgo]
      exact (ih x n hw hs hrest).wait (Bool.eq_false_iff.mpr hgo)

/-- Settles O58: the parts of `Pumped`. -/
theorem pumpingSpendsCredits : Obligations.PumpingSpendsCredits := by
  unfold Obligations.PumpingSpendsCredits
  intro l x n hw hs hl r sent
  have h := pump_pumped l x n hw hs hl
  exact ⟨h.count, h.waits, h.creditSum, h.seq, h.keyed, h.replay, h.room, h.left, h.stay, h.rest⟩

end Sys2Proof.Proofs
end

section
/-!
PROOFS. The error log (O55). A new entry ends in an event record and messages, which leave the ring and what is owed: `entryNoted` is the chip before
those.
-/

namespace Sys2Proof.Proofs

open Sys2Proof.Machine Sys2Proof.Safety Sys2Proof.Laws

/-! ### Finding an entry by its index -/

theorem find?_insert_same {α : Type} (t : List (Nat × α)) (i : Nat) (x : α) : (Machine.insert t i x).find? (fun e => e.1 = i) = some (i, x) := by
  induction t with
  | nil => simp [Machine.insert]
  | cons p t ih =>
    obtain ⟨j, y⟩ := p
    unfold Machine.insert
    split
    · simp
    · split
      · rename_i he
        simp [he]
      · rename_i hne
        rw [List.find?_cons_of_neg (by simpa using fun h : j = i => hne h.symm)]
        exact ih

theorem find?_insert_other {α : Type} (t : List (Nat × α)) {i j : Nat} (x : α) (h : j ≠ i) :
    (Machine.insert t i x).find? (fun e => e.1 = j) = t.find? (fun e => e.1 = j) := by
  have hne : ∀ y : α, ¬ (decide ((i, y).1 = j)) = true := fun y => by simpa using fun he : i = j => h he.symm
  induction t with
  | nil => simp [Machine.insert, Ne.symm h]
  | cons p t ih =>
    obtain ⟨m, y⟩ := p
    unfold Machine.insert
    split
    · exact List.find?_cons_of_neg (hne x)
    · split
      · rename_i he
        subst he
        simp only [List.find?_cons, decide_eq_false (Ne.symm h)]
      · by_cases hm : m = j
        · rw [List.find?_cons_of_pos (by simpa using hm), List.find?_cons_of_pos (by simpa using hm)]
        · rw [List.find?_cons_of_neg (by simpa using hm), List.find?_cons_of_neg (by simpa using hm), ih]

/-! ### A new entry -/

section NewEntry

variable (k : Chip) (o : LogOcc)

/-- The log is full: LOG_WI stands one before LOG_RI. -/
def logFull : Prop := (k.getF Reg.logWi 11 0 + 1) % 4096 = k.getF Reg.logRi 11 0

/-- The chip with a new entry in the ring and LOG_WI moved on, before it is told of. -/
def entryNoted : Chip :=
  (k.setF Reg.logWi 11 0 (k.getF Reg.logWi 11 0 + 1)).onLog (fun l => { l with
    ring := Machine.insert l.ring (k.getF Reg.logWi 11 0) { first := o, count := 1, last := o.time }
    recent := (k.getF Reg.logWi 11 0 :: l.recent.filter (· ≠ k.getF Reg.logWi 11 0)).take 64
    owed := l.owed || decide ((k.setF Reg.logWi 11 0 (k.getF Reg.logWi 11 0 + 1)).getF Reg.logCfg 1 0 ≤ o.sev) })

theorem newEntry_full (h : logFull k) : k.newEntry o = (k.satAdd (Reg.logOvf o.cls) 15 0 1).raise Reg.logStatus 31 := if_pos h

/-- The registers in which a new entry is told of. -/
def toldIn (r : Nat) : Prop := r = Reg.hubEvent ∨ r = Reg.msixPba

/-- A new entry in a log with room is told of by an event and, for some classes, by another message. -/
theorem newEntry_room (h : ¬ logFull k) :
    k.newEntry o = ((entryNoted k o).addEvent o).event 16 ∨ ∃ n, k.newEntry o = (((entryNoted k o).addEvent o).event 16).msix n := by
  have hnew : k.newEntry o = if [0x30, 0x31, 0x32, 0x34].contains o.cls then (((entryNoted k o).addEvent o).event 16).msix 20
      else if 0x50 ≤ o.cls && o.cls ≤ 0x56 then (((entryNoted k o).addEvent o).event 16).msix 21
      else ((entryNoted k o).addEvent o).event 16 := if_neg h
  rw [hnew]
  split
  · exact .inr ⟨20, rfl⟩
  · split
    · exact .inr ⟨21, rfl⟩
    · exact .inl rfl

theorem addEvent_regsOnly (named : Nat → Prop) : regsOnly k (k.addEvent o) named := by
  unfold Chip.addEvent
  split
  · exact .refl
  · exact regsOnly.refl.onHub _

theorem addEvent_log : (k.addEvent o).hub.log.ring = k.hub.log.ring ∧ (k.addEvent o).hub.log.owed = k.hub.log.owed := by
  unfold Chip.addEvent
  split
  · exact ⟨rfl, rfl⟩
  · unfold Chip.onLog Chip.onHub
    dsimp only
    split <;> exact ⟨rfl, rfl⟩

theorem newEntry_told (h : ¬ logFull k) : regsOnly (entryNoted k o) (k.newEntry o) toldIn ∧
    (k.newEntry o).hub.log.ring = (entryNoted k o).hub.log.ring ∧ (k.newEntry o).hub.log.owed = (entryNoted k o).hub.log.owed := by
  obtain ⟨hring, howed⟩ := addEvent_log (entryNoted k o) o
  have hregs : regsOnly (entryNoted k o) (((entryNoted k o).addEvent o).event 16) toldIn :=
    (addEvent_regsOnly (entryNoted k o) o toldIn).raise 16 (.inl rfl)
  rcases newEntry_room k o h with he | ⟨n, he⟩
  · rw [he]
    exact ⟨hregs, hring, howed⟩
  · obtain ⟨out, hout⟩ := msix_hub (((entryNoted k o).addEvent o).event 16) n
    rw [he, hout]
    exact ⟨hregs.trans (msix_regsOnly _ n), hring, howed⟩

theorem logWi_not_told : ¬ toldIn Reg.logWi := by
  simp only [toldIn, Reg.logWi, Reg.hubEvent, Reg.msixPba]
  omega

end NewEntry

theorem logCfg_ne_logWi : Reg.logCfg ≠ Reg.logWi := by decide

theorem logOvf_ne {n : Nat} : Reg.logOvf n ≠ Reg.logWi ∧ Reg.logOvf n ≠ Reg.logStatus := by
  simp only [Reg.logOvf, Reg.logWi, Reg.logStatus]
  omega

section Ends

variable {k : Chip} {o : LogOcc}

theorem newEntry_full_counts (h : logFull k) :
    (k.newEntry o).hub.log = k.hub.log ∧ (k.newEntry o).getF Reg.logWi 11 0 = k.getF Reg.logWi 11 0 ∧
    (k.newEntry o).flag Reg.logStatus 31 = true ∧
    (k.newEntry o).getF (Reg.logOvf o.cls) 15 0 = min 65535 (k.getF (Reg.logOvf o.cls) 15 0 + 1) := by
  rw [newEntry_full k o h]
  refine ⟨rfl, ?_, flag_raise_same _ _ _ (by decide), ?_⟩
  · rw [Chip.raise, getF_setF_register _ _ _ _ _ _ _ _ (by decide), Chip.satAdd, getF_setF_register _ _ _ _ _ _ _ _ logOvf_ne.1.symm]
  · rw [Chip.raise, getF_setF_register _ _ _ _ _ _ _ _ logOvf_ne.2, Chip.satAdd, getF_setF_same _ _ _ _ _ (by decide) (by decide)]
    exact Nat.mod_eq_of_lt (Nat.lt_of_le_of_lt (Nat.min_le_left _ _) (by decide))

theorem newEntry_room_goes (h : ¬ logFull k) :
    (k.newEntry o).getF Reg.logWi 11 0 = (k.getF Reg.logWi 11 0 + 1) % 4096 ∧
    ((k.newEntry o).hub.log.ring.find? (fun e => e.1 = k.getF Reg.logWi 11 0)).map (fun e => e.2) = some { first := o, count := 1, last := o.time } ∧
    (∀ j, j ≠ k.getF Reg.logWi 11 0 → (k.newEntry o).hub.log.ring.find? (fun e => e.1 = j) = k.hub.log.ring.find? (fun e => e.1 = j)) ∧
    (k.newEntry o).hub.log.owed = (k.hub.log.owed || decide (k.getF Reg.logCfg 1 0 ≤ o.sev)) := by
  obtain ⟨hregs, hring, howed⟩ := newEntry_told k o h
  refine ⟨?_, ?_, fun j hj => ?_, ?_⟩
  · rw [hregs.getF 11 0 logWi_not_told]
    exact getF_setF_same _ _ _ _ _ (by decide) (by decide)
  · rw [hring]
    exact congrArg (Option.map (fun e => e.2)) (find?_insert_same k.hub.log.ring _ _)
  · rw [hring]
    exact find?_insert_other k.hub.log.ring _ hj
  · rw [howed, ← getF_setF_register k Reg.logWi Reg.logCfg 11 0 (k.getF Reg.logWi 11 0 + 1) 1 0 logCfg_ne_logWi]
    rfl

theorem newEntry_unitsKept : unitsKept k (k.newEntry o) := by
  by_cases h : logFull k
  · rw [newEntry_full k o h]
    exact ⟨rfl, rfl, rfl, rfl⟩
  · exact (newEntry_told k o h).1.2

/-- An occurrence that coalesces, its bank not under suppression. -/
theorem writeLog_again {e : Nat × LogEntry} (hm : k.logMatch o = some e)
    (hs : ¬ (o.cls = 0x01 ∧ k.flag (Reg.buEccState o.vat o.die o.phys) 0 = true)) :
    k.writeLog o = k.onLog (fun l => { l with ring := Machine.insert l.ring e.1 { e.2 with count := min 0xFFFF (e.2.count + 1), last := o.time } }) := by
  unfold Chip.writeLog
  rw [if_neg hs]
  simp only [Chip.logAgain, hm, Option.map_some]

end Ends

theorem exec_logEntryWrite {s : State} (h : live s true) : exec .logEntryWrite s = .next (withK s (match s.k.hub.logQ with
    | [] => s.k
    | o :: rest => (s.k.onHub (fun h => { h with logQ := rest })).writeLog o)) := by
  change execLogEntryWrite s = _
  unfold execLogEntryWrite
  exact (onChip_live _ h).trans rfl

/-- The gap since the last message has passed (R706). -/
def gapPassed (k : Chip) : Bool :=
  match k.hub.log.sentAt with
  | none => true
  | some t => t + 1000 * k.getF Reg.logCfg 31 16 ≤ k.now

theorem exec_logIrq {s : State} (h : live s true) : exec .logIrq s = .next (withK s (if s.k.hub.log.owed && gapPassed s.k then
    (s.k.onLog (fun l => { l with owed := false, sentAt := some s.k.now })).msixSend 16 else s.k)) := by
  change execLogIrq s = _
  unfold execLogIrq
  exact (onChip_live _ h).trans rfl

/-- Settles O55: the two commands by their equations, and a new entry by whether the log has room. -/
theorem logEntriesGoAtTheIndex : Obligations.LogEntriesGoAtTheIndex := by
  unfold Obligations.LogEntriesGoAtTheIndex
  refine ⟨?commands, ?entries⟩
  case commands =>
    intro s h k
    refine ⟨fun hq => ?_, fun o rest hq => ?_, fun howed => ?_, fun howed hgap => ?_, fun t ht hgap => ?_⟩
    · rw [exec_logEntryWrite h, hq]
      rfl
    · rw [exec_logEntryWrite h, hq]
    · rw [exec_logIrq h, howed, Bool.false_and, if_neg Bool.false_ne_true]
      rfl
    · have hpassed : gapPassed s.k = true := by
        unfold gapPassed
        split
        · rfl
        · rename_i t ht
          exact decide_eq_true (hgap t ht)
      rw [exec_logIrq h, howed, hpassed, Bool.and_self, if_pos rfl]
    · have hpassed : gapPassed s.k = false := by
        unfold gapPassed
        rw [show s.k.hub.log.sentAt = some t from ht]
        exact decide_eq_false (Nat.not_le.mpr hgap)
      rw [exec_logIrq h, hpassed, Bool.and_false, if_neg Bool.false_ne_true]
      rfl
  case entries =>
    intro k o _ i full k'
    exact ⟨newEntry_full_counts, newEntry_room_goes, fun e hm hs => writeLog_again hm hs, fun hc hf => if_pos ⟨hc, hf⟩, newEntry_unitsKept⟩

end Sys2Proof.Proofs
end

section
/-!
PROOFS. Reads of BAR0 (O49).
-/

namespace Sys2Proof.Proofs

open Sys2Proof.Machine Sys2Proof.Safety Sys2Proof.Laws

section Reads

variable {k : Chip} {p : Part} {a n : Nat}

theorem barRead_lost (h : k.lostBlock p.vats a = true) : k.barRead p a n = k.answer (.bytes 0 (List.replicate n 0)) := by
  have hans : k.barAnswer p a n = k.answer (.bytes 0 (List.replicate n 0)) := if_pos h
  unfold Chip.barRead
  split
  · rw [if_pos h, hans]
  · exact hans

theorem barRead_asleep {v : Nat} (hl : k.lostBlock p.vats a = false) (h : k.sleeper p.vats a = some v) :
    k.barRead p a n = (k.holdBar { vat := v, offset := a, size := n, write := false, full := true, value := 0 }).answer .none := by
  simp only [Chip.barRead, h, hl, Bool.false_eq_true, if_false]

theorem barRead_awake (hl : k.lostBlock p.vats a = false) (h : k.sleeper p.vats a = none) :
    k.barRead p a n = if readFits p.vats a n then k.answer (.bytes 0 ((List.range n).map (fun i => k.barByte p (a + i))))
      else (k.badAccess false a).answer (.bytes 0 (List.replicate n 0)) := by
  simp only [Chip.barRead, Chip.barAnswer, h, hl, Bool.false_eq_true, if_false]

end Reads

theorem exec_bar0Read {s : State} {o : BitVec 28} {n : Nat} {c : Instr} (h : live s true) (hc : c = .bar0ReadRefused o n ∨ c = .bar0ReadWake o n) :
    exec c s = .next (withK s (s.k.barRead s.part o.toNat n)) := by
  rcases hc with rfl | rfl
  · change execBar0ReadRefused o n s = _
    unfold execBar0ReadRefused
    rw [onChip_live _ h]
  · change execBar0ReadWake o n s = _
    unfold execBar0ReadWake
    rw [onChip_live _ h]

/-- A flag that is written reads so. -/
theorem flag_setF_bit (k : Chip) (o i : Nat) (b : Bool) (h : i < 64) : (k.setF o i i b.toNat).flag o i = b := by
  rw [Chip.flag, getF_setF_same k o i i _ h le_rfl]
  cases b <;> simp

section BadAccess

variable {k : Chip} {a : Nat}

theorem badAccess_first (h : k.flag Reg.hubBadAccess 31 = false) (ha : a < 2 ^ 28) :
    (k.badAccess false a).flag Reg.hubBadAccess 31 = true ∧ (k.badAccess false a).flag Reg.hubBadAccess 30 = false ∧
    (k.badAccess false a).getF Reg.hubBadAccess 27 0 = a := by
  have hbad : k.badAccess false a = ((k.setF Reg.hubBadAccess 30 30 false.toNat).setF Reg.hubBadAccess 27 0 a).raise Reg.hubBadAccess 31 :=
    if_neg (by rw [h]; exact Bool.false_ne_true)
  rw [hbad]
  refine ⟨flag_raise_same _ _ _ (by decide), ?_, ?_⟩
  · rw [Chip.raise, flag_setF_other _ _ _ _ _ _ (by decide) le_rfl (by decide), flag_setF_other _ _ _ _ _ _ (by decide) (by decide) (by decide)]
    exact flag_setF_bit k _ 30 false (by decide)
  · rw [getF_raise_other _ _ _ _ _ (by decide) (by decide), getF_setF_same _ _ _ _ _ (by decide) (by decide)]
    exact Nat.mod_eq_of_lt ha

theorem badAccess_again (h : k.flag Reg.hubBadAccess 31 = true) :
    (k.badAccess false a).getF Reg.hubBadAccess 27 0 = k.getF Reg.hubBadAccess 27 0 ∧ (k.badAccess false a).flag Reg.hubBadAccess 29 = true := by
  rw [show k.badAccess false a = k.raise Reg.hubBadAccess 29 from if_pos h]
  exact ⟨getF_raise_other _ _ _ _ _ (by decide) (by decide), flag_raise_same _ _ _ (by decide)⟩

end BadAccess

section Hold

variable {k : Chip} {v : Nat}

theorem sleeper_asleep {V a : Nat} (hv : v < V) (hp : (k.vat v).power = .asleep) (ha : a / 0x1000000 = v + 1) : k.sleeper V a = some v := by
  have hat : vatOfOffset V a = some v := by
    have hge : 0x1000000 ≤ a := by omega
    have hsub : a / 0x1000000 - 1 = v := by omega
    simp only [vatOfOffset, hsub, hge, hv, and_self, if_true]
  simp only [Chip.sleeper, hat, hp, reduceCtorEq, if_false]

@[simp] theorem count_vat (k : Chip) (o n v : Nat) : (k.count o n).vat v = k.vat v := by
  simp only [Chip.count]; split <;> rfl

theorem wake_asleep (hp : (k.vat v).power = .asleep) : k.wake v = (k.setPower v .waking).count (Reg.vatWakes v) 1 := by
  simp only [Chip.wake, hp]

theorem wake_hub (k : Chip) (v : Nat) : (k.wake v).hub = k.hub := by
  unfold Chip.wake
  split
  · rw [count_hub, setPower_hub]
  · rw [count_hub, setPower_hub]
  · rfl
  · rfl

theorem vatPwr_ne_vatWakes (v : Nat) : Reg.vatPwr v ≠ Reg.vatWakes v := by
  simp only [Reg.vatPwr, Reg.vatWakes]
  omega

theorem getF_count_register {o o' : Nat} (k : Chip) (n hi lo : Nat) (h : o' ≠ o) : (k.count o n).getF o' hi lo = k.getF o' hi lo := by
  rw [Chip.getF, count_reg_other k o n o' h, Chip.getF]

theorem wake_waking (hp : (k.vat v).power = .asleep) : ((k.wake v).vat v).power = .waking ∧ (k.wake v).getF (Reg.vatPwr v) 31 30 = 3 := by
  rw [wake_asleep hp]
  refine ⟨?_, ?_⟩
  · rw [count_vat]
    exact congrArg Vat.power (vat_setVat_same k v _)
  · rw [getF_count_register _ _ _ _ (vatPwr_ne_vatWakes v)]
    exact getF_setF_same _ _ _ _ _ (by decide) (by decide)

end Hold

/-- Settles O49: the read by the state of its block, the record of bad accesses, and the wake of a sleeping vat. -/
theorem bar0ReadsAnswer : Obligations.Bar0ReadsAnswer := by
  unfold Obligations.Bar0ReadsAnswer
  intro s o n h V a zeros k
  refine ⟨fun c hc => ⟨fun hl => ?_, fun hl => ⟨fun v hs => ?_, fun hs hf => ?_, fun hs hf => ?_⟩⟩, fun hf => badAccess_first hf o.isLt,
    badAccess_again, fun v q hv hp ha => ⟨sleeper_asleep hv hp ha, ?_, ?_⟩⟩
  · rw [exec_bar0Read h hc, barRead_lost hl]
    rfl
  · rw [exec_bar0Read h hc, barRead_asleep hl hs]
    rfl
  · rw [exec_bar0Read h hc, barRead_awake hl hs, if_neg (by rw [hf]; exact Bool.false_ne_true)]
    rfl
  · rw [exec_bar0Read h hc, barRead_awake hl hs, if_pos hf]
    rfl
  · exact congrArg (fun hub : Hub => hub.barQ ++ [q]) (wake_hub k q.vat)
  · rintro rfl
    exact wake_waking hp

end Sys2Proof.Proofs
end

section
/-!
PROOFS. The arbiter's tick, the sensors' sample and the TSV lanes (O54): one step of a vat's mode and limit writes that vat's registers alone,
and what
each of its branches leaves is the mode and the limit that it names.
-/

namespace Sys2Proof.Proofs

open Sys2Proof.Machine Sys2Proof.Safety Sys2Proof.Laws

/-! ### The registers of a vat's mode and limit -/

/-- VAT_PWR of a vat, and the registers of its cores that follow its mode and limit. -/
def arbiterReg (v o : Nat) : Prop := o = Reg.vatPwr v ∨ ∃ c, o = Reg.coreClock v c ∨ o = Reg.corePressIssue v c

theorem vatPwr_ne_coreClock {u : Nat} (_ : u < 8) (v c : Nat) : Reg.vatPwr u ≠ Reg.coreClock v c := by
  simp only [Reg.vatPwr, Reg.coreClock, coreBase, vatBase]
  omega

theorem vatPwr_ne_corePressIssue {u : Nat} (_ : u < 8) (v c : Nat) : Reg.vatPwr u ≠ Reg.corePressIssue v c := by
  simp only [Reg.vatPwr, Reg.corePressIssue, coreBase, vatBase]
  omega

theorem not_arbiterReg_vatPwr {u v : Nat} (h : u < 8) (hne : u ≠ v) : ¬ arbiterReg v (Reg.vatPwr u) := by
  rintro (he | ⟨c, he | he⟩)
  · simp only [Reg.vatPwr] at he
    omega
  · exact vatPwr_ne_coreClock h v c he
  · exact vatPwr_ne_corePressIssue h v c he

/-- Fields of one register each, written one after another, change those registers alone. -/
theorem foldl_setF_regsOnly {named : Nat → Prop} (f : Nat → Nat) (hi lo n : Nat) (hf : ∀ c, named (f c)) (l : List Nat) {k k' : Chip}
    (h : regsOnly k k' named) : regsOnly k (l.foldl (fun k c => k.setF (f c) hi lo n) k') named := by
  induction l generalizing k' with
  | nil => exact h
  | cons c l ih => exact ih (h.setF hi lo n (hf c))

/-- What an arbiter's step has left of vat `v`: limit `l` and mode `m`, every register of another unit and every unit as before. -/
structure Adjusted (v : Nat) (k k' : Chip) (l m : Nat) : Prop where
  limit : k'.limitOf v = l
  mode  : k'.getF (Reg.vatPwr v) 29 28 = m
  rest  : regsOnly k k' (arbiterReg v)

section Steps

variable {v l m : Nat} {k k' : Chip}

theorem Adjusted.refl : Adjusted v k k (k.limitOf v) (k.getF (Reg.vatPwr v) 29 28) := ⟨rfl, rfl, regsOnly.refl⟩

/-- A mode written: the limit stays. -/
theorem Adjusted.setMode (h : Adjusted v k k' l m) (hv : v < 8) (n : Nat) : Adjusted v k (k'.setMode v n) l (n % 4) := by
  have cores := foldl_setF_regsOnly (fun c => Reg.coreClock v c) 1 0 n (fun c => ⟨c, rfl⟩) (List.range 4)
    (k := k'.setF (Reg.vatPwr v) 29 28 n) (named := fun o => ∃ c, o = Reg.coreClock v c) regsOnly.refl
  have hpwr : ¬ ∃ c, Reg.vatPwr v = Reg.coreClock v c := fun ⟨c, he⟩ => vatPwr_ne_coreClock hv v c he
  refine ⟨(cores.getF 20 16 hpwr).trans ?_, (cores.getF 29 28 hpwr).trans ?_, ?_⟩
  · exact (getF_setF_other _ _ 29 28 n 20 16 (by decide) (by decide) (by decide)).trans h.limit
  · exact getF_setF_same _ _ 29 28 n (by decide) (by decide)
  · exact foldl_setF_regsOnly _ 1 0 n (fun c => .inr ⟨c, .inl rfl⟩) _ (h.rest.setF 29 28 n (.inl rfl))

/-- A limit written: the mode stays. -/
theorem Adjusted.setLimit (h : Adjusted v k k' l m) (hv : v < 8) {n : Nat} (hn : n < 32) : Adjusted v k (k'.setLimit v n) n m := by
  have cores := foldl_setF_regsOnly (fun c => Reg.corePressIssue v c) 4 0 n (fun c => ⟨c, rfl⟩) (List.range 4)
    (k := k'.setF (Reg.vatPwr v) 20 16 n) (named := fun o => ∃ c, o = Reg.corePressIssue v c) regsOnly.refl
  have hpwr : ¬ ∃ c, Reg.vatPwr v = Reg.corePressIssue v c := fun ⟨c, he⟩ => vatPwr_ne_corePressIssue hv v c he
  refine ⟨(cores.getF 20 16 hpwr).trans ?_, (cores.getF 29 28 hpwr).trans ?_, ?_⟩
  · exact (getF_setF_same _ _ 20 16 n (by decide) (by decide)).trans (Nat.mod_eq_of_lt hn)
  · exact (getF_setF_other _ _ 20 16 n 29 28 (by decide) (by decide) (by decide)).trans h.mode
  · exact foldl_setF_regsOnly _ 4 0 n (fun c => .inr ⟨c, .inr rfl⟩) _ (h.rest.setF 20 16 n (.inl rfl))

theorem Adjusted.onPwr (h : Adjusted v k k' l m) (f : PowerCtl → PowerCtl) : Adjusted v k (k'.onPwr f) l m := ⟨h.limit, h.mode, h.rest.onHub _⟩

end Steps

/-- A mode and limit that one step may leave where the limit was `l`. -/
def Within (l l' m : Nat) (throttled : Bool) : Prop := l' ≤ l + 1 ∧ l ≤ l' + 1 ∧ 1 ≤ l' ∧ l' ≤ 16 ∧ (throttled = true → m ≠ 1)

/-- The mode field for a vat that may be boosted. -/
def modeFor (fixed boost : Bool) : Nat := if fixed then 2 else if boost then 1 else 0

theorem modeFor_unboosted (fixed : Bool) : modeFor fixed false % 4 ≠ 1 := by
  cases fixed <;> decide

/-- One step of the arbiter moves a limit by at most one and leaves it from 1 to 16; a throttled vat is not boosted by it. -/
theorem adjust_within (x : Arbiter) {v : Nat} {k : Chip} (hv : v < 8) (h1 : 1 ≤ k.limitOf v) (h16 : k.limitOf v ≤ 16) (hl1 : 1 ≤ k.pressLow)
    (hl16 : k.pressLow ≤ 16) :
    ∃ l m, Adjusted v k (x.adjust v k) l m ∧ Within (k.limitOf v) l m (k.throttled v) := by
  have moded (b : Bool) : Adjusted v k (k.setMode v (modeFor (k.flag Reg.pwrPolicy 10) b)) (k.limitOf v) (modeFor (k.flag Reg.pwrPolicy 10) b % 4) :=
    Adjusted.refl.setMode hv _
  have calm {b : Bool} (ht : ¬ k.throttled v = true) : k.throttled v = true → modeFor (k.flag Reg.pwrPolicy 10) b % 4 ≠ 1 := fun h => absurd h ht
  have unboosted : k.throttled v = true → modeFor (k.flag Reg.pwrPolicy 10) false % 4 ≠ 1 := fun _ => modeFor_unboosted _
  unfold Arbiter.adjust
  extract_lets l low fixed b mode a d hot least due
  have up {b : Bool} (h : k.throttled v = true → modeFor fixed b % 4 ≠ 1) (hl : l < 16) :
      ∃ l' m, Adjusted v k ((mode k b).setLimit v (l + 1)) l' m ∧ Within l l' m (k.throttled v) :=
    ⟨_, _, (moded b).setLimit hv (by omega), by omega, by omega, by omega, by omega, h⟩
  have down {b : Bool} (h : k.throttled v = true → modeFor fixed b % 4 ≠ 1) (hl : 1 < l) :
      ∃ l' m, Adjusted v k ((mode k b).setLimit v (l - 1)) l' m ∧ Within l l' m (k.throttled v) :=
    ⟨_, _, (moded b).setLimit hv (by omega), by omega, by omega, by omega, by omega, h⟩
  have stay {b : Bool} (h : k.throttled v = true → modeFor fixed b % 4 ≠ 1) :
      ∃ l' m, Adjusted v k (mode k b) l' m ∧ Within l l' m (k.throttled v) :=
    ⟨_, _, moded b, by omega, by omega, by omega, by omega, h⟩
  have hleast : 1 ≤ least := by
    show 1 ≤ if _ then _ else _
    split
    · exact Nat.le_refl 1
    · exact hl1
  split
  next hc => exact up (fun ht => by simpa [ht] using modeFor_unboosted fixed) (by omega)
  split
  next ht =>
    split
    next hd =>
      obtain ⟨l', m, hadj, hw⟩ := down unboosted (Nat.lt_of_le_of_lt hleast hd.2)
      exact ⟨l', m, hadj.onPwr _, hw⟩
    split
    next hd => exact down unboosted (by omega)
    next => exact stay unboosted
  next ht =>
    split
    next hc => exact up (calm ht) (by omega)
    split
    next =>
      split
      next => exact stay (calm ht)
      next hd => exact down (calm ht) (by omega)
    split
    next =>
      split
      next => exact stay (calm ht)
      split
      next => exact down (calm ht) (by omega)
      next => exact stay (calm ht)
    split
    next =>
      split
      next => exact up (calm ht) (by omega)
      next => exact stay (calm ht)
    next => exact stay (calm ht)

/-- Settles O54: each event by its condition, and the arbiter's step by `adjust_within`. -/
theorem ticksAndSamplesMoveByOne : Obligations.TicksAndSamplesMoveByOne := by
  unfold Obligations.TicksAndSamplesMoveByOne
  refine ⟨fun s h => ?_, fun x v k hv h1 h16 hl1 hl16 => ?_⟩
  · intro k V
    refine ⟨fun r hr => ?_, fun r hr => ?_, fun r hr => ?_, fun r hr => ?_, fun v d temp failed hv hd => ?_⟩
    · change execArbiterTick r s = _
      exact (onChip_live _ h).trans (congrArg (fun k => Host.Outcome.next (withK s k)) (if_pos hr))
    · change execArbiterTick r s = _
      exact (onChip_live _ h).trans (congrArg (fun k => Host.Outcome.next (withK s k)) (if_neg (ne_true_of_eq_false hr)))
    · change execThermalSample r s = _
      exact (onChip_live _ h).trans (congrArg (fun k => Host.Outcome.next (withK s k)) (if_pos hr))
    · change execThermalSample r s = _
      exact (onChip_live _ h).trans (congrArg (fun k => Host.Outcome.next (withK s k)) (if_neg (ne_true_of_eq_false hr)))
    · intro x
      have hdie : live s (s.hasDie v d) := ⟨by simpa [State.hasDie, State.hasVat] using ⟨hv, hd⟩, h.2⟩
      refine ⟨fun hdue => ?_, fun hcal htemp => ?_⟩
      · change execTsvCalibration v d temp failed s = _
        exact (onChip_live _ hdie).trans (congrArg (fun k => Host.Outcome.next (withK s k)) (if_neg (by simpa [or_iff_not_imp_left] using hdue)))
      · change execTsvCalibration v d temp failed s = _
        exact (onChip_live _ hdie).trans (congrArg (fun k => Host.Outcome.next (withK s k)) (if_pos (by simpa using ⟨hcal, htemp⟩)))
  · obtain ⟨l, m, hadj, hup, hdown, hlow, hhigh, hboost⟩ := adjust_within x hv h1 h16 hl1 hl16
    intro k'
    have hlim : k'.limitOf v = l := hadj.limit
    refine ⟨hlim ▸ hup, hlim ▸ hdown, hlim ▸ hlow, hlim ▸ hhigh, fun u hu hne => ?_, fun ht => ?_, hadj.rest.2⟩
    · exact hadj.rest.getF 20 16 (not_arbiterReg_vatPwr hu hne)
    · exact decide_eq_false (hadj.mode.symm ▸ hboost ht)

end Sys2Proof.Proofs
end

section
/-!
PROOFS. Resets, supplies and tamper (O51): what a log entry, links that go down and a port that is closed leave as they were; a package reset as its
register file and its hub; and a part whose keys are erased, up to the package reset that an apply has deferred.
-/

namespace Sys2Proof.Proofs

open Sys2Proof.Machine Sys2Proof.Safety Sys2Proof.Laws

/-! ### A log entry at once -/

/-- The registers of the error log and of its messages, for an entry of a class. -/
def logReg (cls o : Nat) : Prop := o = Reg.logWi ∨ o = Reg.logStatus ∨ o = Reg.logOvf cls ∨ toldIn o

section LogEntry

variable (k : Chip) (o : LogOcc)

theorem newEntry_regsOnly : regsOnly k (k.newEntry o) (logReg o.cls) := by
  by_cases h : logFull k
  · rw [newEntry_full k o h]
    exact (regsOnly.refl.setF 15 0 _ (.inr (.inr (.inl rfl)))).raise 31 (.inr (.inl rfl))
  · have hnoted : regsOnly k (entryNoted k o) (logReg o.cls) := (regsOnly.refl.setF 11 0 _ (.inl rfl)).onHub _
    exact hnoted.trans ((newEntry_told k o h).1.mono (fun _ ht => .inr (.inr (.inr ht))))

theorem addEvent_hub : ∃ l, (k.addEvent o).hub = { k.hub with log := l } := by
  unfold Chip.addEvent
  split
  · exact ⟨k.hub.log, rfl⟩
  · exact ⟨_, rfl⟩

theorem newEntry_hub : ∃ l out, (k.newEntry o).hub = { k.hub with log := l, out := out } := by
  by_cases h : logFull k
  · rw [newEntry_full k o h]
    exact ⟨k.hub.log, k.hub.out, rfl⟩
  · obtain ⟨l, hl⟩ := addEvent_hub (entryNoted k o) o
    rcases newEntry_room k o h with he | ⟨n, he⟩
    · exact ⟨l, k.hub.out, by rw [he]; exact hl⟩
    · obtain ⟨out, hout⟩ := msix_hub (((entryNoted k o).addEvent o).event 16) n
      exact ⟨l, out, by rw [he, hout]; exact congrArg (fun h : Hub => { h with out := out }) hl⟩

/-- An occurrence other than a corrected error is written as a new entry, or adds to one. -/
theorem writeLog_cases (h : o.cls ≠ 0x01) : (∃ f, k.writeLog o = k.onLog f) ∨ k.writeLog o = k.newEntry o := by
  have hs : ¬ (o.cls = 0x01 ∧ k.flag (Reg.buEccState o.vat o.die o.phys) 0 = true) := fun hc => h hc.1
  cases hm : k.logMatch o with
  | some e => exact .inl ⟨_, writeLog_again hm hs⟩
  | none =>
    unfold Chip.writeLog
    rw [if_neg hs]
    simp [Chip.logAgain, hm, h]

variable {o}

theorem writeLog_regsOnly (h : o.cls ≠ 0x01) : regsOnly k (k.writeLog o) (logReg o.cls) := by
  rcases writeLog_cases k o h with ⟨f, hf⟩ | hf <;> rw [hf]
  · exact regsOnly.refl.onHub _
  · exact newEntry_regsOnly k o

theorem writeLog_hub (h : o.cls ≠ 0x01) : ∃ l out, (k.writeLog o).hub = { k.hub with log := l, out := out } := by
  rcases writeLog_cases k o h with ⟨f, hf⟩ | hf <;> rw [hf]
  · exact ⟨_, k.hub.out, rfl⟩
  · exact newEntry_hub k o

end LogEntry

theorem not_logReg_pwrTrip : ¬ logReg 0x33 Reg.pwrTrip := by
  rintro (h | h | h | h | h) <;> exact absurd h (by decide)

/-! ### Links that go down -/

/-- The registers of the links' states. -/
def linkReg (o : Nat) : Prop := o = Reg.hostLinkStatus ∨ ∃ p, o = Reg.kwPortStatus p

section Links

variable (k : Chip)

/-- The host link down, before the ports. -/
def hostDown : Chip := ((k.setF Reg.hostLinkStatus 2 0 0).setF Reg.hostLinkStatus 9 9 0).onHub (fun h => { h with ide := IdeState.off })

theorem foldl_portDown (l : List Nat) (k : Chip) :
    let k' := l.foldl (fun k p => if k.portState p = 0 then k else k.setF (Reg.kwPortStatus p) 2 0 1) k
    regsOnly k k' (fun o => ∃ p, o = Reg.kwPortStatus p) ∧ k'.hub = k.hub := by
  induction l generalizing k with
  | nil => exact ⟨regsOnly.refl, rfl⟩
  | cons p l ih =>
    rw [List.foldl_cons]
    split
    · exact ih k
    · obtain ⟨hregs, hhub⟩ := ih (k.setF (Reg.kwPortStatus p) 2 0 1)
      exact ⟨(regsOnly.refl.setF 2 0 1 ⟨p, rfl⟩).trans hregs, hhub⟩

theorem linksDown_hub : k.linksDown.hub = { k.hub with ide := IdeState.off } := (foldl_portDown (List.range 4) (hostDown k)).2

theorem linksDown_regsOnly : regsOnly k k.linksDown linkReg := by
  have hhost : regsOnly k (hostDown k) linkReg := ((regsOnly.refl.setF 2 0 0 (.inl rfl)).setF 9 9 0 (.inl rfl)).onHub _
  exact hhost.trans ((foldl_portDown (List.range 4) (hostDown k)).1.mono (fun _ hp => .inr hp))

theorem linksDown_hostLink : k.linksDown.getF Reg.hostLinkStatus 2 0 = 0 := by
  have hport : ¬ ∃ p, Reg.hostLinkStatus = Reg.kwPortStatus p := by
    rintro ⟨p, hp⟩
    simp only [Reg.hostLinkStatus, Reg.kwPortStatus] at hp
    omega
  refine ((foldl_portDown (List.range 4) (hostDown k)).1.getF 2 0 hport).trans ?_
  exact (getF_setF_other _ _ 9 9 0 2 0 (by decide) (by decide) (by decide)).trans (getF_setF_same _ _ 2 0 0 (by decide) (by decide))

end Links

theorem not_linkReg_pwrTrip : ¬ linkReg Reg.pwrTrip := by
  rintro (h | ⟨p, h⟩)
  · exact absurd h (by decide)
  · simp only [Reg.pwrTrip, Reg.kwPortStatus] at h
    omega

/-! ### The register file across a reset -/

section ResetRegs

/-- A register after a reset: the bits kept, and the reset value of the others. -/
def resetReg (package : Bool) (o : Nat) (w : Word) : Word :=
  (w &&& BitVec.ofNat 64 (keptBits package o)) ||| (resetAt o &&& ~~~BitVec.ofNat 64 (keptBits package o))

theorem resetReg_resetAt (package : Bool) (o : Nat) : resetReg package o (resetAt o) = resetAt o := by
  unfold resetReg
  ext i hi
  simp only [BitVec.getElem_or, BitVec.getElem_and, BitVec.getElem_not]
  cases (resetAt o)[i] <;> cases (BitVec.ofNat 64 (keptBits package o))[i] <;> rfl

theorem resetReg_unkept {package : Bool} {o : Nat} (h : keptBits package o = 0) (w : Word) : resetReg package o w = resetAt o := by
  rw [resetReg, h, BitVec.and_zero, BitVec.zero_or, BitVec.not_zero, BitVec.and_allOnes]

/-- One register of the file across a reset. -/
def keptEntry (package : Bool) (x : Nat × Word) : Option (Nat × Word) :=
  if resetReg package x.1 x.2 = resetAt x.1 then none else some (x.1, resetReg package x.1 x.2)

theorem resetRegs_eq (k : Chip) (package : Bool) : k.resetRegs package = k.regs.filterMap (keptEntry package) := rfl

variable {package : Bool} {o : Nat}

theorem lookup_kept_unkept (h : keptBits package o = 0) (l : List (Nat × Word)) :
    lookup (resetAt o) (l.filterMap (keptEntry package)) o = resetAt o := by
  induction l with
  | nil => rfl
  | cons x l ih =>
    rw [List.filterMap_cons]
    by_cases hx : resetReg package x.1 x.2 = resetAt x.1
    · simp only [keptEntry, if_pos hx, ih]
    · have hne : o ≠ x.1 := fun he => hx (he ▸ resetReg_unkept h x.2)
      simp only [keptEntry, if_neg hx, lookup, if_neg hne]
      exact ih

/-- A table of registers in order: each reads as `resetReg` of what it read. -/
theorem lookup_kept_rising (l : List (Nat × Word)) (a : Nat) (h : risingFrom a l = true) :
    lookup (resetAt o) (l.filterMap (keptEntry package)) o = resetReg package o (lookup (resetAt o) l o) := by
  induction l generalizing a with
  | nil => exact (resetReg_resetAt package o).symm
  | cons x l ih =>
    simp only [risingFrom, Bool.and_eq_true, decide_eq_true_eq] at h
    rw [List.filterMap_cons]
    by_cases hx : resetReg package x.1 x.2 = resetAt x.1
    · simp only [keptEntry, if_pos hx, lookup]
      by_cases ho : o = x.1
      · subst ho
        rw [if_pos rfl, hx]
        exact (ih _ h.2).trans ((congrArg _ (lookup_of_rising _ l _ _ h.2 (Nat.lt_succ_self _))).trans (resetReg_resetAt package x.1))
      · rw [if_neg ho]
        exact ih _ h.2
    · simp only [keptEntry, if_neg hx, lookup]
      by_cases ho : o = x.1
      · subst ho
        rw [if_pos rfl, if_pos rfl]
      · rw [if_neg ho, if_neg ho]
        exact ih _ h.2

end ResetRegs

/-! ### A package reset -/

section PackageReset

variable {m : Mach} {p : Part} {cause : Nat}

/-- With no slot begun nothing runs to its end. -/
theorem endSlots_idle (h : ∀ x ∈ m.k.bus, x.2.active = none) (V : Nat) : m.endSlots V = m := by
  have hbu (v d b : Nat) : (m.k.bu v d b).active = none := by
    unfold Chip.bu
    generalize bankKey v d b = key
    have : ∀ l : List (Nat × Bu), (∀ x ∈ l, x.2.active = none) → (lookup Bu.reset l key).active = none := by
      intro l hl
      induction l with
      | nil => rfl
      | cons x l ih =>
        simp only [lookup]
        split
        · exact hl x List.mem_cons_self
        · exact ih (fun y hy => hl y (List.mem_cons_of_mem x hy))
    exact this _ h
  unfold Mach.endSlots
  generalize m.k.bus = l
  induction l with
  | nil => rfl
  | cons x l ih =>
    rw [List.foldl_cons]
    simp only [hbu]
    exact ih

theorem foldl_unchanged {α β γ : Type} (g : α → γ) (f : α → β → α) (h : ∀ a b, g (f a b) = g a) (l : List β) (a : α) : g (l.foldl f a) = g a := by
  induction l generalizing a with
  | nil => rfl
  | cons b l ih => exact (ih (f a b)).trans (h a b)

theorem reg_selfRefresh {k : Chip} {o : Nat} (h : ∀ v, o ≠ Reg.vatPwr v) (V : Nat) : (k.selfRefresh V).reg o = k.reg o :=
  foldl_unchanged (fun k : Chip => k.reg o) (fun k v => k.setPower v .asleep) (fun _ v => reg_setF_other _ _ _ _ _ _ (h v)) _ k

/-- The power of a vat lies above bit 29 of its register. -/
theorem getF_setPower (k : Chip) (v : Nat) (st : VatPower) (o : Nat) {hi lo : Nat}
    (h : hi < 30) : (k.setPower v st).getF o hi lo = k.getF o hi lo := by
  by_cases ho : o = Reg.vatPwr v
  · subst ho
    exact getF_setF_other _ _ _ _ _ _ _ (by decide) (by decide) (.inl h)
  · exact getF_setF_register _ _ _ _ _ _ _ _ ho

theorem selfRefresh_hub (k : Chip) (V : Nat) : (k.selfRefresh V).hub = k.hub := foldl_unchanged Chip.hub (fun k v => k.setPower v .asleep)
    (fun _ _ => rfl) _ k

theorem selfRefresh_bus (k : Chip) (V : Nat) : (k.selfRefresh V).bus = k.bus := foldl_unchanged Chip.bus (fun k v => k.setPower v .asleep)
    (fun _ _ => rfl) _ k

theorem getF_selfRefresh (k : Chip) (V o : Nat) {hi lo : Nat} (h : hi < 30) : (k.selfRefresh V).getF o hi lo = k.getF o hi lo :=
  foldl_unchanged (fun k : Chip => k.getF o hi lo) (fun k v => k.setPower v .asleep) (fun k v => getF_setPower k v _ o h) _ k

theorem setPower_power (k : Chip) (v u : Nat) (st : VatPower) :
    ((k.setPower v st).vat u).power = if u = v then st else (k.vat u).power := by
  split
  next h => exact h ▸ congrArg Vat.power (vat_setVat_same k u _)
  next h => exact congrArg Vat.power (vat_setVat_other k v u _ h)

theorem selfRefresh_asleep (k : Chip) {v V : Nat} (h : v < V) : ((k.selfRefresh V).vat v).power = .asleep := by
  have hmem : v ∈ List.range V := List.mem_range.mpr h
  have keep (l : List Nat) (k : Chip) (hk : (k.vat v).power = .asleep) : ((l.foldl (fun k v => k.setPower v .asleep) k).vat v).power = .asleep := by
    induction l generalizing k with
    | nil => exact hk
    | cons u l ih => exact ih _ ((setPower_power k u v .asleep).trans (by split <;> simp [hk]))
  unfold Chip.selfRefresh
  obtain ⟨l1, l2, hl⟩ := List.append_of_mem hmem
  rw [hl, List.foldl_append, List.foldl_cons]
  exact keep l2 _ ((setPower_power _ v v .asleep).trans (if_pos rfl))

theorem foldl_raise_regsOnly (l : List Nat) (k : Chip) :
    regsOnly k (l.foldl (fun k d => k.raise (Reg.vatStatus (d / 16)) (d % 16)) k) (fun o => ∃ v, o = Reg.vatStatus v) ∧
      (l.foldl (fun k d => k.raise (Reg.vatStatus (d / 16)) (d % 16)) k).hub = k.hub := by
  induction l generalizing k with
  | nil => exact ⟨regsOnly.refl, rfl⟩
  | cons d l ih => exact ⟨(regsOnly.refl.raise (d % 16) ⟨d / 16, rfl⟩).trans (ih _).1, (ih _).2⟩

theorem startRegs_hub (k : Chip) (p : Part) (cause : Nat) : (k.startRegs p cause).hub = k.hub := (foldl_raise_regsOnly _ _).2

theorem startRegs_bus (k : Chip) (p : Part) (cause : Nat) : (k.startRegs p cause).bus = k.bus := (foldl_raise_regsOnly _ _).1.2.2.2.1

theorem startRegs_reg (k : Chip) (p : Part) (cause : Nat) {o : Nat} (h1 : o ≠ Reg.pwrCap) (h2 : o ≠ Reg.bootStatus) (h3 : ∀ v, o ≠ Reg.vatStatus v) :
    (k.startRegs p cause).reg o = k.reg o :=
  ((foldl_raise_regsOnly _ _).1.1 o (fun ⟨v, hv⟩ => h3 v hv)).trans ((reg_setF_other _ _ _ _ _ _ h2).trans (reg_setF_other _ _ _ _ _ _ h1))

theorem startRegs_cause (k : Chip) (p : Part) (h : cause < 8) : (k.startRegs p cause).getF Reg.bootStatus 2 0 = cause := by
  have hne : ¬ ∃ v, Reg.bootStatus = Reg.vatStatus v := by
    rintro ⟨v, hv⟩
    simp only [Reg.bootStatus, Reg.vatStatus, vatBase] at hv
    omega
  exact ((foldl_raise_regsOnly _ _).1.getF 2 0 hne).trans ((getF_setF_same _ _ 2 0 cause (by decide) (by decide)).trans (Nat.mod_eq_of_lt h))

/-- The chip after a package reset from a chip whose slots are at rest, before a tampered part's state is shown. -/
def resetChip (k : Chip) (p : Part) (cause : Nat) : Chip :=
  (({ regs := k.resetRegs true, bus := [], cores := k.cores.map (fun c => (c.1, c.2.packageReset))
      dies := k.dies.map (fun d => (d.1, d.2.packageReset)), vats := [], hub := k.hub.packageReset } : Chip).startRegs p cause).selfRefresh p.vats

theorem packageReset_idle (h : ∀ x ∈ m.k.bus, x.2.active = none) :
    m.packageReset p cause = { dr := m.dr, k := if m.k.getF Reg.rindStatus 1 0 = 3 then (resetChip m.k p cause).setF Reg.rindStatus 1 0 3 else resetChip m.k p cause } := by
  unfold Mach.packageReset
  rw [endSlots_idle h]
  rfl

theorem packageReset_tampered (h : ∀ x ∈ m.k.bus, x.2.active = none) (hst : m.k.getF Reg.rindStatus 1 0 = 3) :
    m.packageReset p cause = { dr := m.dr, k := (resetChip m.k p cause).setF Reg.rindStatus 1 0 3 } := by
  rw [packageReset_idle h, if_pos hst]

theorem resetChip_hub (k : Chip) : (resetChip k p cause).hub = k.hub.packageReset :=
  (selfRefresh_hub _ _).trans (startRegs_hub _ _ _)

theorem resetChip_reg (k : Chip) {o : Nat} (h1 : o ≠ Reg.pwrCap) (h2 : o ≠ Reg.bootStatus) (h3 : ∀ v, o ≠ Reg.vatStatus v ∧ o ≠ Reg.vatPwr v) :
    (resetChip k p cause).reg o = lookup (resetAt o) (k.resetRegs true) o :=
  (reg_selfRefresh (fun v => (h3 v).2) _).trans (startRegs_reg _ _ _ h1 h2 (fun v => (h3 v).1))

theorem resetChip_cause (k : Chip) (h : cause < 8) : (resetChip k p cause).getF Reg.bootStatus 2 0 = cause :=
   (getF_selfRefresh _ _ _ (by decide)).trans (startRegs_cause _ p h)

end PackageReset

/-! ### Tamper -/

/-- R679: no key, grant, session, transaction or held request is left, and IDE is off. -/
structure Erased (h : Hub) : Prop where
  sessions : h.sessions = []
  txn      : h.txn = none
  heldReqs : h.heldReqs = []
  ide      : h.ide = IdeState.off
  domains  : ∀ d, d ∈ h.domains → d.2.dsk = none ∧ d.2.grants = 0

/-- No slot of a bank has begun. -/
def SlotsIdle (k : Chip) : Prop := ∀ x ∈ k.bus, x.2.active = none

theorem locked_domains (l : List (Nat × Domain)) (d : Nat × Domain) (h : d ∈ l.map (fun d => (d.1,
    d.2.locked))) : d.2.dsk = none ∧ d.2.grants = 0 := by
  obtain ⟨e, _, rfl⟩ := List.mem_map.mp h
  exact ⟨rfl, rfl⟩

theorem packageReset_erased (h : Hub) : Erased h.packageReset := ⟨rfl, rfl, rfl, rfl, locked_domains h.domains⟩

theorem eraseKeys_erased (k : Chip) : Erased k.eraseKeys.hub := ⟨rfl, rfl, rfl, rfl, locked_domains k.hub.domains⟩

theorem completeStart_hub (k : Chip) (v d a seq : Nat) (st : EndStatus) : (k.completeStart v d a seq st).hub = k.hub := by
  unfold Chip.completeStart
  dsimp only
  split
  · rfl
  · split
    · rfl
    · split <;> rfl

theorem stopUnit_hub (k : Chip) (v d a : Nat) : (k.stopUnit v d a).hub = k.hub := by
  unfold Chip.stopUnit
  dsimp only
  split
  · rfl
  · split
    · rfl
    · exact completeStart_hub _ _ _ _ _ _

theorem stopAll_hub (k : Chip) (V : Nat) : (k.stopAll V).hub = k.hub :=
  foldl_unchanged Chip.hub (fun k n => (k.stopStreams (n / 4) (n % 4)).stopBanks (n / 4) (n % 4)) (fun k n =>
    (foldl_unchanged Chip.hub _ (fun k _ => foldl_unchanged Chip.hub _ (fun k a => stopUnit_hub k _ _ a) _ k) _ _).trans
      (foldl_unchanged Chip.hub (fun k s => k.stopStream (n / 4) (n % 4) s) (fun _ _ => rfl) _ k)) _ k

theorem dropSlots_idle (k : Chip) : SlotsIdle k.dropSlots := by
  intro x hx
  obtain ⟨y, _, rfl⟩ := List.mem_map.mp hx
  rfl

/-- What a port that closes leaves of the hub. -/
theorem leaveActive_kept (k : Chip) (p st : Nat) : (k.leaveActive p st).bus = k.bus ∧ (Erased k.hub → Erased (k.leaveActive p st).hub) := by
  unfold Chip.leaveActive Chip.notePeer
  dsimp only
  split
  · split <;> exact ⟨rfl, fun h => ⟨h.sessions, h.txn, h.heldReqs, h.ide, h.domains⟩⟩
  · exact ⟨rfl, fun h => ⟨h.sessions, h.txn, h.heldReqs, h.ide, h.domains⟩⟩

theorem closePort_kept (k : Chip) (p : Nat) : (k.enablePort p false).bus = k.bus ∧ (Erased k.hub → Erased (k.enablePort p false).hub) := by
  unfold Chip.enablePort
  dsimp only
  split
  · contradiction
  · split
    · exact ⟨rfl, id⟩
    · split
      · obtain ⟨hbus, herased⟩ := leaveActive_kept (k.setF (Reg.kwPortCtl p) 0 0 0) p 0
        obtain ⟨q, hq⟩ := log_hub ((k.setF (Reg.kwPortCtl p) 0 0 0).leaveActive p 0)
          { occ 0x50 ((k.setF (Reg.kwPortCtl p) 0 0 0).leaveActive p 0).now with detail := p + k.portState p * 2 ^ 8 }
        refine ⟨((log_regsOnly _ _).2.2.2.1).trans hbus, fun h => ?_⟩
        obtain ⟨h1, h2, h3, h4, h5⟩ := herased h
        exact hq ▸ ⟨h1, h2, h3, h4, h5⟩
      · exact ⟨rfl, fun h => ⟨h.sessions, h.txn, h.heldReqs, h.ide, h.domains⟩⟩

/-- The causes of a tamper noted in RIND_TAMPER. -/
def causesNoted (k : Chip) (causes : BitVec 4) : Chip := (List.range 4).foldl (fun k i => if causes.getLsbD i then k.raise Reg.rindTamper i else k) k

theorem causesNoted_kept (k : Chip) (causes : BitVec 4) : (causesNoted k causes).bus = k.bus ∧ (causesNoted k causes).hub = k.hub := by
  refine ⟨foldl_unchanged Chip.bus _ (fun k i => ?_) _ k, foldl_unchanged Chip.hub _ (fun k i => ?_) _ k⟩ <;> split <;> rfl

/-- The chip that a tamper leaves, before a package reset that an apply has deferred. -/
def tampered (k : Chip) (V : Nat) (causes : BitVec 4) : Chip :=
  let k := (((k.eraseKeys).stopAll V).dropSlots).assertFault
  let k := (List.range 4).foldl (fun k p => k.enablePort p false) k
  let k := ((causesNoted k causes).satAdd Reg.rindTamper 15 8 1).setF Reg.rindStatus 1 0 3
  (((k.setF Reg.ciState 1 0 0).setF Reg.ciState 5 4 0).setF Reg.hostLinkStatus 9 9 0).setReg Reg.rindZero 0

theorem tampered_kept (k : Chip) (V : Nat) (causes : BitVec 4) : SlotsIdle (tampered k V causes) ∧ Erased (tampered k V causes).hub := by
  have closed (l : List Nat) (k : Chip) (h : SlotsIdle k ∧ Erased k.hub) :
      SlotsIdle (l.foldl (fun k p => k.enablePort p false) k) ∧ Erased (l.foldl (fun k p => k.enablePort p false) k).hub := by
    induction l generalizing k with
    | nil => exact h
    | cons p l ih =>
      obtain ⟨hbus, herased⟩ := closePort_kept k p
      exact ih _ ⟨fun x hx => h.1 x (hbus ▸ hx), herased h.2⟩
  have hstart : SlotsIdle ((((k.eraseKeys).stopAll V).dropSlots).assertFault) ∧ Erased ((((k.eraseKeys).stopAll V).dropSlots).assertFault).hub := by
    obtain ⟨h1, h2, h3, h4, h5⟩ := eraseKeys_erased k
    have hhub : (((k.eraseKeys).stopAll V).dropSlots).hub = k.eraseKeys.hub := stopAll_hub k.eraseKeys V
    refine ⟨dropSlots_idle _, ?_⟩
    unfold Chip.assertFault Chip.onBoot Chip.onHub
    rw [hhub]
    exact ⟨h1, h2, h3, h4, h5⟩
  obtain ⟨hidle, herased⟩ := closed (List.range 4) _ hstart
  obtain ⟨hbus, hhub⟩ := causesNoted_kept ((List.range 4).foldl (fun k p => k.enablePort p false)
    ((((k.eraseKeys).stopAll V).dropSlots).assertFault)) causes
  exact ⟨fun x hx => hidle x (hbus.subst (motive := fun b => x ∈ b) hx), hhub.symm.subst (motive := Erased) herased⟩

theorem tampered_state (k : Chip) (V : Nat) (causes : BitVec 4) :
    (tampered k V causes).getF Reg.rindStatus 1 0 = 3 ∧ (tampered k V causes).ciState = 0 := by
  refine ⟨?_, ?_⟩
  · unfold tampered
    extract_lets k1 k2 k3
    have h (k5 : Chip) : (k5.setReg Reg.rindZero 0).getF Reg.rindStatus 1 0 = k5.getF Reg.rindStatus 1 0 :=
      congrArg (fun w => fld w 1 0) (reg_setReg_other k5 _ _ 0 (by decide))
    rw [h, getF_setF_register _ _ _ _ _ _ _ _ (by decide), getF_setF_register _ _ _ _ _ _ _ _ (by decide),
      getF_setF_register _ _ _ _ _ _ _ _ (by decide)]
    exact getF_setF_same _ _ 1 0 3 (by decide) (by decide)
  · unfold tampered Chip.ciState
    extract_lets k1 k2 k3
    have h (k5 : Chip) : (k5.setReg Reg.rindZero 0).getF Reg.ciState 1 0 = k5.getF Reg.ciState 1 0 :=
      congrArg (fun w => fld w 1 0) (reg_setReg_other k5 _ _ 0 (by decide))
    rw [h, getF_setF_register _ _ _ _ _ _ _ _ (by decide), getF_setF_other _ _ 5 4 0 1 0 (by decide) (by decide) (by decide)]
    exact getF_setF_same _ _ 1 0 0 (by decide) (by decide)

theorem resetChip_ciState (k : Chip) (p : Part) (cause : Nat) : (resetChip k p cause).ciState = 0 := by
  have hne : ¬ ∃ v, Reg.ciState = Reg.vatStatus v := by
    rintro ⟨v, hv⟩
    simp only [Reg.ciState, Reg.vatStatus, vatBase] at hv
    omega
  have hreg := lookup_kept_unkept (package := true) (o := Reg.ciState) (by decide) k.regs
  refine (getF_selfRefresh _ _ _ (by decide)).trans ((congrArg (fun w => fld w 1 0) (startRegs_reg _ _ _ (by decide) (by decide)
    (fun v hv => hne ⟨v, hv⟩))).trans ?_)
  exact (congrArg (fun w => fld w 1 0) hreg).trans (by decide)

/-- A tampered part stays so through the package reset that an apply had deferred. -/
theorem deferredReset_tampered {m : Mach} (p : Part) (hidle : SlotsIdle m.k) (herased : Erased m.k.hub) (hst : m.k.getF Reg.rindStatus 1 0 = 3)
    (hci : m.k.ciState = 0) :
    (m.deferredReset p).dr = m.dr ∧ (m.deferredReset p).k.getF Reg.rindStatus 1 0 = 3 ∧ (m.deferredReset p).k.ciState = 0 ∧
      Erased (m.deferredReset p).k.hub := by
  unfold Mach.deferredReset
  split
  · exact ⟨rfl, hst, hci, herased⟩
  next cause t _ =>
    have hregs := writeLog_regsOnly m.k (o := { occ 0x65 m.k.now with detail := (m.k.now - t) / 1000 }) (by simp [occ])
    have hnot : ¬ logReg 0x65 Reg.rindStatus := by
      rintro (h | h | h | h | h) <;> exact absurd h (by decide)
    have hidle' : ∀ x ∈ (m.onChip (fun k => k.writeLog { occ 0x65 k.now with detail := (k.now - t) / 1000 })).k.bus, x.2.active = none :=
      fun x hx => hidle x (hregs.2.2.2.1.subst (motive := fun b => x ∈ b) hx)
    rw [packageReset_tampered hidle' ((hregs.getF 1 0 hnot).trans hst)]
    refine ⟨rfl, getF_setF_same _ _ 1 0 3 (by decide) (by decide), ?_, ?_⟩
    · exact (getF_setF_register _ _ _ _ _ _ _ _ (by decide)).trans (resetChip_ciState _ _ _)
    · exact (setF_hub _ _ _ _ _).symm ▸ (resetChip_hub (p := p) (cause := cause) _).symm ▸ packageReset_erased _

/-! ### The commands -/

theorem onPartMach_next (s : State) (f : Mach → Mach) : s.onPartMach f = .next (withM s (f (machOf s))) := rfl

theorem withM_machOf (s : State) : withM s (machOf s) = s := rfl

/-- A condition other than those in which the hub runs. -/
theorem not_alive {k : Chip} (h : k.alive = true) : k.hub.boot.cond ≠ .off ∧ k.hub.boot.cond ≠ .cave ∧ k.hub.boot.cond ≠ .held := by
  unfold Chip.alive at h
  refine ⟨fun hc => ?_, fun hc => ?_, fun hc => ?_⟩ <;> rw [hc] at h <;> cases h

@[simp] theorem reg_onHub (k : Chip) (f : Hub → Hub) (o : Nat) : (k.onHub f).reg o = k.reg o := rfl

@[simp] theorem getF_onHub (k : Chip) (f : Hub → Hub) (o hi lo : Nat) : (k.onHub f).getF o hi lo = k.getF o hi lo := rfl

section Halt

variable (m : Mach) (c : Condition)

theorem halt_hub : (m.halt c).k.hub = { m.k.hub with ide := IdeState.off, stopped := true, boot := { m.k.hub.boot with cond := c } } :=
  congrArg (fun h : Hub => { h with stopped := true, boot := { h.boot with cond := c } }) (linksDown_hub m.k)

theorem halt_regsOnly : regsOnly m.k (m.halt c).k linkReg := (linksDown_regsOnly m.k).onHub _

end Halt

/-- A trip as PWR_TRIP shows it. -/
def tripNoted (k : Chip) (code temp : Nat) : Chip := ((k.setF Reg.pwrTrip 15 0 code).setF Reg.pwrTrip 23 16 temp).raise Reg.pwrTrip 31

theorem tripNoted_fields (k : Chip) (code : Nat) {temp : Nat} (h : temp < 256) :
    (tripNoted k code temp).flag Reg.pwrTrip 31 = true ∧ (tripNoted k code temp).getF Reg.pwrTrip 15 0 = code % 65536 ∧
      (tripNoted k code temp).getF Reg.pwrTrip 23 16 = temp := by
  refine ⟨flag_raise_same _ _ _ (by decide), ?_, ?_⟩
  · rw [tripNoted, getF_raise_other _ _ _ _ _ (by decide) (by decide), getF_setF_other _ _ 23 16 _ 15 0 (by decide) (by decide) (by decide)]
    exact getF_setF_same _ _ 15 0 code (by decide) (by decide)
  · rw [tripNoted, getF_raise_other _ _ _ _ _ (by decide) (by decide)]
    exact (getF_setF_same _ _ 23 16 temp (by decide) (by decide)).trans (Nat.mod_eq_of_lt h)

section Commands

variable {s : State}

theorem exec_perstAssert : exec .perstAssert s =
    .next (withM s (if s.k.resettable = true ∨ s.k.hub.boot.cond = .held then (machOf s).resetTrigger s.part 2 else machOf s)) := rfl

theorem exec_sidebandPkgReset (w : SidebandWrite) : exec (.sidebandPkgReset w) s =
    .next (withM s (if w.pec = true ∧ w.key.toNat = resetKey ∧ s.k.flag Reg.bootCfg 1 = true ∧ s.k.resettable = true then
      (machOf s).resetTrigger s.part 4 else machOf s)) := rfl

theorem exec_pkgReset (key : BitVec 32) (h : live s true) : exec (.pkgReset key) s =
    .next (withM s (if key.toNat = resetKey ∧ s.k.flag Reg.bootCfg 0 = true then (machOf s).resetTrigger s.part 3 else machOf s)) :=
  onMach_next s true _ rfl h.2

theorem exec_packageResetEnd : exec .packageResetEnd s =
    .next (withK s (if s.k.hub.boot.cond = .held ∧ (s.k.getF Reg.bootStatus 2 0 = 2 ∨ s.k.hub.boot.heldAt + 1000000 ≤ s.k.now) then
      s.k.onBoot (fun b => { b with cond := .booting, endAt := s.k.now, stageAt := s.k.now }) else s.k)) := rfl

theorem exec_powerOnReset : exec .powerOnReset s =
    .next (withM s (if s.k.hub.boot.cond = .cave then { dr := { cells := [], marks := [] }, k := s.k.powerOn s.part } else machOf s)) := rfl

/-- R31: a main supply has gone. -/
def supplyLost (m : Mach) (group : Nat) : Mach :=
  (m.onChip (fun k => (k.writeLog { occ 0x66 k.now with detail := group }).assertFault)).halt .cave

theorem exec_supplyLoss (g : BitVec 4) : exec (.supplyLoss g) s =
    if g.toNat < 2 ∨ 8 + s.part.vats ≤ g.toNat then .fault .noSuchUnit
    else .next (withM s (if s.k.hub.boot.cond = .off ∨ s.k.hub.boot.cond = .cave then machOf s else supplyLost (machOf s) g.toNat)) := rfl

theorem supplyLost_faultOut (m : Mach) (g : Nat) : (supplyLost m g).k.faultOut = true := by
  unfold supplyLost Chip.faultOut
  rw [halt_hub]
  rfl

theorem halt_hostLink (m : Mach) (c : Condition) : (m.halt c).k.getF Reg.hostLinkStatus 2 0 = 0 := by
  unfold Mach.halt
  dsimp only
  rw [getF_onHub, linksDown_hostLink]

theorem exec_standbySupplyLoss : exec .standbySupplyLoss s = .next (withM s ((machOf s).halt .off)) := by
  change execStandbySupplyLoss s = _
  unfold execStandbySupplyLoss
  rw [onPartMach_next]

theorem fld_lt (w : Word) (hi lo : Nat) : fld w hi lo < 2 ^ (hi + 1 - lo) := Nat.mod_lt _ (Nat.two_pow_pos _)

/-- What the cave holds once its supply is back. -/
def caveChip (k : Chip) (p : Part) : Chip :=
  ({ regs := [], bus := [], cores := [], dies := [], vats := []
     hub := { Hub.reset with
       owners := k.hub.owners, draws := k.hub.draws, stopped := true, straps := p.straps,
       boot := { BootState.start with cond := .cave } } } : Chip).setF
    Reg.rindSvn 31 16 (k.getF Reg.rindSvn 31 16)

theorem exec_caveReset : exec .caveReset s =
    .next (withM s (if s.k.hub.boot.cond ≠ .off then machOf s else { machOf s with k := caveChip s.k s.part })) := rfl

theorem caveChip_rindSvn (k : Chip) (p : Part) : (caveChip k p).getF Reg.rindSvn 31 16 = k.getF Reg.rindSvn 31 16 :=
  (getF_setF_same _ _ 31 16 _ (by decide) (by decide)).trans (Nat.mod_eq_of_lt (fld_lt _ _ _))

/-- A trip logged, and told of by FAULT# and THERMTRIP#. -/
def tripLogged (k : Chip) (code temp : Nat) : Chip := k.writeLog { occ 0x33 k.now with detail := code + temp * 2 ^ 16 }
def tripShown (k : Chip) : Chip := k.assertFault.onBoot (fun b => { b with thermTrip := true })

theorem tripLogged_pwrTrip (k : Chip) (code temp : Nat) : (tripLogged k code temp).reg Reg.pwrTrip = k.reg Reg.pwrTrip := by
  have hregs := writeLog_regsOnly k (o := { occ 0x33 k.now with detail := code + temp * 2 ^ 16 }) (by simp [occ])
  exact hregs.1 Reg.pwrTrip not_logReg_pwrTrip

theorem tripShown_reg (k : Chip) (o : Nat) : (tripShown k).reg o = k.reg o := rfl

/-- R752, R753: a trip. -/
def trippedMach (m : Mach) (code temp : Nat) : Mach :=
  ({ m with k := tripShown (tripLogged (tripNoted m.k code temp) code temp) } : Mach).halt .tripped

theorem exec_thermalTrip (hub : Bool) (v die i temp : Nat) : exec (.thermalTrip hub v die i temp) s =
    if !((hub || (s.hasVat v && die ≤ 16)) && i < if hub || die = 16 then 4 else 2) then .fault .noSuchUnit
    else .next (withM s (if temp < 110 ∨ !(s.k.alive || s.k.hub.boot.cond = .held || s.k.hub.boot.cond = .hubStopped) then machOf s
      else trippedMach (machOf s) (sensorCode hub v die i) (min temp 255))) := rfl

theorem trip_exists {hub : Bool} {v die i : Nat} (hu : hub = true ∨ (v < s.part.vats ∧ die ≤ 16)) (hi : i < (if hub || die = 16 then 4 else 2)) :
    ¬ (!((hub || (s.hasVat v && decide (die ≤ 16))) && decide (i < if hub || die = 16 then 4 else 2))) = true := by
  have h1 : (hub || (s.hasVat v && decide (die ≤ 16))) = true := by
    simpa [State.hasVat] using hu
  rw [h1, decide_eq_true hi]
  decide

theorem trippedMach_pwrTrip (m : Mach) (code temp : Nat) : (trippedMach m code temp).k.reg Reg.pwrTrip = (tripNoted m.k code temp).reg Reg.pwrTrip := by
  unfold trippedMach
  rw [(halt_regsOnly _ _).1 _ not_linkReg_pwrTrip, tripShown_reg, tripLogged_pwrTrip]

theorem trippedMach_fields (m : Mach) (code : Nat) {temp : Nat} (h : temp < 256) :
    (trippedMach m code temp).k.flag Reg.pwrTrip 31 = true ∧ (trippedMach m code temp).k.getF Reg.pwrTrip 15 0 = code % 65536 ∧
      (trippedMach m code temp).k.getF Reg.pwrTrip 23 16 = temp := by
  have hnoted := tripNoted_fields m.k code h
  unfold Chip.flag Chip.getF at hnoted ⊢
  rw [trippedMach_pwrTrip]
  exact hnoted

theorem trippedMach_halted (m : Mach) (code temp : Nat) :
    (trippedMach m code temp).dr = { cells := [], marks := [] } ∧ (trippedMach m code temp).k.hub.boot.cond = .tripped := ⟨rfl, rfl⟩

theorem trippedMach_thermTrip (m : Mach) (code temp : Nat) : (trippedMach m code temp).k.hub.boot.thermTrip = true := by
  unfold trippedMach
  rw [halt_hub]
  rfl

theorem exec_tamper (causes : BitVec 4) : exec (.tamper causes) s =
    .next (withM s (if s.k.hub.boot.cond = .off ∨ causes = 0 then machOf s
      else ({ dr := { cells := [], marks := [] }, k := tampered s.k s.part.vats causes } : Mach).deferredReset s.part)) := rfl

end Commands

section AfterPackageReset

variable {m : Mach} {p : Part} {cause : Nat}

theorem packageReset_hub (h : ∀ x ∈ m.k.bus, x.2.active = none) : (m.packageReset p cause).k.hub = m.k.hub.packageReset := by
  rw [packageReset_idle h]
  dsimp only
  split
  · exact (setF_hub _ _ _ _ _).trans (resetChip_hub m.k)
  · exact resetChip_hub m.k

theorem packageReset_bus (h : ∀ x ∈ m.k.bus, x.2.active = none) : (m.packageReset p cause).k.bus = [] := by
  have hbus : (resetChip m.k p cause).bus = [] := (selfRefresh_bus _ _).trans (startRegs_bus _ _ _)
  rw [packageReset_idle h]
  dsimp only
  split <;> exact hbus

theorem packageReset_cause (h : ∀ x ∈ m.k.bus, x.2.active = none) (hc : cause < 8) :
    (m.packageReset p cause).k.getF Reg.bootStatus 2 0 = cause := by
  rw [packageReset_idle h]
  dsimp only
  split
  · exact (getF_setF_register _ _ _ _ _ _ _ _ (by decide)).trans (resetChip_cause m.k hc)
  · exact resetChip_cause m.k hc

theorem packageReset_asleep (h : ∀ x ∈ m.k.bus, x.2.active = none) {v : Nat} (hv : v < p.vats) :
    ((m.packageReset p cause).k.vat v).power = .asleep := by
  have hvat := selfRefresh_asleep (({ regs := m.k.resetRegs true, bus := [], cores := m.k.cores.map (fun c => (c.1, c.2.packageReset))
                                      dies := m.k.dies.map (fun d => (d.1, d.2.packageReset)), vats := []
                                      hub := m.k.hub.packageReset } : Chip).startRegs p cause) hv
  rw [packageReset_idle h]
  dsimp only
  split <;> exact hvat

theorem packageReset_reg (h : ∀ x ∈ m.k.bus, x.2.active = none) (hr : risingFrom 0 m.k.regs = true) {o : Nat} (h1 : o ≠ Reg.pwrCap)
    (h2 : o ≠ Reg.bootStatus) (h3 : o ≠ Reg.rindStatus) (h4 : ∀ v, o ≠ Reg.vatStatus v ∧ o ≠ Reg.vatPwr v) :
    (m.packageReset p cause).k.reg o = resetReg true o (m.k.reg o) := by
  have hreg : (resetChip m.k p cause).reg o = resetReg true o (m.k.reg o) :=
    (resetChip_reg m.k h1 h2 h4).trans (lookup_kept_rising m.k.regs 0 hr)
  rw [packageReset_idle h]
  dsimp only
  split
  · exact (reg_setF_other _ _ _ _ _ _ h3).trans hreg
  · exact hreg

end AfterPackageReset

/-- Settles O51: each supply, reset and tamper by its condition, and a package reset by its register file and its hub. -/
theorem resetsAndSuppliesKeepTheCave : Obligations.ResetsAndSuppliesKeepTheCave := by
  unfold Obligations.ResetsAndSuppliesKeepTheCave
  refine ⟨fun s => ?_, fun s cause hc hbus => ?_⟩
  · intro k m c cave
    refine ⟨fun h => ?_, fun hr hf => ?_, fun w hw => ?_, fun key hk hl => ?_, fun hl hf => ?_, fun n h => ?_, fun h ha hd n => ?_, fun hh he => ?_,
      fun h => ?_, fun h => ?_, fun g h2 hV => ⟨fun h => ?_, fun ho hca => ?_⟩, fun g hg => ?_, ?_, fun ho => ?_,
      fun hub v die i temp hu hi ht hl => ?_, fun causes ho hne => ?_⟩
    · rw [exec_perstAssert, if_pos h]
    · rw [exec_sidebandPkgReset, if_pos ⟨rfl, rfl, hf, hr⟩]
    · rw [exec_sidebandPkgReset, if_neg, withM_machOf]
      rintro ⟨hp, hkey, _⟩
      rcases hw with hw | hw
      · exact hw (BitVec.eq_of_toNat_eq hkey)
      · exact Bool.false_ne_true (hw.symm.trans hp)
    · rw [exec_pkgReset key hl, if_neg (fun hkey => hk (BitVec.eq_of_toNat_eq hkey.1)), withM_machOf]
    · rw [exec_pkgReset _ hl, if_pos ⟨rfl, hf⟩]
    · exact if_neg (fun hci => h hci.1)
    · unfold Mach.resetTrigger
      rw [if_pos ⟨h, ha⟩]
      exact congrArg (fun d => Option.or d (some (n, k.now))) hd
    · rw [exec_packageResetEnd, if_pos ⟨hh, he⟩]
    · rw [exec_powerOnReset, if_pos h]
    · rw [exec_powerOnReset, if_neg h, withM_machOf]
    · rw [exec_supplyLoss, if_neg (by omega), if_pos h, withM_machOf]
    · rw [exec_supplyLoss, if_neg (by omega), if_neg (not_or_intro ho hca)]
      exact ⟨_, rfl, rfl, rfl, rfl, supplyLost_faultOut _ _, halt_hostLink _ _, rfl, rfl, rfl⟩
    · rw [exec_supplyLoss, if_pos hg]
    · exact ⟨_, exec_standbySupplyLoss, rfl, rfl, rfl, rfl⟩
    · rw [exec_caveReset, if_neg (not_not_intro ho)]
      exact ⟨_, rfl, rfl, rfl, rfl, rfl, rfl, caveChip_rindSvn k s.part, fun o hne => reg_setF_other _ _ _ _ _ _ hne⟩
    · rw [exec_thermalTrip, if_neg (trip_exists hu hi), if_neg (by simp [hl.2]; exact ht)]
      obtain ⟨hflag, hcode, htemp⟩ := trippedMach_fields m (sensorCode hub v die i) (temp := min temp 255) (by omega)
      obtain ⟨hdr, hcond⟩ := trippedMach_halted m (sensorCode hub v die i) (min temp 255)
      have htherm := trippedMach_thermTrip m (sensorCode hub v die i) (min temp 255)
      exact ⟨withM s (trippedMach m (sensorCode hub v die i) (min temp 255)), rfl, hdr, hcond, htherm, hflag, hcode, htemp⟩
    · rw [exec_tamper, if_neg (not_or_intro ho hne)]
      obtain ⟨hidle, herased⟩ := tampered_kept k s.part.vats causes
      obtain ⟨hst, hci⟩ := tampered_state k s.part.vats causes
      obtain ⟨hdr, hst', hci', h'⟩ := deferredReset_tampered (m := { dr := cave, k := tampered k s.part.vats causes }) s.part hidle herased hst hci
      exact ⟨_, rfl, hdr, hst', h'.sessions, h'.txn, h'.heldReqs, h'.ide, hci', h'.domains⟩
  · have hidle : ∀ x ∈ (machOf s).k.bus, x.2.active = none := by
      intro x hx
      rw [show (machOf s).k.bus = [] from hbus] at hx
      cases hx
    have hhub : ((machOf s).packageReset s.part cause).k.hub = s.k.hub.packageReset := packageReset_hub hidle
    have hdomains : s.k.hub.packageReset.domains.map (·.1) = s.k.hub.domains.map (·.1) := by
      simp [Hub.packageReset, Function.comp_def]
    intro t
    obtain ⟨h1, h2, h3, h4, h5⟩ := packageReset_erased s.k.hub
    refine ⟨congrArg Mach.dr (packageReset_idle hidle), packageReset_cause hidle hc, ?_⟩
    rw [hhub]
    refine ⟨rfl, h2, h1, rfl, rfl, rfl, rfl, packageReset_bus hidle, h5, hdomains, fun hst => ?_, fun v hv => packageReset_asleep hidle hv,
      fun hr o ho1 ho2 ho3 ho4 => packageReset_reg hidle hr ho1 ho2 ho3 ho4⟩
    show ((machOf s).packageReset s.part cause).k.getF Reg.rindStatus 1 0 = 3
    rw [packageReset_tampered hidle hst]
    exact getF_setF_same _ _ 1 0 3 (by decide) (by decide)

end Sys2Proof.Proofs
end

section
/-!
PROOFS. The machine as a whole (O3, O6, O7, O8): every command reaches the state in one of a few forms, and a form says what a command can stop on,
what it leaves of the state, and when it does nothing.
-/

namespace Sys2Proof.Proofs

open Sys2Proof.Machine Sys2Proof.Safety Sys2Proof.Laws

/-- The forms of commands: the outcome, whether the running hub performs the command, the vat whose clock makes it come about, and whether it may
store to DRAM. A command that is well formed (`wf`) names units that exist. -/
inductive Shape (s : State) (wf : Bool) : Host.Outcome State Fault Refusal → Bool → Option Nat → Bool → Prop
  | chip (ok : Bool) (f : Chip → Chip) (h : wf = true → ok = true) : Shape s wf (s.onChip ok f) true none false
  | vat (ok : Bool) (v : Nat) (f : Chip → Chip) (h : wf = true → ok = true) : Shape s wf (s.onVat ok v f) true (some v) false
  | both (ok : Bool) (f : Dram → Chip → Dram × Chip) (h : wf = true → ok = true) : Shape s wf (s.onBoth ok f) true none true
  | vatBoth (ok : Bool) (v : Nat) (f : Dram → Chip → Dram × Chip) (h : wf = true → ok = true) : Shape s wf (s.onVatBoth ok v f) true (some v) true
  | part (f : Dram → Chip → Dram × Chip) : Shape s wf (s.onPart f) false none true
  | cave (f : Chip → Chip) : Shape s wf (s.onPart (fun dr k => (dr, f k))) false none false
  | guarded (bad : Prop) [Decidable bad] (f : Dram → Chip → Dram × Chip) (h : wf = true → ¬ bad) :
      Shape s wf (if bad then .fault .noSuchUnit else s.onPart f) false none true

section Forms

variable {s t : State} {wf hub writes : Bool} {clock : Option Nat} {out : Host.Outcome State Fault Refusal}

theorem onBoth_kept {ok : Bool} {f : Dram → Chip → Dram × Chip} (h : s.onBoth ok f = .next t) : t.part = s.part ∧ t.pending = s.pending := by
  unfold State.onBoth at h
  split at h
  · cases h
    split <;> exact ⟨rfl, rfl⟩
  · cases h

theorem onChip_kept {ok : Bool} {f : Chip → Chip} (h : s.onChip ok f = .next t) : chipOnly s t := by
  unfold State.onChip at h
  split at h
  · cases h
    split <;> exact ⟨rfl, rfl, rfl⟩
  · cases h

/-- Whatever its form, a command keeps the part and the queue. -/
theorem Shape.keeps (hs : Shape s wf out hub clock writes) (h : out = .next t) : t.part = s.part ∧ t.pending = s.pending := by
  cases hs with
  | chip ok f _ => exact ⟨(onChip_kept h).1, (onChip_kept h).2.1⟩
  | vat ok v f _ => exact ⟨(onChip_kept h).1, (onChip_kept h).2.1⟩
  | both ok f _ => exact onBoth_kept h
  | vatBoth ok v f _ => exact onBoth_kept h
  | part f => cases h; exact ⟨rfl, rfl⟩
  | cave f => cases h; exact ⟨rfl, rfl⟩
  | guarded bad f _ =>
    split at h
    · cases h
    · cases h; exact ⟨rfl, rfl⟩

/-- A command of a form that stores nothing leaves DRAM. -/
theorem Shape.keepsDram (hs : Shape s wf out hub clock false) (h : out = .next t) : t.dram = s.dram := by
  cases hs with
  | chip ok f _ => exact (onChip_kept h).2.2
  | vat ok v f _ => exact (onChip_kept h).2.2
  | cave f => cases h; rfl

/-- A well-formed command answers a next state. -/
theorem Shape.runs (hs : Shape s true out hub clock writes) : ∃ t, out = .next t := by
  cases hs with
  | chip ok f h => exact ⟨_, if_pos (h rfl)⟩
  | vat ok v f h => exact ⟨_, if_pos (h rfl)⟩
  | both ok f h => exact ⟨_, if_pos (h rfl)⟩
  | vatBoth ok v f h => exact ⟨_, if_pos (h rfl)⟩
  | part f => exact ⟨_, rfl⟩
  | cave f => exact ⟨_, rfl⟩
  | guarded bad f h => exact ⟨_, if_neg (h rfl)⟩

theorem onChip_dead {ok : Bool} {f : Chip → Chip} (h : ok = true) (hd : s.k.alive = false) : s.onChip ok f = .next s := by
  simp [State.onChip, h, hd]

theorem onBoth_dead {ok : Bool} {f : Dram → Chip → Dram × Chip} (h : ok = true) (hd : s.k.alive = false) : s.onBoth ok f = .next s := by
  simp [State.onBoth, h, hd]

/-- While the hub does not run, a well-formed command that the hub performs does nothing. -/
theorem Shape.dead (hs : Shape s true out true clock writes) (hd : s.k.alive = false) : out = .next s := by
  cases hs with
  | chip ok f h => exact onChip_dead (h rfl) hd
  | vat ok v f h => exact onChip_dead (h rfl) hd
  | both ok f h => exact onBoth_dead (h rfl) hd
  | vatBoth ok v f h => exact onBoth_dead (h rfl) hd

/-- While its vat's clocks stand still, a well-formed command that they make does nothing. -/
theorem Shape.still {v : Nat} (hs : Shape s true out hub (some v) writes) (hv : s.k.vatRuns v = false) : out = .next s := by
  cases hs with
  | vat ok v f h => simp [State.onVat, State.onChip, h rfl, hv]
  | vatBoth ok v f h => simp [State.onVatBoth, State.onBoth, h rfl, hv]

end Forms

/-! ### The form of each command -/

theorem left_of_and {a b : Bool} (h : (a && b) = true) : a = true := (Bool.and_eq_true_iff.mp h).1

theorem right_of_and {a b : Bool} (h : (a && b) = true) : b = true := (Bool.and_eq_true_iff.mp h).2

theorem hasUnit_of_onPart {s : State} {u : IssueUnit} (h : u.onPart s.part.vats = true) : s.hasUnit u = true := by
  cases u <;> exact h

theorem issue_shape {s : State} {i : Instr} {u : IssueUnit} {op : Nat} {ops : BitVec 56} (h : spaith i = some (u, op, ops)) (hret : op ≠ 0x07) :
    Shape s (u.onPart s.part.vats) (exec i s) true none false := by
  obtain ⟨f, hexec, _⟩ := exec_onChip_issue h hret
  exact hexec s ▸ .chip _ f hasUnit_of_onPart

section Helpers

variable {s : State} {wf : Bool}

theorem inSession_shape {i : Nat} (f : Session → Chip → Chip) : Shape s wf (inSession i s f) true none false := .chip true _ (fun _ => rfl)

theorem secured_shape {sec : Option Nat} (f : Nat → Session → Chip → Chip) : Shape s wf (secured sec s f) true none false :=
  .chip true _ (fun _ => rfl)

theorem boundTo_shape {sec : Option Nat} {may : Nat → Bool} (f : Nat → Nat → Chip → Chip) : Shape s wf (boundTo sec may s f) true none false :=
  secured_shape _

theorem legacyAccess_shape {v d a : Nat} (f : Chip → Chip) (h : wf = true → (s.hasDie v d && decide (a < 96)) = true) :
    Shape s wf (legacyAccess v d a s f) true none false := .chip _ _ h

theorem hostAccess_shape {line : BitVec 36} {wr : Bool} {mem : Nat → Nat → Nat → Nat → Dram → Chip → Dram × Chip} (aper : Nat → Chip → Chip) :
    Shape s wf (hostAccess line wr s mem aper) true none true := .both true _ (fun _ => rfl)

theorem onMach_shape (ok : Bool) (f : Mach → Mach) (h : wf = true → ok = true) : Shape s wf (s.onMach ok f) true none true := .both ok _ h

theorem failRequest_shape (f : Mach → Mach) : Shape s wf (failRequest s f) true none true := onMach_shape true _ (fun _ => rfl)

theorem onTurn_shape (ok : Bool) (f : Mach → Mach) (h : wf = true → ok = true) : Shape s wf (s.onTurn ok f) true none true := onMach_shape ok _ h

theorem onMsg_shape (ok : Bool) (p : Nat) (key : List Byte) (x : KwMsg) (h : wf = true → ok = true) :
    Shape s wf (s.onMsg ok p key x) true none true := onTurn_shape ok _ h

theorem onPartMach_shape (f : Mach → Mach) : Shape s wf (s.onPartMach f) false none true := .part _

theorem onCave_shape (f : Chip → Word) : Shape s wf (s.onCave f) false none false := .cave _

end Helpers

/-- The form of every command. -/
theorem exec_shape (s : State) (c : Instr) : Shape s (c.wellFormed s.part.vats) (exec c s) (needsHub c) (clockOf c) (writesDram c) := by
  cases c with
  | nop | halt | loop | callL | callR | ljmp | bar | aiset | aistep | skipZ | mov | lui | lui2 | add | sub | mul | and | or | xor | shl |
      shr | sar | min | max | slt | seq | ld | st | bload | bstart | bstop | bcast | swrite | sread | merge | hbar | pass | pclr | vchain |
      vsmax | vset | vrsclr | xfer | signal | wait | poll | hmov | hpush | hpop | fence | hflush | brd | bwr | bcpy | bdot | balu | bexp |
      bred | bquant | bdec | bwsend | bwstat =>
    exact issue_shape rfl (by decide)
  | ret =>
    simp only [exec]
    refine .both _ _ ?_
    exact hasUnit_of_onPart
  | signalApplied | hoopEntryAtHead | hoopPushLands | stallReport | pressPassComplete | dmaTransferComplete | dmaUnitFault | chainComplete |
      scratchReadComplete | buStartArrival | pendingStartBegin | buProgramEnd | buCompletionPost | buPstoreLoad | tsvWriteLand | mergeBegin
      | mergeComplete | wheyGrant | wheyLand | refresh | fenceTimeout =>
    simp only [exec]
    refine .vat _ _ _ ?_
    exact fun h => h
  | hoopMiddleGroup =>
    simp only [exec]
    refine .vatBoth _ _ _ ?_
    exact fun h => h
  | hubBarrierComplete | hdmDecoderCommit | biResponse | linkReset | configRequest | identify | identifyMemoryDevice | getSupportedLogs |
      getLog | getEventRecords | clearEventRecords | getHealthInfo | getPoisonList | mailboxUnsupported | getVersion | getCapabilities |
      negotiateAlgorithms | getDigests | getCertificate | challenge | getMeasurements | keyExchange | pqQuote | pqCert | begin | rollback |
      pwrCapWrite | dbgHalt | dbgBuHalt | bar0ReadRefused | bar0ReadWake | calComparison | arbiterTick | thermalSample | logEntryWrite |
      logIrq | hubSramUe | firmwareVerify | bootReady | hostLinkTrained =>
    simp only [exec]
    refine .chip _ _ ?_
    exact fun _ => rfl
  | finish | heartbeat | keyUpdate | endSession =>
    simp only [exec]
    exact inSession_shape _
  | domainChallenge | domainBind | ownerClaim | ideKeyProgram =>
    simp only [exec]
    exact secured_shape _
  | domainKeySet | domainKeyErase | domainKeyWrap | debugUnlock | debugLock | ownerTransfer =>
    simp only [exec]
    exact boundTo_shape _
  | rowSlotGrant | scrubPromotion | armLapsed | rowOperationDone | takeoverExchange | spareCopyFault | buCheckerTrip | biTimeout | jobAbort
      | subqPiWrite | subqEnable | vringEnable | vringCiWrite | kwPortEnable | verdictCoalesceTimer | portStateAdvance | authRetry | ack |
      nak | credit | flitError | kwAuthFail | retrain | keyReplace | portFailover | forwardLost | vatSleep | wakeRequest | droop |
      brineVisit | tsvCalibration | retrainEnd | vatAsleep =>
    simp only [exec]
    refine .chip _ _ ?_
    exact fun h => h
  | arm | fire | legacyBadKey =>
    simp only [exec]
    refine legacyAccess_shape _ ?_
    exact fun h => h
  | rowSlotEnd | spareZeroed | requalifyDone =>
    simp only [exec]
    refine .both _ _ ?_
    exact fun h => h
  | takeoverStart | recordAccept | jobDispatch | resultEntry | completionRecordWrite =>
    simp only [exec]
    refine onTurn_shape _ _ ?_
    exact fun h => h
  | coreCheckerTrip | vatAwake | vatHeartbeatLoss | baseDieInternalError =>
    simp only [exec]
    refine onMach_shape _ _ ?_
    exact fun h => h
  | fwdAbort =>
    simp only [exec]
    refine onMsg_shape _ _ _ _ ?_
    exact fun h => h
  | cxlMemRead | cxlMemWrite | cxlMemPartialWrite =>
    simp only [exec, execCxlMemWrite, execCxlMemPartialWrite]
    exact hostAccess_shape _
  | stage | quietPoint | applyCycle | quietTimeout | kwPromote | directoryWalkDone | contextClose | idleClose | affinageJobResult |
      migrationStart | migrationSwitch | mirrorGapTimeout | backlogResend | spillLost =>
    simp only [exec]
    refine onTurn_shape _ _ ?_
    exact fun _ => rfl
  | commit | pkgReset | registerWrite | dieTraining | bootScrub | directoryClear =>
    simp only [exec]
    refine onMach_shape _ _ ?_
    exact fun _ => rfl
  | takeover | retirePage | requalify | retireCore =>
    simp only [exec]
    exact failRequest_shape _
  | authExchange | manifestExchange =>
    simp only [exec]
    refine .chip _ _ ?_
    exact fun h => left_of_and (left_of_and h)
  | dataFlit =>
    simp only [exec]
    refine onTurn_shape _ _ ?_
    exact left_of_and
  | mirrorUpdate | mirrorReview | mirrorClose | mirrorAck | spillRecall | spillAck | fwdResult =>
    simp only [exec]
    refine onMsg_shape _ _ _ _ ?_
    exact left_of_and
  | mirrorFull | spillPut | spillReturn =>
    simp only [exec]
    refine onMsg_shape _ _ _ _ ?_
    exact fun h => left_of_and (left_of_and h)
  | fwdJob =>
    simp only [exec]
    refine onMsg_shape _ _ _ _ (fun h => ?_)
    exact Bool.and_eq_true_iff.mpr ⟨left_of_and (left_of_and (left_of_and h)), right_of_and h⟩
  | thermalTrip hub v die i temp =>
    simp only [exec]
    refine .guarded _ _ (fun h => ?_)
    simp only [Instr.wellFormed, Bool.and_eq_true] at h
    obtain ⟨hunit, hi⟩ := h
    refine trip_exists ?_ ?_
    · simpa using hunit
    · simpa using hi
  | caveReset | powerOnReset | perstAssert | tamper | sidebandPkgReset | standbySupplyLoss | packageResetEnd =>
    simp only [exec]
    exact onPartMach_shape _
  | supplyLoss g =>
    simp only [exec]
    refine .guarded _ _ (fun h => ?_)
    have hg : 2 ≤ g.toNat ∧ g.toNat < 8 + s.part.vats := by simpa [Instr.wellFormed] using h
    omega
  | caveStatus | trip | log | sidebandTamper =>
    simp only [exec]
    exact onCave_shape _

/-- Settles O6: the form of a well-formed command names units that exist. -/
theorem wellFormedCommandsRun : Obligations.WellFormedCommandsRun := by
  unfold Obligations.WellFormedCommandsRun
  intro s c h
  have hs := exec_shape s c
  rw [h] at hs
  exact hs.runs

/-- Settles O7: a command outside the list has a form that stores nothing. -/
theorem chipCommandsLeaveDram : Obligations.ChipCommandsLeaveDram := by
  unfold Obligations.ChipCommandsLeaveDram
  intro s t c hw h
  have hs := exec_shape s c
  rw [hw] at hs
  exact hs.keepsDram h

/-- Settles O8: the forms of commands that the hub performs, and of those that a vat's clocks make. -/
theorem nothingRunsWithoutTheHub : Obligations.NothingRunsWithoutTheHub := by
  unfold Obligations.NothingRunsWithoutTheHub
  intro s c h
  have hs := exec_shape s c
  rw [h] at hs
  refine ⟨fun hd hn => ?_, fun v hc hv => ?_⟩
  · rw [hn] at hs
    exact hs.dead hd
  · rw [hc] at hs
    exact hs.still hv

/-- Settles O3: whatever its form, a command keeps the part and the rest of the queue, and so does time. -/
theorem stepKeepsThePartAndTheQueue : Obligations.StepKeepsThePartAndTheQueue := by
  unfold Obligations.StepKeepsThePartAndTheQueue
  intro s t h
  cases hq : s.pending with
  | nil =>
    obtain ⟨hstep, hkept, _⟩ := emptyQueueLetsTimePass s hq
    obtain rfl : s.tick = t := Host.Outcome.next.inj (hstep.symm.trans h)
    exact ⟨hkept.1, hkept.2.1.trans hq⟩
  | cons c rest =>
    exact (exec_shape _ c).keeps ((stepRunsTheFrontCommand s c rest hq).symm.trans h)

end Sys2Proof.Proofs
end

section
/-!
PROOFS. The canonical form of DRAM through the machine (O4), I: what the hub stores to a bank, page indexes, context records and images of pages.
-/

namespace Sys2Proof.Proofs

open Sys2Proof.Machine Sys2Proof.Safety Sys2Proof.Laws

/-- The DRAM of a machine holds its canonical form. -/
structure canon (m : Mach) : Prop where
  wf : Memory.wf m.dr = true

variable {m : Mach}

theorem canon_onChip (f : Chip → Chip) (h : canon m) : canon (m.onChip f) := ⟨h.wf⟩

theorem canon_withChip (k : Chip) (h : canon m) : canon { m with k := k } := ⟨h.wf⟩

theorem canon_foldl {α : Type} {f : Mach → α → Mach} (step : ∀ m a, canon m → canon (f m a)) (l : List α) (h : canon m) : canon (l.foldl f m) :=
  foldl_keeps canon f l m h step

/-- The same of a fold that gathers something beside the machine. -/
theorem canon_foldl_snd {α β : Type} {f : β × Mach → α → β × Mach} (step : ∀ b m a, canon m → ∃ b' m', f (b, m) a = (b', m') ∧ canon m')
    (l : List α) (b : β) (h : canon m) : canon (l.foldl f (b, m)).2 :=
  foldl_keeps (fun r => canon r.2) f l (b, m) h fun r a hr => by
    obtain ⟨b', m', hf, hm⟩ := step r.1 r.2 a hr
    exact hf ▸ hm

theorem canon_foldl_snd_snd {α β γ : Type} {f : β × γ × Mach → α → β × γ × Mach}
    (step : ∀ b c m a, canon m → ∃ b' c' m', f (b, c, m) a = (b', c', m') ∧ canon m') (l : List α) (b : β) (c : γ) (h : canon m) :
    canon (l.foldl f (b, c, m)).2.2 :=
  foldl_keeps (fun r => canon r.2.2) f l (b, c, m) h fun r a hr => by
    obtain ⟨b', c', m', hf, hm⟩ := step r.1 r.2.1 r.2.2 a hr
    exact hf ▸ hm

theorem canon_bankRun (v d a fuel o : Nat) (bs : List Byte) (h : canon m) : canon (Mach.bankRun v d a fuel m o bs) := by
  induction fuel generalizing m o bs with
  | zero => exact h
  | succ fuel ih =>
    unfold Mach.bankRun
    split
    · exact h
    · refine ih _ _ ⟨?_⟩
      dsimp only
      split
      · exact h.wf
      · exact foldl_keeps (fun dr => Memory.wf dr = true) _ _ _ h.wf fun _ _ hd => wf_putWord _ _ _ hd

theorem canon_rowWrite (v d a o : Nat) (bs : List Byte) (h : canon m) : canon (m.rowWrite v d a o bs) := by
  unfold Mach.rowWrite
  grind [canon_bankRun, canon_onChip]

theorem canon_bankWrite (v d a o : Nat) (bs : List Byte) (h : canon m) : canon (m.bankWrite v d a o bs) := by
  unfold Mach.bankWrite
  split
  · exact h
  · exact canon_foldl (fun _ _ h => canon_rowWrite _ _ _ _ _ h) _ h

theorem canon_hubWrite (v p : Nat) (bs : List Byte) (h : canon m) : canon (m.hubWrite v p bs) := by
  unfold Mach.hubWrite
  split
  · exact h
  · exact canon_foldl (fun _ _ h => canon_bankWrite _ _ _ _ _ h) _ h

theorem rowRead_dr (v d a o n : Nat) : (m.rowRead v d a o n).2.2.dr = m.dr := by
  unfold Mach.rowRead; dsimp only; split <;> rfl

theorem canon_rowRead (v d a o n : Nat) (h : canon m) : canon (m.rowRead v d a o n).2.2 := by
  unfold Mach.rowRead; dsimp only; split <;> exact ⟨h.wf⟩

theorem canon_bankRead (v d a o n : Nat) (h : canon m) : canon (m.bankRead v d a o n).2.2 := by
  unfold Mach.bankRead
  split
  · exact h
  · exact canon_foldl_snd_snd (fun _ _ _ _ h => ⟨_, _, _, rfl, canon_rowRead _ _ _ _ _ h⟩) _ _ _ h

theorem canon_hubRead (v p n : Nat) (h : canon m) : canon (m.hubRead v p n).2.2 := by
  unfold Mach.hubRead
  split
  · exact h
  · exact canon_foldl_snd_snd (fun _ _ _ _ h => ⟨_, _, _, rfl, canon_bankRead _ _ _ _ _ h⟩) _ _ _ h

theorem canon_putIndex (v d slot : Nat) (p : PageRec) (valid : Bool) (h : canon m) : canon (m.putIndex v d slot p valid) := by
  unfold Mach.putIndex; grind [canon_bankWrite]

theorem canon_putIndexes (v d slot : Nat) (ps : List PageRec) (valid : Bool) (h : canon m) : canon (m.putIndexes v d slot ps valid) :=
  canon_foldl (fun _ _ h => canon_putIndex _ _ _ _ _ h) _ h

theorem canon_clearSlot (v d slot : Nat) (banks : List Nat) (h : canon m) : canon (m.clearSlot v d slot banks) := by
  unfold Mach.clearSlot
  split
  · exact h
  · exact canon_foldl (fun _ _ h => canon_bankWrite _ _ _ _ _ (canon_bankRead _ _ _ _ _ h)) _ h

theorem canon_regionWrite (V v : Nat) (base : Nat → Nat) (off : Nat) (bs : List Byte) (h : canon m) : canon (m.regionWrite V v base off bs) := by
  unfold Mach.regionWrite; grind [canon_hubWrite]

theorem canon_putRecord (V i : Nat) (c : Ctx) (h : canon m) : canon (m.putRecord V i c) := canon_regionWrite _ _ _ _ _ h

theorem canon_putEntry (V : Nat) (place : Nat × Nat) (bs : List Byte) (h : canon m) : canon (m.putEntry V place bs) := canon_regionWrite _ _ _ _ _ h

theorem canon_setCtx (V i : Nat) (c : Ctx) (h : canon m) : canon (m.setCtx V i c) := by
  unfold Mach.setCtx; grind [canon_putRecord, canon_onChip, canon_putEntry]

theorem canon_zeroLedger (md : Model) (model v d slot : Nat) (h : canon m) : canon (m.zeroLedger md model v d slot) := by
  unfold Mach.zeroLedger; grind [canon_hubWrite]

theorem canon_pageImage (md : Model) (c : Ctx) (p : PageRec) (h : canon m) : canon (m.pageImage md c p).2 :=
  canon_bankRead _ _ _ _ _ (canon_bankRead _ _ _ _ _ h)

theorem canon_images (c : Ctx) (h : canon m) : canon (m.images c).2 := by
  unfold Mach.images
  split
  · exact canon_foldl_snd (fun _ _ _ h => ⟨_, _, rfl, canon_pageImage _ _ _ h⟩) _ _ h
  · exact h

theorem canon_tokenKv (md : Model) (c : Ctx) (p : PageRec) (place : Nat) (h : canon m) : canon (m.tokenKv md c p place).2 := by
  unfold Mach.tokenKv
  exact canon_foldl_snd (fun _ _ _ h => ⟨_, _, rfl, canon_bankRead _ _ _ _ _ h⟩) _ _
    (canon_foldl_snd (fun _ _ _ h => ⟨_, _, rfl, canon_bankRead _ _ _ _ _ h⟩) _ _ h)

theorem canon_sendFull (V i : Nat) (c : Ctx) (h : canon m) : canon (m.sendFull V i c) := by
  unfold Mach.sendFull
  extract_lets pkg seq x r
  split
  · exact canon_setCtx _ _ _ (canon_withChip _ (canon_images c h))
  · exact canon_onChip _ h

theorem canon_giveUp (i : Nat) (c : Ctx) (ps : List PageRec) (h : canon m) : canon (m.giveUp i c ps).1 := canon_putIndexes _ _ _ _ _ h

theorem canon_payOwed (i : Nat) (h : canon m) : canon (m.payOwed i) := by
  unfold Mach.payOwed; grind [canon_giveUp, canon_onChip]

theorem canon_freePages (c : Ctx) (h : canon m) : canon (m.freePages c) := by
  unfold Mach.freePages; grind [canon_clearSlot]

theorem canon_dropCtx (V i : Nat) (c : Ctx) (h : canon m) : canon (m.dropCtx V i c) := by
  unfold Mach.dropCtx; grind [canon_freePages, canon_putEntry, canon_putRecord, canon_onChip]

theorem canon_closeCtx (V i : Nat) (c : Ctx) (h : canon m) : canon (m.closeCtx V i c) := canon_onChip _ (canon_dropCtx V i c h)

theorem canon_growShadow (c : Ctx) (md : Model) (page : Nat) (h : canon m) : canon (m.growShadow c md page).1 := by
  unfold Mach.growShadow; grind [canon_putIndexes]

end Sys2Proof.Proofs
end

section
/-!
PROOFS. The canonical form of DRAM through the machine (O4), II: making, moving and closing contexts, rings, and cores and vats that fail.
-/

namespace Sys2Proof.Proofs

open Sys2Proof.Machine Sys2Proof.Safety Sys2Proof.Laws

variable {m : Mach}

theorem canon_tryCreate {V domain model cls : Nat} {md : Model} {key : List Byte} {hash : Nat} {place : Nat × Nat} {r : Nat × Mach} (h : canon m)
    (hr : m.tryCreate V domain model cls md key hash place = some r) : canon r.2 := by
  unfold Mach.tryCreate at hr
  grind [canon_putIndexes, canon_setCtx, canon_onChip, canon_sendFull, canon_withChip]

/-- The machine that making a context leaves. -/
def madeMach : Made → Mach
  | .ok _ m => m
  | .refused _ m => m
  | .wait _ m => m

theorem canon_create (V domain model cls : Nat) (key : List Byte) (evicts : Option Nat) (h : canon m) :
    canon (madeMach (m.create V domain model cls key evicts)) := by
  unfold Mach.create
  have attempt {m : Mach} {md : Model} {places : Option (Nat × Nat)} {hash : Nat} {r : Nat × Mach} (h : canon m)
      (hr : places.bind (fun place => m.tryCreate V domain model cls md key hash place) = some r) : canon r.2 := by
    obtain ⟨place, _, hr⟩ := Option.bind_eq_some_iff.mp hr
    exact canon_tryCreate h hr
  dsimp only
  split
  · dsimp only [madeMach]; exact canon_onChip _ h
  · dsimp only [madeMach]; exact canon_onChip _ h
  · split
    · next hr => exact attempt h hr
    · split
      · exact h
      · dsimp only [madeMach]; exact canon_onChip _ h
      · split
        · exact h
        · split
          · dsimp only [madeMach]; exact canon_onChip _ (canon_setCtx _ _ _ (canon_images _ h))
          · generalize hlog : (if (m.k.flag Reg.kwSpill 31 && m.k.peerRefuses (m.k.getF Reg.kwSpill 30 29) domain) = true then
              m.onChip fun k => k.logKw 0x56 (domain + m.k.getF Reg.kwSpill 30 29 * 2 ^ 8) else m) = logged
            have hlogged : canon logged := by rw [← hlog]; split <;> [exact canon_onChip _ h; exact h]
            split
            · dsimp only [madeMach]; exact canon_onChip _ (canon_setCtx _ _ _ hlogged)
            · have closed {i : Nat} {c : Ctx} := canon_onChip (fun k => k.count Reg.ctxEvicted 1) (canon_closeCtx V i c hlogged)
              split
              · next hr => exact attempt closed hr
              · dsimp only [madeMach]; exact canon_onChip _ closed

theorem canon_addPage {c : Ctx} {md : Model} {page : Nat} {r : Mach × List PageRec} (h : canon m)
    (hr : m.addPage c md page = some r) : canon r.1 := by
  unfold Mach.addPage at hr
  split at hr
  · cases hr
  · obtain ⟨ps, _, rfl⟩ := Option.map_eq_some_iff.mp hr
    exact canon_putIndexes _ _ _ _ _ h

theorem canon_expire (md : Model) (mass tail count i fuel : Nat) (c : Ctx) (h : canon m) : canon (Mach.expire md mass tail count i fuel m c).1 := by
  induction fuel generalizing m c with
  | zero => exact h
  | succ fuel ih =>
    unfold Mach.expire
    split
    · exact h
    · exact ih _ (canon_giveUp _ _ _ h)

/-- `Mach.expireTo` as a pair. The equation is between functions: the kernel would count out the fuel of an applied one. -/
theorem expireTo_eq : @Mach.expireTo = fun m i c md tail count =>
    ((Mach.expire md (m.k.massPages c.model) tail count i (c.spanTo tail) m c).1,
      (Mach.expire md (m.k.massPages c.model) tail count i (c.spanTo tail) m c).2.checkShadow) := by
  have body : @Mach.expireTo = fun m i c md tail count =>
      match Mach.expire md (m.k.massPages c.model) tail count i (c.spanTo tail) m c with
      | (m, c) => (m, c.checkShadow) := rfl
  refine body.trans ?_
  funext m i c md tail count
  generalize Mach.expire md (m.k.massPages c.model) tail count i (c.spanTo tail) m c = x
  cases x
  rfl

theorem canon_fst {α : Type} {x : α} (h : canon m) : canon (m, x).1 := h

theorem canon_expireTo (i : Nat) (c : Ctx) (md : Model) (tail count : Nat) (h : canon m) : canon (m.expireTo i c md tail count).1 := by
  rw [expireTo_eq]
  exact canon_fst (canon_expire _ _ _ _ _ _ _ h)

theorem canon_moveTail (c : Ctx) (md : Model) (page : Nat) (h : canon m) : canon (m.moveTail c md page).1 := by
  unfold Mach.moveTail
  split
  · exact h
  · next hr => exact canon_growShadow _ _ _ (canon_addPage h hr)

theorem canon_review (i : Nat) (c : Ctx) (md : Model) (h : canon m) : canon (m.review i c md) := by
  unfold Mach.review
  grind [canon_hubRead, canon_hubWrite, canon_withChip]

theorem canon_affResult (j : AffJob) (status : JobStatus) (h : canon m) : canon (m.affResult j status) := by
  unfold Mach.affResult
  grind [canon_bankRead, canon_onChip]

theorem canon_wordsAt (v d a o n : Nat) (h : canon m) : canon (m.wordsAt v d a o n).2 := by
  exact canon_foldl_snd (fun _ _ _ h => ⟨_, _, rfl, canon_rowRead _ _ _ _ _ h⟩) _ _ h

theorem canon_putWords (v d a o : Nat) (ws : List WordRead) (h : canon m) : canon (m.putWords v d a o ws) := by
  refine canon_foldl (fun m x h => canon_foldl (fun m i h => ?_) _ (canon_rowWrite _ _ _ _ _ h)) _ h
  dsimp only
  split
  · split
    · exact ⟨foldl_keeps (fun dr => Memory.wf dr = true) _ _ _ h.wf fun _ _ hd => wf_putMarked _ _ _ hd⟩
    · exact h
  · exact h

theorem canon_copyPage (md : Model) (v d v' d' : Nat) (p q : PageRec) (h : canon m) : canon (m.copyPage md v d v' d' p q) :=
  canon_putWords _ _ _ _ _ (canon_wordsAt _ _ _ _ _ (canon_putWords _ _ _ _ _ (canon_wordsAt _ _ _ _ _ h)))

theorem canon_startMigration (V i : Nat) (c : Ctx) (md : Model) (hm : Home) (keep : List PageRec) (h : canon m) :
    canon (m.startMigration V i c md hm keep) :=
  canon_setCtx _ _ _ (canon_putIndexes _ _ _ _ _ (canon_foldl (fun _ _ h => canon_copyPage _ _ _ _ _ _ _ h) _ h))

theorem canon_catchUp {c : Ctx} {md : Model} {g : Migration} {narrow : DieLayout → DieLayout} {r} (h : canon m)
    (hr : m.catchUp c md g narrow = some r) : canon r.1 := by
  unfold Mach.catchUp at hr
  grind [canon_putIndexes]

theorem canon_ringRead (V r i n : Nat) (h : canon m) : canon (m.ringRead V r i n).2.2 := by
  exact canon_foldl_snd_snd (fun _ _ _ _ h => ⟨_, _, _, rfl, canon_hubRead _ _ _ h⟩) _ _ _ h

theorem canon_readBucket (V n : Nat) (h : canon m) : canon (m.readBucket V n) := by
  unfold Mach.readBucket; grind [canon_hubRead]

theorem canon_addAhead {md : Model} {n : Nat} {c : Ctx} {page : Nat} {r : Mach × List PageRec} (h : canon m)
    (hr : Mach.addAhead md n m c page = some r) :
    canon r.1 := by
  induction n generalizing m c page r with
  | zero => cases hr; exact h
  | succ n ih =>
    unfold Mach.addAhead at hr
    split at hr
    · cases hr
    · next hp =>
      split at hr
      · next hq =>
        have rest := ih (canon_addPage h hp) hq
        cases hr
        exact rest
      · cases hr

theorem canon_retryTail (c : Ctx) (md : Model) (h : canon m) : canon (m.retryTail c md).1 := by
  have moved := canon_moveTail c md ((c.tail + 1) % 2 ^ 24) h
  unfold Mach.retryTail
  split
  · exact h
  · exact h
  · split <;> next he => rw [he] at moved; exact moved

theorem canon_makeRoom (V i : Nat) (c : Ctx) (md : Model) (n : Nat) (h : canon m) : canon (m.makeRoom V i c md n).1 := by
  have retried := canon_retryTail c md h
  unfold Mach.makeRoom
  split
  · next m1 c1 he =>
    rw [he] at retried
    exact canon_fst (canon_setCtx _ _ _ retried)
  · next m1 c1 he =>
    rw [he] at retried
    dsimp only at retried ⊢
    have expired (tail count : Nat) (p : Prop) [Decidable p] : canon (if p then (m1, c1) else m1.expireTo i c1 md tail count).1 := by
      split <;> [exact retried; exact canon_expireTo _ _ _ _ _ retried]
    split
    · next ha => exact canon_fst (canon_setCtx _ _ _ (canon_addAhead (expired ..) ha))
    · exact canon_fst (canon_setCtx _ _ _ (expired ..))

theorem canon_dropAhead (V : Nat) (j : Job) (h : canon m) : canon (m.dropAhead V j) := by
  unfold Mach.dropAhead; grind [canon_giveUp, canon_setCtx]

theorem canon_failJob (V t status : Nat) (h : canon m) : canon (m.failJob V t status) := by
  unfold Mach.failJob; grind [canon_dropAhead, canon_onChip]

theorem canon_failJobsOf (V core : Nat) (h : canon m) : canon (m.failJobsOf V core) := by
  refine canon_foldl (fun m t h => ?_) _ h
  grind [canon_failJob]

theorem canon_mirrorCommit (V i : Nat) (c : Ctx) (md : Model) (tail0 count0 n : Nat)
    (h : canon m) : canon (m.mirrorCommit V i c md tail0 count0 n) := by
  unfold Mach.mirrorCommit
  split
  · exact h
  · split
    · exact canon_withChip _ h
    · extract_lets seq pkg places
      generalize hx : places.foldl (fun (a : List TokenKv × Mach) x => let y := a.2.tokenKv md c x.1 x.2; (a.1 ++ [y.1], y.2)) ([], m) = x
      have told : canon x.2 := by
        rw [← hx]
        exact canon_foldl_snd (fun _ _ _ h => ⟨_, _, rfl, canon_tokenKv _ _ _ _ h⟩) _ _ h
      dsimp only
      split
      · exact canon_setCtx _ _ _ (canon_withChip _ told)
      · exact canon_withChip _ told

theorem canon_growTo (c : Ctx) (md : Model) (n : Nat) (h : canon m) : canon (m.growTo c md n).1 :=
  foldl_keeps (fun r : Mach × Ctx => canon r.1) _ _ _ h (fun _ _ h => canon_growShadow _ _ _ h)

theorem canon_runClose (V i : Nat) (c : Ctx) (tag : Option Nat) (h : canon m) : canon (m.runClose V i c tag) := by
  unfold Mach.runClose; grind [canon_setCtx, canon_closeCtx, canon_onChip]

theorem canon_throughRecords (V : Nat) (old : Chip) (h : canon m) : canon (m.throughRecords V old) := by
  refine canon_foldl (fun m t h => ?_) _ h
  grind [canon_putRecord]

theorem canon_retireCore (p : Part) (v c : Nat) (h : canon m) : canon (m.retireCore p v c) := by
  unfold Mach.retireCore
  split
  · exact h
  · exact canon_onChip _ (canon_failJobsOf _ _ (canon_onChip _ h))

theorem canon_loseCtx (V i : Nat) (c : Ctx) (h : canon m) : canon (m.loseCtx V i c) := by
  unfold Mach.loseCtx; grind [canon_setCtx, canon_dropCtx, canon_onChip]

theorem canon_dropMigrations (V v : Nat) (h : canon m) : canon (m.dropMigrations V v) := canon_foldl (fun _ _ h => canon_setCtx _ _ _ h) _ h

theorem canon_loseVat (p : Part) (v : Nat) (h : canon m) : canon (m.loseVat p v) := by
  unfold Mach.loseVat
  split
  · exact h
  · refine canon_onChip _ (canon_dropMigrations _ _ (canon_foldl (fun _ _ h => canon_loseCtx _ _ _ h) _ ?_))
    exact canon_foldl (fun _ _ h => canon_failJobsOf _ _ h) _ (canon_onChip _ h)

end Sys2Proof.Proofs
end

section
/-!
PROOFS. The canonical form of DRAM through the machine (O4), III: the commit of a job, copies held for a peer, and messages received.
-/

namespace Sys2Proof.Proofs

open Sys2Proof.Machine Sys2Proof.Safety Sys2Proof.Laws

variable {m : Mach}

theorem canon_commit (V i : Nat) (c : Ctx) (md : Model) (n : Nat) (h : canon m) : canon (m.commit V i c md n) := by
  have expired := @canon_expireTo
  generalize hf : @Mach.commit = f
  delta Mach.commit at hf
  revert hf expired
  generalize @Mach.expireTo = E
  revert E
  refine id ?_
  rintro E expired rfl
  beta_reduce
  extract_lets +onlyGivenNames total moved c0
  generalize hx : (if moved = 0 then _ else _ : Mach × Ctx × Bool) = x
  have hmoved : canon x.1 := by
    rw [← hx]
    split
    · exact canon_fst h
    · split
      · exact canon_fst (canon_moveTail _ _ _ (canon_growTo _ _ _ h))
      · exact canon_fst (canon_growTo _ _ _ h)
  clear hx
  revert x
  refine id ?_
  rintro ⟨m1, c1, filled⟩ hmoved
  have hexp := expired i c1 md c1.tail c1.tailCount hmoved
  dsimp only
  generalize E m1 i c1 md c1.tail c1.tailCount = y at hexp
  have told := canon_mirrorCommit V i y.2 md c.tail c.tailCount n (canon_onChip (fun k => k.hotTouch i y.2) (canon_setCtx V i y.2 hexp))
  split
  · split
    · exact canon_review _ _ _ told
    · exact told
  · exact told

theorem canon_putImages (v d slot : Nat) (ps : List PageRec) (is_ : List PageImage) (h : canon m) : canon (m.putImages v d slot ps is_) :=
  canon_putIndexes _ _ _ _ _ (canon_foldl (fun _ _ h => canon_bankWrite _ _ _ _ _ (canon_bankWrite _ _ _ _ _ h)) _ h)

theorem canon_holdCopy {V pkg : Nat} {hd : CtxHdr} {key : List Byte} {is_ : List PageImage} {spill : Bool} {m' : Mach} (h : canon m)
    (hr : m.holdCopy V pkg hd key is_ spill = some m') : canon m' := by
  unfold Mach.holdCopy at hr
  grind [canon_setCtx, canon_putImages, canon_withChip]

theorem canon_replaceCopy {V i : Nat} {c : Ctx} {b : Standby} {hd : CtxHdr} {is_ : List PageImage} {m' : Mach} (h : canon m)
    (hr : m.replaceCopy V i c b hd is_ = some m') : canon m' := by
  obtain ⟨home, _, rfl⟩ := Option.map_eq_some_iff.mp hr
  exact canon_setCtx _ _ _ (canon_putImages _ _ _ _ _ (canon_freePages _ h))

theorem canon_putKv (md : Model) (c : Ctx) (t : TokenKv) (h : canon m) : canon (Mach.putKv md c m t) := by
  unfold Mach.putKv
  split
  · exact h
  · exact canon_foldl (fun _ _ h => canon_bankWrite _ _ _ _ _ h) _ (canon_foldl (fun _ _ h => canon_bankWrite _ _ _ _ _ h) _ h)

theorem canon_growCopy {md : Model} {n : Nat} {c : Ctx} {r : Mach × Ctx} (h : canon m) (hr : Mach.growCopy md n m c = some r) : canon r.1 := by
  induction n generalizing m c r with
  | zero => cases hr; exact canon_fst h
  | succ n ih =>
    unfold Mach.growCopy at hr
    split at hr
    · cases hr
    · next hp => exact ih (canon_addPage h hp) hr

theorem canon_applyUpdate {V i : Nat} {c : Ctx} {b : Standby} {hd : CtxHdr} {kv : List TokenKv} {m' : Mach} (h : canon m)
    (hr : m.applyUpdate V i c b hd kv = some m') : canon m' := by
  have grown := @canon_growCopy
  generalize hf : @Mach.applyUpdate = f at hr
  delta Mach.applyUpdate at hf
  revert hf grown hr
  generalize @Mach.growCopy = G
  revert G
  refine id ?_
  rintro G grown rfl hr
  beta_reduce at hr
  split at hr
  · cases hr
  · split at hr
    · cases hr
    · next hg =>
      have hm := grown h hg
      obtain rfl := Option.some.inj hr
      exact canon_setCtx _ _ _ (canon_giveUp _ _ _ (canon_foldl (fun _ _ h => canon_putKv _ _ _ h) _ hm))

theorem canon_drainHeld (V i fuel : Nat) (h : canon m) : canon (Mach.drainHeld V i fuel m) := by
  induction fuel generalizing m with
  | zero => exact canon_onChip _ h
  | succ fuel ih =>
    unfold Mach.drainHeld
    have drained := canon_onChip (fun k => k.drainReviews i) h
    dsimp only
    split
    · exact drained
    · split
      · exact drained
      · split
        · split
          · exact drained
          · split
            · next hu => exact ih (canon_onChip _ (canon_applyUpdate drained hu))
            · exact drained
        · exact canon_onChip _ (canon_runClose _ _ _ _ drained)
        · exact drained

theorem canon_takeFull {V pkg : Nat} {hd : CtxHdr} {key : List Byte} {pages : List PageImage} {m' : Mach} (h : canon m)
    (hr : m.takeFull V pkg hd key pages = some m') : canon m' := by
  unfold Mach.takeFull at hr
  split at hr
  · split at hr
    · cases hr; exact canon_onChip _ h
    · split at hr
      · cases hr
      · split at hr
        · next hu => cases hr; exact canon_drainHeld _ _ _ (canon_onChip _ (canon_replaceCopy h hu))
        · cases hr; exact canon_onChip _ h
  · split at hr
    · next hu => cases hr; exact canon_onChip _ (canon_holdCopy h hu)
    · cases hr; exact canon_onChip _ h

theorem canon_takeUpdate {V pkg : Nat} {hd : CtxHdr} {kv : List TokenKv} {m' : Mach} (h : canon m)
    (hr : m.takeUpdate V pkg hd kv = some m') : canon m' := by
  unfold Mach.takeUpdate at hr
  split at hr
  · cases hr; exact h
  · split at hr
    · cases hr; exact canon_onChip _ h
    · split at hr
      · cases hr; exact canon_onChip _ h
      · split at hr
        · cases hr
        · split at hr
          · next hu => cases hr; exact canon_drainHeld _ _ _ (canon_onChip _ (canon_applyUpdate h hu))
          · cases hr; exact canon_onChip _ h

theorem canon_takeClose (V pkg : Nat) (hd : CtxHdr) (h : canon m) : canon (m.takeClose V pkg hd) := by
  unfold Mach.takeClose
  dsimp only
  split
  · exact canon_onChip _ h
  · split
    · exact canon_onChip _ (canon_runClose _ _ _ _ h)
    · split <;> exact canon_onChip _ h

theorem canon_takeAsk (V handle : Nat) (h : canon m) : canon (m.takeAsk V handle) := by
  unfold Mach.takeAsk
  split
  · exact canon_sendFull _ _ _ h
  · exact h

theorem canon_gapTimeout (V i : Nat) (h : canon m) : canon (m.gapTimeout V i) := by
  unfold Mach.gapTimeout
  split
  · exact h
  · dsimp only
    split
    · exact h
    · exact canon_onChip _ (canon_drainHeld _ _ _ h)

theorem canon_promote (V i : Nat) (c : Ctx) (h : canon m) : canon (m.promote V i c) := by
  unfold Mach.promote
  exact canon_onChip _ (canon_setCtx _ _ _ (canon_onChip _ h))

theorem canon_doPromote (V source : Nat) (force : Bool) (h : canon m) : canon (m.doPromote V source force) := by
  unfold Mach.doPromote
  dsimp only
  split
  · exact canon_onChip _ h
  · split
    · exact canon_onChip _ h
    · exact canon_onChip _ (canon_onChip _ (canon_foldl (fun _ _ h => canon_promote _ _ _ h) _ h))

theorem canon_takePut {V pkg : Nat} {hd : CtxHdr} {key : List Byte} {pages : List PageImage} {m' : Mach} (h : canon m)
    (hr : m.takePut V pkg hd key pages = some m') : canon m' := by
  unfold Mach.takePut at hr
  split at hr
  · split at hr
    · cases hr; exact h
    · split at hr
      · cases hr
      · split at hr
        · next hu => cases hr; exact canon_onChip _ (canon_replaceCopy h hu)
        · cases hr; exact canon_onChip _ h
  · split at hr
    · next hu => cases hr; exact canon_onChip _ (canon_holdCopy h hu)
    · cases hr; exact canon_onChip _ h

theorem canon_takeRecall (V pkg : Nat) (hd : CtxHdr) (h : canon m) : canon (m.takeRecall V pkg hd) := by
  unfold Mach.takeRecall
  split
  · split
    · exact h
    · exact canon_onChip _ (canon_setCtx _ _ _ (canon_images _ h))
  · exact h

theorem canon_takeReturn (V pkg : Nat) (hd : CtxHdr) (pages : List PageImage) (h : canon m) : canon (m.takeReturn V pkg hd pages) := by
  unfold Mach.takeReturn
  split
  · exact h
  · split
    · exact h
    · split
      · exact canon_onChip _ h
      · extract_lets +onlyGivenNames c1 m1
        have back : canon m1 := canon_onChip _ (canon_setCtx _ _ _ (canon_putImages _ _ _ _ _ h))
        split
        · exact canon_sendFull _ _ _ back
        · exact back

theorem canon_takeSpillAck {V pkg : Nat} {hd : CtxHdr} {result : Nat} {m' : Mach} (h : canon m)
    (hr : m.takeSpillAck V pkg hd result = some m') : canon m' := by
  unfold Mach.takeSpillAck at hr
  grind [canon_onChip, canon_freePages, canon_zeroLedger, canon_setCtx, canon_runClose]

theorem canon_receive {V p : Nat} {key : List Byte} {x : KwMsg} {m' : Mach} (h : canon m) (hr : m.receive V p key x = some m') : canon m' := by
  cases x with
  | mirrorFull => exact canon_takeFull h hr
  | mirrorUpdate => exact canon_takeUpdate h hr
  | spillPut => exact canon_takePut h hr
  | spillAck => exact canon_takeSpillAck h hr
  | mirrorClose => cases hr; exact canon_takeClose _ _ _ h
  | mirrorAsk => cases hr; exact canon_takeAsk _ _ h
  | spillRecall => cases hr; exact canon_takeRecall _ _ _ h
  | spillReturn => cases hr; exact canon_takeReturn _ _ _ _ h
  | mirrorReview | mirrorAck | fwdJob | fwdResult | fwdAbort | manifest => cases hr; exact canon_onChip _ h

theorem canon_receive_getD {m0 : Mach} (V p : Nat) (key : List Byte) (x : KwMsg) (h0 : canon m0) (h : canon m) :
    canon ((m.receive V p key x).getD m0) := by
  cases hr : m.receive V p key x with
  | none => exact h0
  | some m' => exact canon_receive h hr

theorem canon_takeFlit (V p : Nat) (f : DataFlit) (h : canon m) : canon (m.takeFlit V p f) := by
  unfold Mach.takeFlit
  dsimp only
  split
  · exact h
  · split
    · exact canon_onChip _ h
    · split
      · exact canon_withChip _ h
      · split
        · exact canon_withChip _ h
        · split
          · exact canon_withChip _ h
          · split
            · exact canon_withChip _ h
            · exact canon_receive_getD _ _ _ _ h (canon_withChip _ h)

end Sys2Proof.Proofs
end

section
/-!
PROOFS. The canonical form of DRAM (O4), IV: what the chip stores for a hoop's middle, a transfer, the host, and a row slot that ends.
-/

namespace Sys2Proof.Proofs

open Sys2Proof.Machine Sys2Proof.Safety Sys2Proof.Laws

variable {dr : Dram} {m : Mach}

theorem wf_fold {α : Type} {f : Dram → α → Dram} (step : ∀ dr a, Memory.wf dr = true → Memory.wf (f dr a) = true) (l : List α)
    (h : Memory.wf dr = true) : Memory.wf (l.foldl f dr) = true :=
  foldl_keeps (fun dr => Memory.wf dr = true) f l dr h step

/-- The same of a fold over DRAM and the chip. -/
theorem wf_foldBoth {α : Type} {f : Dram × Chip → α → Dram × Chip} (step : ∀ r a, Memory.wf r.1 = true → Memory.wf (f r a).1 = true)
    (l : List α) (r : Dram × Chip) (h : Memory.wf r.1 = true) : Memory.wf (l.foldl f r).1 = true :=
  foldl_keeps (fun r => Memory.wf r.1 = true) f l r h step

/-! ### The chip's own stores -/

theorem wf_middleWrite (k : Chip) (v c s : Nat) (h : Memory.wf dr = true) : Memory.wf (Chip.middleWrite dr k v c s).1 = true := by
  unfold Chip.middleWrite
  dsimp only
  split
  · exact h
  · exact wf_writeBytes _ _ _ _ _ _ h

theorem wf_landRow (p : DmaPlan) (k : Chip) (v row : Nat) (h : Memory.wf dr = true) : Memory.wf (p.landRow dr k v row).1 = true :=
  wf_foldBoth (fun _ _ h => wf_mergeAt _ _ _ _ _ _ _ _ h) _ _ h

theorem wf_dmaWriteEnd (k : Chip) (g : Engine) (row : Nat) (h : Memory.wf dr = true) : Memory.wf (k.dmaWriteEnd dr g row).1 = true := by
  unfold Chip.dmaWriteEnd
  split
  · split
    · split
      · exact h
      · exact wf_landRow _ _ _ _ h
    · exact h
  · exact h

theorem wf_hostWord (k : Chip) (v pa dpa : Nat) (bs : List Byte) (en : Nat → Bool) (poison : Bool) (h : Memory.wf dr = true) :
    Memory.wf (k.hostWord dr v pa dpa bs en poison).1 = true := by
  unfold Chip.hostWord
  split
  · exact wf_storeAt _ _ _ _ _ _ h
  · split
    · split
      · exact wf_storeAt _ _ _ _ _ _ h
      · exact h
    · have merged := wf_mergeAt k dr v pa 0 bs en poison h
      revert merged
      rcases k.mergeAt dr v pa 0 bs en poison with ⟨dr', k', refused⟩
      intro merged
      dsimp only
      split <;> exact merged

theorem wf_hostWrite (k : Chip) (v pa dpa : Nat) (bs : List Byte) (en : Nat → Bool) (poison diag : Bool) (h : Memory.wf dr = true) :
    Memory.wf (k.hostWrite dr v pa dpa bs en poison diag).1 = true := by
  unfold Chip.hostWrite
  split
  · exact wf_fold (fun _ _ h => wf_putPattern _ _ _ _ h) _ (wf_fold (fun _ _ h => wf_putPattern _ _ _ _ h) _ h)
  · exact wf_hostWord _ _ _ _ _ _ _ (wf_hostWord _ _ _ _ _ _ _ h)

theorem wf_hostOver (k : Chip) (v d b row : Nat) (h : Memory.wf dr = true) : Memory.wf (k.hostOver dr v d b row) = true := by
  refine wf_fold (fun dr e h => ?_) _ h
  split
  · exact wf_hostWrite _ _ _ _ _ _ _ _ h
  · exact h

theorem wf_hostPerform (k : Chip) (v : Nat) (r : HostReq) (diag : Bool) (waited : Nat) (h : Memory.wf dr = true) :
    Memory.wf (k.hostPerform dr v r diag waited).1 = true := by
  unfold Chip.hostPerform
  split
  · exact wf_hostWrite _ _ _ _ _ _ _ _ h
  · exact h

theorem wf_hostTurn (k : Chip) (V v : Nat) (r : HostReq) (waited : Nat)
    (h : Memory.wf dr = true) : Memory.wf (k.hostTurn dr V v r waited).1 = true := by
  unfold Chip.hostTurn
  extract_lets decoder
  split
  · exact h
  · exact wf_hostPerform _ _ _ _ _ h

theorem wf_hostDram (k : Chip) (V decoder v pa dpa : Nat) (r : HostReq) (h : Memory.wf dr = true) :
    Memory.wf (k.hostDram dr V decoder v pa dpa r).1 = true := by
  unfold Chip.hostDram
  split
  · exact h
  · split
    · exact h
    · split
      · exact h
      · extract_lets fenced k'
        by_cases waits : (fenced || k'.lineWaits v pa || (k'.vat v).power ≠ .awake ||
            (if r.write then 256 ≤ (k'.vat v).wq.length else !k'.turnOf v pa (.host r) 1)) = true
        · rw [if_pos waits]; exact h
        · rw [if_neg waits]
          have performed := wf_hostPerform k' v r (decoder = 1) 0 h
          revert performed
          rcases k'.hostPerform dr v r (decoder = 1) 0 with ⟨dr', k''⟩
          intro performed
          dsimp only
          split <;> exact performed

/-! ### What a slot stores -/

theorem wf_storeLatch (v d b row : Nat) (l : Latch) (h : Memory.wf dr = true) : Memory.wf (storeLatch dr v d b row l) = true :=
  wf_fold (fun _ _ h => wf_putEither _ _ _ _ h) _ h

theorem wf_legacyEnd (k : Chip) (v d a : Nat) (h : Memory.wf dr = true) : Memory.wf (k.legacyEnd dr v d a).1 = true := by
  unfold Chip.legacyEnd
  extract_lets +onlyGivenNames l
  split
  · exact h
  · extract_lets +onlyGivenNames op n
    split
    · exact h
    · exact wf_fold (fun _ _ h => wf_storeAt _ _ _ _ _ _ h) _ h

theorem wf_copyRow (k : Chip) (v d : Nat) (h : Memory.wf dr = true) : Memory.wf (k.copyRow dr v d).1 = true := by
  unfold Chip.copyRow
  dsimp only
  split
  · exact h
  · exact wf_fold (fun _ _ h => wf_putEither _ _ _ _ h) _ h

theorem wf_walkWord (V v d b row : Nat) (r : Dram × Chip) (i : Nat)
    (h : Memory.wf r.1 = true) : Memory.wf (Chip.walkWord V v d b row r i).1 = true := by
  unfold Chip.walkWord
  dsimp only
  split
  · exact wf_putWord _ _ _ h
  · exact wf_putMarked _ _ _ h
  · exact h

theorem wf_slotEnd (k : Chip) (V v d b : Nat) (r : SlotReq) (h : Memory.wf dr = true) : Memory.wf (k.slotEnd dr V v d b r).1 = true := by
  unfold Chip.slotEnd
  extract_lets +onlyGivenNames u
  split
  case h_2 => exact wf_hostOver _ _ _ _ _ (wf_storeLatch _ _ _ _ _ h)
  case h_3 q _ =>
    have turned := wf_hostTurn k V v q (k.now - r.arrived) h
    revert turned
    rcases k.hostTurn dr V v q (k.now - r.arrived) with ⟨dr', k'⟩
    intro turned
    dsimp only
    split <;> exact turned
  case h_5 a o bs _ => exact wf_hostOver _ _ _ _ _ (canon_bankRun v d a _ o bs ⟨h⟩).wf
  case h_7 => exact wf_hostOver _ _ _ _ _ (wf_dmaWriteEnd _ _ _ h)
  case h_8 => exact wf_hostOver _ _ _ _ _ (wf_legacyEnd _ _ _ _ h)
  case h_9 => split <;> exact h
  case h_10 => exact wf_copyRow _ _ _ h
  case h_12 => exact wf_foldBoth (fun _ _ h => wf_walkWord _ _ _ _ _ _ _ h) _ _ h
  all_goals exact h

theorem wf_cells (c : List (Nat × Byte)) (n : Nat) (xs : List Byte) (h : Memory.wf dr = true) (hc : c = dr.cells) :
    Memory.wf { dr with cells := storeRun 0 c n xs } = true := by
  rw [wf_parts] at h ⊢
  exact ⟨canonical_storeRun _ _ _ _ (hc ▸ h.1), h.2⟩

theorem wf_patternBank (v d b : Nat) (h : Memory.wf dr = true) : Memory.wf (dr.patternBank v d b) = true :=
  wf_cells _ _ _ (wf_clear _ _ _ h) rfl

end Sys2Proof.Proofs
end

section
/-!
PROOFS. The canonical form of DRAM (O4), V: runs of row slots, and the routines of the library that a bank unit performs.
-/

namespace Sys2Proof.Proofs

open Sys2Proof.Machine Sys2Proof.Safety Sys2Proof.Laws

variable {m : Mach} {α β : Type}

/-- The DRAM that a run of row slots leaves holds its canonical form, however the run ends. -/
def runCanon : RowRun α → Prop
  | .fault _ m => canon m
  | .ok _ m => canon m

theorem runCanon_ok {x : α} (h : canon m) : runCanon (.ok x m) := h

theorem runCanon_fault {f : BankCause} (h : canon m) : runCanon (α := α) (.fault f m) := h

theorem runCanon_bind {r : RowRun α} {f : α → Mach → RowRun β} (h : runCanon r) (step : ∀ x m, canon m → runCanon (f x m)) :
    runCanon (r.bind f) := by
  cases r with
  | fault c m => exact h
  | ok x m => exact step x m h

theorem runCanon_onFault {r : RowRun α} {f : Mach → Mach} (h : runCanon r) (step : ∀ m, canon m → canon (f m)) : runCanon (r.onFault f) := by
  cases r with
  | fault c m => exact step m h
  | ok x m => exact h

theorem runCanon_runList {f : α → Mach → RowRun β} (step : ∀ a m,
    canon m → runCanon (f a m)) (l : List α) (h : canon m) : runCanon (runList f l m) := by
  induction l generalizing m with
  | nil => exact h
  | cons a l ih => exact runCanon_bind (step a m h) fun x m h => runCanon_bind (ih h) fun xs m h => h

theorem canon_setBu (p : BankAt) (u : Bu) (h : canon m) : canon (m.setBu p u) := canon_withChip _ h

theorem canon_slot (p : BankAt) (h : canon m) : canon (m.slot p) := canon_withChip _ h

theorem canon_used (p : BankAt) (o n : Nat) (h : canon m) : canon (m.used p o n) := canon_setBu _ _ h

theorem canon_putScratch (p : BankAt) (o : Nat) (bs : List Byte) (h : canon m) : canon (m.putScratch p o bs) := canon_setBu _ _ h

theorem runCanon_readSlot (p : BankAt) (row : Nat) (h : canon m) : runCanon (readSlot p row m) := by
  unfold readSlot
  split
  · exact h
  · exact canon_slot p (canon_withChip _ h)

theorem runCanon_readSpan (p : BankAt) (a n : Nat) (h : canon m) : runCanon (readSpan p a n m) :=
  runCanon_bind (runCanon_runList (fun _ _ h => runCanon_readSlot _ _ h) _ h) fun _ _ h => runCanon_ok h

theorem runCanon_readClean (p : BankAt) (a n : Nat) (h : canon m) : runCanon (readClean p a n m) :=
  runCanon_bind (runCanon_readSpan p a n h) fun r m h => by
    split
    · exact h
    · exact h

theorem runCanon_writeSlot (p : BankAt) (row o : Nat) (bs : List Byte) (h : canon m) : runCanon (writeSlot p row o bs m) := by
  unfold writeSlot
  split
  · exact h
  · exact canon_slot p ⟨wf_fold (fun _ _ h => wf_putEither _ _ _ _ h) _ h.wf⟩

theorem runCanon_writeSpan (p : BankAt) (a : Nat) (bs : List Byte) (h : canon m) : runCanon (writeSpan p a bs m) :=
  runCanon_bind (runCanon_runList (fun _ _ h => runCanon_writeSlot _ _ _ _ h) _ h) fun _ _ h => runCanon_ok h

theorem runCanon_readPage (p : BankAt) (n : Nat) (e : PageIdx) (h : canon m) : runCanon (readPage p n e m) :=
  runCanon_bind (runCanon_readClean _ _ _ h) fun _ _ h => runCanon_bind (runCanon_readClean _ _ _ h) fun _ _ h => runCanon_ok h

theorem runCanon_entryRecords (p : BankAt) (b : Nat) (w : WaveHdr) (e : Query) (h : canon m) : runCanon (entryRecords p b w e m) :=
  runCanon_bind (runCanon_readClean _ _ _ h) fun _ _ h =>
    runCanon_bind (runCanon_runList (fun _ _ h => runCanon_readPage _ _ _ h) _ h) fun _ _ h => runCanon_ok h

theorem runCanon_attention (p : BankAt) (b : Nat) (h : canon m) : runCanon (attention p b m) := by
  unfold attention
  extract_lets +onlyGivenNames u o w
  split
  · exact h
  · extract_lets +onlyGivenNames qs es mine sound
    refine runCanon_bind (runCanon_onFault (runCanon_runList (fun j m h => ?_) _ h) fun m h => canon_used _ _ _ h) fun rs m h => ?_
    · split
      · exact runCanon_entryRecords _ _ _ _ h
      · exact h
    · extract_lets +onlyGivenNames m1 m2
      have worked : canon m2 := canon_withChip _ (canon_used _ _ _ h)
      split
      · exact runCanon_ok (canon_foldl (fun _ _ h => canon_putScratch _ _ _ h) _ worked)
      · refine runCanon_ok ?_
        split
        · exact worked
        · exact canon_putScratch _ _ _ worked

theorem runCanon_runJob (p : BankAt) (kind pidx : Nat) (j : JobRec) (h : canon m) : runCanon (runJob p kind pidx j m) := by
  unfold runJob
  extract_lets +onlyGivenNames at_
  split
  · exact h
  · refine runCanon_bind (runCanon_readClean _ _ _ h) fun w m h => ?_
    extract_lets +onlyGivenNames e
    split
    · exact h
    · split
      · exact h
      · split
        · exact runCanon_bind (runCanon_writeSpan _ _ _ h) fun _ _ h => runCanon_ok h
        · split
          · exact h
          · split
            · exact h
            · next md _ =>
              extract_lets +onlyGivenNames n tier da sa fits
              split
              · exact h
              · refine runCanon_bind (runCanon_readSpan _ _ _ h) fun sc m h => runCanon_bind (runCanon_readSpan _ _ _ h) fun dt m h => ?_
                split
                · exact h
                · exact runCanon_bind (runCanon_writeSpan _ _ _ (canon_withChip _ h)) fun _ _ h =>
                    runCanon_bind (runCanon_writeSpan _ _ _ h) fun _ _ h =>
                      runCanon_bind (runCanon_writeSpan _ _ _ h) fun _ _ h => runCanon_ok h

theorem runCanon_runJobs (p : BankAt) (kind : Nat) (h : canon m) : runCanon (runJobs p kind m) := by
  refine runCanon_bind (runCanon_runList (fun i m h => ?_) _ h) fun _ _ h => runCanon_ok (canon_used _ _ _ h)
  dsimp only
  split
  · exact h
  · split
    · exact h
    · exact runCanon_bind (runCanon_runJob _ _ _ _ h) fun _ _ h => runCanon_ok (canon_putScratch _ _ _ h)

theorem runCanon_libFill (p : BankAt) (h : canon m) : runCanon (libFill p m) := by
  unfold libFill
  dsimp only
  split
  · exact h
  · exact runCanon_bind (runCanon_runList (fun _ _ h => runCanon_writeSpan _ _ _ h) _ h) fun _ _ h => runCanon_ok (canon_used _ _ _ h)

theorem runCanon_libBank (e : Nat) (p : BankAt) (h : canon m) : runCanon (libBank e p m) := by
  unfold libBank
  split
  · exact runCanon_attention _ _ h
  · exact runCanon_attention _ _ h
  · exact runCanon_libFill _ h
  · exact runCanon_runJobs _ _ h

end Sys2Proof.Proofs
end

section
/-!
PROOFS. The canonical form of DRAM (O4), VI: resets, zeroisation and the apply, transactions and register writes.
-/

namespace Sys2Proof.Proofs

open Sys2Proof.Machine Sys2Proof.Safety Sys2Proof.Laws

variable {m : Mach}

theorem canon_empty {k : Chip} : canon { dr := { cells := [], marks := [] }, k := k } := ⟨rfl⟩

theorem canon_orWait {m' : Mach} (h : canon m) (h' : canon m') : canon (m.orWait m') := by
  unfold Mach.orWait
  split
  · exact h'
  · exact canon_onChip _ h

/-! ### Resets and supplies -/

theorem canon_endSlots (V : Nat) (h : canon m) : canon (m.endSlots V) := by
  refine canon_foldl (fun m x h => ?_) _ h
  dsimp only
  split
  · exact h
  · exact ⟨wf_slotEnd _ _ _ _ _ _ h.wf⟩

theorem canon_packageReset (p : Part) (cause : Nat) (h : canon m) : canon (m.packageReset p cause) := by
  unfold Mach.packageReset
  exact canon_onChip _ (canon_endSlots _ h)

theorem canon_resetTrigger (p : Part) (cause : Nat) (h : canon m) : canon (m.resetTrigger p cause) := by
  unfold Mach.resetTrigger
  split
  · exact canon_onChip _ h
  · exact canon_packageReset _ _ h

theorem canon_deferredReset (p : Part) (h : canon m) : canon (m.deferredReset p) := by
  unfold Mach.deferredReset
  split
  · exact h
  · exact canon_packageReset _ _ (canon_onChip _ h)

theorem canon_halt (c : Condition) : canon (m.halt c) := canon_empty

/-! ### Zeroisation and the apply -/

theorem canon_zeroRange (v p n : Nat) (h : canon m) : canon (m.zeroRange v p n) := by
  refine canon_foldl (fun m g h => ?_) _ h
  dsimp only
  split
  · exact h
  · exact ⟨wf_fold (fun _ _ h => wf_clear _ _ _ h) _ h.wf⟩

theorem canon_zeroBlock (V b : Nat) (h : canon m) : canon (m.zeroBlock V b) := canon_foldl (fun _ _ h => canon_zeroRange _ _ _ h) _ h

theorem canon_zeroNew (V : Nat) (k' : Chip) (h : canon m) : canon (m.zeroNew V k') := by
  unfold Mach.zeroNew
  refine canon_foldl (fun m r h => ?_) _ h
  dsimp only
  split
  · exact h
  · exact canon_zeroRange _ _ _ h

theorem canon_putWeights (k' : Chip) (c : PoolCore) (bytes : List Byte) (h : canon m) : canon (m.putWeights k' c bytes) := by
  refine canon_foldl (fun m i h => ?_) _ h
  dsimp only
  split
  · exact canon_hubWrite _ _ _ h
  · exact h

theorem canon_placeWeights (x : Check) (h : canon m) : canon (m.placeWeights x) := by
  refine canon_foldl (fun m y h => ?_) _ h
  split
  · exact canon_foldl (fun _ _ h => canon_putWeights _ _ _ h) _ h
  · exact h

theorem canon_closeFor (x : Check) (h : canon m) : canon (m.closeFor x) := by
  refine canon_foldl (fun m c h => ?_) _ h
  split
  · exact h
  · exact canon_onChip _ (canon_closeCtx _ _ _ h)

theorem canon_beginApply (x : Check) (h : canon m) : canon (m.beginApply x) := by
  unfold Mach.beginApply
  extract_lets +onlyGivenNames V m1 m2 m3 m4 m5 blocks m6 m7
  have failed : canon m3 := canon_foldl (fun _ _ h => canon_failJobsOf _ _ h) _ (canon_onChip _ (canon_onChip _ h))
  have zeroed : canon m7 := canon_foldl (fun _ _ h => canon_zeroBlock _ _ h) _ (canon_onChip _ (canon_onChip _ (canon_closeFor x failed)))
  exact canon_placeWeights x (canon_zeroNew _ _ zeroed)

theorem canon_quietPoint (x : Check) (h : canon m) : canon (m.quietPoint x) := by
  unfold Mach.quietPoint
  split
  · split
    · exact canon_onChip _ h
    · exact canon_beginApply x h
  · exact canon_beginApply x h

theorem canon_quietIn (x : Check) (h : canon m) : canon (m.quietIn x) := by
  unfold Mach.quietIn
  split
  · exact canon_quietPoint x h
  · exact canon_onChip _ h

/-! ### Transactions -/

theorem canon_ciOpen {f : Txn → Mach → Mach} (step : ∀ t m, canon m → canon (f t m)) (h : canon m) : canon (m.ciOpen f) := by
  unfold Mach.ciOpen
  split
  · exact canon_onChip _ h
  · split
    · split
      · exact step _ _ h
      · exact canon_onChip _ h
    · exact canon_onChip _ h

theorem canon_windowRun (V fuel a n : Nat) (h : canon m) : canon (Mach.windowRun V fuel m a n).2 := by
  induction fuel generalizing m a n with
  | zero => exact h
  | succ fuel ih =>
    unfold Mach.windowRun
    split
    · exact h
    · exact ih _ _ (canon_hubRead _ _ _ h)

theorem canon_stage (p : Part) (verdicts : List Bool) (patch : Bool) (h : canon m) : canon (m.stage p verdicts patch) := by
  refine canon_ciOpen (fun t m h => ?_) h
  dsimp only
  split
  · exact canon_onChip _ (canon_windowRun _ _ _ _ h)
  · exact canon_onChip _ (canon_windowRun _ _ _ _ h)

theorem canon_commitImage (p : Part) (force : Bool) (h : canon m) : canon (m.commitImage p force) :=
  canon_ciOpen (fun _ _ h => canon_onChip _ h) h

/-! ### Register writes -/

theorem canon_writeCiCtl (p : Part) (w : Word) (h : canon m) : canon (m.writeCiCtl p w) := by
  unfold Mach.writeCiCtl
  split
  · exact canon_onChip _ h
  · exact canon_stage _ _ _ h
  · exact canon_commitImage _ _ h
  · exact canon_onChip _ h
  · split
    · exact canon_onChip _ h
    · exact h

theorem canon_writeFailReq (p : Part) (w : Word) (h : canon m) : canon (m.writeFailReq p w) := by
  unfold Mach.writeFailReq
  dsimp only
  split
  · exact h
  · split
    · exact canon_onChip _ h
    · exact canon_onChip _ h
    · exact canon_onChip _ h
    · split
      · exact canon_onChip _ h
      · exact canon_onChip _ (canon_retireCore _ _ _ h)
    · exact h

theorem canon_hubAct (p : Part) (o : Nat) (w : Word) (h : canon m) : canon (m.hubAct p o w) := by
  unfold Mach.hubAct
  split
  · exact canon_writeCiCtl _ _ h
  · split
    · exact canon_writeFailReq _ _ h
    · split
      · split
        · exact canon_resetTrigger _ _ h
        · exact h
      · split
        · exact canon_doPromote _ _ _ h
        · exact canon_onChip _ h

theorem canon_writeReg (p : Part) (o : Nat) (r : RegRow) (w : Word) (h : canon m) : canon (m.writeReg p o r w) := by
  unfold Mach.writeReg
  extract_lets +onlyGivenNames m1
  split
  · exact canon_hubAct _ _ _ (canon_onChip _ h)
  · exact canon_onChip _ (canon_onChip _ h)

theorem canon_barPut (p : Part) (o n : Nat) (full : Bool) (w : Word) (h : canon m) : canon (m.barPut p o n full w) := by
  unfold Mach.barPut
  split
  · exact h
  · split
    · split
      · exact h
      · exact canon_onChip _ h
    · split
      · split
        · exact canon_writeReg _ _ _ _ h
        · exact h
      · exact canon_onChip _ h
    · exact canon_onChip _ h

theorem canon_barWrite (p : Part) (o n : Nat) (full : Bool) (w : Word) (h : canon m) : canon (m.barWrite p o n full w) := by
  unfold Mach.barWrite
  split
  · split
    · exact h
    · exact canon_onChip _ h
  · exact canon_barPut _ _ _ _ _ h

theorem canon_serveBars (p : Part) (v : Nat) (h : canon m) : canon (m.serveBars p v) := by
  refine canon_foldl (fun m a h => ?_) _ (canon_onChip _ h)
  split
  · exact canon_barPut _ _ _ _ _ h
  · exact canon_onChip _ h

end Sys2Proof.Proofs
end

section
/-!
PROOFS. Every step keeps DRAM in its canonical form (O4), and safe states step on (O9): each command that may store to DRAM, by its case.
-/

namespace Sys2Proof.Proofs

open Sys2Proof.Machine Sys2Proof.Safety Sys2Proof.Laws

variable {s : State}

/-- Where a command answers a next state, its DRAM holds its canonical form. -/
def leavesCanon (r : Host.Outcome State Fault Refusal) : Prop := ∀ t, r = .next t → Memory.wf t.dram = true

theorem leavesCanon_next {t : State} (h : Memory.wf t.dram = true) : leavesCanon (.next t) := by
  intro u e
  cases e
  exact h

theorem leavesCanon_fault {f : Fault} : leavesCanon (.fault f) := by
  intro u e
  cases e

theorem leavesCanon_onBoth {ok : Bool} {f : Dram → Chip → Dram × Chip} (h : Memory.wf s.dram = true)
    (step : ∀ dr k, Memory.wf dr = true → Memory.wf (f dr k).1 = true) : leavesCanon (s.onBoth ok f) := by
  unfold State.onBoth
  split
  · refine leavesCanon_next ?_
    split
    · exact step _ _ h
    · exact h
  · exact leavesCanon_fault

theorem leavesCanon_onPartMach {f : Mach → Mach} (h : Memory.wf s.dram = true) (step : ∀ m, canon m → canon (f m)) : leavesCanon (s.onPartMach f) :=
  leavesCanon_next (step _ ⟨h⟩).wf

theorem leavesCanon_onMach {ok : Bool} {f : Mach → Mach} (h : Memory.wf s.dram = true) (step : ∀ m, canon m → canon (f m)) :
    leavesCanon (s.onMach ok f) :=
  leavesCanon_onBoth h fun _ _ h => (step _ ⟨h⟩).wf

theorem leavesCanon_onTurn {ok : Bool} {f : Mach → Mach} (h : Memory.wf s.dram = true) (step : ∀ m, canon m → canon (f m)) :
    leavesCanon (s.onTurn ok f) :=
  leavesCanon_onMach h fun m h => canon_orWait h (step m h)

theorem leavesCanon_onMsg (ok : Bool) (p : Nat) (key : List Byte) (x : KwMsg) (h : Memory.wf s.dram = true) : leavesCanon (s.onMsg ok p key x) :=
  leavesCanon_onTurn h fun m h => by
    split
    · exact h
    · exact canon_receive_getD _ _ _ _ h h

theorem leavesCanon_failRequest {f : Mach → Mach} (h : Memory.wf s.dram = true) (step : ∀ m, canon m → canon (f m)) : leavesCanon (failRequest s f) :=
  leavesCanon_onMach h fun m h => by
    split
    · exact h
    · exact step m h

/-! ### Library returns, hoops and banks -/

theorem ret_leavesCanon (u : IssueUnit) (ops : BitVec 56) (h : Memory.wf s.dram = true) : leavesCanon (execRet u ops s) := by
  refine leavesCanon_onBoth h fun dr k h => ?_
  split
  · next v d a =>
    extract_lets +onlyGivenNames b q
    split
    · exact h
    · next e _ =>
      split
      · exact h
      · split
        · exact h
        · have run := runCanon_libBank e ⟨v, d, b⟩ (m := ⟨dr, k⟩) ⟨h⟩
          split
          · next eq => rw [eq] at run; exact run.wf
          · next eq => rw [eq] at run; exact run.wf
  · extract_lets +onlyGivenNames q
    split
    · exact h
    · split
      · exact h
      · split <;> exact h

theorem hoopMiddleGroup_leavesCanon (v c : Nat) (n : BitVec 4) (write : Bool) (h : Memory.wf s.dram = true) :
    leavesCanon (execHoopMiddleGroup v c n write s) := by
  unfold execHoopMiddleGroup State.onVatBoth
  refine leavesCanon_onBoth h fun dr k h => ?_
  split
  · split
    · exact wf_middleWrite _ _ _ _ h
    · exact h
  · exact h

theorem rowSlotEnd_leavesCanon (v d b : Nat) (h : Memory.wf s.dram = true) : leavesCanon (execRowSlotEnd v d b s) := by
  refine leavesCanon_onBoth h fun dr k h => ?_
  dsimp only
  split
  · exact h
  · exact wf_slotEnd _ _ _ _ _ _ h

theorem spareZeroed_leavesCanon (v d q : Nat) (h : Memory.wf s.dram = true) : leavesCanon (execSpareZeroed v d q s) := by
  refine leavesCanon_onBoth h fun dr k h => ?_
  extract_lets +onlyGivenNames x
  split
  · exact h
  · extract_lets +onlyGivenNames b
    split
    · exact h
    · exact wf_clear _ _ _ h

theorem requalifyDone_leavesCanon (v d : Nat) (passed : Bool) (h : Memory.wf s.dram = true) : leavesCanon (execRequalifyDone v d passed s) := by
  refine leavesCanon_onBoth h fun dr k h => ?_
  extract_lets +onlyGivenNames x
  split
  · exact h
  · split
    · exact h
    · extract_lets +onlyGivenNames b x k
      split
      · exact wf_clear _ _ _ h
      · exact wf_patternBank _ _ _ h

theorem coreCheckerTrip_leavesCanon (v c stream engine : Nat)
    (h : Memory.wf s.dram = true) : leavesCanon (execCoreCheckerTrip v c stream engine s) := by
  refine leavesCanon_onMach h fun m h => ?_
  extract_lets +onlyGivenNames t k m1
  split
  · exact canon_retireCore _ _ _ (canon_withChip _ h)
  · exact canon_withChip _ h

/-! ### Host lines -/

theorem hostAccess_leavesCanon (line : BitVec 36) (wr : Bool) {mem : Nat → Nat → Nat → Nat → Dram → Chip → Dram × Chip} (aper : Nat → Chip → Chip)
    (step : ∀ n v pa dpa dr k, Memory.wf dr = true → Memory.wf (mem n v pa dpa dr k).1 = true) (h : Memory.wf s.dram = true) :
    leavesCanon (hostAccess line wr s mem aper) := by
  refine leavesCanon_onBoth h fun dr k h => ?_
  dsimp only
  split
  · exact h
  · split
    · exact h
    · split
      · exact step _ _ _ _ _ _ h
      · exact h
    · split
      · exact h
      · split <;> exact h

theorem cxlMemRead_leavesCanon (line : BitVec 36) (h : Memory.wf s.dram = true) : leavesCanon (execCxlMemRead line s) :=
  hostAccess_leavesCanon _ _ _ (fun _ _ _ _ _ _ h => wf_hostDram _ _ _ _ _ _ _ h) h

theorem hostLineWrite_leavesCanon (line : BitVec 36) (data : BitVec 512) (enables : BitVec 64) (poison : Bool) (h : Memory.wf s.dram = true) :
    leavesCanon (hostLineWrite line data enables poison s) :=
  hostAccess_leavesCanon _ _ _ (fun _ _ _ _ _ _ h => wf_hostDram _ _ _ _ _ _ _ h) h

/-! ### Transactions -/

theorem quietPoint_leavesCanon (h : Memory.wf s.dram = true) : leavesCanon (execQuietPoint s) := by
  refine leavesCanon_onTurn h fun m h => ?_
  split
  · split
    · exact canon_quietIn _ h
    · exact h
  · exact h

theorem quietTimeout_leavesCanon (h : Memory.wf s.dram = true) : leavesCanon (execQuietTimeout s) := by
  refine leavesCanon_onTurn h fun m h => ?_
  split
  · exact h
  · split
    · exact h
    · split
      · exact canon_quietIn _ (canon_onChip _ h)
      · exact canon_onChip _ h

theorem applyCycle_leavesCanon (h : Memory.wf s.dram = true) : leavesCanon (execApplyCycle s) := by
  refine leavesCanon_onTurn h fun m h => ?_
  split
  · exact h
  · split
    · exact h
    · exact canon_deferredReset _ (canon_throughRecords _ _ (canon_onChip _ h))

/-! ### Takeovers and failures -/

theorem takeoverStart_leavesCanon (v d : Nat) (h : Memory.wf s.dram = true) : leavesCanon (execTakeoverStart v d s) := by
  refine leavesCanon_onTurn h fun m h => ?_
  split
  · exact h
  · exact canon_throughRecords _ _ (canon_onChip _ h)

theorem retireCore_leavesCanon (v c : Nat) (h : Memory.wf s.dram = true) : leavesCanon (execRetireCore v c s) := by
  refine leavesCanon_failRequest h fun m h => ?_
  split
  · exact canon_onChip _ h
  · exact canon_onChip _ (canon_retireCore _ _ _ h)

theorem dieTraining_leavesCanon (failed : List Nat) (h : Memory.wf s.dram = true) : leavesCanon (execDieTraining failed s) := by
  refine leavesCanon_onMach h fun m h => ?_
  split
  · exact h
  · exact canon_onChip _ (canon_foldl (fun _ _ h => canon_loseVat _ _ (canon_onChip _ h)) _ h)

theorem vatAwake_leavesCanon (v : Nat) (h : Memory.wf s.dram = true) : leavesCanon (execVatAwake v s) := by
  refine leavesCanon_onMach h fun m h => ?_
  split
  · exact canon_serveBars _ _ (canon_onChip _ h)
  · exact h

/-! ### Jobs and contexts -/

theorem recordAccept_leavesCanon (r : Nat) (h : Memory.wf s.dram = true) : leavesCanon (execRecordAccept r s) := by
  refine leavesCanon_onTurn h fun m h => ?_
  split
  · exact h
  · extract_lets +onlyGivenNames V n ci pi
    have read := canon_ringRead V r ci 1 h
    revert read
    rcases m.ringRead V r ci 1 with ⟨hb, bad, m1⟩
    intro read
    dsimp only
    split
    · exact canon_onChip _ read
    · split
      · exact canon_onChip _ read
      · split
        · exact canon_onChip _ read
        · split
          · exact canon_onChip _ read
          · have data := fun n => canon_ringRead V r (ci + 1) n read
            split
            · exact canon_onChip _ (data _)
            · exact canon_onChip _ (data _)

theorem directoryWalkDone_leavesCanon (t : Nat) (h : Memory.wf s.dram = true) : leavesCanon (execDirectoryWalkDone t s) := by
  refine leavesCanon_onTurn h fun m h => ?_
  split
  · exact h
  · next j _ =>
    split
    · exact h
    · extract_lets +onlyGivenNames V b m1
      have read : canon m1 := canon_readBucket _ _ (canon_readBucket _ _ h)
      split
      · exact canon_onChip _ read
      · split
        · exact canon_onChip _ read
        · have made := canon_create V j.domain j.model j.cls j.key j.evicts read
          split
          · next eq => rw [eq] at made; exact canon_onChip _ made
          · next eq => rw [eq] at made; exact canon_onChip _ made
          · next eq => rw [eq] at made; exact canon_onChip _ made

theorem jobDispatch_leavesCanon (v c : Nat) (h : Memory.wf s.dram = true) : leavesCanon (execJobDispatch v c s) := by
  refine leavesCanon_onTurn h fun m h => ?_
  split
  · exact h
  · extract_lets +onlyGivenNames m1 V
    have served : canon m1 := canon_onChip _ h
    split
    · exact served
    · next t j _ =>
      split
      · next i cx pc _ _ =>
        split
        · exact served
        · next md _ =>
          split
          · split
            · exact canon_onChip _ served
            · exact served
          · split
            · exact served
            · split
              · exact canon_onChip _ served
              · split
                · exact served
                · have roomy := canon_makeRoom V i cx md j.tokens.length served
                  revert roomy
                  rcases m1.makeRoom V i cx md j.tokens.length with ⟨m2, cx', room⟩
                  intro roomy
                  dsimp only
                  split
                  · exact canon_onChip _ roomy
                  · refine canon_onChip _ ?_
                    split
                    · exact canon_hubWrite _ _ _ roomy
                    · exact roomy
      · exact served

theorem resultEntry_leavesCanon (v c : Nat) (h : Memory.wf s.dram = true) : leavesCanon (execResultEntry v c s) := by
  refine leavesCanon_onTurn h fun m h => ?_
  extract_lets +onlyGivenNames V
  split
  · exact h
  · extract_lets +onlyGivenNames hp q
    split
    · exact h
    · split
      · exact canon_onChip _ h
      · extract_lets +onlyGivenNames bs tag take stray
        have took : canon (take m) := canon_onChip _ h
        split
        · exact canon_onChip _ took
        · split
          · exact canon_onChip _ took
          · split
            · exact canon_failJob _ _ _ took
            · split
              · exact canon_failJob _ _ _ took
              · split
                · exact canon_failJob _ _ _ took
                · extract_lets +onlyGivenNames n
                  split
                  · exact h
                  · exact canon_onChip _ (canon_commit _ _ _ _ _ took)
            · exact canon_failJob _ _ _ took
            · exact canon_failJob _ _ _ took

theorem contextClose_leavesCanon (i : Nat) (h : Memory.wf s.dram = true) : leavesCanon (execContextClose i s) := by
  refine leavesCanon_onTurn h fun m h => ?_
  split
  · exact h
  · split
    · split
      · exact h
      · exact canon_runClose _ _ _ _ h
    · split
      · exact canon_runClose _ _ _ _ h
      · exact h

theorem idleClose_leavesCanon (i : Nat) (h : Memory.wf s.dram = true) : leavesCanon (execIdleClose i s) := by
  refine leavesCanon_onTurn h fun m h => ?_
  split
  · exact h
  · dsimp only
    split
    · exact h
    · exact canon_runClose _ _ _ _ h

theorem completionRecordWrite_leavesCanon (c : Nat) (h : Memory.wf s.dram = true) : leavesCanon (execCompletionRecordWrite c s) := by
  refine leavesCanon_onTurn h fun m h => ?_
  extract_lets +onlyGivenNames V r
  split
  · exact h
  · split
    · exact h
    · extract_lets +onlyGivenNames o wi phase a cached
      split
      · exact h
      · split
        · exact canon_onChip _ h
        · extract_lets +onlyGivenNames line snooped
          split
          · split
            · exact canon_onChip _ h
            · exact canon_onChip _ h
          · exact canon_onChip _ (canon_hubWrite _ _ _ h)

theorem affinageJobResult_leavesCanon (n : Nat) (status : JobStatus)
    (h : Memory.wf s.dram = true) : leavesCanon (execAffinageJobResult n status s) := by
  refine leavesCanon_onTurn h fun m h => ?_
  split
  · exact h
  · exact canon_onChip _ (canon_payOwed _ (canon_affResult _ _ (canon_withChip _ h)))

theorem migrationStart_leavesCanon (i : Nat) (h : Memory.wf s.dram = true) : leavesCanon (execMigrationStart i s) := by
  refine leavesCanon_onTurn h fun m h => ?_
  extract_lets +onlyGivenNames k
  split
  · exact h
  · split
    · exact h
    · extract_lets +onlyGivenNames keep staged home
      clear_value home
      cases home with
      | none => exact h
      | some x =>
        dsimp only
        split
        · exact canon_startMigration _ _ _ _ _ _ h
        · exact h

theorem migrationSwitch_leavesCanon (i : Nat) (h : Memory.wf s.dram = true) : leavesCanon (execMigrationSwitch i s) := by
  refine leavesCanon_onTurn h fun m h => ?_
  split
  · exact h
  · next c _ =>
    split
    · next g md _ _ =>
      extract_lets +onlyGivenNames busy
      split
      · exact h
      · split
        · exact canon_setCtx _ _ _ (canon_clearSlot _ _ _ _ h)
        · next caught =>
          exact canon_setCtx _ _ _ (canon_freePages _ (canon_zeroLedger _ _ _ _ _ (canon_putIndexes _ _ _ _ _
            (canon_foldl (fun _ _ h => canon_copyPage _ _ _ _ _ _ _ h) _ (canon_onChip _ (canon_catchUp h caught))))))
    · exact h

theorem backlogResend_leavesCanon (h : Memory.wf s.dram = true) : leavesCanon (execBacklogResend s) := by
  refine leavesCanon_onTurn h fun m h => ?_
  dsimp only
  split
  · exact h
  · exact canon_foldl (fun _ _ h => canon_sendFull _ _ _ h) _ (canon_onChip _ h)

theorem spillLost_leavesCanon (i : Nat) (h : Memory.wf s.dram = true) : leavesCanon (execSpillLost i s) := by
  refine leavesCanon_onTurn h fun m h => ?_
  split
  · exact h
  · split
    · exact h
    · split
      · exact h
      · exact canon_onChip _ (canon_closeCtx _ _ _ (canon_onChip _ h))

/-! ### Resets and supplies -/

theorem caveReset_leavesCanon (h : Memory.wf s.dram = true) : leavesCanon (execCaveReset s) := by
  refine leavesCanon_onPartMach h fun m h => ?_
  split
  · exact h
  · exact canon_withChip _ h

theorem powerOnReset_leavesCanon (h : Memory.wf s.dram = true) : leavesCanon (execPowerOnReset s) := by
  refine leavesCanon_onPartMach h fun m h => ?_
  split
  · exact canon_empty
  · exact h

theorem supplyLoss_leavesCanon (group : BitVec 4) (h : Memory.wf s.dram = true) : leavesCanon (execSupplyLoss group s) := by
  unfold execSupplyLoss
  split
  · exact leavesCanon_fault
  · refine leavesCanon_onPartMach h fun m h => ?_
    split
    · exact h
    · exact canon_halt _

theorem thermalTrip_leavesCanon (hub : Bool) (v die index temp : Nat) (h : Memory.wf s.dram = true) :
    leavesCanon (execThermalTrip hub v die index temp s) := by
  unfold execThermalTrip
  extract_lets +onlyGivenNames sensors
  split
  · exact leavesCanon_fault
  · refine leavesCanon_onPartMach h fun m h => ?_
    split
    · exact h
    · exact canon_halt _

theorem perstAssert_leavesCanon (h : Memory.wf s.dram = true) : leavesCanon (execPerstAssert s) := by
  refine leavesCanon_onPartMach h fun m h => ?_
  split
  · exact canon_resetTrigger _ _ h
  · exact h

theorem pkgReset_leavesCanon (key : BitVec 32) (h : Memory.wf s.dram = true) : leavesCanon (execPkgReset key s) := by
  refine leavesCanon_onMach h fun m h => ?_
  split
  · exact canon_resetTrigger _ _ h
  · exact h

theorem sidebandPkgReset_leavesCanon (w : SidebandWrite) (h : Memory.wf s.dram = true) : leavesCanon (execSidebandPkgReset w s) := by
  refine leavesCanon_onPartMach h fun m h => ?_
  split
  · exact canon_resetTrigger _ _ h
  · exact h

theorem bootScrub_leavesCanon (h : Memory.wf s.dram = true) : leavesCanon (execBootScrub s) := by
  refine leavesCanon_onMach h fun m h => ?_
  split
  · exact h
  · exact canon_empty

theorem directoryClear_leavesCanon (h : Memory.wf s.dram = true) : leavesCanon (execDirectoryClear s) := by
  refine leavesCanon_onMach h fun m h => ?_
  split
  · exact h
  · refine canon_onChip _ (canon_foldl (fun _ _ h => canon_foldl (fun _ _ h => canon_zeroRange _ _ _ h) _ h) _ (canon_foldl (fun m c h => ?_) _ h))
    split
    · exact h
    · exact canon_freePages _ h

theorem tamper_leavesCanon (causes : BitVec 4) (h : Memory.wf s.dram = true) : leavesCanon (execTamper causes s) := by
  refine leavesCanon_onPartMach h fun m h => ?_
  split
  · exact h
  · exact canon_deferredReset _ canon_empty

/-! ### Commands that are one function of the machine -/

theorem stage_leavesCanon (verdicts : List Bool) (patch : Bool) (h : Memory.wf s.dram = true) : leavesCanon (execStage verdicts patch s) :=
  leavesCanon_onTurn h fun _ h => canon_stage _ _ _ h

theorem commit_leavesCanon (force : Bool) (h : Memory.wf s.dram = true) : leavesCanon (execCommit force s) :=
  leavesCanon_onMach h fun _ h => canon_commitImage _ _ h

theorem kwPromote_leavesCanon (source : BitVec 2) (force : Bool) (h : Memory.wf s.dram = true) : leavesCanon (execKwPromote source force s) :=
  leavesCanon_onTurn h fun _ h => canon_doPromote _ _ _ h

theorem registerWrite_leavesCanon (o : BitVec 28) (size : Nat) (full : Bool) (value : Word) (h : Memory.wf s.dram = true) :
    leavesCanon (execRegisterWrite o size full value s) :=
  leavesCanon_onMach h fun _ h => canon_barWrite _ _ _ _ _ h

theorem mirrorGapTimeout_leavesCanon (i : Nat) (h : Memory.wf s.dram = true) : leavesCanon (execMirrorGapTimeout i s) :=
  leavesCanon_onTurn h fun _ h => canon_gapTimeout _ _ h

theorem dataFlit_leavesCanon (p : Nat) (f : DataFlit) (h : Memory.wf s.dram = true) : leavesCanon (execDataFlit p f s) :=
  leavesCanon_onTurn h fun _ h => canon_takeFlit _ _ _ h

theorem vatHeartbeatLoss_leavesCanon (v : Nat) (h : Memory.wf s.dram = true) : leavesCanon (execVatHeartbeatLoss v s) :=
  leavesCanon_onMach h fun _ h => canon_loseVat _ _ h

theorem baseDieInternalError_leavesCanon (v : Nat) (h : Memory.wf s.dram = true) : leavesCanon (execBaseDieInternalError v s) :=
  leavesCanon_onMach h fun _ h => canon_loseVat _ _ h

theorem takeover_leavesCanon (v d a : Nat) (h : Memory.wf s.dram = true) : leavesCanon (execTakeover v d a s) :=
  leavesCanon_failRequest h fun _ h => canon_onChip _ h

theorem retirePage_leavesCanon (v ppn : Nat) (h : Memory.wf s.dram = true) : leavesCanon (execRetirePage v ppn s) :=
  leavesCanon_failRequest h fun _ h => canon_onChip _ h

theorem requalify_leavesCanon (v d a : Nat) (h : Memory.wf s.dram = true) : leavesCanon (execRequalify v d a s) :=
  leavesCanon_failRequest h fun _ h => canon_onChip _ h

theorem standbySupplyLoss_leavesCanon (h : Memory.wf s.dram = true) : leavesCanon (execStandbySupplyLoss s) :=
  leavesCanon_onPartMach h fun _ _ => canon_halt _

theorem packageResetEnd_leavesCanon (h : Memory.wf s.dram = true) : leavesCanon (execPackageResetEnd s) :=
  leavesCanon_onPartMach h fun _ h => canon_onChip _ h

/-! ### Every step -/

/-- Every command that may store to DRAM leaves it in its canonical form. -/
theorem writer_leavesCanon (c : Instr) (w : writesDram c = true) (h : Memory.wf s.dram = true) : leavesCanon (exec c s) := by
  cases c
  case ret => exact ret_leavesCanon _ _ h
  case hoopMiddleGroup => exact hoopMiddleGroup_leavesCanon _ _ _ _ h
  case rowSlotEnd => exact rowSlotEnd_leavesCanon _ _ _ h
  case spareZeroed => exact spareZeroed_leavesCanon _ _ _ h
  case coreCheckerTrip => exact coreCheckerTrip_leavesCanon _ _ _ _ h
  case cxlMemRead => exact cxlMemRead_leavesCanon _ h
  case cxlMemWrite => exact hostLineWrite_leavesCanon _ _ _ _ h
  case cxlMemPartialWrite => exact hostLineWrite_leavesCanon _ _ _ _ h
  case stage => exact stage_leavesCanon _ _ h
  case commit => exact commit_leavesCanon _ h
  case quietPoint => exact quietPoint_leavesCanon h
  case applyCycle => exact applyCycle_leavesCanon h
  case quietTimeout => exact quietTimeout_leavesCanon h
  case takeover => exact takeover_leavesCanon _ _ _ h
  case takeoverStart => exact takeoverStart_leavesCanon _ _ h
  case retirePage => exact retirePage_leavesCanon _ _ h
  case requalify => exact requalify_leavesCanon _ _ _ h
  case requalifyDone => exact requalifyDone_leavesCanon _ _ _ h
  case retireCore => exact retireCore_leavesCanon _ _ h
  case kwPromote => exact kwPromote_leavesCanon _ _ h
  case pkgReset => exact pkgReset_leavesCanon _ h
  case registerWrite => exact registerWrite_leavesCanon _ _ _ _ h
  case recordAccept => exact recordAccept_leavesCanon _ h
  case directoryWalkDone => exact directoryWalkDone_leavesCanon _ h
  case jobDispatch => exact jobDispatch_leavesCanon _ _ h
  case resultEntry => exact resultEntry_leavesCanon _ _ h
  case contextClose => exact contextClose_leavesCanon _ h
  case idleClose => exact idleClose_leavesCanon _ h
  case completionRecordWrite => exact completionRecordWrite_leavesCanon _ h
  case affinageJobResult => exact affinageJobResult_leavesCanon _ _ h
  case migrationStart => exact migrationStart_leavesCanon _ h
  case migrationSwitch => exact migrationSwitch_leavesCanon _ h
  case mirrorGapTimeout => exact mirrorGapTimeout_leavesCanon _ h
  case dataFlit => exact dataFlit_leavesCanon _ _ h
  case vatAwake => exact vatAwake_leavesCanon _ h
  case backlogResend => exact backlogResend_leavesCanon h
  case mirrorFull | mirrorUpdate | mirrorReview | mirrorAck | mirrorClose | spillPut | spillRecall | spillReturn | spillAck | fwdJob | fwdResult | fwdAbort =>
    exact leavesCanon_onMsg _ _ _ _ h
  case spillLost => exact spillLost_leavesCanon _ h
  case thermalTrip => exact thermalTrip_leavesCanon _ _ _ _ _ h
  case vatHeartbeatLoss => exact vatHeartbeatLoss_leavesCanon _ h
  case baseDieInternalError => exact baseDieInternalError_leavesCanon _ h
  case caveReset => exact caveReset_leavesCanon h
  case powerOnReset => exact powerOnReset_leavesCanon h
  case supplyLoss => exact supplyLoss_leavesCanon _ h
  case perstAssert => exact perstAssert_leavesCanon h
  case dieTraining => exact dieTraining_leavesCanon _ h
  case bootScrub => exact bootScrub_leavesCanon h
  case directoryClear => exact directoryClear_leavesCanon h
  case tamper => exact tamper_leavesCanon _ h
  case sidebandPkgReset => exact sidebandPkgReset_leavesCanon _ h
  case standbySupplyLoss => exact standbySupplyLoss_leavesCanon h
  case packageResetEnd => exact packageResetEnd_leavesCanon h
  all_goals exact Bool.noConfusion w

theorem exec_leavesCanon (c : Instr) (h : Memory.wf s.dram = true) : leavesCanon (exec c s) := by
  intro t e
  cases w : writesDram c with
  | true => exact writer_leavesCanon c w h t e
  | false => rw [chipCommandsLeaveDram s t c w e]; exact h

/-- Settles O4: with a command waiting by the case of the command, those that store nothing by O7; with none a tick leaves DRAM alone. -/
theorem stepKeepsDramCanonical : Obligations.StepKeepsDramCanonical := by
  unfold Obligations.StepKeepsDramCanonical
  intro s t h e
  cases q : s.pending with
  | nil =>
    obtain ⟨ticked, only, -⟩ := emptyQueueLetsTimePass s q
    rw [ticked] at e
    cases e
    exact only.2.2 ▸ h
  | cons c rest =>
    rw [stepRunsTheFrontCommand s c rest q] at e
    exact exec_leavesCanon (s := { s with pending := rest }) c h t e

/-- Settles O9: the front command names only units of the part, so it answers a next state (O6), whose DRAM is canonical (O4), whose part is the
same and whose queue is the tail of the old one (O3). -/
theorem safeStatesStepOn : Obligations.SafeStatesStepOn := by
  unfold Obligations.SafeStatesStepOn
  intro s ⟨dram, queue⟩
  have answers : ∃ t, step s = .next t := by
    cases q : s.pending with
    | nil => exact ⟨s.tick, (emptyQueueLetsTimePass s q).1⟩
    | cons c rest =>
      rw [stepRunsTheFrontCommand s c rest q]
      have formed : c.wellFormed s.part.vats = true := by
        have all := queue
        rw [queueOk, q] at all
        exact (List.all_eq_true.mp all) c List.mem_cons_self
      exact wellFormedCommandsRun { s with pending := rest } c formed
  obtain ⟨t, e⟩ := answers
  obtain ⟨part, pending⟩ := stepKeepsThePartAndTheQueue s t e
  refine ⟨t, e, stepKeepsDramCanonical s t dram e, ?_⟩
  rw [queueOk, part, pending]
  exact List.all_eq_true.mpr fun c mem => (List.all_eq_true.mp queue) c (List.mem_of_mem_tail mem)

end Sys2Proof.Proofs
end

section
/-!
PROOFS. The press, the vector engine and the DMA engines at issue (O25).
-/

namespace Sys2Proof.Proofs

open Sys2Proof.Machine Sys2Proof.Safety Sys2Proof.Laws

/-- Ending the contract of a pending routine leaves what of the stream is incomplete. -/
theorem entered_quiet (k : Chip) (v c t : Nat) : (entered k v c t).quiet v c t = k.quiet v c t := by
  unfold entered
  dsimp only
  split
  · simp only [Chip.quiet, Chip.stream, setStream_core]
    by_cases h : t < (k.core v c).streams.length
    · rw [setStream_stream_same _ _ _ h]
    · have beyond : ∀ y, (k.core v c).setStream t y = k.core v c := fun y => by
        rw [Core.setStream, setAt, List.set_eq_of_length_le (Nat.le_of_not_lt h)]
      rw [beyond]
  · rfl

section Issue

variable {s : State} {v c t : Nat} {ops : BitVec 56} {e : CoreEff}

theorem exec_pass_core (h : coreAt s v c t 0x60 ops) (hz : reservedZero ops (useD + useA + useB + useX + useI) = true)
    (hform : pressForm (qForm ops) = true) {bs : List Byte} {k1 : Chip} {r : PassRec} (hfree : (entered s.k v c t).pressFull v c = false)
    (hbs : (entered s.k v c t).fetchRecord v c t (qForm ops) 32 = .done bs k1) (hr : passOf bs = (r, true))
    (hpass : (k1.core v c).passFault r = none) (hoc : (k1.core v c).firstOcFault r.reads true = none) :
    exec (.pass (.core v c t) ops) s = .next (withK s
      ((k1.inflight v c t (.pass r ((entered s.k v c t).stream v c t).seq)).advanceCore v c t)) := by
  change execPass _ _ _ = _
  unfold execPass issueT
  refine core_run_effected s v c t 0x60 ops _ _ _ _ _ h (by decide) hz hform (e := .step _) ?_
  simp only [hfree, hbs, hr, hpass, hoc, Bool.not_true, Bool.false_eq_true, if_false]
  rfl

theorem exec_pclr_core (h : coreAt s v c t 0x61 ops) (hz : reservedZero ops (useD + useB + 0x3FF) = true)
    (hform : pressForm (qForm ops) = true) (hfree : (entered s.k v c t).pressFull v c = false) :
    exec (.pclr (.core v c t) ops) s = .next (withK s
      (((entered s.k v c t).inflight v c t (.pclr (bitsAt (qForm ops).imm 1 0)
      (BitVec.ofNat 8 (bitsAt (qForm ops).imm 9 2)))).advanceCore v c t)) := by
  change execPclr _ _ _ = _
  unfold execPclr issueT
  refine core_run_effected s v c t 0x61 ops _ _ _ _ _ h (by decide) hz hform (e := .step _) ?_
  simp only [hfree, Bool.false_eq_true, if_false]

theorem exec_vchain_core (h : coreAt s v c t 0x80 ops) (hz : reservedZero ops (useA + useX + useI) = true)
    (hfree : (entered s.k v c t).vectorFree v c = true) {bs : List Byte} {k1 : Chip} {r : ChainRec}
    (hbs : (entered s.k v c t).fetchRecord v c t (qForm ops) 64 = .done bs k1) (hr : chainOf bs = (r, true))
    (hends : (entered s.k v c t).chainEndsOk v c r = true) (hchain : (k1.core v c).chainFault r = none)
    (hoc : (k1.core v c).chainOcFault r = none) :
    exec (.vchain (.core v c t) ops) s = .next (withK s ((k1.inflight v c t
      (.chain r { scalars := (k1.core v c).scalarsOf r, done := 0, got := [], out := [], since := (entered s.k v c t).now }
        ((entered s.k v c t).stream v c t).seq)).advanceCore v c t)) := by
  change execVchain _ _ _ = _
  unfold execVchain issueT
  refine core_run_effected s v c t 0x80 ops _ _ _ _ _ h (by decide) hz rfl (e := .step _) ?_
  simp only [hfree, hbs, hr, hends, hchain, hoc, Bool.not_true, Bool.false_eq_true, if_false]
  rfl

theorem exec_vsmax_core (h : coreAt s v c t 0x81 ops) (hz : reservedZero ops (useA + useX + useI) = true)
    (hfree : (entered s.k v c t).vectorFree v c = true) {bs : List Byte} {k1 : Chip} {r : SmaxRec}
    (hbs : (entered s.k v c t).fetchRecord v c t (qForm ops) 32 = .done bs k1) (hr : smaxOf bs = (r, true))
    (hlength : smaxLengthOk r.l = true) (hlane : r.kind = 0 → r.l ≤ 128) (hoc : (k1.core v c).smaxOcFault r = none) :
    exec (.vsmax (.core v c t) ops) s = .next (withK s
      ((k1.inflight v c t (.smax r ((entered s.k v c t).stream v c t).seq)).advanceCore v c t)) := by
  have short : ¬ (r.kind = 0 ∧ 128 < r.l) := fun ⟨kind, long⟩ => absurd (hlane kind) (by omega)
  change execVsmax _ _ _ = _
  unfold execVsmax issueT
  refine core_run_effected s v c t 0x81 ops _ _ _ _ _ h (by decide) hz rfl (e := .step _) ?_
  simp only [hfree, hbs, hr, hlength, short, hoc, Bool.not_true, Bool.false_eq_true, if_false]
  rfl

/-- The word that VSET writes. -/
def vsetWord (k : Chip) (v c t : Nat) (ops : BitVec 56) : Word := k.endValue v c t (qForm ops).a + BitVec.ofInt 64 (qForm ops).simm

theorem exec_vset_core (h : coreAt s v c t 0x82 ops) (hz : reservedZero ops (useD + useA + useI) = true)
    (hd : (qForm ops).d = 0x3D ∨ (0x20 ≤ (qForm ops).d ∧ (qForm ops).d < 0x30)) (ha : scalarEnd (qForm ops).a = true)
    (hpop : (entered s.k v c t).popOk v c t (qForm ops).a = true) (hfree : (entered s.k v c t).vectorFree v c = true)
    (he : (if (qForm ops).d = 0x3D ∧ (vsetWord (entered s.k v c t) v c t ops = 0 ∨ 128 < (vsetWord (entered s.k v c t) v c t ops).toNat)
      then CoreEff.fault .vlRange (entered s.k v c t)
      else .step ((entered s.k v c t).inOrder v c t (.put (qForm ops).d (vsetWord (entered s.k v c t) v c t ops)))) = e) :
    exec (.vset (.core v c t) ops) s = .next (withK s (effected s.k v c t e)) := by
  have legal : (((qForm ops).d = 0x3D || (0x20 ≤ (qForm ops).d && (qForm ops).d < 0x30)) && scalarEnd (qForm ops).a
      && s.k.popOk v c t (qForm ops).a) = true := by
    rw [entered_popOk] at hpop
    simpa [ha, hpop] using hd
  change execVset _ _ _ = _
  unfold execVset issueT
  refine core_run_effected s v c t 0x82 ops _ _ _ _ _ h (by decide) hz legal ?_
  simp only [hfree, Bool.not_true, Bool.false_eq_true, if_false]
  exact he

theorem exec_vrsclr_core (h : coreAt s v c t 0x83 ops) (hz : ops = 0) (hfree : (entered s.k v c t).vectorFree v c = true) :
    exec (.vrsclr (.core v c t) ops) s =
      .next (withK s (((entered s.k v c t).setCore v c { (entered s.k v c t).core v c with vrs := [] }).advanceCore v c t)) := by
  change execVrsclr _ _ _ = _
  unfold execVrsclr issueT
  refine core_run_effected s v c t 0x83 ops _ _ _ _ _ h (by decide) (by subst hz; rfl) rfl (e := .step _) ?_
  simp only [hfree, Bool.not_true, Bool.false_eq_true, if_false]

theorem reservedZero_all (ops : BitVec 56) : reservedZero ops (2 ^ 56 - 1) = true := by
  rw [reservedZero, Nat.land_eq, Nat.and_two_pow_sub_one_of_lt_two_pow ops.isLt]
  exact decide_eq_true rfl

theorem exec_xfer_core (h : coreAt s v c t 0xA0 ops) (hd : (qForm ops).d = endZero) (ha : (qForm ops).a = endZero) (hb : (qForm ops).b = endZero)
    {src dst : Desc} (k : Chip) (hk : entered s.k v c t = k)
    (hoc : (k.core v c).firstOcFault [(descSlot (bitsAt (qForm ops).imm 11 0), 128, 128), (descSlot (bitsAt (qForm ops).imm 23 12), 128,
    128)] true = none)
    (hsrc : Desc.parse ((k.core v c).ocBytes (descSlot (bitsAt (qForm ops).imm 11 0)) 128)
    (signedOf 64 ((qForm ops).aixVal (k.seqOf v c t) 64)) = src)
    (hdst : Desc.parse ((k.core v c).ocBytes (descSlot (bitsAt (qForm ops).imm 23 12)) 128)
    (signedOf 64 ((qForm ops).aiyVal (k.seqOf v c t) 64)) = dst)
    (hvalid : validateDescs src dst = none) :
    exec (.xfer (.core v c t) ops) s = .next (withK s
      ((k.inflight v c t (.xfer src dst (descSlot (bitsAt (qForm ops).imm 23 12)) (k.seqOf v c t) DmaRows.none)).advanceCore v c t)) := by
  subst hk
  change execXfer _ _ _ = _
  unfold execXfer issueT
  refine core_run_effected s v c t 0xA0 ops _ _ _ _ _ h (by decide) (reservedZero_all ops) (by simp [hd, ha, hb]) (e := .step _) ?_
  simp only [hoc, hsrc, hdst, hvalid]

end Issue

theorem inOrder_put_quiet {k : Chip} {v c t e : Nat} {w : Word} (h : k.quiet v c t = true) :
    k.inOrder v c t (.put e w) = k.setCore v c ((k.core v c).putReg e w) := by
  simp only [Chip.inOrder, h, if_true]

theorem inOrder_put_busy {k : Chip} {v c t e : Nat} {w : Word} (h : k.quiet v c t = false) :
    k.inOrder v c t (.put e w) = k.inflight v c t (.put e w) := by
  simp only [Chip.inOrder, h, Bool.false_eq_true, if_false]

/-- Settles O25: each instruction through its own issue lemma; VSET by its destination and by what of the stream is incomplete. -/
theorem engineInstructionsIssue : Obligations.EngineInstructionsIssue := by
  unfold Obligations.EngineInstructionsIssue
  intro s v c t ops q k sq
  refine ⟨?pass, ?pclr, ?vchain, ?vsmax, ?vset, ?vrsclr, ?xfer⟩
  case pass => exact fun bs k1 r h hz hform hfree hbs hr hpass hoc => exec_pass_core h hz hform hfree hbs hr hpass hoc
  case pclr => exact fun h hz hform hfree => exec_pclr_core h hz hform hfree
  case vchain => exact fun bs k1 r h hz hfree hbs hr hends hchain hoc => exec_vchain_core h hz hfree hbs hr hends hchain hoc
  case vsmax => exact fun bs k1 r h hz hfree hbs hr hlength hlane hoc => exec_vsmax_core h hz hfree hbs hr hlength hlane hoc
  case vset =>
    intro h hz ha hpop hfree x w
    have quiet : s.k.quiet v c t = k.quiet v c t := (entered_quiet s.k v c t).symm
    have length : ∀ n : Word, 1 ≤ n.toNat → n.toNat ≤ 128 → ¬ (n = 0 ∨ 128 < n.toNat) := by
      rintro n low high (rfl | long)
      · exact absurd low (by decide)
      · omega
    refine ⟨?vl, ?range, ?vreg, ?later⟩
    case vl =>
      intro hd low high hq
      refine exec_vset_core h hz (.inl hd) ha hpop hfree (e := .step _) ?_
      rw [if_neg fun bad => length w low high bad.2, inOrder_put_quiet (quiet ▸ hq), hd]
      rfl
    case range =>
      intro hd hq bad
      have wrong : w = 0 ∨ 128 < w.toNat := bad.imp_left BitVec.eq_of_toNat_eq
      refine (exec_vset_core h hz (.inl hd) ha hpop hfree (if_pos ⟨hd, wrong⟩)).trans ?_
      rw [effected_fault_quiet hq]
      rfl
    case vreg =>
      intro n hn hd hq
      refine exec_vset_core h hz (.inr (by rw [show (qForm ops).d = 0x20 + n from hd]; omega)) ha hpop hfree (e := .step _) ?_
      rw [if_neg fun bad => by rw [show (qForm ops).d = 0x20 + n from hd] at bad; omega, inOrder_put_quiet (quiet ▸ hq)]
      have put : (k.core v c).putReg (0x20 + n) w =
          { x with vregs := storeRun 0 x.vregs (128 * n) (List.replicate x.vl (w.setWidth 32)) } := by
        rw [Core.putReg, if_neg (by omega), if_pos (by omega), Nat.add_sub_cancel_left]
      rw [show (qForm ops).d = 0x20 + n from hd]
      exact congrArg (fun y => CoreEff.step (k.setCore v c y)) put
    case later =>
      intro hd hq
      refine exec_vset_core h hz (hd.imp_left And.left) ha hpop hfree (e := .step _) ?_
      have within : ¬ ((qForm ops).d = 0x3D ∧ (vsetWord k v c t ops = 0 ∨ 128 < (vsetWord k v c t ops).toNat)) := by
        rintro ⟨is, bad⟩
        rcases hd with ⟨-, low, high⟩ | ⟨-, small⟩
        · exact length w low high bad
        · have wide : q.d = 0x3D := is
          omega
      rw [if_neg within, inOrder_put_busy (quiet ▸ hq)]
      rfl
  case vrsclr => exact fun h hz hfree => exec_vrsclr_core h hz hfree
  case xfer => exact fun h hd ha hb hoc hvalid => exec_xfer_core h hd ha hb k rfl hoc rfl rfl hvalid

end Sys2Proof.Proofs
end

section
/-!
PROOFS. Base-die commands at issue (O28): the statement fails where popping the record lets a waiting push land.
-/

namespace Sys2Proof.Proofs

open Sys2Proof.Machine Sys2Proof.Safety Sys2Proof.Laws

set_option exponentiation.threshold 1024
set_option maxRecDepth 8000

/-! ### A BLOAD whose record makes room for a push -/

/-- BLOAD with its record in hoop 0. -/
def racingOps : BitVec 56 := BitVec.ofNat 56 (0x40 * 2 ^ 40)

/-- A record of zeros: a load of one word from address 0 for no bank unit. -/
def racingEntry : Entry := { data := 0, last := true, fence := false, poison := false, src := 0 }

/-- Stream 1 with a push to hoop 0 incomplete, and behind it a store over the first word of the operand cache. -/
def racingPusher : Stream := { Stream.idle with run := .run, inflight := [.push 0 racingEntry 0, .store 0 (List.replicate 8 0)] }

/-- Stream 0 stands at the BLOAD; its record is at the head of hoop 0, and the first word of the operand cache is uncorrectable. -/
def racingCore : Core :=
  { Core.reset with
    streams := [{ Stream.idle with run := .run }, racingPusher, Stream.idle, Stream.idle, Stream.idle]
    pstore := [(0, wordOf 0x40 racingOps)], ocMarks := [(0, 1)]
    hoops := Core.reset.hoops.set 0 { Hoop.empty with head := [racingEntry] } }

/-- A READY part whose hoop 0 of core 0 of vat 0 is LOCAL. -/
def racing : State :=
  { State.reset with
    k := ({ Chip.reset with
      regs := [(Reg.bootStatus, 0x80000601), (Reg.rindStatus, 1), (Reg.hoopCfg 0 0 0, 1 <<< 30)]
      hub := { Hub.reset with boot := { BootState.start with cond := .ready } } } : Chip).setCore 0 0 racingCore }

/-- The chip once the record has been popped: the push has landed, and the store behind it has made the word sound. -/
def racedChip : Chip := racing.k.popEntry 0 0 0 0

/-- The running state of stream 0 after a command. -/
def firstStream (o : Host.Outcome State Fault Refusal) : Option RunState :=
  match o with
  | .next t => some (t.k.stream 0 0 0).run
  | _ => none

theorem racing_coreAt : coreAt racing 0 0 0 0x40 racingOps := by
  refine ⟨?_, ?_, ?_, ?_, ?_, ?_⟩ <;> decide

theorem racing_fetches : (entered racing.k 0 0 0).fetchRecord 0 0 0 (qForm racingOps) 32 = .done (List.replicate 32 0) racedChip := by
  rfl

/-- The word is uncorrectable when the command's checks are made, before the pop takes effect (R311). -/
theorem racing_faults : firstStream (exec (.bload (.core 0 0 0) racingOps) racing) = some .fault := by decide

theorem raced_ocCheck : (racedChip.core 0 0).ocCheck 0 8 64 true = none := by decide

/-- Refutes O28: it asks for a sound payload after the pop of the record alone. Where the pop lets another stream's push land, a store behind that
push may mend a word that was uncorrectable when BLOAD's checks were made: BLOAD faults. -/
theorem not_baseDieCommandsAreAccepted : ¬ Obligations.BaseDieCommandsAreAccepted := by
  unfold Obligations.BaseDieCommandsAreAccepted
  rintro ⟨loads, -⟩
  have accepted := (loads racing 0 0 racingOps (List.replicate 32 0) racedChip (by decide)).1 racing_coreAt racing_fetches (by decide) (by decide)
    (by decide) (by decide) (by decide) raced_ocCheck
  have stops := racing_faults
  rw [accepted] at stops
  exact absurd stops (by decide)

end Sys2Proof.Proofs
end

section
/-!
PROOFS. The press, the vector engine and the DMA engines complete their instructions (O26).
-/

namespace Sys2Proof.Proofs

open Sys2Proof.Machine Sys2Proof.Safety Sys2Proof.Laws

section Engines

variable {s : State} {v c : Nat} (h : liveOn s (s.hasCore v c) v)
include h

/-! ### The press and the vector engine -/

theorem exec_pressPass {r : PassRec} {q : Sequencer} (ho : (s.k.stream v c 1).oldest = some (.pass r q))
    (hc : (s.k.core v c).firstOcFault r.reads true = none) :
    exec (.pressPassComplete v c) s = .next (withK s
      ((((s.k.setCore v c ((s.k.core v c).runPass r).1).coreFlag v c .accSat ((s.k.core v c).runPass r).2).count (Reg.corePressRows v c) r.m).finish
        v c 1 (.pass r q))) := by
  change execPressPassComplete _ _ _ = _
  refine (onVat_liveOn _ h).trans ?_
  simp only [show ((s.k.core v c).stream 1).oldest = _ from ho, hc]

theorem exec_pressPass_uncorrectable {r : PassRec} {q : Sequencer} {a n : Nat} (ho : (s.k.stream v c 1).oldest = some (.pass r q))
    (hc : (s.k.core v c).firstOcFault r.reads true = some (.ocUncorrectable, a, n)) :
    exec (.pressPassComplete v c) s = .next (withK s ((s.k.noteOcUe v c a n).coreFault v c 1 0x45 q)) := by
  change execPressPassComplete _ _ _ = _
  refine (onVat_liveOn _ h).trans ?_
  simp only [show ((s.k.core v c).stream 1).oldest = _ from ho, hc, Chip.noteOc, if_true]
  rfl

theorem exec_pressClear {set : Nat} {e : BitVec 8} (ho : (s.k.stream v c 1).oldest = some (.pclr set e)) :
    exec (.pressPassComplete v c) s = .next (withK s ((s.k.setCore v c ((s.k.core v c).clearSet set e)).finish v c 1 (.pclr set e))) := by
  change execPressPassComplete _ _ _ = _
  refine (onVat_liveOn _ h).trans ?_
  simp only [show ((s.k.core v c).stream 1).oldest = _ from ho]

theorem exec_chain {r : ChainRec} {run : ChainRun} {q : Sequencer} (ht : s.k.vectorTurn v c = some (.chain r run q))
    (hc : run.done = 0 → run.got = [] → (s.k.core v c).chainOcFault r = none) :
    exec (.chainComplete v c) s = .next (withK s (match s.k.chainRun v c r run with
      | .going k' run' => k'.chainKeep v c r q run run'
      | .poison k' => k'.coreFault v c 2 0x63 q
      | .finished k' => k'.finish v c 2 (.chain r run q))) := by
  change execChainComplete _ _ _ = _
  refine (onVat_liveOn _ h).trans ?_
  have sound : (if run.done = 0 ∧ run.got = [] then (s.k.core v c).chainOcFault r else none) = none := by
    split
    · next first => exact hc first.1 first.2
    · rfl
  simp only [ht, sound]
  rfl

theorem exec_smax {r : SmaxRec} {q : Sequencer} (ht : s.k.vectorTurn v c = some (.smax r q)) (hc : (s.k.core v c).smaxOcFault r = none) :
    exec (.chainComplete v c) s = .next (withK s ((s.k.runSmax v c r).finish v c 2 (.smax r q))) := by
  change execChainComplete _ _ _ = _
  refine (onVat_liveOn _ h).trans ?_
  simp only [ht, hc]

/-! ### The DMA engines -/

variable {e : Bool}

theorem exec_dma_goes_on (hp : (s.k.pump { v := v, c := c, e := e.toNat }).2 = none) :
    exec (.dmaTransferComplete v c e) s = .next (withK s (s.k.pump { v := v, c := c, e := e.toNat }).1) ∧
    exec (.dmaUnitFault v c e) s = .next (withK s (s.k.pump { v := v, c := c, e := e.toNat }).1) := by
  constructor
  · change execDmaTransferComplete _ _ _ _ = _
    refine (onVat_liveOn _ h).trans ?_
    simp only [hp]
  · change execDmaUnitFault _ _ _ _ = _
    refine (onVat_liveOn _ h).trans ?_
    simp only [hp]

theorem exec_dma_completes {p : DmaPlan} {src dst : Desc} {da : Nat} {q : Sequencer} {rows : DmaRows}
    (hp : (s.k.pump { v := v, c := c, e := e.toNat }).2 = some p)
    (ht : (s.k.pump { v := v, c := c, e := e.toNat }).1.transfer v c e.toNat = some (src, dst, da, q, rows)) (hf : p.fault = none) :
    exec (.dmaTransferComplete v c e) s = .next (withK s
      ((p.land (s.k.pump { v := v, c := c, e := e.toNat }).1 { v := v, c := c, e := e.toNat } dst).finish v c (3 + e.toNat)
        (.xfer src dst da q rows))) := by
  change execDmaTransferComplete _ _ _ _ = _
  refine (onVat_liveOn _ h).trans ?_
  simp only [hp, ht, hf, Option.isSome_none, Bool.false_eq_true, if_false]

theorem exec_dma_faults {p : DmaPlan} {src dst : Desc} {da : Nat} {q : Sequencer} {rows : DmaRows} {n : Nat} {f : DmaFault}
    (hp : (s.k.pump { v := v, c := c, e := e.toNat }).2 = some p)
    (ht : (s.k.pump { v := v, c := c, e := e.toNat }).1.transfer v c e.toNat = some (src, dst, da, q, rows)) (hf : p.fault = some (n, f)) :
    exec (.dmaUnitFault v c e) s = .next (withK s
      (((p.land (s.k.pump { v := v, c := c, e := e.toNat }).1 { v := v, c := c, e := e.toNat } dst).dmaRecord { v := v, c := c, e := e.toNat } f dst
        (some n) da).coreFault v c (3 + e.toNat) f.cause.code q)) := by
  change execDmaUnitFault _ _ _ _ = _
  refine (onVat_liveOn _ h).trans ?_
  simp only [hp, ht, hf]

end Engines

/-! ### The rows that a transfer has outstanding -/

section Rows

variable {k : Chip} {g : Engine} {src dst : Desc} {da : Nat} {q : Sequencer} {rows : DmaRows}

/-- A transfer is the oldest instruction of its engine's stream. -/
theorem transfer_inflight (h : k.transfer g.v g.c g.e = some (src, dst, da, q, rows)) :
    ∃ rest, (k.stream g.v g.c (3 + g.e)).inflight = .xfer src dst da q rows :: rest := by
  unfold Chip.transfer at h
  split at h
  · next ho =>
    cases h
    exact List.head?_eq_some_iff.mp ho
  · cases h

theorem transfer_setRows (h : k.transfer g.v g.c g.e = some (src, dst, da, q, rows)) (rows' : DmaRows) :
    (k.setRows g rows').transfer g.v g.c g.e = some (src, dst, da, q, rows') := by
  obtain ⟨rest, hi⟩ := transfer_inflight h
  have inRange : 3 + g.e < (k.core g.v g.c).streams.length := by
    by_contra beyond
    have idle : (k.core g.v g.c).stream (3 + g.e) = Stream.idle := List.getD_eq_default _ _ (Nat.le_of_not_lt beyond)
    rw [Chip.stream, idle] at hi
    cases hi
  have set : k.setRows g rows' = k.setStream g.v g.c (3 + g.e) { k.stream g.v g.c (3 + g.e) with inflight := .xfer src dst da q rows' :: rest } := by
    unfold Chip.setRows
    dsimp only
    rw [hi]
  rw [set, Chip.transfer, Chip.stream, setStream_core, setStream_stream_same _ _ _ inRange]
  rfl

theorem askRows_transfer (need : List Nat) (use : Nat → SlotUse) (slots : Nat → Nat) : (k.askRows g rows need use slots).1.transfer = k.transfer :=
  foldl_unchanged (fun k : Chip => k.transfer) (fun k r => k.askSlot g.v (1024 * r) (use r) (slots r)) (fun _ _ => rfl) _ k

/-- R304: the rows asked for are those outstanding and as many more as make 64. -/
theorem askRows_asked (need : List Nat) (use : Nat → SlotUse) (slots : Nat → Nat) (h : rows.asked.length ≤ 64) :
    (k.askRows g rows need use slots).2.asked.length ≤ 64 ∧ ∀ x ∈ rows.asked, x ∈ (k.askRows g rows need use slots).2.asked := by
  refine ⟨?_, fun x hx => List.mem_append_left _ hx⟩
  simp only [Chip.askRows, List.length_append, List.length_take]
  omega

/-- What a pump leaves of the transfer, once it has asked for rows. -/
theorem asked_rows (h : k.transfer g.v g.c g.e = some (src, dst, da, q,
    rows)) (hrows : rows.asked.length ≤ 64) {need : List Nat} {use : Nat → SlotUse}
    {slots : Nat → Nat} {rows' : DmaRows} {done : Bool} (same : rows'.asked = (k.askRows g rows need use slots).2.asked)
    (ended : done = true → rows'.asked = []) :
    ∃ rows'', ((k.askRows g rows need use slots).1.setRows g rows').transfer g.v g.c g.e = some (src, dst, da, q, rows'') ∧
      rows''.asked.length ≤ 64 ∧ (∀ x ∈ rows.asked, x ∈ rows''.asked) ∧ (done = true → rows''.asked = []) := by
  obtain ⟨most, kept⟩ := askRows_asked (k := k) (g := g) need use slots hrows
  exact ⟨rows', transfer_setRows (by rw [askRows_transfer]; exact h) rows', same ▸ most, fun x hx => same ▸ kept x hx, ended⟩

theorem pump_rows (h : k.transfer g.v g.c g.e = some (src, dst, da, q, rows)) (hrows : rows.asked.length ≤ 64) :
    ∃ rows', (k.pump g).1.transfer g.v g.c g.e = some (src, dst, da, q, rows') ∧ rows'.asked.length ≤ 64 ∧
      (∀ x ∈ rows.asked, x ∈ rows'.asked) ∧ ((k.pump g).2.isSome = true → rows'.asked = []) := by
  have ended : ∀ (asked : List Nat) (p : DmaPlan), (if asked = [] then some p else none).isSome = true → asked = [] := fun asked p some => by
    by_contra some'
    rw [if_neg some'] at some
    cases some
  unfold Chip.pump
  rw [h]
  dsimp only
  split
  · split
    · exact asked_rows h hrows rfl (fun none => by cases none)
    · exact asked_rows h hrows rfl (ended _ _)
  · exact asked_rows h hrows rfl (ended _ _)

end Rows

/-- Settles O26: each command by the instruction whose turn it is, and the rows outstanding by the branches of the engine's pump. -/
theorem enginesComplete : Obligations.EnginesComplete := by
  unfold Obligations.EnginesComplete
  refine ⟨fun s v c h => ⟨?pass, ?uncorrectable, ?clear, ?chain, ?smax, ?dma⟩, ?rows⟩
  case pass => exact fun r q ho hc => exec_pressPass h ho hc
  case uncorrectable => exact fun r q a n ho hc => exec_pressPass_uncorrectable h ho hc
  case clear => exact fun set e ho => exec_pressClear h ho
  case chain =>
    intro r run q ht hc
    refine ⟨fun k1 hr => ?_, fun k1 hr => ?_, fun k1 run' hr => ?_⟩ <;> rw [exec_chain h ht hc, hr]
  case smax => exact fun r q ht hc => exec_smax h ht hc
  case dma =>
    exact fun e => ⟨exec_dma_goes_on h, fun p src dst da q rows hp ht => ⟨exec_dma_completes h hp ht, fun n f hf => exec_dma_faults h hp ht hf⟩⟩
  case rows => exact fun k g src dst da q rows h hrows => pump_rows h hrows

end Sys2Proof.Proofs
end

section
/-!
PROOFS. Row-slot requests, transfers and the datapath of a bank unit at issue (O31).
-/

namespace Sys2Proof.Proofs

open Sys2Proof.Machine Sys2Proof.Safety Sys2Proof.Laws

/-! ### The outcomes of an instruction of a bank unit -/

section Outcomes

variable {s : State} {v d a op : Nat} {ops : BitVec 56} {used : Nat} {legal : Bool} {eff : Chip → Nat → Nat → Nat → Chip → BankEff}
  (h : bankAt s v d a op ops) (n : op ≠ 0x07) (r : reservedZero ops used = true) (l : legal = true)
include h n r l

theorem bank_steps {u' : Bu}
    (he : eff s.k v d (s.k.phys v d a) (enteredBank s.k v d (s.k.phys v d a)) =
      .step ((enteredBank s.k v d (s.k.phys v d a)).setBu v d (s.k.phys v d a) u')) :
    s.onChip (s.hasUnit (.bank v d a)) (fun k => issueB k (.bank v d a) op ops used legal (eff k)) =
      .next (withK s (bankStepped (enteredBank s.k v d (s.k.phys v d a)) v d (s.k.phys v d a) u')) := by
  refine (bank_run s v d a op ops used (fun _ _ _ _ => false) (fun _ _ _ _ _ => .wait) (fun _ => legal) eff h n r l).trans ?_
  rw [he]
  dsimp only
  rw [bu_setBu_same, setBu_setBu]
  rfl

theorem bank_faults {f : BankCause}
    (he : eff s.k v d (s.k.phys v d a) (enteredBank s.k v d (s.k.phys v d a)) = .fault f (enteredBank s.k v d (s.k.phys v d a))) :
    s.onChip (s.hasUnit (.bank v d a)) (fun k => issueB k (.bank v d a) op ops used legal (eff k)) =
      .next (withK s ((enteredBank s.k v d (s.k.phys v d a)).bankFault v d (s.k.phys v d a) f (s.k.bu v d (s.k.phys v d a)).seq.lib
        (s.k.bu v d (s.k.phys v d a)).seq.pc)) := by
  refine (bank_run s v d a op ops used (fun _ _ _ _ => false) (fun _ _ _ _ _ => .wait) (fun _ => legal) eff h n r l).trans ?_
  rw [he]

/-- The datapath's work done: the bank unit as `u'`, the flags of `num` gathered. -/
theorem bank_works {u' : Bu} {num : NumSet}
    (he : eff s.k v d (s.k.phys v d a) (enteredBank s.k v d (s.k.phys v d a)) =
      bankWork v d (s.k.phys v d a) (enteredBank s.k v d (s.k.phys v d a)) (.ok (u', num))) :
    s.onChip (s.hasUnit (.bank v d a)) (fun k => issueB k (.bank v d a) op ops used legal (eff k)) =
      .next (withK s (bankStepped (((enteredBank s.k v d (s.k.phys v d a)).setBu v d (s.k.phys v d a) u').setBuNum v d (s.k.phys v d a) num)
        v d (s.k.phys v d a) u')) := by
  refine (bank_run s v d a op ops used (fun _ _ _ _ => false) (fun _ _ _ _ _ => .wait) (fun _ => legal) eff h n r l).trans ?_
  rw [he]
  have kept : ∀ k : Chip, (k.setBuNum v d (s.k.phys v d a) num).bu v d (s.k.phys v d a) = k.bu v d (s.k.phys v d a) := fun k => by
    simp only [Chip.setBuNum, Chip.buFlag]
    repeat' split
    all_goals rfl
  simp only [bankWork, bankStepped, kept, bu_setBu_same]

end Outcomes

section Instructions

variable {s : State} {v d a : Nat} {ops : BitVec 56} {k : Chip} {u u' : Bu}
  (hk : enteredBank s.k v d (s.k.phys v d a) = k) (hu : k.bu v d (s.k.phys v d a) = u)
include hk hu

/-! ### Row-slot requests and transfers -/

/-- The bank unit with a request for a slot of a row. -/
def asking (k : Chip) (u : Bu) (row : Nat) (use : SlotUse) : Bu :=
  { u with slotQ := u.slotQ ++ [{ use := use, cls := .bank, row := some row, arrived := k.now }] }

section Slots

variable (hz : reservedZero ops (useD + useA + 1) = true) (hd : (qForm ops).d = endZero) (ha : bankPopOk (qForm ops).a = true)
  (hfree : u.latchBusy false ((qForm ops).imm % 2) = false)
include hz hd ha hfree

theorem exec_bankSlot {wr : Bool} {op : Nat} (h : bankAt s v d a op ops) (hn : op ≠ 0x07)
    (hpage : k.rowCheck v d (s.k.phys v d a) ((u.endValue (qForm ops).a).toNat % 2 ^ 16) wr = none) :
    bankSlot wr op (.bank v d a) ops s = .next (withK s (bankStepped k v d (s.k.phys v d a)
      (asking k u ((u.endValue (qForm ops).a).toNat % 2 ^ 16)
        (if wr then .buWrite ((qForm ops).imm % 2) ((u.endValue (qForm ops).a).toNat % 2 ^ 16)
          else .buRead ((qForm ops).imm % 2) ((u.endValue (qForm ops).a).toNat % 2 ^ 16))))) := by
  subst hk hu
  unfold bankSlot
  refine bank_steps h hn hz (by simp [hd, ha]) ?_
  simp only [hfree, hpage, Bool.false_eq_true, if_false]
  rfl

theorem exec_bankSlot_denied {wr : Bool} {op : Nat} {f : BankCause} (h : bankAt s v d a op ops) (hn : op ≠ 0x07)
    (hpage : k.rowCheck v d (s.k.phys v d a) ((u.endValue (qForm ops).a).toNat % 2 ^ 16) wr = some f) :
    bankSlot wr op (.bank v d a) ops s = .next (withK s (k.bankFault v d (s.k.phys v d a) f (s.k.bu v d (s.k.phys v d a)).seq.lib
      (s.k.bu v d (s.k.phys v d a)).seq.pc)) := by
  subst hk hu
  unfold bankSlot
  refine bank_faults h hn hz (by simp [hd, ha]) ?_
  simp only [hfree, hpage, Bool.false_eq_true, if_false]

end Slots

theorem exec_bwsend (h : bankAt s v d a 0xE9 ops) (hz : reservedZero ops (useD + useA + useB + useX + 0x1F) = true)
    (hform : datapathForm (qForm ops) = true) (hb : bankPopOk (qForm ops).b = true) {n src dst off : Nat} (hn : 32 * ((qForm ops).imm % 32 + 1) = n)
    (hsrc : (u.endValue (qForm ops).a).toNat % 2 ^ 16 = src) (hdst : (u.endValue (qForm ops).b).toNat = dst)
    (hoff : ((qForm ops).dest u).toNat % 2 ^ 16 = off) (hs : wheyFault src n = none) (ho : wheyFault off n = none) (hlow : dst < 100)
    (hready : (k.die v d).startable dst = true) (hroom : u.wheyQ.length < 4) :
    exec (.bwsend (.bank v d a) ops) s = .next (withK s (bankStepped k v d (s.k.phys v d a)
      { u with wheyQ := u.wheyQ ++ [{ src := src, dst := dst, dstAt := off, len := n, sent := k.now }] })) := by
  subst hk hu
  change execBwsend _ _ _ = _
  unfold execBwsend
  refine bank_steps h (by decide) hz (by simp [hform, hb]) ?_
  have near : ¬ 100 ≤ dst := by omega
  have room : ¬ 4 ≤ ((enteredBank s.k v d (s.k.phys v d a)).bu v d (s.k.phys v d a)).wheyQ.length := by omega
  simp only [hn, hsrc, hdst, hoff, hs, ho, hready, near, room, decide_false, Bool.not_true, Bool.or_self, Bool.false_eq_true, if_false]

theorem exec_bwstat (h : bankAt s v d a 0xEA ops) (hz : reservedZero ops (useD + 1) = true) (hd : bankPushOk (qForm ops).d = true) :
    exec (.bwstat (.bank v d a) ops) s = .next (withK s (bankStepped k v d (s.k.phys v d a)
      (u.pushEnd (qForm ops).d (BitVec.ofNat 32 (if (qForm ops).imm = 0 then u.wheyRx else u.wheyQ.length))))) := by
  subst hk hu
  change execBwstat _ _ _ = _
  unfold execBwstat
  exact bank_steps h (by decide) hz hd rfl

/-! ### The datapath -/

theorem exec_bcpy (h : bankAt s v d a 0xE2 ops) (hz : reservedZero ops (useD + useA + useX + 0x1F) = true) (hform : datapathForm (qForm ops) = true)
    (hw : u.copyWords ((u.endValue (qForm ops).a).toNat % 2 ^ 16) (((qForm ops).dest u).toNat % 2 ^ 16) ((qForm ops).imm % 32 + 1) 0 = .ok u') :
    exec (.bcpy (.bank v d a) ops) s = .next (withK s
      (bankStepped ((k.setBu v d (s.k.phys v d a) u').setBuNum v d (s.k.phys v d a) {}) v d (s.k.phys v d a) u')) := by
  subst hk hu
  change execBcpy _ _ _ = _
  unfold execBcpy
  refine bank_works h (by decide) hz hform ?_
  simp only [hw, BankMem.bind]

theorem exec_bdot {fa fb : Fmt} {sat : Bool} (h : bankAt s v d a 0xE3 ops) (hz : reservedZero ops (useD + useA + useB + useX + 0xFFFFF) = true)
    (hform : datapathForm (qForm ops) = true) (hb : bankPopOk (qForm ops).b = true) (hfa : bankFmt (bitsAt (qForm ops).imm 3 0) = some fa)
    (hfb : bankFmt (bitsAt (qForm ops).imm 7 4) = some fb)
    (hw : u.dotPairs fa fb (signedOf 8 (bitsAt (qForm ops).imm 15 8)) (u.endValue (qForm ops).a) (u.endValue (qForm ops).b)
      (((qForm ops).dest u).toNat % 2 ^ 16) ((qForm ops).imm.testBit 19) ((qForm ops).imm.testBit 18) (bitsAt (qForm ops).imm 17 16 + 1) 0 false =
        .ok (u', sat)) :
    exec (.bdot (.bank v d a) ops) s = .next (withK s
      (bankStepped ((k.setBu v d (s.k.phys v d a) u').setBuNum v d (s.k.phys v d a) { accSat := sat }) v d (s.k.phys v d a) u')) := by
  subst hk hu
  change execBdot _ _ _ = _
  unfold execBdot
  refine bank_works h (by decide) hz (by simp [hform, hb, hfa, hfb]) ?_
  simp only [hfa, hfb, Option.getD_some, hw, BankMem.bind]

theorem exec_balu {x y : List Int} (h : bankAt s v d a 0xE4 ops) (hz : reservedZero ops (useD + useA + useB + useX + 0x3F1F) = true)
    (hform : datapathForm (qForm ops) = true) (hb : bankPopOk (qForm ops).b = true) (hcode : laneCodeOk true (bitsAt (qForm ops).imm 4 0) = true)
    (hx : u.lanes ((u.endValue (qForm ops).a).toNat % 2 ^ 16) 8 = .ok x)
    (hy : (if laneNeedsB (bitsAt (qForm ops).imm 4 0) = false then .ok (List.replicate 8 0)
      else if (qForm ops).imm.testBit 13 then .ok (List.replicate 8 (u.endValue (qForm ops).b).toInt)
      else u.lanes ((u.endValue (qForm ops).b).toNat % 2 ^ 16) 8) = BankMem.ok y) {rs : List (Int × Bool)}
    (hrs : x.zipWith (laneFn (bitsAt (qForm ops).imm 4 0) (bitsAt (qForm ops).imm 12 8)) y = rs)
    (hw : u.write (((qForm ops).dest u).toNat % 2 ^ 16) 4 (laneBytes (rs.map (·.1))) = .ok u') :
    exec (.balu (.bank v d a) ops) s = .next (withK s
      (bankStepped ((k.setBu v d (s.k.phys v d a) u').setBuNum v d (s.k.phys v d a) { laneSat := rs.any (·.2) }) v d (s.k.phys v d a) u')) := by
  subst hk hu
  change execBalu _ _ _ = _
  unfold execBalu
  refine bank_works h (by decide) hz (by simp [hform, hb, hcode]) ?_
  simp only [Bool.not_eq_true', hx, hy, hrs, hw, BankMem.bind]

theorem exec_bexp {x : List Int} (h : bankAt s v d a 0xE5 ops) (hz : reservedZero ops (useD + useA + useB + useX) = true)
    (hform : datapathForm (qForm ops) = true) (hb : bankPopOk (qForm ops).b = true)
    (hx : u.lanes ((u.endValue (qForm ops).a).toNat % 2 ^ 16) 8 = .ok x) {ds : List (Int × Bool)}
    (hds : x.map (fun l => clampBits 32 (l - (u.endValue (qForm ops).b).toInt)) = ds)
    (hw : u.write (((qForm ops).dest u).toNat % 2 ^ 16) 4 (laneBytes (ds.map (fun r => exp2Q15 r.1))) = .ok u') :
    exec (.bexp (.bank v d a) ops) s = .next (withK s
      (bankStepped ((k.setBu v d (s.k.phys v d a) u').setBuNum v d (s.k.phys v d a) { laneSat := ds.any (·.2) }) v d (s.k.phys v d a) u')) := by
  subst hk hu
  change execBexp _ _ _ = _
  unfold execBexp
  refine bank_works h (by decide) hz (by simp [hform, hb]) ?_
  simp only [hx, hds, hw, BankMem.bind]

theorem exec_bred {x : List Int} (h : bankAt s v d a 0xE6 ops) (hz : reservedZero ops (useD + useA + useB + 3) = true)
    (hd : bankPushOk (qForm ops).d = true) (ha : bankPopOk (qForm ops).a = true) (hb : bankPopOk (qForm ops).b = true) (hcode : (qForm ops).imm ≤ 2)
    (hx : u.lanes ((u.endValue (qForm ops).a).toNat % 2 ^ 16) 8 = .ok x) {r : Int × Bool}
    (hr : laneReduce (qForm ops).imm x (u.endValue (qForm ops).b).toInt = r) (hu' : u.pushEnd (qForm ops).d (BitVec.ofInt 32 r.1) = u') :
    exec (.bred (.bank v d a) ops) s = .next (withK s
      (bankStepped ((k.setBu v d (s.k.phys v d a) u').setBuNum v d (s.k.phys v d a) { laneSat := r.2 }) v d (s.k.phys v d a) u')) := by
  subst hk hu
  change execBred _ _ _ = _
  unfold execBred
  refine bank_works h (by decide) hz (by simp [hd, ha, hb, hcode]) ?_
  simp only [hx, hr, hu', BankMem.bind]

theorem exec_bquant {g : Fmt} {x : List Int} (h : bankAt s v d a 0xE7 ops) (hz : reservedZero ops (useD + useA + useX + 0xFF0F) = true)
    (hform : datapathForm (qForm ops) = true) (hg : bankFmt (bitsAt (qForm ops).imm 3 0) = some g)
    (hx : u.lanes ((u.endValue (qForm ops).a).toNat % 2 ^ 16) 32 = .ok x) {r : QBlock}
    (hr : quantise g (signedOf 8 (bitsAt (qForm ops).imm 15 8)) x = r)
    (hw : u.writeAll [(((qForm ops).dest u).toNat % 2 ^ 16, 8, packBlock g r.codes), (((qForm ops).dest u).toNat / 2 ^ 16, 2, leBytes 2 r.scale)] =
      .ok u') :
    exec (.bquant (.bank v d a) ops) s = .next (withK s
      (bankStepped ((k.setBu v d (s.k.phys v d a) u').setBuNum v d (s.k.phys v d a) { qsat := r.qsat }) v d (s.k.phys v d a) u')) := by
  subst hk hu
  change execBquant _ _ _ = _
  unfold execBquant
  refine bank_works h (by decide) hz (by simp [hform, hg]) ?_
  simp only [hg, Option.getD_some, hx, hr, hw, BankMem.bind]

theorem exec_bdec {g : Fmt} {blk : Nat × List Int} (h : bankAt s v d a 0xE8 ops) (hz : reservedZero ops (useD + useA + useX + 0xFF0F) = true)
    (hform : datapathForm (qForm ops) = true) (hg : bankFmt (bitsAt (qForm ops).imm 3 0) = some g)
    (hblk : u.block g (u.endValue (qForm ops).a) 0 = .ok blk) {rs : List (Int × Bool)}
    (hrs : decodeLanes (signedOf 8 (bitsAt (qForm ops).imm 15 8)) blk.1 blk.2 = rs)
    (hw : u.write (((qForm ops).dest u).toNat % 2 ^ 16) 4 (laneBytes (rs.map (·.1))) = .ok u') :
    exec (.bdec (.bank v d a) ops) s = .next (withK s
      (bankStepped ((k.setBu v d (s.k.phys v d a) u').setBuNum v d (s.k.phys v d a) { laneSat := rs.any (·.2) }) v d (s.k.phys v d a) u')) := by
  subst hk hu
  change execBdec _ _ _ = _
  unfold execBdec
  refine bank_works h (by decide) hz (by simp [hform, hg]) ?_
  simp only [hg, Option.getD_some, hblk, hrs, hw, BankMem.bind]

end Instructions

/-- Settles O31: each instruction through its own issue lemma. -/
theorem bankInstructionsRun : Obligations.BankInstructionsRun := by
  unfold Obligations.BankInstructionsRun
  refine ⟨fun s v d a ops => ⟨fun hz hd ha hfree => ⟨?brd, ?bwr, ?denied⟩, ?bwsend, ?bwstat⟩,
    fun s v d a ops => ⟨?bcpy, ?bdot, ?balu, ?bexp, ?bred, ?bquant, ?bdec⟩⟩
  case brd => exact fun h hpage => exec_bankSlot (wr := false) rfl rfl hz hd ha hfree h (by decide) hpage
  case bwr => exact fun h hpage => exec_bankSlot (wr := true) rfl rfl hz hd ha hfree h (by decide) hpage
  case denied => exact fun f h hpage => exec_bankSlot_denied (wr := true) rfl rfl hz hd ha hfree h (by decide) hpage
  case bwsend => exact fun h hz hform hb hs ho hlow hready hroom => exec_bwsend rfl rfl h hz hform hb rfl rfl rfl rfl hs ho hlow hready hroom
  case bwstat => exact fun h hz hd => exec_bwstat rfl rfl h hz hd
  case bcpy => exact fun u' h hz hform hw => exec_bcpy rfl rfl h hz hform hw
  case bdot => exact fun fa fb u' sat h hz hform hb hfa hfb hw => exec_bdot rfl rfl h hz hform hb hfa hfb hw
  case balu => exact fun x y u' h hz hform hb hcode hx hy hw => exec_balu rfl rfl h hz hform hb hcode hx hy rfl hw
  case bexp => exact fun x u' h hz hform hb hx hw => exec_bexp rfl rfl h hz hform hb hx rfl hw
  case bred => exact fun x h hz hd ha hb hcode hx => exec_bred rfl rfl h hz hd ha hb hcode hx rfl rfl
  case bquant => exact fun g x u' h hz hform hg hx hw => exec_bquant rfl rfl h hz hform hg hx rfl hw
  case bdec => exact fun g blk u' h hz hform hg hblk hw => exec_bdec rfl rfl h hz hform hg hblk rfl hw

end Sys2Proof.Proofs
end

section
/-!
PROOFS. Merges and the whey bus (O30), and the slots of a bank (O32).
-/

namespace Sys2Proof.Proofs

open Sys2Proof.Machine Sys2Proof.Safety Sys2Proof.Laws

/-! ### Merges and the whey bus -/

section Die

variable {s : State} {v d : Nat} (h : liveOn s (s.hasDie v d) v)
include h

theorem exec_mergeBegin {cmd : MergeCmd} {att : List Attach} {rest : List (MergeCmd × List Attach)} (hm : (s.k.die v d).merge = none)
    (hq : (s.k.die v d).mergeQ = (cmd, att) :: rest) {n : Nat} (hn : 32 * (1 + leNat ((s.k.core v cmd.core).ocBytes (cmd.image + 2) 1) % 16) = n) :
    exec (.mergeBegin v d) s = .next (withK s ((s.k.noteOcUe v cmd.core cmd.image n).setDie v d { s.k.die v d with
      merge := some { cmd := cmd, image := (s.k.core v cmd.core).ocBytes cmd.image n, attach := att }, mergeQ := rest })) := by
  change execMergeBegin _ _ _ = _
  refine (onVat_liveOn _ h).trans ?_
  simp only [hm, hq, hn]

theorem exec_mergeComplete {r : MergeRun} {w : WaveHdr} {qs : List QEntry} {m : MergeAcc} (hm : (s.k.die v d).merge = some r)
    (hw : waveHdr (r.image.take 32) = w) (hqs : (List.range w.nent).map (fun j => qEntry ((r.image.drop (32 + 32 * j)).take 32)) = qs)
    (hr : r.ready w qs = true) (hacc : (r.entriesOf w).foldl (fun (m : MergeAcc) j => m.entry v d r w qs j) { k := s.k, status := 0, lost := 0 } = m) :
    exec (.mergeComplete v d) s = .next (withK s
      ((m.k.setDie v d { m.k.die v d with merge := none, mergeSeq := r.cmd.waveSeq }).post v d (mergeEntry d r.cmd.waveSeq m.status m.lost))) := by
  change execMergeComplete _ _ _ = _
  refine (onVat_liveOn _ h).trans ?_
  simp only [hm, hw, hqs, hr, hacc, Bool.not_true, Bool.false_eq_true, if_false]

theorem exec_wheyGrant {a : Nat} {w : WheySend} {rest : List WheySend} (hbus : (s.k.die v d).wheyBus = none) (ha : s.k.wheyNext v d = some a)
    (hq : (s.k.unit v d a).wheyQ = w :: rest) :
    exec (.wheyGrant v d) s = .next (withK s
      (((s.k.setUnit v d a { s.k.unit v d a with
          wheyTx := ((s.k.unit v d a).wheyTx + 1) % 2 ^ 16, wheyQ := rest.map (fun r => { r with sent := max r.sent s.k.now }) }).satMax
        (Reg.dieWheyWaitMax v d) 15 0 ((s.k.now - w.sent) / 2)).setDie v d { s.k.die v d with
          wheyLast := a
          wheyBus := some { src := a, dst := w.dst, dstAt := w.dstAt, bytes := lookupRun 0 (s.k.unit v d a).scratch w.src w.len } })) := by
  change execWheyGrant _ _ _ = _
  refine (onVat_liveOn _ h).trans ?_
  have kept : ∀ (k : Chip) o n, (k.satMax o 15 0 n).die v d = k.die v d := fun k o n => rfl
  simp only [hbus, ha, hq, Option.isSome_none, Bool.false_eq_true, if_false, kept]
  rfl

theorem exec_wheyLand {w : WheyGo} (hbus : (s.k.die v d).wheyBus = some w) {k1 : Chip} (hk : s.k.setDie v d { s.k.die v d with wheyBus := none }
    = k1) :
    exec (.wheyLand v d) s = .next (withK s
      ((k1.setUnit v d w.dst { (k1.unit v d w.dst).scratchWrite w.dstAt w.bytes with wheyRx := ((k1.unit v d w.dst).wheyRx + 1) % 2 ^ 16 }).count
        (Reg.dieWheyBytes v d) w.bytes.length)) := by
  change execWheyLand _ _ _ = _
  refine (onVat_liveOn _ h).trans ?_
  simp only [hbus, hk]

end Die

/-- Settles O30: each event of the lane and of the bus by what the die holds. -/
theorem mergesAndWheyMove : Obligations.MergesAndWheyMove := by
  unfold Obligations.MergesAndWheyMove
  intro s v d h k x
  exact ⟨fun cmd att rest hm hq => exec_mergeBegin h hm hq rfl, fun r hm hr => exec_mergeComplete h hm rfl rfl hr rfl,
    fun a w rest hbus ha hq => exec_wheyGrant h hbus ha hq, fun w hbus => exec_wheyLand h hbus rfl⟩

/-! ### The slots of a bank -/

theorem log_bus (k : Chip) (o : LogOcc) : (k.log o).bus = k.bus := (log_regsOnly k o).2.2.2.1

theorem trigger_bus (k : Chip) (v d a code : Nat) : (k.trigger v d a code).bus = k.bus := by
  unfold Chip.trigger
  dsimp only
  generalize (if (k.die v d).takeover.isSome then 4 else 5) = room
  split
  · rfl
  · split
    · rfl
    · exact log_bus _ _

theorem autoTrigger_bus (k : Chip) (v d a code : Nat) : (k.autoTrigger v d a code).bus = k.bus := by
  unfold Chip.autoTrigger
  split
  · exact trigger_bus k v d a code
  · rfl

theorem noteRead_bus (k : Chip) (v d b row word src : Nat) (r : WordRead) : (k.noteRead v d b row word src r).bus = k.bus := by
  unfold Chip.noteRead
  dsimp only
  split
  · rfl
  · rfl
  · split
    · rfl
    · exact (log_bus _ _).trans rfl
  · exact (log_bus _ _).trans rfl
  · exact (autoTrigger_bus _ _ _ _ _).trans ((log_bus _ _).trans rfl)

theorem readRow_bus (k : Chip) (dr : Dram) (v d b row src : Nat) : (k.readRow dr v d b row src).2.bus = k.bus :=
  foldl_unchanged (fun k : Chip => k.bus) _ (fun _ _ => noteRead_bus _ _ _ _ _ _ _ _) _ k

section Slots

variable {s : State} {v d b : Nat} (h : live s (s.hasLogical v d b))
include h

theorem exec_rowSlotGrant {r : SlotReq} (hidle : (s.k.bu v d b).active = none) (hruns : s.k.vatRuns v = true)
    (hnext : (s.k.bu v d b).nextSlot = some r) {k1 : Chip}
    (hk : s.k.setBu v d b { s.k.bu v d b with
      active := some r, slotQ := (s.k.bu v d b).slotQ.erase r, baseRun := (s.k.bu v d b).runAfter r } = k1) :
    exec (.rowSlotGrant v d b) s = .next (withK s (match r.cls with
      | .base => (k1.count (Reg.buSlotsBase v d b) r.slots).satMax (Reg.buWaitMax v d b) 15 0 ((s.k.now - r.arrived) / 2)
      | .bank => k1.count (Reg.buSlotsBu v d b) 1
      | _ => k1)) := by
  subst hk
  change execRowSlotGrant _ _ _ _ = _
  refine (onChip_live _ h).trans ?_
  simp only [hidle, hruns, hnext, Option.isSome_none, Bool.not_true, Bool.or_self, Bool.false_eq_true, if_false]
  cases r.cls <;> rfl

theorem exec_rowSlotEnd {r : SlotReq} (hbusy : (s.k.bu v d b).active = some r) {x : Dram × Chip}
    (hx : (s.k.setBu v d b { s.k.bu v d b with active := none }).slotEnd s.dram s.part.vats v d b r = x) :
    exec (.rowSlotEnd v d b) s = .next { s with dram := x.1, k := x.2 } := by
  change execRowSlotEnd _ _ _ _ = _
  refine (onBoth_next _ _ _ h.1 h.2).trans ?_
  simp only [hbusy, hx]

end Slots

/-- A read slot's end, on the bank unit as it then stands. -/
theorem slotEnd_buRead (k : Chip) (dr : Dram) (V v d b : Nat) (r : SlotReq) {l row : Nat} (hu : r.use = .buRead l row) :
    ∃ k', k.slotEnd dr V v d b r = (dr, k') ∧ k'.bu v d b = { k.bu v d b with
      latches := setAt (k.bu v d b).latches l (latchOf ((List.range 32).map (fun i => dr.word (bankByte v d b (1024 * row + 32 * i))))) } := by
  have kept : (k.readRow dr v d b row 2).2.bu v d b = k.bu v d b := by
    simp only [Chip.bu, readRow_bus]
  refine ⟨_, by rw [Chip.slotEnd, hu], ?_⟩
  rw [bu_setBu_same, kept]
  rfl

theorem latch_setAt {u : Bu} {l : Nat} (h : l < u.latches.length) (x : Latch) :
    Bu.latch { u with latches := setAt u.latches l x } l = x := by
  simp only [Bu.latch, setAt, List.getD_eq_getElem?_getD, List.getElem?_set_self h, Option.getD_some]

/-- Settles O32: the grant by the class of its request, the end by what the slot is for. -/
theorem rowSlotsRun : Obligations.RowSlotsRun := by
  unfold Obligations.RowSlotsRun
  intro s v d b h k u idle
  refine ⟨fun r hidle hruns hnext => exec_rowSlotGrant h hidle hruns hnext rfl, fun r hbusy => exec_rowSlotEnd h hbusy rfl, ?read, ?write⟩
  case read =>
    intro r l row hbusy huse hl
    obtain ⟨k', hend, hbu⟩ := slotEnd_buRead idle s.dram s.part.vats v d b r huse
    rw [show idle.bu v d b = _ from bu_setBu_same _ _ _ _ _] at hbu
    refine ⟨k', exec_rowSlotEnd h hbusy hend, ?_⟩
    dsimp only
    rw [hbu]
    exact ⟨rfl, latch_setAt (u := { u with active := none }) hl _, rfl, rfl, rfl⟩
  case write =>
    intro r l row hbusy huse
    refine exec_rowSlotEnd h hbusy (x := (_, _)) ?_
    rw [Chip.slotEnd, huse]
    dsimp only
    rw [show (s.k.setBu v d b { s.k.bu v d b with active := none }).bu v d b = _ from bu_setBu_same _ _ _ _ _]
    rfl

end Sys2Proof.Proofs
end

section
/-!
PROOFS. Refresh, scrub, fence, walker and checker events of a bank, and takeovers (O34).
-/

namespace Sys2Proof.Proofs

open Sys2Proof.Machine Sys2Proof.Safety Sys2Proof.Laws

/-! ### Log entries leave the units -/

theorem log_die (k : Chip) (o : LogOcc) (v d : Nat) : (k.log o).die v d = k.die v d := by
  simp only [Chip.die, (log_regsOnly k o).2.2.1]

theorem log_bu (k : Chip) (o : LogOcc) (v d b : Nat) : (k.log o).bu v d b = k.bu v d b := by
  simp only [Chip.bu, log_bus]

/-! ### Events of one bank -/

section Bank

variable {s : State} {v d b : Nat} (h : liveOn s (s.hasLogical v d b) v)
include h

theorem exec_refresh : exec (.refresh v d b) s = .next (withK s (s.k.setBu v d b { s.k.bu v d b with
    slotQ := (s.k.bu v d b).slotQ ++ [{ use := .refresh, cls := .refresh, row := none, arrived := s.k.now, slots := 3 }] })) := by
  change execRefresh _ _ _ _ = _
  exact onVat_liveOn _ h

theorem exec_scrubPromotion : exec (.scrubPromotion v d b) s = .next (withK s (s.k.setBu v d b { s.k.bu v d b with
    slotQ := (s.k.bu v d b).slotQ.map (fun r =>
      if r.cls = .scrub ∧ r.arrived + 1000000 ≤ s.k.now then { r with cls := .base, arrived := s.k.now } else r) })) := by
  change execScrubPromotion _ _ _ _ = _
  refine (onChip_live _ h.1).trans ?_
  simp only [Bool.and_eq_true, decide_eq_true_eq]

theorem exec_fenceTimeout (hheld : (s.k.bu v d b).fenceHeld = true) (hlimit : (s.k.bu v d b).fenceSince + (s.k.bu v d b).fenceLimit ≤ s.k.now) :
    exec (.fenceTimeout v d b) s = .next (withK s
      ((s.k.setBu v d b { s.k.bu v d b with fenceHeld := false }).logBank 0x11 v d ((s.k.die v d).logicalOf b) 0)) := by
  change execFenceTimeout _ _ _ _ = _
  refine (onVat_liveOn _ h).trans ?_
  simp only [hheld, hlimit, and_self, if_true]

theorem exec_buCheckerTrip (hrun : (s.k.bu v d b).run = .run) (hending : (s.k.bu v d b).ending = none) {a : Nat} {k1 : Chip}
    (ha : (s.k.die v d).logicalOf b = a)
    (hk : ((s.k.setBu v d b { s.k.bu v d b with
      ending := some .fault, cause := 0x29, faultLib := (s.k.bu v d b).seq.lib, faultPc := (s.k.bu v d b).seq.pc }).logBank 0x20 v d a
        ((s.k.bu v d b).seq.pc + if (s.k.bu v d b).seq.lib then 2 ^ 12 else 0)).autoTrigger v d a 1 = k1) :
    exec (.buCheckerTrip v d b) s =
      .next (withK s (if (k1.die v d).takeover.any (fun t => 96 + t.slot = a) then k1.spareFails v d else k1)) := by
  subst ha hk
  change execBuCheckerTrip _ _ _ _ = _
  refine (onChip_live _ h.1).trans ?_
  simp only [hrun, hending, Option.isNone_none, decide_true, Bool.and_self, if_true, Chip.bankFault, bu_setBu_same]
  rfl

end Bank

/-! ### The walker -/

/-- A fold that meets an element establishes what that element establishes, where the other steps keep it. -/
theorem foldl_reaches {α β : Type} {P Q : α → Prop} {f : α → β → α} {l : List β} {b : β} (hb : b ∈ l) (holds : ∀ a x, Q a → Q (f a x))
    (hit : ∀ a, Q a → P (f a b)) (keeps : ∀ a x, P a → P (f a x)) {a : α} (h : Q a) : P (l.foldl f a) := by
  induction l generalizing a with
  | nil => cases hb
  | cons x l ih =>
    rcases List.mem_cons.mp hb with rfl | later
    · exact Laws.foldl_keeps P f l _ (hit a h) (fun a x => keeps a x)
    · exact ih later (holds a x h)

/-- Everything of a chip but its banks. -/
def butBanks (k : Chip) : List (Nat × Word) × List (Nat × Core) × List (Nat × Die) × List (Nat × Vat) × Hub := (k.regs, k.cores, k.dies, k.vats,
    k.hub)

/-- One pass of the walker over the dies of a vat. -/
def walkPass (k : Chip) (v row : Nat) : Chip :=
  (List.range 16).foldl (fun k d => ((k.die v d).walked).foldl (fun k b => k.askScrub v d row b) k) k

theorem askScrub_butBanks (k : Chip) (v d row b : Nat) : butBanks (k.askScrub v d row b) = butBanks k := rfl

theorem walkDie_butBanks (k : Chip) (v d row : Nat) (l : List Nat) : butBanks (l.foldl (fun k b => k.askScrub v d row b) k) = butBanks k :=
  foldl_unchanged butBanks (fun k b => k.askScrub v d row b) (fun _ _ => rfl) l k

theorem walkPass_butBanks (k : Chip) (v row : Nat) : butBanks (walkPass k v row) = butBanks k :=
  foldl_unchanged butBanks (fun k d => ((k.die v d).walked).foldl (fun k b => k.askScrub v d row b) k) (fun k d => walkDie_butBanks k v d row _) _ k

/-- A request waiting at a bank still waits once a scrub has been asked for. -/
theorem askScrub_keeps {k : Chip} {r : SlotReq} {v e w : Nat} (h : r ∈ (k.bu v e w).slotQ) (d row b : Nat) :
    r ∈ ((k.askScrub v d row b).bu v e w).slotQ := by
  by_cases hk : bankKey v e w = bankKey v d b
  · simp only [Chip.askScrub, Chip.bu, Chip.setBu, hk, lookup_insert_same, List.mem_append] at h ⊢
    exact .inl h
  · simp only [Chip.askScrub, bu_setBu_other _ _ _ _ _ _ _ _ hk]
    exact h

theorem askScrub_asks (k : Chip) (v d row b : Nat) :
    { use := .scrub row (k.vat v).walkAt, cls := .scrub, row := some row, arrived := k.now } ∈ ((k.askScrub v d row b).bu v d b).slotQ := by
  simp [Chip.askScrub, bu_setBu_same]

/-- The scrub request of a pass. -/
def scrubOf (k : Chip) (v row : Nat) : SlotReq := { use := .scrub row (k.vat v).walkAt, cls := .scrub, row := some row, arrived := k.now }

theorem scrubOf_congr {k k' : Chip} (h : butBanks k' = butBanks k) (v row : Nat) : scrubOf k' v row = scrubOf k v row := by
  simp only [butBanks, Prod.mk.injEq] at h
  obtain ⟨-, -, -, hvats, hhub⟩ := h
  simp only [scrubOf, Chip.vat, Chip.now, hvats, hhub]

theorem walkDie_asks {k k' : Chip} {v e row w : Nat} {l : List Nat} (hw : w ∈ l) (h : butBanks k' = butBanks k) :
    scrubOf k v row ∈ ((l.foldl (fun k b => k.askScrub v e row b) k').bu v e w).slotQ :=
  foldl_reaches (P := fun k' => scrubOf k v row ∈ (k'.bu v e w).slotQ) (Q := fun k' => butBanks k' = butBanks k) (f :=
  fun k b => k.askScrub v e row b)
    hw (fun _ _ h => h) (fun k' h => scrubOf_congr h v row ▸ askScrub_asks k' v e row w) (fun _ _ h => askScrub_keeps h _ _ _) h

theorem walkDie_keeps {k : Chip} {r : SlotReq} {v e w : Nat} (d row : Nat) (l : List Nat) (h : r ∈ (k.bu v e w).slotQ) :
    r ∈ ((l.foldl (fun k b => k.askScrub v d row b) k).bu v e w).slotQ :=
  Laws.foldl_keeps (fun k => r ∈ (k.bu v e w).slotQ) (fun k b => k.askScrub v d row b) l k h (fun _ _ h => askScrub_keeps h _ _ _)

theorem walkPass_asks {k : Chip} {v row e w : Nat} (he : e < 16) (hw : w ∈ (k.die v e).walked) :
    scrubOf k v row ∈ ((walkPass k v row).bu v e w).slotQ := by
  have dies : ∀ k' : Chip, butBanks k' = butBanks k → k'.die v e = k.die v e := fun k' h => by
    simp only [butBanks, Prod.mk.injEq] at h
    simp only [Chip.die, h.2.2.1]
  exact foldl_reaches (P := fun k' => scrubOf k v row ∈ (k'.bu v e w).slotQ) (Q := fun k' => butBanks k' = butBanks k)
    (f := fun k d => ((k.die v d).walked).foldl (fun k b => k.askScrub v d row b) k) (List.mem_range.mpr he)
    (fun k' d h => (walkDie_butBanks k' v d row _).trans h) (fun k' h => walkDie_asks (by rw [dies k' h]; exact hw) h)
    (fun k' d h => walkDie_keeps d row _ h) rfl

theorem brineWalks_ne_brinePos (v : Nat) : Reg.brinePos v ≠ Reg.brineWalks v := by
  simp only [Reg.brinePos, Reg.brineWalks]
  omega

theorem count_bu (k : Chip) (o n v d b : Nat) : (k.count o n).bu v d b = k.bu v d b := by
  simp only [Chip.count]
  split <;> rfl

/-- The walker's position moves on, and its walks are counted where one is complete. -/
theorem walked_on {k k' : Chip} {v row : Nat} (h : k' = (k.setF (Reg.brinePos v) 15 0 (row + 1)).count (Reg.brineWalks v) 1 ∨
    k' = k.setF (Reg.brinePos v) 15 0 (row + 1)) :
    k'.vat v = k.vat v ∧ (∀ e w, k'.bu v e w = k.bu v e w) ∧ k'.getF (Reg.brinePos v) 15 0 = (row + 1) % 2 ^ 16 := by
  have moved := getF_setF_same k (Reg.brinePos v) 15 0 (row + 1) (by decide) (by decide)
  rcases h with is | is <;> rw [is]
  · exact ⟨count_vat _ _ _ _, fun e w => count_bu _ _ _ _ _ _, (getF_count_register _ _ _ _ (brineWalks_ne_brinePos v)).trans moved⟩
  · exact ⟨rfl, fun e w => rfl, moved⟩

/-- A vat's walker with its pass noted. -/
def passNoted (k : Chip) (v row : Nat) : Chip :=
  k.setVat v { k.vat v with passAt := some k.now, walkAt := if row = 0 then k.now else (k.vat v).walkAt }

theorem walkPass_vat (k : Chip) (v row : Nat) : (walkPass k v row).vat v = k.vat v := by
  have kept := walkPass_butBanks k v row
  simp only [butBanks, Prod.mk.injEq] at kept
  simp only [Chip.vat, kept.2.2.2.1]

theorem exec_brineVisit {s : State} {v : Nat} (h : liveOn s (s.hasVat v) v) (hon : s.k.flag (Reg.brineCtl v) 31 = true)
    (hdue : ∀ p, (s.k.vat v).passAt = some p → p + s.k.getF (Reg.brineCtl v) 19 0 * 1000000000 / 65536 ≤ s.k.now) {row : Nat}
    (hrow : s.k.getF (Reg.brinePos v) 15 0 = row) :
    exec (.brineVisit v) s = .next (withK s (if row = 65535
      then ((walkPass (passNoted s.k v row) v row).setF (Reg.brinePos v) 15 0 (row + 1)).count (Reg.brineWalks v) 1
      else (walkPass (passNoted s.k v row) v row).setF (Reg.brinePos v) 15 0 (row + 1))) := by
  have goes : ∀ due : Bool, due = true → ¬ (!(s.k.flag (Reg.brineCtl v) 31 && due && s.k.vatRuns v)) = true := by
    rintro due rfl
    simp [hon, h.2]
  change execBrineVisit _ _ = _
  refine (onChip_live _ h.1).trans ?_
  subst hrow
  refine congrArg (fun k => Host.Outcome.next (withK s k)) ((if_neg (goes _ ?_)).trans rfl)
  split
  · next p hp => exact decide_eq_true (hdue p hp)
  · rfl

theorem brineVisit_walks {s : State} {v : Nat} (h : liveOn s (s.hasVat v) v) (hon : s.k.flag (Reg.brineCtl v) 31 = true)
    (hdue : ∀ p, (s.k.vat v).passAt = some p → p + s.k.getF (Reg.brineCtl v) 19 0 * 1000000000 / 65536 ≤ s.k.now) {row : Nat}
    (hrow : s.k.getF (Reg.brinePos v) 15 0 = row) :
    ∃ k', exec (.brineVisit v) s = .next (withK s k') ∧ (k'.vat v).passAt = some s.k.now ∧ k'.getF (Reg.brinePos v) 15 0 = (row + 1) % 2 ^ 16 ∧
      ∀ e w, e < 16 → w ∈ (s.k.die v e).walked →
        { use := .scrub row (k'.vat v).walkAt, cls := .scrub, row := some row, arrived := s.k.now } ∈ (k'.bu v e w).slotQ := by
  refine ⟨_, exec_brineVisit h hon hdue hrow, ?_⟩
  obtain ⟨vat, bank, moved⟩ := walked_on (k := walkPass (passNoted s.k v row) v row) (ite_eq_or_eq (row = 65535) _ _)
  rw [vat, moved, walkPass_vat]
  refine ⟨congrArg Vat.passAt (lookup_insert_same _ _ _ _), rfl, fun e w he hw => ?_⟩
  rw [bank]
  exact walkPass_asks (k := passNoted s.k v row) he hw

/-! ### What a takeover leaves of a die -/

/-- The parts of a die that takeovers change. -/
structure TakeoverKept (x y : Die) : Prop where
  takeover : y.takeover = x.takeover
  queue : y.takeoverQ = x.takeoverQ
  spares : y.spares = x.spares
  map : y.bankMap = x.bankMap

theorem TakeoverKept.refl (x : Die) : TakeoverKept x x := ⟨rfl, rfl, rfl, rfl⟩

theorem completeStart_takeoverKept (k : Chip) (v d a seq : Nat) (st : EndStatus) :
    TakeoverKept (k.die v d) ((k.completeStart v d a seq st).die v d) := by
  unfold Chip.completeStart
  dsimp only
  split
  · rw [die_setDie_same]
    exact ⟨rfl, rfl, rfl, rfl⟩
  · split
    · rw [Chip.post, die_setDie_same, die_setDie_same]
      exact ⟨rfl, rfl, rfl, rfl⟩
    · split
      · rw [Chip.post, die_setDie_same, die_setDie_same]
        exact ⟨rfl, rfl, rfl, rfl⟩
      · rw [die_setDie_same]
        exact ⟨rfl, rfl, rfl, rfl⟩

theorem stopUnit_takeoverKept (k : Chip) (v d a : Nat) : TakeoverKept (k.die v d) ((k.stopUnit v d a).die v d) := by
  unfold Chip.stopUnit
  dsimp only
  split
  · exact TakeoverKept.refl _
  · split
    · exact TakeoverKept.refl _
    · next w _ => exact completeStart_takeoverKept (k.setUnit v d a { k.unit v d a with waiting := none }) v d a w.seq .notStarted

theorem spare_setSpare {x : Die} {q : Nat} (h : q < x.spares.length) (st : SpareState) : (x.setSpare q st).spare q = st := by
  simp only [Die.spare, Die.setSpare, setAt, List.getD_eq_getElem?_getD, List.getElem?_set_self h, Option.getD_some]

theorem startTakeover_begins {k : Chip} {p : Part} {v d a code q : Nat} {rest : List (Nat × Nat)} (hnone : (k.die v d).takeover = none)
    (hq : (k.die v d).takeoverQ = (a, code) :: rest) (hspare : (k.die v d).takeoverSpare = some q) (hlen : q < (k.die v d).spares.length) :
    let y := (k.startTakeover p v d).die v d
    y.takeover = some { logical := a, slot := q, nextRow := 0, trigger := code, ueRows := 0 } ∧ y.takeoverQ = rest ∧
      y.spare q = .copying ∧ y.bankMap = (k.die v d).bankMap := by
  let k1 := if (k.die v d).spare q = .calibrating then (k.stopUnit v d (96 + q)).dropShadows v d q else k
  have kept : TakeoverKept (k.die v d) (k1.die v d) := by
    simp only [k1]
    split
    · exact stopUnit_takeoverKept k v d (96 + q)
    · exact TakeoverKept.refl _
  have stands : (k.startTakeover p v d).die v d =
      { (k1.die v d).setSpare q .copying with
        takeoverQ := rest, takeover := some { logical := a, slot := q, nextRow := 0, trigger := code, ueRows := 0 }
        zeroing := (k1.die v d).zeroing.filter (fun z => z.1 ≠ q) } := by
    unfold Chip.startTakeover
    dsimp only
    rw [hnone, hq]
    dsimp only
    rw [hspare]
    exact (log_die _ _ v d).trans (die_setDie_same _ _ _ _)
  dsimp only
  rw [stands]
  exact ⟨rfl, rfl, spare_setSpare (kept.spares ▸ hlen) _, kept.map⟩

theorem exec_takeoverStart {s : State} {v d : Nat} (h : live s (s.hasDie v d)) (hready : s.k.hub.boot.cond = .ready) :
    exec (.takeoverStart v d) s = .next (turned s (((machOf s).onChip (fun k => k.startTakeover s.part v d)).throughRecords s.part.vats s.k)) := by
  change execTakeoverStart _ _ _ = _
  refine (onTurn_live _ h).trans ?_
  exact congrArg (fun m => Host.Outcome.next (turned s m)) (if_neg (not_not_intro hready))

theorem exec_takeoverStart_early {s : State} {v d : Nat} (h : live s (s.hasDie v d)) (hready : s.k.hub.boot.cond ≠ .ready) :
    exec (.takeoverStart v d) s = .next s := by
  change execTakeoverStart _ _ _ = _
  refine (onTurn_live _ h).trans ?_
  refine (congrArg (fun m => Host.Outcome.next (turned s m)) (if_pos hready)).trans ?_
  rw [turned, orWait_self]
  rfl

/-! ### The exchange -/

/-- The page registers of a bank copied to another bank. -/
def copyPages (k : Chip) (v d new old : Nat) (n : Nat) : Chip :=
  (List.range n).foldl (fun k p => k.setReg (Reg.buPage v d new p) (k.reg (Reg.buPage v d old p))) k

theorem buPage_injective {v d b b' p p' : Nat} (hp : p < 32) (hp' : p' < 32)
    (h : Reg.buPage v d b p = Reg.buPage v d b' p') : b = b' ∧ p = p' := by
  simp only [Reg.buPage, buBase] at h
  omega

theorem copyPages_reg {k : Chip} {v d new old n : Nat} (hne : old ≠ new) (hn : n ≤ 32) :
    (∀ p, p < 32 → (copyPages k v d new old n).reg (Reg.buPage v d old p) = k.reg (Reg.buPage v d old p)) ∧
    ∀ p, p < n → (copyPages k v d new old n).reg (Reg.buPage v d new p) = k.reg (Reg.buPage v d old p) := by
  induction n with
  | zero => exact ⟨fun p _ => rfl, fun p hp => absurd hp (Nat.not_lt_zero p)⟩
  | succ n ih =>
    obtain ⟨olds, news⟩ := ih (by omega)
    have step : copyPages k v d new old (n + 1) =
        (copyPages k v d new old n).setReg (Reg.buPage v d new n) ((copyPages k v d new old n).reg (Reg.buPage v d old n)) := by
      simp only [copyPages, List.range_succ, List.foldl_append, List.foldl_cons, List.foldl_nil]
    rw [step]
    refine ⟨fun p hp => ?_, fun p hp => ?_⟩
    · rw [reg_setReg_other _ _ _ _ fun same => hne (buPage_injective hp (by omega) same).1]
      exact olds p hp
    · by_cases last : p = n
      · rw [last, reg_setReg_same]
        exact olds n (by omega)
      · rw [reg_setReg_other _ _ _ _ fun same => last (buPage_injective (by omega) (by omega) same).2]
        exact news p (by omega)

/-- The die after an exchange. -/
def exchanged (x : Die) (t : Takeover) : Die :=
  { x.setSpare t.slot .retired with
    bankMap := setAt (setAt x.bankMap t.logical (x.phys (96 + t.slot))) (96 + t.slot) (x.phys t.logical), takeover := none }

theorem exchanged_phys {x : Die} {t : Takeover} (hl : t.logical < 96) (hs : t.slot < 4) (hmap : x.bankMap.length = 100) :
    (exchanged x t).phys t.logical = x.phys (96 + t.slot) ∧ (exchanged x t).phys (96 + t.slot) = x.phys t.logical ∧
    ∀ a, a ≠ t.logical → a ≠ 96 + t.slot → (exchanged x t).phys a = x.phys a := by
  have low : t.logical < x.bankMap.length := by omega
  have high : 96 + t.slot < (x.bankMap.set t.logical (x.phys (96 + t.slot))).length := by rw [List.length_set]; omega
  have apart : 96 + t.slot ≠ t.logical := by omega
  simp only [Die.phys, exchanged, Die.setSpare, setAt, List.getD_eq_getElem?_getD]
  refine ⟨?_, ?_, fun a ha ha' => ?_⟩
  · rw [List.getElem?_set_ne apart, List.getElem?_set_self low]
    rfl
  · simp only [Die.phys, List.getD_eq_getElem?_getD] at high
    rw [List.getElem?_set_self high]
    rfl
  · rw [List.getElem?_set_ne (Ne.symm ha'), List.getElem?_set_ne (Ne.symm ha)]

theorem logOvf_ne_buPage (v d b p cls : Nat) (hc : cls < 256) : Reg.buPage v d b p ≠ Reg.logOvf cls := by
  simp only [Reg.buPage, buBase, dieBase, vatBase, Reg.logOvf]
  omega

/-- The requests that follow an index, moved to its new bank. -/
def movedRequests (k : Chip) (v d old new : Nat) : Chip :=
  let uo := k.bu v d old
  let un := k.bu v d new
  (k.setBu v d old { uo with slotQ := uo.slotQ.filter (fun r => !r.follows) }).setBu v d new
    { un with slotQ := un.slotQ ++ uo.slotQ.filter SlotReq.follows }

theorem exec_takeoverExchange {s : State} {v d : Nat} (h : live s (s.hasDie v d)) {t : Takeover} (ht : (s.k.die v d).takeover = some t)
    (hrows : 65536 ≤ t.nextRow) {old new : Nat} (hold : (s.k.die v d).phys t.logical = old) (hnew : (s.k.die v d).phys (96 + t.slot) = new)
    (hrest : ∀ b, b = old ∨ b = new → (s.k.bu v d b).active = none ∧ (s.k.bu v d b).run ≠ .run ∧ (s.k.bu v d b).waiting = none) :
    ∃ k' : Chip, k'.regs = s.k.regs ∧ exec (.takeoverExchange v d) s = .next (withK s
      (((copyPages k' v d new old 32).setDie v d (exchanged (s.k.die v d) t)).logBank 0x23 v d t.logical
        (t.slot + 65536 * (t.ueRows % 2 ^ 16)))) := by
  obtain ⟨hoActive, hoRun, hoWaiting⟩ := hrest old (.inl rfl)
  obtain ⟨hnActive, hnRun, hnWaiting⟩ := hrest new (.inr rfl)
  subst hold hnew
  refine ⟨movedRequests s.k v d ((s.k.die v d).phys t.logical) ((s.k.die v d).phys (96 + t.slot)), rfl, ?_⟩
  change execTakeoverExchange _ _ _ = _
  refine (onChip_live _ h).trans ?_
  have copied : ¬ t.nextRow < 65536 := by omega
  refine congrArg (fun k => Host.Outcome.next (withK s k)) ?_
  dsimp only
  rw [ht]
  dsimp only
  rw [if_neg (by simp [copied, hoActive, hnActive]), if_neg (by simp [hoRun, hoWaiting]), if_neg (by simp [hnRun, hnWaiting])]
  rfl

theorem logBank_reg {k : Chip} {cls v d a n o : Nat} (h : o ≠ Reg.logOvf cls) : (k.logBank cls v d a n).reg o = k.reg o := (log_regsOnly k _).1 o h

theorem takeoverExchange_swaps {s : State} {v d : Nat} (h : live s (s.hasDie v d)) {t : Takeover} (ht : (s.k.die v d).takeover = some t)
    (hrows : 65536 ≤ t.nextRow) (hl : t.logical < 96) (hs : t.slot < 4) (hmap : (s.k.die v d).bankMap.length = 100)
    (hne : (s.k.die v d).phys t.logical ≠ (s.k.die v d).phys (96 + t.slot))
    (hrest : ∀ b, b = (s.k.die v d).phys t.logical ∨ b = (s.k.die v d).phys (96 + t.slot) →
      (s.k.bu v d b).active = none ∧ (s.k.bu v d b).run ≠ .run ∧ (s.k.bu v d b).waiting = none)
    (hspares : (s.k.die v d).spares.length = 4) :
    ∃ k', exec (.takeoverExchange v d) s = .next (withK s k') ∧
      (k'.die v d).phys t.logical = (s.k.die v d).phys (96 + t.slot) ∧ (k'.die v d).phys (96 + t.slot) = (s.k.die v d).phys t.logical ∧
      (k'.die v d).takeover = none ∧ (k'.die v d).spare t.slot = .retired ∧
      (∀ a, a < 100 → a ≠ t.logical → a ≠ 96 + t.slot → (k'.die v d).phys a = (s.k.die v d).phys a) ∧
      (∀ p, p < 32 → (s.k.die v d).phys t.logical < 100 → (s.k.die v d).phys (96 + t.slot) < 100 →
        k'.reg (Reg.buPage v d ((s.k.die v d).phys (96 + t.slot)) p) = s.k.reg (Reg.buPage v d ((s.k.die v d).phys t.logical) p)) := by
  obtain ⟨k1, hregs, runs⟩ := exec_takeoverExchange h ht hrows rfl rfl hrest
  obtain ⟨atLogical, atSpare, elsewhere⟩ := exchanged_phys (x := s.k.die v d) hl hs hmap
  refine ⟨_, runs, ?_⟩
  rw [show ∀ k : Chip, (k.logBank 0x23 v d t.logical (t.slot + 65536 * (t.ueRows % 2 ^ 16))).die v d = k.die v d from fun k => log_die k _ v d,
    die_setDie_same]
  refine ⟨atLogical, atSpare, rfl, spare_setSpare (by omega) _, fun a _ => elsewhere a, fun p hp _ _ => ?_⟩
  rw [logBank_reg (logOvf_ne_buPage _ _ _ _ 0x23 (by decide)), setDie_reg, (copyPages_reg (k := k1) hne (Nat.le_refl 32)).2 p hp]
  rw [Chip.reg, hregs, Chip.reg]

/-! ### Spares that fail and spares zeroed -/

theorem exec_spareCopyFault {s : State} {v d : Nat} (h : live s (s.hasDie v d)) {t : Takeover} (ht : (s.k.die v d).takeover = some t)
    (hs : t.slot < (s.k.die v d).spares.length) :
    ∃ k', exec (.spareCopyFault v d) s = .next (withK s k') ∧
      let y := k'.die v d
      y.takeover = none ∧ y.spare t.slot = .retired ∧ y.takeoverQ = (t.logical, t.trigger) :: (s.k.die v d).takeoverQ ∧
        y.bankMap = (s.k.die v d).bankMap := by
  have stands : (s.k.spareFails v d).die v d = { s.k.die v d with
      spares := setAt (s.k.die v d).spares t.slot .retired, takeover := none
      takeoverQ := (t.logical, t.trigger) :: (s.k.die v d).takeoverQ } := by
    unfold Chip.spareFails
    dsimp only
    rw [ht]
    exact die_setDie_same _ _ _ _
  have runs : exec (.spareCopyFault v d) s = .next (withK s (s.k.spareFails v d)) := by
    change execSpareCopyFault _ _ _ = _
    exact onChip_live _ h
  refine ⟨s.k.spareFails v d, runs, ?_⟩
  dsimp only
  rw [stands]
  exact ⟨rfl, spare_setSpare hs _, rfl, rfl⟩

theorem exec_spareZeroed {s : State} {v d q : Nat} {z : Nat × Nat} (h : live s (s.hasDie v d)) (hq : q < 4)
    (hz : (s.k.die v d).zeroing.find? (fun z => z.1 = q) = some z) (hspares : (s.k.die v d).spares.length = 4)
    (hdomains : (s.k.die v d).spareDomain.length = 4) {b : Nat} (hb : (s.k.die v d).phys (96 + q) = b) (hrun : (s.k.bu v d b).run ≠ .run)
    (hactive : (s.k.bu v d b).active = none) :
    ∃ k', exec (.spareZeroed v d q) s = .next { s with dram := s.dram.clear (bankByte v d b 0) (bankByte v d b (2 ^ 26)), k := k' } ∧
      (k'.die v d).spare q = .calibrating ∧ (k'.die v d).spareDomain.getD q 0 = z.2 ∧ (k'.bu v d b).scratch = [] := by
  obtain ⟨k1, hk1⟩ : ∃ k1, (s.k.setBu v d b { s.k.bu v d b with scratch := [] }).count (Reg.buSlotsBase v d b) 65536 = k1 := ⟨_, rfl⟩
  have die : k1.die v d = s.k.die v d := by rw [← hk1, count_die, setBu_die]
  have bank : (k1.bu v d b).scratch = [] := by rw [← hk1, count_bu, bu_setBu_same]
  refine ⟨k1.setDie v d { (k1.die v d).setSpare q .calibrating with
    zeroing := (k1.die v d).zeroing.filter (fun y => y.1 ≠ q), spareDomain := setAt (k1.die v d).spareDomain q z.2 }, ?_, ?_, ?_, bank⟩
  · change execSpareZeroed _ _ _ _ = _
    refine (onBoth_next _ _ _ (by rw [h.1, decide_eq_true hq]; rfl) h.2).trans ?_
    subst hb
    dsimp only
    rw [hz]
    dsimp only
    rw [if_neg (by simp [hrun, hactive]), hk1]
  · rw [die_setDie_same]
    exact spare_setSpare (x := k1.die v d) (by rw [die, hspares]; exact hq) _
  · rw [die_setDie_same, die]
    simp only [setAt, List.getD_eq_getElem?_getD, List.getElem?_set_self (show q < (s.k.die v d).spareDomain.length by omega), Option.getD_some]

/-- Settles O34: the events of a bank one by one, the walker by its pass, and the takeover by the die that each of its commands leaves. -/
theorem bankEventsAndTakeovers : Obligations.BankEventsAndTakeovers := by
  unfold Obligations.BankEventsAndTakeovers
  refine ⟨fun s v d b h => ⟨exec_refresh h, exec_scrubPromotion h, exec_fenceTimeout h, fun hrun hending => exec_buCheckerTrip h hrun hending rfl rfl,
    fun hon hdue => ?walk⟩, fun s v d h => ⟨⟨exec_takeoverStart h, exec_takeoverStart_early h, ?begins⟩, ?exchange, ?fault, ?zeroed⟩⟩
  case walk =>
    have vat : s.hasVat v = true := by
      have unit := h.1.1
      simp only [State.hasLogical, State.hasDie, Bool.and_eq_true] at unit
      exact unit.1.1
    exact brineVisit_walks ⟨⟨vat, h.1.2⟩, h.2⟩ hon hdue rfl
  case begins => exact fun a code rest q hnone hq hspare hlen => startTakeover_begins hnone hq hspare hlen
  case exchange =>
    exact fun t ht hrows hl hs hmap hne hrest hspares => takeoverExchange_swaps h ht hrows hl hs hmap hne hrest hspares
  case fault => exact fun t ht hs => exec_spareCopyFault h ht hs
  case zeroed => exact fun q z hq hz hspares hdomains hrun hactive => exec_spareZeroed h hq hz hspares hdomains rfl hrun hactive

end Sys2Proof.Proofs
end

section
/-!
PROOFS. Host accesses to lines of DRAM (O36).
-/

namespace Sys2Proof.Proofs

open Sys2Proof.Machine Sys2Proof.Safety Sys2Proof.Laws

/-- A word read from an address inside it. -/
theorem readAt_word_of (k : Chip) (dr : Dram) (v p src : Nat) : (k.readAt dr v p src).1 = dr.word (k.dramAt v (p / 32 * 32)) := by
  have hblock : p / 32 * 32 / 2 ^ 26 = p / 2 ^ 26 := by omega
  have hbyte : p % 2 ^ 26 / 32 * 32 = p / 32 * 32 % 2 ^ 26 := by omega
  unfold Chip.readAt Chip.dramAt bankAddr
  dsimp only
  rw [hblock, hbyte]

theorem baseSlots_hub (k : Chip) (v p n : Nat) : (k.baseSlots v p n).hub = k.hub := by
  refine foldl_keeps (fun x : Chip => x.hub = k.hub) _ _ k rfl (fun x i hx => ?_)
  unfold Chip.takeSlots
  dsimp only
  split
  · exact (count_hub _ _ _).trans hx
  · exact (count_hub _ _ _).trans hx

/-- A line read for the host is answered with its two words as their decoder delivers them. -/
theorem hostRead_answer (k : Chip) (dr : Dram) (v pa : Nat) :
    (k.hostRead dr v pa).hub.resp =
      .line (entryOfBytes ((dr.word (k.dramAt v (pa / 32 * 32))).bytes ++ (dr.word (k.dramAt v ((pa + 32) / 32 * 32))).bytes))
        ((dr.word (k.dramAt v (pa / 32 * 32))).res.bad || (dr.word (k.dramAt v ((pa + 32) / 32 * 32))).res.bad) := by
  change Response.line _ _ = _
  rw [readAt_word_of, readAt_word_of, (readAt_readKept k dr v pa 0).dramAt]

theorem storeAt_count (k : Chip) (o n : Nat) (dr : Dram) (v p : Nat) (bs : List Byte) (bad : Bool) :
    (k.count o n).storeAt dr v p bs bad = k.storeAt dr v p bs bad := by
  simp only [Chip.storeAt, Chip.writePlaces, count_die]

/-- A whole line written outside the check-bit test mode is two words stored. -/
theorem hostWrite_whole {k : Chip} {diag : Bool} {v pa : Nat} {en : Nat → Bool} (dr : Dram) (dpa : Nat) (bs : List Byte) (poison : Bool)
    (hd : (diag && k.diagAt v pa) = false) (hlo : (List.range 32).all en = true) (hhi : (List.range 32).all (fun i => en (32 + i)) = true) :
    k.hostWrite dr v pa dpa bs en poison diag =
      (k.storeAt (k.storeAt dr v pa (bs.take 32) poison) v (pa + 32) (bs.drop 32) poison,
        (k.count (Reg.tsvDownBytes v) 32).count (Reg.tsvDownBytes v) 32) := by
  simp only [Chip.hostWrite, Chip.hostWord, hd, hlo, hhi, Bool.false_and, Bool.false_eq_true, if_false, if_true, storeAt_count]

theorem allOnes_enables : (List.range 64).map (fun i => (BitVec.allOnes 64).getLsbD i) = List.replicate 64 true := by decide

/-- A host access to a line of DRAM behind a committed decoder. -/
theorem hostAccess_dram {s : State} {line : BitVec 36} {n v pa : Nat} (wr : Bool) (mem : Nat → Nat → Nat → Nat → Dram → Chip → Dram × Chip)
    (aper : Nat → Chip → Chip) (ha : s.k.alive = true) (hs : s.k.hub.stopped = false)
    (hp : placeOf s.part.vats (64 * line.toNat) = .dram n v pa) (hd : s.k.decoderOn n = true) :
    hostAccess line wr s mem aper = .next { s with
      dram := (mem n v pa (64 * line.toNat) s.dram s.k).1
      k := (mem n v pa (64 * line.toNat) s.dram s.k).2 } := by
  unfold hostAccess
  rw [onBoth_next _ _ _ rfl ha]
  simp only [hs, hp, hd, if_true, Bool.false_eq_true, if_false]

theorem wake_awake {k : Chip} {v : Nat} (h : (k.vat v).power = .awake) : k.wake v = k := by
  simp only [Chip.wake, h]

section Dram

variable {k : Chip} {V n v pa : Nat} {r : HostReq}

theorem hostDram_denied (dr : Dram) (dpa : Nat) (hl : (k.vat v).lost = false) (h : k.hostDenied V n v pa r.write = true) :
    k.hostDram dr V n v pa dpa r = (dr, k.denyHost dpa r.write) := by
  simp only [Chip.hostDram, hl, h, Bool.false_eq_true, if_false, if_true, ite_self]

/-- Where nothing denies, holds or precedes the access, it goes on by its turn or its room. -/
theorem hostDram_free (dr : Dram) (dpa : Nat) (hl : (k.vat v).lost = false) (h : k.hostDenied V n v pa r.write = false)
    (hf : k.fencedAt v pa = false) (hw : k.lineWaits v pa = false) (hp : (k.vat v).power = .awake) :
    k.hostDram dr V n v pa dpa r =
      if (if r.write then decide (256 ≤ (k.vat v).wq.length) else !k.turnOf v pa (.host r) 1) then
        (dr, ((k.wake v).askSlot v pa (.host { r with ahead := k.aheadOf v pa }) r.slots).answer .none)
      else
        let x := k.hostPerform dr v r (n = 1) 0
        if r.write then (x.1, x.2.holdWrite v r) else (x.1, x.2.baseSlots v pa 1) := by
  have hlink : k.linkDenied = false := by
    by_contra hc
    simp only [Chip.hostDenied, eq_true_of_ne_false hc, Bool.or_true, Bool.true_or, Bool.true_eq_false] at h
  simp only [Chip.hostDram, hlink, hl, h, hf, hw, hp, Bool.false_eq_true, if_false, Bool.false_or, ne_eq, not_true_eq_false, decide_false]


/-- A read whose turn has not come waits at its bank. -/
theorem hostDram_waits (dr : Dram) (dpa : Nat) (hr : r.write = false) (hl : (k.vat v).lost = false) (h : k.hostDenied V n v pa false = false)
    (hf : k.fencedAt v pa = false) (hw : k.lineWaits v pa = false) (hp : (k.vat v).power = .awake) (ht : k.turnOf v pa (.host r) 1 = false) :
    k.hostDram dr V n v pa dpa r = (dr, (k.askSlot v pa (.host { r with ahead := k.aheadOf v pa }) r.slots).answer .none) := by
  rw [hostDram_free dr dpa hl (by rw [hr]; exact h) hf hw hp, if_pos (by simp [hr, ht]), wake_awake hp]

/-- A read whose turn has come is performed in its slot. -/
theorem hostDram_read (dr : Dram) (dpa : Nat) (hr : r.write = false) (hl : (k.vat v).lost = false) (h : k.hostDenied V n v pa false = false)
    (hf : k.fencedAt v pa = false) (hw : k.lineWaits v pa = false) (hp : (k.vat v).power = .awake) (ht : k.turnOf v pa (.host r) 1 = true) :
    k.hostDram dr V n v pa dpa r = (dr, ((k.hostRead dr v r.pa).satMax Reg.hostReadLatMax 15 0 (k.readNs r 0)).baseSlots v pa 1) := by
  rw [hostDram_free dr dpa hl (by rw [hr]; exact h) hf hw hp, if_neg (by simp [hr, ht])]
  simp only [Chip.hostPerform, hr, Bool.false_eq_true, if_false]

/-- A write that the queue has room for is performed and held. -/
theorem hostDram_write (dr : Dram) (dpa : Nat) (hr : r.write = true) (hl : (k.vat v).lost = false) (h : k.hostDenied V n v pa true = false)
    (hf : k.fencedAt v pa = false) (hw : k.lineWaits v pa = false) (hp : (k.vat v).power = .awake) (hroom : (k.vat v).wq.length < 256) :
    k.hostDram dr V n v pa dpa r =
      let x := k.hostWrite dr v r.pa r.dpa r.bytes (fun i => r.enables.getD i false) r.poison (n = 1)
      (x.1, x.2.holdWrite v r) := by
  rw [hostDram_free dr dpa hl (by rw [hr]; exact h) hf hw hp, if_neg (by simp [hr, hroom])]
  simp only [Chip.hostPerform, hr, if_true]

end Dram

/-- What a host access to a line of DRAM asks of the hub. -/
def dramAsk (wr : Bool) (dpa pa : Nat) (bs : List Byte) (en : List Bool) (poison : Bool) : HostReq :=
  { write := wr, dpa := dpa, pa := pa, bytes := bs, enables := en, poison := poison, ahead := 0 }

section Exec

variable {s : State} {line : BitVec 36} {n v pa : Nat}

theorem exec_cxlMemRead (ha : s.k.alive = true) (hs : s.k.hub.stopped = false)
    (hp : placeOf s.part.vats (64 * line.toNat) = .dram n v pa) (hd : s.k.decoderOn n = true) :
    let x := s.k.hostDram s.dram s.part.vats n v pa (64 * line.toNat) (dramAsk false (64 * line.toNat) pa [] [] false)
    exec (.cxlMemRead line) s = .next { s with dram := x.1, k := x.2 } := by
  change execCxlMemRead line s = _
  unfold execCxlMemRead
  rw [hostAccess_dram false _ _ ha hs hp hd]
  rfl

theorem hostLineWrite_dram (data : BitVec 512) (enables : BitVec 64) (poison : Bool) (ha : s.k.alive = true) (hs : s.k.hub.stopped = false)
    (hp : placeOf s.part.vats (64 * line.toNat) = .dram n v pa) (hd : s.k.decoderOn n = true) :
    let x := s.k.hostDram s.dram s.part.vats n v pa (64 * line.toNat)
      (dramAsk true (64 * line.toNat) pa (entryBytes data) ((List.range 64).map (fun i => enables.getLsbD i)) poison)
    hostLineWrite line data enables poison s = .next { s with dram := x.1, k := x.2 } := by
  unfold hostLineWrite
  rw [hostAccess_dram true _ _ ha hs hp hd]
  rfl

end Exec

/-- Settles O36: the access by what denies it, by its turn for a read, and by the words it covers for a write. -/
theorem hostLinesAreReadAndWritten : Obligations.HostLinesAreReadAndWritten := by
  unfold Obligations.HostLinesAreReadAndWritten
  intro s line n v pa ha hs hplace hdec hl k dpa read
  have hread := exec_cxlMemRead ha hs hplace hdec
  have hwrite := fun data enables poison => hostLineWrite_dram data enables poison ha hs hplace hdec
  dsimp only at hread hwrite
  refine ⟨fun h => ?_, fun data poison h => ?_, fun hf hw hp => ⟨fun h ht => ?_, fun h ht => ?_, fun data poison h hroom hdiag => ?_,
    fun data enables poison h hroom => ?_⟩⟩
  · rw [hread, hostDram_denied (r := dramAsk false dpa pa [] [] false) _ _ hl h]
    rfl
  · refine (hwrite data _ poison).trans ?_
    rw [hostDram_denied (r := dramAsk true dpa pa _ _ poison) _ _ hl h]
    rfl
  · refine ⟨(((k.hostRead s.dram v pa).satMax Reg.hostReadLatMax 15 0 (k.readNs read 0))).baseSlots v pa 1, ?_, ?_⟩
    · rw [hread, hostDram_read (r := dramAsk false dpa pa [] [] false) s.dram dpa rfl hl h hf hw hp ht]
      rfl
    · rw [baseSlots_hub]
      exact hostRead_answer k s.dram v pa
  · rw [hread, hostDram_waits (r := dramAsk false dpa pa [] [] false) s.dram dpa rfl hl h hf hw hp ht]
    rfl
  · have hd : (decide (n = 1) && k.diagAt v pa) = false := by
      rcases hdiag with hn | hd
      · rw [decide_eq_false hn, Bool.false_and]
      · rw [hd, Bool.and_false]
    refine (hwrite data _ poison).trans ?_
    rw [allOnes_enables, hostDram_write s.dram dpa rfl hl h hf hw hp hroom]
    dsimp only [dramAsk]
    rw [hostWrite_whole s.dram dpa (entryBytes data) poison hd (by decide) (by decide)]
  · refine (hwrite data enables poison).trans ?_
    rw [hostDram_write s.dram dpa rfl hl h hf hw hp hroom]
    rfl

end Sys2Proof.Proofs
end

section
/-!
PROOFS. Barriers of the hub, stall reports and the checkers of cores (O39).
-/

namespace Sys2Proof.Proofs

open Sys2Proof.Machine Sys2Proof.Safety Sys2Proof.Laws

/-! ### Releasing the control streams -/

theorem stream_setStream_or (k : Chip) (v c s : Nat) (x : Stream) (v' c' s' : Nat) :
    (k.setStream v c s x).stream v' c' s' = k.stream v' c' s' ∨
      coreKey v' c' = coreKey v c ∧ s' = s ∧ (k.setStream v c s x).stream v' c' s' = x := by
  by_cases hk : coreKey v' c' = coreKey v c
  · by_cases hs : s' = s ∧ s < (k.core v c).streams.length
    · refine .inr ⟨hk, hs.1, ?_⟩
      simp only [Chip.stream, core_congr _ hk, Chip.setStream, core_setCore_same, Core.stream, Core.setStream, setAt, hs.1,
        List.getD_eq_getElem?_getD, List.getElem?_set_self hs.2, Option.getD_some]
    · refine .inl ?_
      simp only [Chip.stream, core_congr _ hk, Chip.setStream, core_setCore_same, Core.stream, Core.setStream, setAt]
      by_cases he : s' = s
      · rw [List.set_eq_of_length_le (Nat.le_of_not_lt fun h => hs ⟨he, h⟩)]
      · simp only [List.getD_eq_getElem?_getD, List.getElem?_set_ne (Ne.symm he)]
  · exact .inl (by simp only [Chip.stream, Chip.setStream, core_setCore_other _ _ _ _ _ _ hk])

/-- A stream that neither is held nor stalls. -/
def goesOn (t : Stream) : Prop := t.hold = none ∧ t.stall = none

/-- The control stream of core `x` of the part goes on. -/
def releaseControl (k : Chip) (x : Nat) : Chip := k.setStream (x / 4) (x % 4) 0 (k.stream (x / 4) (x % 4) 0).release

theorem releaseControl_goesOn (k : Chip) (x : Nat) : goesOn ((releaseControl k x).stream (x / 4) (x % 4) 0) := by
  by_cases hlen : 0 < (k.core (x / 4) (x % 4)).streams.length
  · simp only [releaseControl, Chip.stream, Chip.setStream, core_setCore_same, Core.stream, Core.setStream, setAt,
      List.getD_eq_getElem?_getD, List.getElem?_set_self hlen, Option.getD_some]
    exact ⟨rfl, rfl⟩
  · have hnil : (k.core (x / 4) (x % 4)).streams = [] := List.eq_nil_of_length_eq_zero (Nat.eq_zero_of_not_pos hlen)
    simp only [releaseControl, Chip.stream, Chip.setStream, core_setCore_same, Core.stream, Core.setStream, setAt, hnil]
    exact ⟨rfl, rfl⟩

theorem releaseControl_keeps {k : Chip} {v c : Nat} (x : Nat) (h : goesOn (k.stream v c 0)) : goesOn ((releaseControl k x).stream v c 0) := by
  rcases stream_setStream_or k (x / 4) (x % 4) 0 (k.stream (x / 4) (x % 4) 0).release v c 0 with hsame | ⟨-, -, hnew⟩
  · exact hsame ▸ h
  · exact hnew ▸ ⟨rfl, rfl⟩

theorem releaseControl_other (k : Chip) (x v c t : Nat) (ht : t ≠ 0) : (releaseControl k x).stream v c t = k.stream v c t := by
  rcases stream_setStream_or k (x / 4) (x % 4) 0 (k.stream (x / 4) (x % 4) 0).release v c t with hsame | ⟨-, h0, -⟩
  · exact hsame
  · exact absurd h0 ht

/-- Everything of a chip but its cores. -/
def butCores (k : Chip) : List (Nat × Word) × List (Nat × Die) × List (Nat × Bu) × List (Nat × Vat) × Hub := (k.regs, k.dies, k.bus, k.vats, k.hub)

theorem releases_butCores (l : List Nat) (k : Chip) : butCores (l.foldl releaseControl k) = butCores k :=
  foldl_unchanged butCores releaseControl (fun _ _ => rfl) l k

theorem releases_other (l : List Nat) (k : Chip) {v c t : Nat} (ht : t ≠ 0) : (l.foldl releaseControl k).stream v c t = k.stream v c t :=
  foldl_unchanged (fun k => k.stream v c t) releaseControl (fun k x => releaseControl_other k x v c t ht) l k

theorem releases_goesOn {l : List Nat} {x : Nat} (hx : x ∈ l) (k : Chip) : goesOn ((l.foldl releaseControl k).stream (x / 4) (x % 4) 0) :=
  foldl_reaches (Q := fun _ => True) (P := fun k : Chip => goesOn (k.stream (x / 4) (x % 4) 0)) hx (fun _ _ _ => trivial)
    (fun k _ => releaseControl_goesOn k x) (fun _ y h => releaseControl_keeps y h) trivial

/-! ### The barrier completes -/

theorem exec_hubBarrierComplete_waits {s : State} {b : BitVec 4} (h : live s true)
    (hw : s.k.enrolled b.toNat = [] ∨ (s.k.enrolled b.toNat).all (fun x => (s.k.bar b.toNat).arrived.any (fun a => a.1 = x)) = false) :
    exec (.hubBarrierComplete b) s = .next s := by
  change execHubBarrierComplete b s = _
  unfold execHubBarrierComplete
  rw [onChip_live _ h]
  dsimp only
  rw [if_pos (hw.imp_right fun h => by rw [h]; rfl)]
  rfl

/-- The episode of a barrier that completes, noted. -/
def barrierDone (k k0 : Chip) (n : Nat) : Chip :=
  let x := k0.bar n
  let vats := ((k0.enrolled n).map (· / 4)).eraseDups
  let eps := ((vats.map (fun v => (v, slackOf x.arrived k0.now v))) :: x.episodes).take 64
  let seen := eps.take (max 1 (k0.getF Reg.pwrPaceCfg 23 16))
  let k := k.setBar n { x with arrived := [], episodes := eps, since := x.since + 1, lastAt := k.now }
  let k := k.setF (Reg.hbarSkew n) 31 0 (min (2 ^ 32 - 1) ((vats.map (leastSlack seen)).foldl max 0))
  k.wrapAdd (Reg.hbarEpisodes n) 31 0 1

theorem exec_hubBarrierComplete_met {s : State} {b : BitVec 4} (h : live s true) (he : s.k.enrolled b.toNat ≠ [])
    (hm : (s.k.enrolled b.toNat).all (fun x => (s.k.bar b.toNat).arrived.any (fun a => a.1 = x)) = true) :
    exec (.hubBarrierComplete b) s = .next (withK s (barrierDone ((s.k.enrolled b.toNat).foldl releaseControl s.k) s.k b.toNat)) := by
  change execHubBarrierComplete b s = _
  unfold execHubBarrierComplete
  rw [onChip_live _ h]
  dsimp only
  rw [if_neg (by rw [hm]; simpa using he)]
  rfl

theorem hbarEpisodes_ne_hbarSkew (n : Nat) : Reg.hbarEpisodes n ≠ Reg.hbarSkew n := by
  simp only [Reg.hbarEpisodes, Reg.hbarSkew]
  omega

theorem barrierDone_hub (k k0 : Chip) (n : Nat) : ((barrierDone k k0 n).bar n).arrived = [] ∧
    ((barrierDone k k0 n).bar n).since = (k0.bar n).since + 1 ∧ ((barrierDone k k0 n).bar n).lastAt = k.now ∧
    (∀ m, m ≠ n → (barrierDone k k0 n).bar m = k.bar m) := by
  have hbar : ∀ m, (barrierDone k k0 n).bar m = lookup Barrier.reset (insert k.hub.bars n _) m := fun m => rfl
  refine ⟨?_, ?_, ?_, fun m hm => (hbar m).trans (lookup_insert_other _ _ _ _ _ hm)⟩ <;> rw [hbar n, lookup_insert_same]

theorem barrierDone_episodes (k k0 : Chip) (n : Nat) :
    (barrierDone k k0 n).getF (Reg.hbarEpisodes n) 31 0 = (k.getF (Reg.hbarEpisodes n) 31 0 + 1) % 2 ^ 32 := by
  refine (getF_setF_same _ _ _ _ _ (by decide) (by decide)).trans ?_
  rw [getF_setF_register _ _ _ _ _ _ _ _ (hbarEpisodes_ne_hbarSkew n)]
  rfl

/-! ### Stalls and checkers -/

theorem exec_stallReport {s : State} {v c : Nat} (h : liveOn s (s.hasCore v c) v) :
    let k := s.k
    let ripe (f : Finding) : Bool := k.fresh v c f && 2 ^ k.getF (Reg.stallCtl v c) 4 0 ≤ k.coreCycles v c (k.now - f.since)
    let findings := (List.range 5).filterMap (k.deadlockAt v c) ++
      ((List.range 5).filterMap (k.waitFinding v c)).mergeSort (fun x y => x.kind ≤ y.kind)
    exec (.stallReport v c) s = .next (withK s ((findings.find? ripe).elim k (k.reportStall v c))) := by
  intro k ripe findings
  change execStallReport v c s = _
  unfold execStallReport
  refine (onVat_liveOn _ h).trans ?_
  dsimp only
  change Host.Outcome.next (withK s (match findings.find? ripe with | some f => k.reportStall v c f | none => k)) = _
  cases findings.find? ripe <;> rfl

theorem exec_coreCheckerTrip {s : State} {v c t e : Nat} (h : live s (s.hasCore v c)) (ht : t < 5) (he : e < 3) :
    let x := s.k.stream v c t
    let k1 := (if x.run = .run ∨ x.run = .ending then s.k.coreFault v c t 0x64 x.seq else s.k).logStream 0x21 v c t e
    exec (.coreCheckerTrip v c t e) s = .next (withM s
      (if k1.flag Reg.failPolicy 3 then ({ dr := s.dram, k := k1 } : Mach).retireCore s.part v c else { dr := s.dram, k := k1 })) := by
  intro x k1
  change execCoreCheckerTrip v c t e s = _
  unfold execCoreCheckerTrip
  exact onMach_next s _ _ (by simp [h.1, ht, he]) h.2

/-- Settles O39: the barrier by whether every enrolled core has arrived, the first ripe finding, and the checker by AUTO_CORE. -/
theorem barriersStallsAndCheckers : Obligations.BarriersStallsAndCheckers := by
  unfold Obligations.BarriersStallsAndCheckers
  intro s b v c k n met ripe findings
  refine ⟨exec_hubBarrierComplete_waits, fun h he hm => ⟨_, exec_hubBarrierComplete_met h he hm, ?_⟩, fun h => ⟨fun f hf => ?_, fun hf => ?_⟩,
    fun t e h ht he => ⟨fun hp => ?_, fun hp => ?_⟩⟩
  · generalize hK : (s.k.enrolled b.toNat).foldl releaseControl s.k = K
    have hbut : butCores K = butCores s.k := hK ▸ releases_butCores _ _
    simp only [butCores, Prod.mk.injEq] at hbut
    obtain ⟨hregs, hdies, hbus, -, hhub⟩ := hbut
    obtain ⟨harrived, hsince, hlast, hbars⟩ := barrierDone_hub K s.k n
    refine ⟨fun x hx => hK ▸ releases_goesOn hx s.k, fun v' c' t ht _ => hK ▸ releases_other _ s.k ht, harrived, hsince, ?_, fun m hm' => ?_, ?_,
      hdies, hbus⟩
    · exact hlast.trans ((congrArg (fun h : Hub => (Chip.now { k with hub := h })) hhub))
    · exact (hbars m hm').trans (congrArg (fun h : Hub => lookup Barrier.reset h.bars m) hhub)
    · rw [barrierDone_episodes, Chip.getF, Chip.reg, hregs]
      rfl
  · rw [exec_stallReport h]
    exact congrArg (fun o : Option Finding => Host.Outcome.next (withK s (o.elim k (k.reportStall v c)))) hf
  · rw [exec_stallReport h]
    exact congrArg (fun o : Option Finding => Host.Outcome.next (withK s (o.elim k (k.reportStall v c)))) hf
  · rw [exec_coreCheckerTrip h ht he]
    exact congrArg (fun m => Host.Outcome.next (withM s m)) (if_neg (by rw [hp]; exact Bool.false_ne_true))
  · rw [exec_coreCheckerTrip h ht he]
    exact congrArg (fun m => Host.Outcome.next (withM s m)) (if_pos hp)

end Sys2Proof.Proofs
end

section
/-!
PROOFS. What the hub's own accesses to DRAM leave of the chip: every core, every vat, the hub but for what waits to be logged, and the registers
but for the counters of banks and vats and LOG_OVF.
-/

namespace Sys2Proof.Proofs

open Sys2Proof.Machine Sys2Proof.Safety Sys2Proof.Laws

/-- The registers that accesses to DRAM count in. -/
def memReg (o : Nat) : Prop := 0x1000000 ≤ o ∨ ∃ cls, cls < 0x80 ∧ o = Reg.logOvf cls

structure MemKept (k k' : Chip) : Prop where
  regs : ∀ o, ¬ memReg o → k'.reg o = k.reg o
  hub : ∃ q, k'.hub = { k.hub with logQ := q }
  cores : k'.cores = k.cores
  vats : k'.vats = k.vats

namespace MemKept

variable {k k' k'' : Chip}

theorem refl (k : Chip) : MemKept k k := ⟨fun _ _ => rfl, ⟨_, rfl⟩, rfl, rfl⟩

theorem trans (h : MemKept k k') (g : MemKept k' k'') : MemKept k k'' := by
  obtain ⟨q, hq⟩ := h.hub
  obtain ⟨q', hq'⟩ := g.hub
  exact ⟨fun o ho => (g.regs o ho).trans (h.regs o ho), ⟨q', by rw [hq', hq]⟩, g.cores.trans h.cores, g.vats.trans h.vats⟩

theorem getF (h : MemKept k k') {o : Nat} (ho : ¬ memReg o) (hi lo : Nat) : k'.getF o hi lo = k.getF o hi lo := by
  rw [Chip.getF, h.regs o ho, Chip.getF]

theorem setF (h : MemKept k k') {o : Nat} (ho : memReg o) (hi lo n : Nat) : MemKept k (k'.setF o hi lo n) :=
  ⟨fun o' ho' => (reg_setF_other _ _ _ _ _ _ (by rintro rfl; exact ho' ho)).trans (h.regs o' ho'), h.hub, h.cores, h.vats⟩

theorem count (h : MemKept k k') {o : Nat} (ho : memReg o) (n : Nat) : MemKept k (k'.count o n) := by
  simp only [Chip.count]
  split
  · exact h.setF ho _ _ _
  · exact (h.setF ho _ _ _).setF ho _ _ _

theorem satAdd (h : MemKept k k') {o : Nat} (ho : memReg o) (hi lo n : Nat) : MemKept k (k'.satAdd o hi lo n) := h.setF ho _ _ _

theorem setBu (h : MemKept k k') (v d b : Nat) (x : Bu) : MemKept k (k'.setBu v d b x) := ⟨h.regs, h.hub, h.cores, h.vats⟩

theorem setDie (h : MemKept k k') (v d : Nat) (x : Die) : MemKept k (k'.setDie v d x) := ⟨h.regs, h.hub, h.cores, h.vats⟩

theorem log (h : MemKept k k') {o : LogOcc} {cls : Nat} (ho : o.cls = cls) (hc : cls < 0x80) : MemKept k (k'.log o) := by
  unfold Chip.log
  split
  · obtain ⟨q, hq⟩ := h.hub
    exact ⟨h.regs, ⟨k'.hub.logQ ++ [o], by rw [hq]⟩, h.cores, h.vats⟩
  · exact h.setF (.inr ⟨o.cls, ho ▸ hc, rfl⟩) _ _ _

end MemKept

/-- The counters of banks and vats lie behind the hub's block. -/
theorem buReg_memReg (v d b n : Nat) : memReg (buBase v d b + n) := by
  refine .inl ?_
  simp only [buBase, dieBase, vatBase]
  omega

theorem tsvUpBytes_memReg (v : Nat) : memReg (Reg.tsvUpBytes v) := .inl (by simp only [Reg.tsvUpBytes, vatBase]; omega)

theorem tsvDownBytes_memReg (v : Nat) : memReg (Reg.tsvDownBytes v) := .inl (by simp only [Reg.tsvDownBytes, vatBase]; omega)

section Reads

variable {k0 k : Chip} (h : MemKept k0 k)
include h

theorem takeSlots_memKept (v d b n : Nat) : MemKept k0 (k.takeSlots v d b n) := by
  have hc := h.count (buReg_memReg v d b 0x28) n
  unfold Chip.takeSlots
  dsimp only
  split
  · exact hc
  · exact hc.setBu _ _ _ _

theorem trigger_memKept (v d a code : Nat) : MemKept k0 (k.trigger v d a code) := by
  unfold Chip.trigger
  dsimp only
  generalize (if (k.die v d).takeover.isSome then 4 else 5) = room
  split
  · exact h
  · split
    · exact h.setDie _ _ _
    · exact h.log (cls := 0x24) rfl (by decide)

theorem autoTrigger_memKept (v d a code : Nat) : MemKept k0 (k.autoTrigger v d a code) := by
  unfold Chip.autoTrigger
  split
  · exact trigger_memKept h v d a code
  · exact h

theorem noteRead_memKept (v d b row word src : Nat) (r : WordRead) : MemKept k0 (k.noteRead v d b row word src r) := by
  have hce := h.satAdd (buReg_memReg v d b 0x48) 31 0 1
  have hue := h.satAdd (buReg_memReg v d b 0x4c) 31 0 1
  unfold Chip.noteRead
  dsimp only
  split
  · exact h
  · exact h
  · split
    · exact hce
    · exact hce.log (cls := 0x01) rfl (by decide)
  · exact hue.log (cls := 0x03) rfl (by decide)
  · exact autoTrigger_memKept (hue.log (cls := 0x02) rfl (by decide)) _ _ _ _

theorem rowRun_memKept (dr : Dram) (v d b o n : Nat) : MemKept k0 (k.rowRun dr v d b o n).2.2 :=
  foldl_keeps (MemKept k0) _ _ k h (fun _ _ hx => (noteRead_memKept hx _ _ _ _ _ _ _).count (tsvUpBytes_memReg v) 32)

end Reads

section Machines

variable {k : Chip}

theorem rowRead_memKept {m : Mach} (h : MemKept k m.k) (v d a o n : Nat) : MemKept k (m.rowRead v d a o n).2.2.k := by
  unfold Mach.rowRead
  dsimp only
  split
  · exact rowRun_memKept (takeSlots_memKept h _ _ _ _) _ _ _ _ _ _
  · exact h.setBu _ _ _ _

theorem bankRead_memKept {m : Mach} (h : MemKept k m.k) (v d a o n : Nat) : MemKept k (m.bankRead v d a o n).2.2.k := by
  unfold Mach.bankRead
  split
  · exact h
  · exact foldl_keeps (fun r : List Byte × Bool × Mach => MemKept k r.2.2.k) _ _ ([], false, m) h (fun _ _ hr => rowRead_memKept hr _ _ _ _ _)

theorem bankRun_memKept (v d a fuel : Nat) {m : Mach} (h : MemKept k m.k) (o : Nat) (bs : List Byte) :
    MemKept k (Mach.bankRun v d a fuel m o bs).k := by
  induction fuel generalizing m o bs with
  | zero => exact h
  | succ fuel ih =>
    have down : ∀ k1, MemKept k k1 → ∀ lost : Bool, MemKept k (if lost then k1 else k1.count (Reg.tsvDownBytes v) 32) := fun k1 h1 lost => by
      cases lost
      · exact h1.count (tsvDownBytes_memReg v) 32
      · exact h1
    unfold Mach.bankRun
    split
    · exact h
    · refine ih (down _ ?_ _) _ _
      split
      · exact h
      · exact (noteRead_memKept h _ _ _ _ _ _ _).count (tsvUpBytes_memReg v) 32

theorem rowWrite_memKept {m : Mach} (h : MemKept k m.k) (v d a o : Nat) (bs : List Byte) : MemKept k (m.rowWrite v d a o bs).k := by
  unfold Mach.rowWrite
  dsimp only
  split
  · exact bankRun_memKept v d a _ (takeSlots_memKept h v d _ 1) o bs
  · exact h.setBu _ _ _ _

theorem bankWrite_memKept {m : Mach} (h : MemKept k m.k) (v d a o : Nat) (bs : List Byte) : MemKept k (m.bankWrite v d a o bs).k := by
  unfold Mach.bankWrite
  split
  · exact h
  · exact foldl_keeps (fun m : Mach => MemKept k m.k) _ _ m h (fun _ _ hm => rowWrite_memKept hm _ _ _ _ _)

theorem hubRead_memKept {m : Mach} (h : MemKept k m.k) (v p n : Nat) : MemKept k (m.hubRead v p n).2.2.k := by
  unfold Mach.hubRead
  split
  · exact h
  · exact foldl_keeps (fun r : List Byte × Bool × Mach => MemKept k r.2.2.k) _ _ ([], false, m) h (fun _ _ hr => bankRead_memKept hr _ _ _ _ _)

theorem hubWrite_memKept {m : Mach} (h : MemKept k m.k) (v p : Nat) (bs : List Byte) : MemKept k (m.hubWrite v p bs).k := by
  unfold Mach.hubWrite
  split
  · exact h
  · exact foldl_keeps (fun m : Mach => MemKept k m.k) _ _ m h (fun _ _ hm => bankWrite_memKept hm _ _ _ _ _)

theorem clearSlot_memKept {m : Mach} (h : MemKept k m.k) (v d slot : Nat) (banks : List Nat) : MemKept k (m.clearSlot v d slot banks).k := by
  unfold Mach.clearSlot
  split
  · exact h
  · exact foldl_keeps (fun m : Mach => MemKept k m.k) _ _ m h (fun _ _ hm => bankWrite_memKept (bankRead_memKept hm _ _ _ _ _) _ _ _ _ _)

theorem freePages_memKept {m : Mach} (h : MemKept k m.k) (c : Ctx) : MemKept k (m.freePages c).k := by
  unfold Mach.freePages
  dsimp only
  split
  · exact clearSlot_memKept (clearSlot_memKept h _ _ _ _) _ _ _ _
  · exact clearSlot_memKept h _ _ _ _

theorem zeroRange_memKept {m : Mach} (h : MemKept k m.k) (v p n : Nat) : MemKept k (m.zeroRange v p n).k := by
  refine foldl_keeps (fun m : Mach => MemKept k m.k) _ _ m h (fun m g hm => ?_)
  dsimp only
  split
  · exact hm
  · exact hm.count (buReg_memReg _ _ _ 0x28) _

end Machines

end Sys2Proof.Proofs
end

section
/-!
PROOFS. The boot by its stages, and the sideband (O52).
-/

namespace Sys2Proof.Proofs

open Sys2Proof.Machine Sys2Proof.Safety Sys2Proof.Laws

theorem bootStatus_not_memReg : ¬ memReg Reg.bootStatus := by
  rintro (h | ⟨c, hc, h⟩)
  · exact absurd h (by decide)
  · simp only [Reg.bootStatus, Reg.logOvf] at h
    omega

theorem bootsAt_stage {k : Chip} {n : Nat} (h : k.bootsAt n = true) : k.getF Reg.bootStatus 11 8 = n := by
  simp only [Chip.bootsAt, Bool.and_eq_true, decide_eq_true_eq] at h
  exact h.1.2

theorem stageOver_stage {k : Chip} {n : Nat} (h : k.stageOver n = true) : k.getF Reg.bootStatus 11 8 = n := by
  simp only [Chip.stageOver, Bool.and_eq_true, decide_eq_true_eq] at h
  exact h.1.2

theorem stageOver_other {k : Chip} {n m : Nat} (h : k.stageOver n = true) (hm : m ≠ n) : k.stageOver m = false := by
  by_contra hc
  exact hm ((stageOver_stage (eq_true_of_ne_false hc)).symm.trans (stageOver_stage h))

theorem toStage_stage (k : Chip) {n : Nat} (h : n < 16) : (k.toStage n).getF Reg.bootStatus 11 8 = n :=
  (getF_setF_same _ _ _ _ _ (by decide) (by decide)).trans (Nat.mod_eq_of_lt h)

theorem getF_onBoot (k : Chip) (f : BootState → BootState) (o hi lo : Nat) : (k.onBoot f).getF o hi lo = k.getF o hi lo := rfl

theorem flag_onBoot (k : Chip) (f : BootState → BootState) (o i : Nat) : (k.onBoot f).flag o i = k.flag o i := rfl

theorem onBoot_log (k : Chip) (f : BootState → BootState) : (k.onBoot f).hub.log = k.hub.log := rfl

theorem onBoot_unitsKept (k : Chip) (f : BootState → BootState) : unitsKept k (k.onBoot f) := ⟨rfl, rfl, rfl, rfl⟩

theorem unitsKept_trans {k k' k'' : Chip} (h : unitsKept k k') (g : unitsKept k' k'') : unitsKept k k'' :=
  ⟨g.1.trans h.1, g.2.1.trans h.2.1, g.2.2.1.trans h.2.2.1, g.2.2.2.trans h.2.2.2⟩

/-! ### Firmware -/

theorem exec_firmwareVerify {s : State} (h : live s true) (hb : s.k.bootsAt 1 = true) (a b : FwSlot) :
    exec (.firmwareVerify a b) s = .next (withK s (match a.refused (s.k.getF Reg.rindSvn 31 16) with
      | none => s.k.runFirmware 0 a
      | some why =>
        let k := s.k.writeLog { occ 0x61 s.k.now with detail := why * 256 }
        match b.refused (s.k.getF Reg.rindSvn 31 16) with
        | none => k.runFirmware 1 b
        | some _ => k.noFirmware)) := by
  change execFirmwareVerify a b s = _
  unfold execFirmwareVerify
  rw [onChip_live _ h]
  exact congrArg (fun k => Host.Outcome.next (withK s k)) (if_neg (by rw [hb]; decide))

theorem noFirmware_cond (k : Chip) : k.noFirmware.hub.boot.cond = .failed := rfl

theorem noFirmware_stage (k : Chip) : k.noFirmware.getF Reg.bootStatus 11 8 = 7 := by
  have h7 : (k.setF Reg.bootStatus 11 8 7).getF Reg.bootStatus 11 8 = 7 := getF_setF_same _ _ _ _ _ (by decide) (by decide)
  unfold Chip.noFirmware
  dsimp only
  split
  · exact h7
  · exact (getF_setF_register _ _ _ _ _ _ _ _ (by decide)).trans h7

theorem noFirmware_state (k : Chip) : k.noFirmware.getF Reg.rindStatus 1 0 = if k.getF Reg.rindStatus 1 0 = 3 then 3 else 2 := by
  have hkeep : (k.setF Reg.bootStatus 11 8 7).getF Reg.rindStatus 1 0 = k.getF Reg.rindStatus 1 0 := getF_setF_register _ _ _ _ _ _ _ _ (by decide)
  unfold Chip.noFirmware
  dsimp only
  rw [hkeep]
  split
  next h => exact hkeep.trans h
  next h => exact getF_setF_same _ _ _ _ _ (by decide) (by decide)

theorem not_logReg_rindStatus {cls : Nat} (h : cls < 0x80) : ¬ logReg cls Reg.rindStatus := by
  rintro (h | h | h | h | h)
  · exact absurd h (by decide)
  · exact absurd h (by decide)
  · simp only [Reg.rindStatus, Reg.logOvf] at h
    omega
  · exact absurd h (by decide)
  · exact absurd h (by decide)

/-! ### Stages that a command ends -/

theorem exec_dieTraining_none {s : State} (h : live s true) (hb : s.k.bootsAt 3 = true) (hp : s.k.poweredOn = true)
    (ht : s.k.hub.boot.trained = false) :
    exec (.dieTraining []) s =
      .next (withK s ((if s.k.hub.tenantSeen then s.k.toStage 4 else s.k).onBoot (fun b => { b with trained := true }))) := by
  change execDieTraining [] s = _
  unfold execDieTraining
  rw [onMach_next s _ _ h.1 h.2]
  dsimp only
  rw [if_neg (by simp [hb, hp, ht])]
  rfl

theorem exec_bootScrub {s : State} (h : live s true) (hb : s.k.bootsAt 4 = true) (hs : s.k.hub.boot.scrubbed = false) :
    exec .bootScrub s = .next (withM s
      { dr := { cells := [], marks := [] }
        k := (((s.k.scrubSlots s.part.vats).raise Reg.rindStatus 5).onHub (fun h => { h with tenantSeen := false })).onBoot
          (fun b => { b with scrubbed := true }) }) := by
  change execBootScrub s = _
  unfold execBootScrub
  rw [onMach_next s _ _ h.1 h.2]
  dsimp only
  rw [if_neg (by simp [hb, hs])]
  rfl

theorem bootScrub_shown (k : Chip) (f : Hub → Hub) (g : BootState → BootState) :
    (((k.raise Reg.rindStatus 5).onHub f).onBoot g).flag Reg.rindStatus 5 = true := flag_raise_same k _ _ (by decide)

/-- The contexts of the directory give up their pages, and the directory's regions are zeroed. -/
def directoryZeroed (m : Mach) (V : Nat) : Mach :=
  let m := m.k.hub.ctxs.foldl (fun m c => if c.2.state = .spilled then m else m.freePages c.2) m
  (List.range V).foldl (fun m v => (m.k.ctxRegions v).foldl (fun m r => m.zeroRange v r.1 r.2) m) m

theorem directoryZeroed_memKept (m : Mach) (V : Nat) : MemKept m.k (directoryZeroed m V).k := by
  refine foldl_keeps (fun x : Mach => MemKept m.k x.k) _ _ _ ?_ (fun x v hx => ?_)
  · refine foldl_keeps (fun x : Mach => MemKept m.k x.k) _ _ m (MemKept.refl _) (fun x c hx => ?_)
    split
    · exact hx
    · exact freePages_memKept hx _
  · exact foldl_keeps (fun x : Mach => MemKept m.k x.k) _ _ x hx (fun x r hx => zeroRange_memKept hx _ _ _)

/-- The hub once its directory is empty. -/
def directoryEmptied (k : Chip) : Chip :=
  (k.onHub (fun h => { h with ctxs := [], nextIdx := 0, freed := [], gens := [] })).onBoot (fun b => { b with cleared := true })

theorem directoryEmptied_getF (k : Chip) (o hi lo : Nat) : (directoryEmptied k).getF o hi lo = k.getF o hi lo := rfl

theorem exec_directoryClear {s : State} (h : live s true) (hb : s.k.bootsAt 5 = true) (hc : s.k.hub.boot.cleared = false) :
    exec .directoryClear s = .next (withM s ((directoryZeroed (machOf s) s.part.vats).onChip directoryEmptied)) := by
  change execDirectoryClear s = _
  unfold execDirectoryClear
  rw [onMach_next s _ _ h.1 h.2]
  dsimp only
  rw [if_neg (by simp [hb, hc])]
  rfl

/-! ### The end of the boot -/

/-- The summary that a boot's end logs. -/
def bootSummary (k : Chip) : LogOcc :=
  { occ 0x60 k.now with
    detail := k.getF Reg.bootStatus 2 0 + (roundDiv ((k.now - k.hub.boot.endAt : Nat) : Int) 1000000).toNat * 256 }

/-- The registers at a boot's end, once it is logged: `us` is how long it took. -/
def bootShown (k : Chip) (us : Nat) : Chip :=
  let k := ((k.raise Reg.bootStatus 31).setF Reg.bootStatus 11 8 6).setF Reg.bootTime 31 0 us
  if k.getF Reg.rindStatus 1 0 = 3 then k else k.setF Reg.rindStatus 1 0 1

theorem exec_bootReady {s : State} (h : live s true) (hd : s.k.bootDone = true) :
    exec .bootReady s = .next (withK s ((bootShown (s.k.writeLog (bootSummary s.k))
      (roundDiv ((s.k.now - s.k.hub.boot.endAt : Nat) : Int) 1000).toNat).onBoot (fun b => { b with cond := .ready }))) := by
  change execBootReady s = _
  unfold execBootReady
  rw [onChip_live _ h]
  dsimp only
  rw [if_neg (by rw [hd]; decide)]
  rfl

section Shown

variable (k : Chip) (us : Nat)

theorem bootShown_regsOnly : regsOnly k (bootShown k us) (fun o => o = Reg.bootStatus ∨ o = Reg.bootTime ∨ o = Reg.rindStatus) := by
  have hshown : regsOnly k (((k.raise Reg.bootStatus 31).setF Reg.bootStatus 11 8 6).setF Reg.bootTime 31 0 us)
      (fun o => o = Reg.bootStatus ∨ o = Reg.bootTime ∨ o = Reg.rindStatus) :=
    ((regsOnly.refl.raise 31 (.inl rfl)).setF 11 8 6 (.inl rfl)).setF 31 0 us (.inr (.inl rfl))
  unfold bootShown
  dsimp only
  split
  · exact hshown
  · exact hshown.setF 1 0 1 (.inr (.inr rfl))

theorem bootShown_hub : (bootShown k us).hub = k.hub := by
  unfold bootShown
  dsimp only
  split <;> rfl

theorem bootShown_getF {o : Nat} (ho : o ≠ Reg.rindStatus) (hi lo : Nat) :
    (bootShown k us).getF o hi lo = (((k.raise Reg.bootStatus 31).setF Reg.bootStatus 11 8 6).setF Reg.bootTime 31 0 us).getF o hi lo := by
  unfold bootShown
  dsimp only
  split
  · rfl
  · exact getF_setF_register _ _ _ _ _ _ _ _ ho

theorem bootShown_flag : (bootShown k us).flag Reg.bootStatus 31 = true := by
  rw [Chip.flag, bootShown_getF k us (by decide), ← Chip.flag, flag_setF_register _ _ _ _ _ _ _ (by decide),
    flag_setF_other _ _ _ _ _ _ (by decide) (by decide) (by decide), flag_raise_same _ _ _ (by decide)]

theorem bootShown_stage : (bootShown k us).getF Reg.bootStatus 11 8 = 6 := by
  rw [bootShown_getF k us (by decide), getF_setF_register _ _ _ _ _ _ _ _ (by decide), getF_setF_same _ _ _ _ _ (by decide) (by decide)]
  rfl

theorem bootShown_time : (bootShown k us).getF Reg.bootTime 31 0 = us % 2 ^ 32 := by
  rw [bootShown_getF k us (by decide), getF_setF_same _ _ _ _ _ (by decide) (by decide)]

theorem bootShown_state (h : k.getF Reg.rindStatus 1 0 ≠ 3) : (bootShown k us).getF Reg.rindStatus 1 0 = 1 := by
  unfold bootShown
  dsimp only
  have hkeep : (((k.raise Reg.bootStatus 31).setF Reg.bootStatus 11 8 6).setF Reg.bootTime 31 0 us).getF Reg.rindStatus 1 0 =
      k.getF Reg.rindStatus 1 0 := by
    rw [getF_setF_register _ _ _ _ _ _ _ _ (by decide), getF_setF_register _ _ _ _ _ _ _ _ (by decide), Chip.raise,
      getF_setF_register _ _ _ _ _ _ _ _ (by decide)]
  rw [hkeep, if_neg h]
  exact getF_setF_same _ _ _ _ _ (by decide) (by decide)

end Shown

/-! ### Stages that a tick ends -/

section Ticks

variable {k : Chip} (p : Part)

theorem bootTick_zero (h : k.stageOver 0 = true) : k.bootTick p = k.toStage 1 := if_pos h

theorem bootTick_two (h : k.stageOver 2 = true) : k.bootTick p = k.measured p := by
  unfold Chip.bootTick
  rw [if_neg (by rw [stageOver_other h (by decide)]; decide), if_pos h]

theorem bootTick_three (h : k.stageOver 3 = true) (hp : k.poweredOn = false) :
    k.bootTick p = ((List.range p.vats).foldl (fun k v => k.setPower v .awake) k).toStage 5 := by
  unfold Chip.bootTick
  rw [if_neg (by rw [stageOver_other h (by decide)]; decide), if_neg (by rw [stageOver_other h (by decide)]; decide), if_pos (by rw [hp, h]; rfl)]

theorem bootTick_none (h0 : k.stageOver 0 = false) (h2 : k.stageOver 2 = false) (h3 : k.stageOver 3 = false ∨ k.poweredOn = true) :
    k.bootTick p = k := by
  unfold Chip.bootTick
  rw [if_neg (by rw [h0]; decide), if_neg (by rw [h2]; decide), if_neg]
  rcases h3 with h3 | hp
  · rw [h3, Bool.and_false]
    decide
  · rw [hp]
    exact Bool.false_ne_true

theorem awaken_awake {l : List Nat} {v : Nat} (hv : v ∈ l) (k : Chip) : ((l.foldl (fun k v => k.setPower v .awake) k).vat v).power = .awake :=
  foldl_reaches (Q := fun _ => True) (P := fun k : Chip => (k.vat v).power = .awake) hv (fun _ _ _ => trivial)
    (fun k _ => (setPower_power k v v .awake).trans (if_pos rfl)) (fun k u h => (setPower_power k u v .awake).trans (by split <;> simp [h])) trivial

end Ticks

/-! ### The sideband -/

theorem onCave_on {s : State} (f : Chip → Word) (h : s.k.hub.boot.cond ≠ .off) : s.onCave f = .next (answered s s.k (.word (f s.k))) := by
  unfold State.onCave State.onPart
  dsimp only
  rw [if_neg h]
  rfl

theorem onCave_off {s : State} (f : Chip → Word) (h : s.k.hub.boot.cond = .off) : s.onCave f = .next s := by
  unfold State.onCave State.onPart
  dsimp only
  rw [if_pos h]

/-- The words that the sideband's LOG answers. -/
def logWord (k : Chip) : Word :=
  BitVec.ofNat 64 (k.getF Reg.logWi 11 0 + 4096 * k.getF Reg.logRi 11 0 + statusBit (k.flag Reg.logStatus 31) 24)

theorem exec_sideband_on {s : State} (h : s.k.hub.boot.cond ≠ .off) :
    exec .caveStatus s = .next (answered s s.k (.word (BitVec.ofNat 64 s.k.caveStatus))) ∧
    exec .trip s = .next (answered s s.k (.word (s.k.reg Reg.pwrTrip))) ∧
    exec .log s = .next (answered s s.k (.word (logWord s.k))) ∧
    exec .sidebandTamper s = .next (answered s s.k (.word (s.k.reg Reg.rindTamper))) :=
  ⟨onCave_on (fun k => BitVec.ofNat 64 k.caveStatus) h, onCave_on (fun k => k.reg Reg.pwrTrip) h, onCave_on logWord h,
    onCave_on (fun k => k.reg Reg.rindTamper) h⟩

theorem exec_sideband_off {s : State} (h : s.k.hub.boot.cond = .off) :
    exec .caveStatus s = .next s ∧ exec .trip s = .next s ∧ exec .log s = .next s ∧ exec .sidebandTamper s = .next s :=
  ⟨onCave_off (fun k => BitVec.ofNat 64 k.caveStatus) h, onCave_off (fun k => k.reg Reg.pwrTrip) h, onCave_off logWord h,
    onCave_off (fun k => k.reg Reg.rindTamper) h⟩

/-- Settles O52: the boot stage by stage, its end, and the sideband by the standby supply. -/
theorem bootRunsByStages : Obligations.BootRunsByStages := by
  unfold Obligations.BootRunsByStages
  intro s k fused
  refine ⟨fun h hb => ⟨fun a b ha => ?_, fun a b why ha => ⟨fun hb' => ?_, fun hb' => ?_⟩⟩, 
    fun h hb hp ht => ⟨_, exec_dieTraining_none h hb hp ht, rfl, fun hs => ?_, fun hs => ?_⟩,
    fun h hb hs => ⟨_, exec_bootScrub h hb hs, rfl, rfl, rfl, rfl, bootScrub_shown (s.k.scrubSlots s.part.vats) _ _⟩,
    fun h hb hc => ⟨_, exec_directoryClear h hb hc, rfl, rfl, ?_, rfl, rfl⟩,
    fun h hd => ⟨_, exec_bootReady h hd, (flag_onBoot _ _ _ _).trans (bootShown_flag _ _),
      (getF_onBoot _ _ _ _ _).trans (bootShown_stage _ _), rfl, (getF_onBoot _ _ _ _ _).trans (bootShown_time _ _), ?_, fun hr => ?_, ?_⟩,
    bootTick_zero s.part, fun h2 => ⟨bootTick_two s.part h2, ?_⟩, fun h3 hp v hv => ?_, bootTick_none s.part,
    exec_sideband_on, exec_sideband_off⟩
  · rw [exec_firmwareVerify h hb, show a.refused (s.k.getF Reg.rindSvn 31 16) = none from ha]
  · rw [exec_firmwareVerify h hb, show a.refused (s.k.getF Reg.rindSvn 31 16) = some why from ha]
    dsimp only
    rw [show b.refused (s.k.getF Reg.rindSvn 31 16) = none from hb']
  · obtain ⟨w, hw⟩ := Option.ne_none_iff_exists'.mp hb'
    refine ⟨(k.writeLog { occ 0x61 k.now with detail := why * 256 }).noFirmware, ?_, noFirmware_cond _, noFirmware_stage _, ?_⟩
    · rw [exec_firmwareVerify h hb, show a.refused (s.k.getF Reg.rindSvn 31 16) = some why from ha]
      dsimp only
      rw [show b.refused (s.k.getF Reg.rindSvn 31 16) = some w from hw]
    · rw [noFirmware_state, (writeLog_regsOnly k (o := { occ 0x61 k.now with detail := why * 256 }) (by simp [occ])).getF 1 0
        (not_logReg_rindStatus (cls := 0x61) (by decide))]
  · rw [if_pos hs]
    exact toStage_stage k (by decide)
  · rw [if_neg (by rw [hs]; decide)]
    rfl
  · exact (directoryEmptied_getF _ _ _ _).trans <|
      ((directoryZeroed_memKept (machOf s) s.part.vats).getF bootStatus_not_memReg 11 8).trans (bootsAt_stage hb)
  · exact (onBoot_log _ _).trans (congrArg Hub.log (bootShown_hub _ _))
  · refine (getF_onBoot _ _ _ _ _).trans (bootShown_state _ _ ?_)
    rwa [(writeLog_regsOnly k (o := bootSummary k) (by simp [bootSummary, occ])).getF 1 0 (not_logReg_rindStatus (cls := 0x60) (by decide))]
  · exact unitsKept_trans (unitsKept_trans (writeLog_regsOnly k (o := bootSummary k) (by simp [bootSummary, occ])).2 (bootShown_regsOnly _ _).2)
      (onBoot_unitsKept _ _)
  · rw [bootTick_two s.part h2]
    exact toStage_stage _ (by decide)
  · rw [bootTick_three s.part h3 hp]
    exact ⟨awaken_awake (List.mem_range.mpr hv) k, toStage_stage _ (by decide)⟩

end Sys2Proof.Proofs
end

section
/-!
PROOFS. Caps, sleep and wake, droops and debug holds (O53).
-/

namespace Sys2Proof.Proofs

open Sys2Proof.Machine Sys2Proof.Safety Sys2Proof.Laws

theorem getF_count_same (k : Chip) (o n : Nat) : (k.count o n).getF o 47 0 = (k.getF o 47 0 + n) % 2 ^ 48 := by
  have hc : (k.setF o 47 0 (k.getF o 47 0 + n)).getF o 47 0 = (k.getF o 47 0 + n) % 2 ^ 48 := getF_setF_same _ _ _ _ _ (by decide) (by decide)
  simp only [Chip.count]
  split
  · exact hc
  · exact (getF_raise_other _ _ _ _ _ (by decide) (by decide)).trans hc

/-! ### What a written cap leaves -/

/-- PWR_STATUS shows the cause that is left. -/
def causeShown (k : Chip) : Chip := (k.setF Reg.pwrStatus 31 31 (if k.capCause = 0 then 0 else 1)).setF Reg.pwrStatus 30 29 k.capCause

/-- The entry into CAP_UNMET that is logged. -/
def capEntry (k : Chip) : Nat := k.getF Reg.pwrCap 15 0 + k.capCause * 2 ^ 16 + k.getF Reg.pwrStatus 15 0 % 2 ^ 14 * 2 ^ 18

section Cap

variable (k : Chip)

theorem noteCap_enters (hc : k.capCause ≠ 0) (hw : k.capUnmet = false) :
    k.noteCap = ((causeShown k).count Reg.pwrCapUnmetN 1).logPlain 0x30 (capEntry (causeShown k)) := by
  unfold Chip.noteCap
  dsimp only
  rw [if_pos ⟨hc, by rw [hw]; rfl⟩]
  rfl

theorem noteCap_leaves (hc : k.capCause = 0) (hw : k.capUnmet = true) :
    k.noteCap = (causeShown k).logPlain 0x31 ((causeShown k).getF Reg.pwrCap 15 0) := by
  unfold Chip.noteCap
  dsimp only
  rw [if_neg (fun h => h.1 hc), if_pos ⟨hc, hw⟩]
  rfl

theorem noteCap_stays (h : k.capCause = 0 ↔ k.capUnmet = false) : k.noteCap = causeShown k := by
  unfold Chip.noteCap
  dsimp only
  rw [if_neg, if_neg]
  · rfl
  · rintro ⟨hc, hw⟩
    rw [h.mp hc] at hw
    exact Bool.false_ne_true hw
  · rintro ⟨hc, hw⟩
    exact hc (h.mpr (by simpa using hw))

theorem noteCap_cases :
    k.noteCap = causeShown k ∨ (∃ d, k.noteCap = (causeShown k).logPlain 0x31 d) ∨
      ∃ d, k.noteCap = ((causeShown k).count Reg.pwrCapUnmetN 1).logPlain 0x30 d := by
  by_cases hc : k.capCause = 0 <;> cases hw : k.capUnmet
  · exact .inl (noteCap_stays k ⟨fun _ => hw, fun _ => hc⟩)
  · exact .inr (.inl ⟨_, noteCap_leaves k hc hw⟩)
  · exact .inr (.inr ⟨_, noteCap_enters k hc hw⟩)
  · exact .inl (noteCap_stays k ⟨fun h => absurd h hc, fun h => absurd (hw.symm.trans h) (by decide)⟩)

theorem causeShown_unitsKept : unitsKept k (causeShown k) := ⟨rfl, rfl, rfl, rfl⟩

theorem causeShown_unmet : (causeShown k).capUnmet = decide (k.capCause ≠ 0) := by
  rw [Chip.capUnmet, causeShown, flag_setF_other _ _ _ _ _ _ (by decide) (by decide) (by decide), Chip.flag,
    getF_setF_same _ _ _ _ _ (by decide) (by decide)]
  by_cases h : k.capCause = 0 <;> simp [h]

theorem capCause_lt : k.capCause < 4 := by
  unfold Chip.capCause
  split
  · decide
  · split <;> decide

theorem causeShown_cause : (causeShown k).getF Reg.pwrStatus 30 29 = k.capCause :=
  (getF_setF_same _ _ _ _ _ (by decide) (by decide)).trans (Nat.mod_eq_of_lt (capCause_lt k))

theorem causeShown_reg {o : Nat} (h : o ≠ Reg.pwrStatus) : (causeShown k).reg o = k.reg o :=
  (reg_setF_other _ _ _ _ _ _ h).trans (reg_setF_other _ _ _ _ _ _ h)

/-- Logging touches the overflow count of its class alone. -/
theorem logPlain_reg {cls o : Nat} (detail : Nat) (h : o ≠ Reg.logOvf cls) : (k.logPlain cls detail).reg o = k.reg o :=
  (log_regsOnly k { occ cls k.now with detail := detail }).1 o h

theorem logPlain_unitsKept (cls detail : Nat) : unitsKept k (k.logPlain cls detail) :=
  (log_regsOnly k { occ cls k.now with detail := detail }).2

theorem logPlain_pwr (cls detail : Nat) : (k.logPlain cls detail).hub.pwr = k.hub.pwr := by
  obtain ⟨q, hq⟩ := log_hub k { occ cls k.now with detail := detail }
  exact (congrArg Hub.pwr hq).trans rfl

theorem count_unitsKept (o n : Nat) : unitsKept k (k.count o n) := by
  simp only [Chip.count]
  split <;> exact ⟨rfl, rfl, rfl, rfl⟩

/-- Beside what PWR_STATUS shows, a cause noted is only counted and logged. -/
theorem noteCap_reg {o : Nat} (hn : o ≠ Reg.pwrCapUnmetN) (he : o ≠ Reg.logOvf 0x30) (hl : o ≠ Reg.logOvf 0x31) :
    k.noteCap.reg o = (causeShown k).reg o := by
  rcases noteCap_cases k with h | ⟨d, h⟩ | ⟨d, h⟩ <;> rw [h]
  · exact logPlain_reg _ d hl
  · exact (logPlain_reg _ d he).trans (count_reg_other _ _ _ _ hn)

theorem noteCap_unitsKept : unitsKept k k.noteCap := by
  rcases noteCap_cases k with h | ⟨d, h⟩ | ⟨d, h⟩ <;> rw [h]
  · exact causeShown_unitsKept k
  · exact unitsKept_trans (causeShown_unitsKept k) (logPlain_unitsKept _ _ _)
  · exact unitsKept_trans (causeShown_unitsKept k) (unitsKept_trans (count_unitsKept _ _ _) (logPlain_unitsKept _ _ _))

theorem noteCap_pwr : k.noteCap.hub.pwr = k.hub.pwr := by
  rcases noteCap_cases k with h | ⟨d, h⟩ | ⟨d, h⟩ <;> rw [h]
  · rfl
  · exact (logPlain_pwr _ _ _).trans rfl
  · exact (logPlain_pwr _ _ _).trans ((congrArg Hub.pwr (count_hub _ _ _)).trans rfl)

theorem noteCap_status (hi lo : Nat) : k.noteCap.getF Reg.pwrStatus hi lo = (causeShown k).getF Reg.pwrStatus hi lo := by
  rw [Chip.getF, noteCap_reg k (by decide) (by decide) (by decide), Chip.getF]

theorem noteCap_unmet : k.noteCap.capUnmet = decide (k.capCause ≠ 0) := by
  rw [Chip.capUnmet, Chip.flag, noteCap_status, ← Chip.flag]
  exact causeShown_unmet k

theorem noteCap_cause : k.noteCap.getF Reg.pwrStatus 30 29 = k.capCause := (noteCap_status k 30 29).trans (causeShown_cause k)

theorem noteCap_cap (hi lo : Nat) : k.noteCap.getF Reg.pwrCap hi lo = k.getF Reg.pwrCap hi lo := by
  rw [Chip.getF, noteCap_reg k (by decide) (by decide) (by decide), causeShown_reg k (by decide), Chip.getF]

/-- An entry into CAP_UNMET is counted. -/
theorem noteCap_counts (hc : k.capCause ≠ 0) (hw : k.capUnmet = false) :
    k.noteCap.getF Reg.pwrCapUnmetN 47 0 = (k.getF Reg.pwrCapUnmetN 47 0 + 1) % 2 ^ 48 := by
  rw [noteCap_enters k hc hw, Chip.getF, logPlain_reg _ _ (by decide), ← Chip.getF, getF_count_same, Chip.getF, causeShown_reg k (by decide),
    Chip.getF]

theorem noteCap_uncounted (hc : k.capCause ≠ 0) (hw : k.capUnmet = true) : k.noteCap.reg Reg.pwrCapUnmetN = k.reg Reg.pwrCapUnmetN := by
  rw [noteCap_stays k ⟨fun h => absurd h hc, fun h => absurd (hw.symm.trans h) (by decide)⟩]
  exact causeShown_reg k (by decide)

end Cap

section Written

variable (k : Chip) {p : Part} {w : Nat}

/-- The chip with a cap below the range in force, before its cause is noted. -/
def capLow (k : Chip) (p : Part) (w : Nat) : Chip := (k.setF Reg.pwrCap 15 0 (min w p.maxWatts)).onPwr (fun x => { x with capCause := true })

/-- The chip with a cap within the range in force, after one below it. -/
def capBack (k : Chip) (p : Part) (w : Nat) : Chip :=
  (k.setF Reg.pwrCap 15 0 (min w p.maxWatts)).onPwr (fun x => { x with capCause := false, above := 0, below := 0 })

theorem writeCap_low (h : w < p.minWatts) : k.writeCap p w = (capLow k p w).noteCap := if_pos h

theorem writeCap_back (h : p.minWatts ≤ w) (ho : k.getF Reg.pwrCap 15 0 < p.minWatts) : k.writeCap p w = (capBack k p w).noteCap := by
  unfold Chip.writeCap
  rw [if_neg (Nat.not_lt.mpr h), if_pos ho]
  rfl

theorem writeCap_within (h : p.minWatts ≤ w) (ho : p.minWatts ≤ k.getF Reg.pwrCap 15 0) :
    k.writeCap p w = k.setF Reg.pwrCap 15 0 (min w p.maxWatts) := by
  unfold Chip.writeCap
  rw [if_neg (Nat.not_lt.mpr h), if_neg (Nat.not_lt.mpr ho)]

theorem capLow_cause : (capLow k p w).capCause ≠ 0 := by
  unfold Chip.capCause
  split
  · decide
  · exact Nat.one_ne_zero

theorem setCap_shows (hw : w < 65536) : (k.setF Reg.pwrCap 15 0 (min w p.maxWatts)).getF Reg.pwrCap 15 0 = min w p.maxWatts :=
  (getF_setF_same _ _ _ _ _ (by decide) (by decide)).trans (Nat.mod_eq_of_lt (Nat.lt_of_le_of_lt (Nat.min_le_left _ _) hw))

/-- Whatever the cap, PWR_CAP shows it and the units stay. -/
theorem writeCap_shows (hw : w < 65536) : (k.writeCap p w).getF Reg.pwrCap 15 0 = min w p.maxWatts ∧ unitsKept k (k.writeCap p w) := by
  by_cases h : w < p.minWatts
  · rw [writeCap_low k h]
    exact ⟨(noteCap_cap _ 15 0).trans (setCap_shows k hw), unitsKept_trans ⟨rfl, rfl, rfl, rfl⟩ (noteCap_unitsKept (capLow k p w))⟩
  · by_cases ho : k.getF Reg.pwrCap 15 0 < p.minWatts
    · rw [writeCap_back k (Nat.le_of_not_lt h) ho]
      exact ⟨(noteCap_cap _ 15 0).trans (setCap_shows k hw), unitsKept_trans ⟨rfl, rfl, rfl, rfl⟩ (noteCap_unitsKept (capBack k p w))⟩
    · rw [writeCap_within k (Nat.le_of_not_lt h) (Nat.le_of_not_lt ho)]
      exact ⟨setCap_shows k hw, rfl, rfl, rfl, rfl⟩

theorem capLow_cause_cold (h : k.hub.pwr.thermal = []) : (capLow k p w).capCause = 1 := by
  unfold Chip.capCause
  rw [if_neg (by exact not_not.mpr h)]
  rfl

theorem capBack_cause_cold (h : k.hub.pwr.thermal = []) : (capBack k p w).capCause = 0 := by
  unfold Chip.capCause
  rw [if_neg (by exact not_not.mpr h)]
  rfl

theorem capLow_unmet : (capLow k p w).capUnmet = k.capUnmet := flag_setF_register _ _ _ _ _ _ _ (by decide)

theorem capLow_count : (capLow k p w).reg Reg.pwrCapUnmetN = k.reg Reg.pwrCapUnmetN := reg_setF_other _ _ _ _ _ _ (by decide)

end Written

/-! ### Sleep and wake -/

section Sleep

variable {s : State} {v : Nat} (h : live s true) (hv : v < s.part.vats)
include h hv

theorem live_hasVat : live s (s.hasVat v) := ⟨decide_eq_true hv, h.2⟩

theorem exec_vatSleep_falls (hus : s.k.getF Reg.pwrPolicy 31 16 ≠ 0) (ha : s.k.awake v = true) (hw : s.k.flag Reg.pwrWarm v = false)
    (hi : s.k.vatIdle v = true)
    (hs : s.k.hub.pwr.idleSince.any (fun e => e.1 = v && e.2 + 1000 * s.k.getF Reg.pwrPolicy 31 16 ≤ s.k.now) = true) :
    exec (.vatSleep v) s = .next (withK s (s.k.setPower v .entering)) := by
  change execVatSleep v s = _
  unfold execVatSleep
  rw [onChip_live _ (live_hasVat h hv)]
  dsimp only
  rw [if_pos ⟨hus, ha, by rw [hw]; rfl, hs, hi⟩]

theorem exec_vatSleep_off (hus : s.k.getF Reg.pwrPolicy 31 16 = 0) : exec (.vatSleep v) s = .next s := by
  change execVatSleep v s = _
  unfold execVatSleep
  rw [onChip_live _ (live_hasVat h hv)]
  dsimp only
  rw [if_neg (fun hc => hc.1 hus)]
  rfl

theorem exec_vatAsleep (hp : (s.k.vat v).power = .entering) : exec (.vatAsleep v) s = .next (withK s (s.k.setPower v .asleep)) := by
  change execVatAsleep v s = _
  unfold execVatAsleep
  rw [onChip_live _ (live_hasVat h hv), if_pos hp]

theorem exec_wakeRequest : exec (.wakeRequest v) s = .next (withK s (s.k.wake v)) := by
  change execWakeRequest v s = _
  unfold execWakeRequest
  rw [onChip_live _ (live_hasVat h hv)]

theorem exec_vatAwake (hp : (s.k.vat v).power = .waking) :
    exec (.vatAwake v) s = .next (withM s (((machOf s).onChip (fun k => (k.setPower v .awake).feedHub)).serveBars s.part v)) := by
  change execVatAwake v s = _
  unfold execVatAwake
  rw [onMach_next s _ _ (live_hasVat h hv).1 h.2]
  dsimp only
  rw [if_pos hp]
  rfl

theorem exec_droop : exec (.droop v) s = .next (withK s (if s.k.boosted v && s.k.awake v then s.k.count (Reg.vatStretch v) 1 else s.k)) := by
  change execDroop v s = _
  unfold execDroop
  rw [onChip_live _ (live_hasVat h hv)]

end Sleep

theorem wake_sleeping {k : Chip} {v : Nat} (h : (k.vat v).power = .asleep ∨ (k.vat v).power = .entering) :
    k.wake v = (k.setPower v .waking).count (Reg.vatWakes v) 1 := by
  rcases h with h | h <;> simp only [Chip.wake, h]

theorem wake_up {k : Chip} {v : Nat} (h : (k.vat v).power = .awake ∨ (k.vat v).power = .waking) : k.wake v = k := by
  rcases h with h | h <;> simp only [Chip.wake, h]

/-! ### Debug holds -/

/-- The hold of die `i` of core `t`, as bit `i` of the mask says. -/
def holdDie (t : Nat × Nat) (mask : Nat) (k : Chip) (i : Nat) : Chip :=
  k.setDie t.1 (4 * t.2 + i) { k.die t.1 (4 * t.2 + i) with held := mask.testBit i }

theorem die_holdDie (t : Nat × Nat) (mask : Nat) (k : Chip) (i j : Nat) :
    ((holdDie t mask k i).die t.1 (4 * t.2 + j)).held = if j = i then mask.testBit i else (k.die t.1 (4 * t.2 + j)).held := by
  by_cases hj : j = i
  · rw [if_pos hj, hj, holdDie, die_setDie_same]
  · rw [if_neg hj, holdDie, die_setDie_other]
    simp only [dieKey]
    omega

theorem holdDies_held (t : Nat × Nat) (mask : Nat) {l : List Nat} {i : Nat} (hi : i ∈ l) (k : Chip) :
    ((l.foldl (holdDie t mask) k).die t.1 (4 * t.2 + i)).held = mask.testBit i :=
  foldl_reaches (Q := fun _ => True) (P := fun k : Chip => (k.die t.1 (4 * t.2 + i)).held = mask.testBit i) hi (fun _ _ _ => trivial)
    (fun k _ => (die_holdDie t mask k i i).trans (if_pos rfl))
    (fun k j h => (die_holdDie t mask k j i).trans (by split <;> simp_all)) trivial

/-- Everything of a chip but its dies. -/
def butDies (k : Chip) : List (Nat × Word) × List (Nat × Core) × List (Nat × Bu) × List (Nat × Vat) × Hub := (k.regs, k.cores, k.bus, k.vats, k.hub)

theorem holdDies_butDies (t : Nat × Nat) (mask : Nat) (l : List Nat) (k : Chip) : butDies (l.foldl (holdDie t mask) k) = butDies k :=
  foldl_unchanged butDies (holdDie t mask) (fun _ _ => rfl) l k

section Debug

variable {k : Chip} {V : Nat}

theorem dbgHalt_held (ht : k.dbgTarget.1 < V) (hs : k.scope k.dbgTarget.1 k.dbgTarget.2 1 = true) (mask : BitVec 5) :
    let x := k.core k.dbgTarget.1 k.dbgTarget.2
    k.dbgHalt V mask.toNat = (k.setCore k.dbgTarget.1 k.dbgTarget.2 { x with
      held := mask.toNat
      streams := x.streams.mapIdx (fun n y => if x.held.testBit n && !mask.toNat.testBit n then { y with freedAt := k.now } else y) }).setF
        Reg.dbgHalt 4 0 mask.toNat := by
  intro x
  unfold Chip.dbgHalt
  dsimp only
  rw [if_pos (by rw [hs, decide_eq_true ht]; rfl), Nat.mod_eq_of_lt mask.isLt]

theorem dbgBuHalt_held (ht : k.dbgTarget.1 < V) (hs : k.scope k.dbgTarget.1 k.dbgTarget.2 1 = true) (mask : Nat) :
    k.dbgBuHalt V mask = ((List.range 4).foldl (holdDie k.dbgTarget mask) k).setF Reg.dbgBuHalt 3 0 mask := by
  unfold Chip.dbgBuHalt
  dsimp only
  rw [if_pos (by rw [hs, decide_eq_true ht]; rfl)]
  rfl

variable (h : V ≤ k.dbgTarget.1 ∨ k.scope k.dbgTarget.1 k.dbgTarget.2 1 = false)
include h

theorem target_shut : (decide (k.dbgTarget.1 < V) && k.scope k.dbgTarget.1 k.dbgTarget.2 1) = false := by
  rcases h with h | h
  · rw [decide_eq_false (Nat.not_lt.mpr h), Bool.false_and]
  · rw [h, Bool.and_false]

theorem dbgHalt_ignored (mask : Nat) : k.dbgHalt V mask = k := if_neg (by rw [target_shut h]; decide)

theorem dbgBuHalt_ignored (mask : Nat) : k.dbgBuHalt V mask = k := if_neg (by rw [target_shut h]; decide)

end Debug

theorem exec_dbgHalt {s : State} (h : live s true) (mask : BitVec 5) :
    exec (.dbgHalt mask) s = .next (withK s (s.k.dbgHalt s.part.vats mask.toNat)) := by
  change execDbgHalt mask s = _
  unfold execDbgHalt
  rw [onChip_live _ h]

theorem exec_dbgBuHalt {s : State} (h : live s true) (mask : BitVec 4) :
    exec (.dbgBuHalt mask) s = .next (withK s (s.k.dbgBuHalt s.part.vats mask.toNat)) := by
  change execDbgBuHalt mask s = _
  unfold execDbgBuHalt
  rw [onChip_live _ h]

theorem exec_pwrCapWrite {s : State} (h : live s true) (w : BitVec 16) :
    exec (.pwrCapWrite w) s = .next (withK s ((s.k.writeCap s.part w.toNat).resumeAdmission s.part)) := by
  change execPwrCapWrite w s = _
  unfold execPwrCapWrite
  rw [onChip_live _ h]

/-- Settles O53: the cap by its range, sleep and wake by the vat's power, and the holds by the target's scope. -/
theorem powerAndDebugAct : Obligations.PowerAndDebugAct := by
  unfold Obligations.PowerAndDebugAct
  constructor
  · intro s h k V
    refine ⟨exec_pwrCapWrite h, fun v hv => ⟨exec_vatSleep_falls h hv, exec_vatSleep_off h hv,
      exec_vatAsleep h hv, fun hp => ?_, fun hp => ?_, exec_vatAwake h hv, fun hb ha => ?_, fun hb => ?_⟩, fun ht hs => ⟨fun mask => ?_,
      fun mask => ?_⟩,
      fun hshut => ⟨fun mask => ?_, fun mask => ?_⟩⟩
    · rw [exec_wakeRequest h hv, wake_sleeping hp]
    · rw [exec_wakeRequest h hv, wake_up hp]
      rfl
    · rw [exec_droop h hv, if_pos (by rw [hb, ha]; rfl)]
    · rw [exec_droop h hv, if_neg (by rw [hb]; exact Bool.false_ne_true)]
      rfl
    · rw [exec_dbgHalt h, dbgHalt_held ht hs]
    · have hbut := holdDies_butDies k.dbgTarget mask.toNat (List.range 4) k
      simp only [butDies, Prod.mk.injEq] at hbut
      obtain ⟨hregs, hcores, hbus, -, hhub⟩ := hbut
      refine ⟨_, (exec_dbgBuHalt h mask).trans (congrArg (fun k => Host.Outcome.next (withK s k)) (dbgBuHalt_held ht hs mask.toNat)), ?_,
        fun i hi => holdDies_held k.dbgTarget mask.toNat (List.mem_range.mpr hi) k, fun o ho => ?_,
        hbus, hcores, hhub⟩
      · exact (getF_setF_same _ _ _ _ _ (by decide) (by decide)).trans (Nat.mod_eq_of_lt mask.isLt)
      · rw [reg_setF_other _ _ _ _ _ _ ho, Chip.reg, hregs, Chip.reg]
    · rw [exec_dbgHalt h, dbgHalt_ignored hshut]
      rfl
    · rw [exec_dbgBuHalt h, dbgBuHalt_ignored hshut]
      rfl
  · intro k p w hw k'
    refine ⟨(writeCap_shows k hw).1, (writeCap_shows k hw).2, fun hlow => ?_, fun hin ho hcold => ?_⟩
    · have heq : k' = (capLow k p w).noteCap := writeCap_low k hlow
      refine ⟨?_, ?_, fun hcold => ?_, fun hu => ?_, fun hu => ?_⟩
      · rw [heq, noteCap_unmet]
        exact decide_eq_true (capLow_cause k)
      · rw [heq, noteCap_pwr]
        rfl
      · rw [heq, noteCap_cause, capLow_cause_cold k hcold]
      · rw [heq, noteCap_counts _ (capLow_cause k) ((capLow_unmet k).trans hu), Chip.getF, capLow_count, Chip.getF]
      · rw [heq, noteCap_uncounted _ (capLow_cause k) ((capLow_unmet k).trans hu), capLow_count]
    · rw [show k' = (capBack k p w).noteCap from writeCap_back k hin ho, noteCap_unmet, capBack_cause_cold k hcold]
      rfl

end Sys2Proof.Proofs
end

section
/-!
PROOFS. The legacy command lines (O38).
-/

namespace Sys2Proof.Proofs

open Sys2Proof.Machine Sys2Proof.Safety Sys2Proof.Laws

section Lines

variable {s : State} {v d a : Nat} (h : live s (s.hasDie v d)) (ha : a < 96)
include h ha

theorem live_hasLine : live s (s.hasDie v d && a < 96) := ⟨by rw [h.1, decide_eq_true ha]; rfl, h.2⟩

theorem legacyAccess_denied (f : Chip → Chip) (hd : s.k.decoderOn 2 = true) (hl : s.k.linkDenied = true) :
    legacyAccess v d a s f = .next (withK s (s.k.denyHost (legacyDpa v d a) true)) := by
  unfold legacyAccess
  rw [onChip_live _ (live_hasLine h ha)]
  rw [if_neg (by rw [hd]; decide), if_pos hl]

theorem legacyAccess_reaches (f : Chip → Chip) (hd : s.k.decoderOn 2 = true) (hl : s.k.linkDenied = false) :
    legacyAccess v d a s f = .next (withK s (f s.k)) := by
  unfold legacyAccess
  rw [onChip_live _ (live_hasLine h ha)]
  rw [if_neg (by rw [hd]; decide), if_neg (by rw [hl]; exact Bool.false_ne_true)]

theorem exec_armLapsed (hs : (s.k.legacy v d a).arm.isSome = true) (ht : (s.k.legacy v d a).armAt + 1000000 ≤ s.k.now) :
    exec (.armLapsed v d a) s = .next (withK s (s.k.setLegacy v d a { s.k.legacy v d a with arm := none, result := 0xA })) := by
  change execArmLapsed v d a s = _
  unfold execArmLapsed
  rw [onChip_live _ (live_hasLine h ha)]
  dsimp only
  rw [if_pos ⟨hs, ht⟩]

theorem exec_rowOperationDone (hb : (s.k.legacy v d a).busy = true)
    (hr : (s.k.legacy v d a).rowsDone = recField (s.k.legacy v d a).command 14 16 + 1) :
    exec (.rowOperationDone v d a) s = .next (withK s (s.k.setLegacy v d a
      { s.k.legacy v d a with busy := false, result := if (s.k.legacy v d a).dataError then 7 else 0 })) := by
  change execRowOperationDone v d a s = _
  unfold execRowOperationDone
  rw [onChip_live _ (live_hasLine h ha)]
  dsimp only
  rw [if_pos ⟨hb, hr⟩]

end Lines

section Arm

variable {k : Chip} {v d a : Nat} {bs : List Byte}

theorem legacyArm_held (hs : recField bs 4 6 = ((k.legacy v d a).lastSeq + 1) % 2 ^ 16) (hb : (k.legacy v d a).busy = false) :
    k.legacyArm v d a bs = k.setLegacy v d a { k.legacy v d a with arm := some bs, armAt := k.now } := by
  unfold Chip.legacyArm
  dsimp only
  rw [if_neg (not_not.mpr hs), if_neg (by rw [hb]; exact Bool.false_ne_true)]

theorem legacyArm_badSeq (hs : recField bs 4 6 ≠ ((k.legacy v d a).lastSeq + 1) % 2 ^ 16) :
    k.legacyArm v d a bs = k.setLegacy v d a { k.legacy v d a with arm := none, result := 8 } := if_pos hs

theorem legacyArm_busy (hs : recField bs 4 6 = ((k.legacy v d a).lastSeq + 1) % 2 ^ 16) (hb : (k.legacy v d a).busy = true) :
    k.legacyArm v d a bs = k.setLegacy v d a { k.legacy v d a with arm := none, result := 9 } := by
  unfold Chip.legacyArm
  dsimp only
  rw [if_neg (not_not.mpr hs), if_pos hb]

theorem legacyFire_starts {V : Nat} (hr : k.legacyRefusal V v d a bs = none) :
    k.legacyFire V v d a bs = (k.setLegacy v d a { k.legacy v d a with
      arm := none, busy := true, command := bs, rowsDone := 0, lastSeq := recField bs 4 6, dataError := false, phase := 0
      latch := [], bad := 0 }).legacySlot v d a := by
  unfold Chip.legacyFire
  dsimp only
  rw [hr]

theorem legacyFire_refused {V r : Nat} (hr : k.legacyRefusal V v d a bs = some r) :
    k.legacyFire V v d a bs = k.setLegacy v d a { k.legacy v d a with arm := none, result := r } := by
  unfold Chip.legacyFire
  dsimp only
  rw [hr]

end Arm

/-- Settles O38: the writes of a command line by what denies them, by the line's state and by the first refusal. -/
theorem legacyLinesAct : Obligations.LegacyLinesAct := by
  unfold Obligations.LegacyLinesAct
  intro s v d a body h ha hd
  refine ⟨fun hl c hc => ?_, fun hl => ?_⟩
  · rcases hc with rfl | rfl | rfl
    · exact legacyAccess_denied h ha (fun k => k.legacyArm v d a (commandLine armKey body)) hd hl
    · exact legacyAccess_denied h ha (fun k => k.legacyFire s.part.vats v d a (commandLine fireKey body)) hd hl
    · exact legacyAccess_denied h ha (fun k => k.legacyBad v d a) hd hl
  · intro k l arm fire
    have harm : exec (.arm v d a body) s = .next (withK s (s.k.legacyArm v d a (commandLine armKey body))) :=
      legacyAccess_reaches h ha (fun k => k.legacyArm v d a (commandLine armKey body)) hd hl
    have hfire : exec (.fire v d a body) s = .next (withK s (s.k.legacyFire s.part.vats v d a (commandLine fireKey body))) :=
      legacyAccess_reaches h ha (fun k => k.legacyFire s.part.vats v d a (commandLine fireKey body)) hd hl
    exact ⟨fun hs hb => by rw [harm, legacyArm_held hs hb], fun hs => by rw [harm, legacyArm_badSeq hs], fun hs hb => by rw [harm,
      legacyArm_busy hs hb],
      fun hr => by rw [hfire, legacyFire_starts hr], fun r hr => by rw [hfire, legacyFire_refused hr],
      legacyAccess_reaches h ha (fun k => k.legacyBad v d a) hd hl, exec_armLapsed h ha, exec_rowOperationDone h ha⟩

end Sys2Proof.Proofs
end

section
/-!
PROOFS. The host link, configuration requests, HDM decoders and the mailbox (O40).
-/

namespace Sys2Proof.Proofs

open Sys2Proof.Machine Sys2Proof.Safety Sys2Proof.Laws

/-! ### Keys of tables -/

theorem le_key_of_rising {α : Type} {t : List (Nat × α)} {a : Nat} (r : risingFrom a t = true) {p : Nat × α} (h : p ∈ t) : a ≤ p.1 := by
  induction t generalizing a with
  | nil => cases h
  | cons q t ih =>
    obtain ⟨b, x⟩ := q
    simp only [risingFrom, Bool.and_eq_true, decide_eq_true_eq] at r
    rcases List.mem_cons.mp h with rfl | h
    · exact r.1
    · exact Nat.le_trans (Nat.le_succ_of_le r.1) (ih r.2 h)

theorem key_ne_of_mem_erase {α : Type} {t : List (Nat × α)} {a k : Nat} (r : risingFrom a t = true) {p : Nat × α} (h : p ∈ erase t k) : p.1 ≠ k := by
  induction t generalizing a with
  | nil => cases h
  | cons q t ih =>
    obtain ⟨b, x⟩ := q
    simp only [risingFrom, Bool.and_eq_true, decide_eq_true_eq] at r
    by_cases hk : k = b
    · rw [erase, if_pos hk] at h
      exact Nat.ne_of_gt (Nat.lt_of_lt_of_le (hk ▸ Nat.lt_succ_self b) (le_key_of_rising r.2 h))
    · rw [erase, if_neg hk] at h
      rcases List.mem_cons.mp h with rfl | h
      · exact fun e => hk e.symm
      · exact ih r.2 h

theorem mem_insert_self {α : Type} (t : List (Nat × α)) (k : Nat) (x : α) : (k, x) ∈ Machine.insert t k x := by
  induction t with
  | nil => simp [Machine.insert]
  | cons q t ih =>
    unfold Machine.insert
    split
    · exact List.mem_cons_self ..
    · split
      next hk => exact hk ▸ List.mem_cons_self ..
      next => exact List.mem_cons_of_mem _ ih

/-! ### Training -/

/-- HOST_LINK_STATUS shows the mode that the link trained in. -/
def linkShown (k : Chip) (rate width : Nat) (flit latopt : Bool) : Chip :=
  (((k.setF Reg.hostLinkStatus 2 0 rate).setF Reg.hostLinkStatus 5 4 width).setF Reg.hostLinkStatus 6 6 flit.toNat).setF
    Reg.hostLinkStatus 7 7 latopt.toNat

theorem exec_hostLinkTrained {s : State} (h : live s true) (rate width : Nat) (flit latopt : Bool) :
    exec (.hostLinkTrained rate width flit latopt) s = .next (withK s
      (if s.k.sinceReset 5000000 && linkMode rate width flit latopt then (linkShown s.k rate width flit latopt).noteBi else s.k)) := by
  change execHostLinkTrained rate width flit latopt s = _
  unfold execHostLinkTrained
  rw [onChip_live _ h]
  cases s.k.sinceReset 5000000 && linkMode rate width flit latopt <;> rfl

section Trained

variable (k : Chip) {rate width : Nat} (flit latopt : Bool)

theorem noteBi_other {hi lo : Nat} (d : hi < 8 ∨ 8 < lo) : k.noteBi.getF Reg.hostLinkStatus hi lo = k.getF Reg.hostLinkStatus hi lo :=
  getF_setF_other _ _ _ _ _ _ _ (by decide) (by decide) d

theorem noteBi_regsOnly : regsOnly k k.noteBi (· = Reg.hostLinkStatus) := (regsOnly.refl (k := k)).setF 8 8 _ rfl

theorem noteBi_flag : k.noteBi.flag Reg.hostLinkStatus 8 = (k.hub.biOn && k.flag Reg.hostLinkStatus 6 && k.decoderOn 0) :=
  flag_setF_bit k _ 8 _ (by decide)

theorem linkShown_rate (h : rate ≤ 3) : (linkShown k rate width flit latopt).getF Reg.hostLinkStatus 2 0 = rate := by
  rw [linkShown, getF_setF_other _ _ _ _ _ _ _ (by decide) (by decide) (by decide), getF_setF_other _ _ _ _ _ _ _ (by decide) (by decide) (by decide),
    getF_setF_other _ _ _ _ _ _ _ (by decide) (by decide) (by decide), getF_setF_same _ _ _ _ _ (by decide) (by decide)]
  exact Nat.mod_eq_of_lt (Nat.lt_of_le_of_lt h (by decide))

theorem linkShown_width (h : width ≤ 2) : (linkShown k rate width flit latopt).getF Reg.hostLinkStatus 5 4 = width := by
  rw [linkShown, getF_setF_other _ _ _ _ _ _ _ (by decide) (by decide) (by decide), getF_setF_other _ _ _ _ _ _ _ (by decide) (by decide) (by decide),
    getF_setF_same _ _ _ _ _ (by decide) (by decide)]
  exact Nat.mod_eq_of_lt (Nat.lt_of_le_of_lt h (by decide))

theorem linkShown_flit : (linkShown k rate width flit latopt).flag Reg.hostLinkStatus 6 = flit := by
  rw [linkShown, flag_setF_other _ _ _ _ _ _ (by decide) (by decide) (by decide)]
  exact flag_setF_bit _ _ 6 flit (by decide)

theorem linkShown_latopt : (linkShown k rate width flit latopt).flag Reg.hostLinkStatus 7 = latopt := flag_setF_bit _ _ 7 latopt (by decide)

theorem linkShown_regsOnly : regsOnly k (linkShown k rate width flit latopt) (· = Reg.hostLinkStatus) := by
  have h0 : regsOnly k k (· = Reg.hostLinkStatus) := regsOnly.refl
  exact (((h0.setF 2 0 rate rfl).setF 5 4 width rfl).setF 6 6 flit.toNat rfl).setF 7 7 latopt.toNat rfl

end Trained

theorem linkMode_bounds {rate width : Nat} {flit latopt : Bool} (h : linkMode rate width flit latopt = true) : rate ≤ 3 ∧ width ≤ 2 := by
  simp only [linkMode, Bool.and_eq_true, decide_eq_true_eq] at h
  exact ⟨h.1.1.2, h.1.2⟩

/-! ### Link resets -/

theorem noteWaits_regsOnly (k : Chip) : regsOnly k k.noteWaits (fun o => ∃ c, c < 16 ∧ o = Reg.vringStatus c) := by
  have step : ∀ l : List Nat, (∀ c ∈ l, c < 16) → ∀ k' : Chip, regsOnly k k' (fun o => ∃ c, c < 16 ∧ o = Reg.vringStatus c) →
      regsOnly k (l.foldl Chip.noteWait k') (fun o => ∃ c, c < 16 ∧ o = Reg.vringStatus c) := fun l => by
    induction l with
    | nil => exact fun _ _ h => h
    | cons c l ih =>
      intro hl k' h
      exact ih (fun c hc => hl c (List.mem_cons_of_mem _ hc)) _ (h.trans (noteWait_regsOnly k' c ⟨c, hl c (List.mem_cons_self ..), rfl⟩))
  exact step (List.range 16) (fun c hc => List.mem_range.mp hc) k regsOnly.refl

theorem noteWaits_hub (k : Chip) : k.noteWaits.hub = k.hub := foldl_unchanged Chip.hub Chip.noteWait noteWait_hub _ k

theorem clearMsix_reg (k : Chip) (o : Nat) : k.clearMsix.reg o = if o < 0x30000 ∨ 0x30200 ≤ o then k.reg o else resetAt o := by
  refine (lookup_filter_key (resetAt o) (fun o => decide (o < 0x30000) || decide (0x30200 ≤ o)) k.regs o).trans ?_
  by_cases h : o < 0x30000 ∨ 0x30200 ≤ o
  · rw [if_pos h, if_pos (by simpa using h), Chip.reg]
  · rw [if_neg h, if_neg (by simpa using h)]

/-- The chip as a link reset leaves it, before FULL_WAIT is noted. -/
def linkCleared (k : Chip) : Chip :=
  (k.clearMsix.setF Reg.hostLinkStatus 9 0 0).onHub (fun h => { h with
    ide := IdeState.off, sessions := [], decoders := [], uncommitted := [], biOn := false, biId := 0
    vrings := h.vrings.map (fun r => (r.1, { r.2 with snoop := none })) })

theorem exec_linkReset {s : State} (h : live s true) : exec .linkReset s = .next (withK s (linkCleared s.k).noteWaits) := by
  change execLinkReset s = _
  unfold execLinkReset
  rw [onChip_live _ h]
  rfl

theorem vringStatus_ge (c : Nat) : 0x302014 ≤ Reg.vringStatus c := by
  simp only [Reg.vringStatus]
  omega

theorem linkCleared_reg (k : Chip) {o : Nat} (h : o ≠ Reg.hostLinkStatus) : (linkCleared k).reg o = k.clearMsix.reg o :=
  reg_setF_other k.clearMsix _ _ _ _ _ h

theorem linkCleared_regsOnly (k : Chip) :
    regsOnly k (linkCleared k) (fun o => o = Reg.hostLinkStatus ∨ (0x30000 ≤ o ∧ o < 0x30200) ∨ ∃ c, c < 16 ∧ o = Reg.vringStatus c) := by
  refine ⟨fun o ho => ?_, rfl, rfl, rfl, rfl⟩
  obtain ⟨hl, ho⟩ := not_or.mp ho
  obtain ⟨hm, -⟩ := not_or.mp ho
  rw [linkCleared_reg k hl, clearMsix_reg, if_pos (by omega)]

theorem linkCleared_msix (k : Chip) {o : Nat} (hlo : 0x30000 ≤ o) (hhi : o < 0x30200) : (linkCleared k).noteWaits.reg o = resetAt o := by
  rw [(noteWaits_regsOnly (linkCleared k)).1 o, linkCleared_reg k (by simp only [Reg.hostLinkStatus]; omega), clearMsix_reg, if_neg (by omega)]
  rintro ⟨c, -, rfl⟩
  have := vringStatus_ge c
  omega

theorem linkCleared_status (k : Chip) : (linkCleared k).noteWaits.getF Reg.hostLinkStatus 9 0 = 0 := by
  rw [(noteWaits_regsOnly (linkCleared k)).getF 9 0]
  · exact getF_setF_same _ _ _ _ _ (by decide) (by decide)
  · rintro ⟨c, -, hc⟩
    have := vringStatus_ge c
    simp only [Reg.hostLinkStatus] at hc
    omega

/-! ### Configuration requests -/

theorem exec_configRequest {s : State} (h : live s true) (n : BitVec 10) :
    exec (.configRequest n) s = .next (answered s s.k
      (if s.k.sinceReset 40000000 then .word ((s.k.configWord s.part n.toNat).setWidth 64) else .retry)) := by
  change execConfigRequest n s = _
  unfold execConfigRequest
  rw [onChip_live _ h]
  rfl

theorem pcieCaps_bounds : 17 ≤ pcieCaps ∧ pcieCaps < 63 := by
  unfold pcieCaps
  omega

theorem cxlDvsec_bounds : 64 ≤ cxlDvsec ∧ cxlDvsec < 964 := by
  unfold cxlDvsec
  omega

section Config

variable (k : Chip) (p : Part)

theorem configWord_id (h : p.vats ≤ 8) : (k.configWord p 0).toNat / 65536 = 0x0B00 + p.vats + if p.lanes128 then 0x100 else 0 := by
  have hlow : (Config.configSpace 0).toNat % 65536 < 65536 := Nat.mod_lt _ (by decide)
  have hid : p.deviceId < 65536 := by
    unfold Part.deviceId
    split <;> omega
  have hsum : p.deviceId * 65536 + (Config.configSpace 0).toNat % 65536 < 2 ^ 32 := by omega
  rw [Chip.configWord, if_pos rfl, BitVec.toNat_ofNat, Nat.mod_eq_of_lt hsum, Nat.mul_comm, Nat.mul_add_div (by decide), Nat.div_eq_of_lt hlow]
  rfl

theorem configWord_bar : (k.configWord p 4).toNat % 2 ^ 28 = 0xC := by
  have hw : k.configWord p 4 = BitVec.ofNat 32 ((Config.configSpace 4).toNat / 2 ^ 28 * 2 ^ 28 + 0xC) := rfl
  have hlt := (Config.configSpace 4).isLt
  rw [hw, BitVec.toNat_ofNat]
  omega

theorem configWord_bars {n : Nat} (h6 : 6 ≤ n) (h9 : n ≤ 9) : k.configWord p n = 0 := by
  rw [Chip.configWord, if_neg (by omega), if_neg (by omega), if_neg (by omega), if_pos ⟨h6, h9⟩]

theorem configWord_pcie : k.configWord p pcieCaps = Config.configSpace pcieCaps &&& 0xEFFFFFFF := by
  have h := pcieCaps_bounds
  rw [Chip.configWord, if_neg (by omega), if_neg (by omega), if_neg (by omega), if_neg (by omega), if_neg (by omega), if_pos rfl]

theorem configWord_cxl : k.configWord p (cxlDvsec + 2) = Config.configSpace (cxlDvsec + 2) &&& 0xFF7FFFFF := by
  have h := pcieCaps_bounds
  have hd := cxlDvsec_bounds
  rw [Chip.configWord, if_neg (by omega), if_neg (by omega), if_neg (by omega), if_neg (by omega), if_neg (by omega), if_neg (by omega), if_pos rfl]

theorem configWord_memory (h : k.sinceReset 40000000 = true) : k.configWord p (cxlDvsec + 7) =
    (Config.configSpace (cxlDvsec + 7) &&& 0xFFFF1FFC) ||| BitVec.ofNat 32 (1 + 2 * (decide (k.hub.boot.cond = .ready)).toNat) := by
  have hp := pcieCaps_bounds
  have hd := cxlDvsec_bounds
  rw [Chip.configWord, if_neg (by omega), if_neg (by omega), if_neg (by omega), if_neg (by omega), if_neg (by omega), if_neg (by omega),
    if_neg (by omega), if_pos rfl, h]
  rfl

end Config

/-- A bit of the configuration space that a mask clears reads 0. -/
theorem testBit_and_clear (x m : BitVec 32) (i : Nat) (h : m.getLsbD i = false) : (x &&& m).toNat.testBit i = false := by
  rw [BitVec.testBit_toNat, BitVec.getLsbD_and, h, Bool.and_false]

theorem memoryWord_bits (x : BitVec 32) (b : Bool) :
    let w := (x &&& (0xFFFF1FFC : BitVec 32)) ||| BitVec.ofNat 32 (1 + 2 * b.toNat)
    w.toNat.testBit 0 = true ∧ w.toNat.testBit 1 = b ∧ w.toNat / 2 ^ 13 % 8 = 0 := by
  intro w
  have bit (i : Nat) : w.toNat.testBit i = (x.getLsbD i && (0xFFFF1FFC : BitVec 32).getLsbD i || (BitVec.ofNat 32 (1 + 2 * b.toNat)).getLsbD i) := by
    rw [BitVec.testBit_toNat, BitVec.getLsbD_or, BitVec.getLsbD_and]
  have clear (i : Nat) (h : (0xFFFF1FFC : BitVec 32).getLsbD i = false) : w.toNat.testBit i = (BitVec.ofNat 32 (1 + 2 * b.toNat)).getLsbD i := by
    rw [bit, h, Bool.and_false, Bool.false_or]
  refine ⟨?_, ?_, Nat.eq_of_testBit_eq fun i => ?_⟩
  · rw [clear 0 (by decide)]
    cases b <;> decide
  · rw [clear 1 (by decide)]
    cases b <;> decide
  · rw [show (8 : Nat) = 2 ^ 3 from rfl, Nat.testBit_mod_two_pow, Nat.testBit_div_two_pow, Nat.zero_testBit]
    by_cases hi : i < 3
    · interval_cases i
      · rw [clear 13 (by decide)]
        cases b <;> decide
      · rw [clear 14 (by decide)]
        cases b <;> decide
      · rw [clear 15 (by decide)]
        cases b <;> decide
    · rw [decide_eq_false hi, Bool.false_and]

/-! ### Decoders -/

/-- The hub with a decoder committed, or left uncommitted. -/
def decoderSet (k : Chip) (ok : Bool) (n base : Nat) : Chip :=
  k.onHub (fun h =>
    if ok then { h with decoders := insert h.decoders n base, uncommitted := h.uncommitted.filter (· ≠ n), resp := .code 0 }
    else { h with decoders := erase h.decoders n, uncommitted := if n < 4 then n :: h.uncommitted.filter (· ≠ n) else h.uncommitted
                  resp := .code 1 })

/-- Decoder 0 takes its BI with it. -/
def biNoted (k : Chip) (n : Nat) (bi : Option Nat) : Chip :=
  if n = 0 then (k.onHub (fun h => { h with biOn := bi.isSome, biId := bi.getD 0 })).noteBi else k

theorem exec_hdmDecoderCommit {s : State} (h : live s true) (n base skip size ways : Nat) (bi : Option Nat) :
    exec (.hdmDecoderCommit n base skip size ways bi) s = .next (withK s
      (biNoted (decoderSet s.k (s.k.hub.boot.cond = .ready && s.part.decoderFits n skip size ways) n base) n bi)) := by
  change execHdmDecoderCommit n base skip size ways bi s = _
  unfold execHdmDecoderCommit
  rw [onChip_live _ h]
  rfl

section Decoders

variable (k : Chip) (n base : Nat) (bi : Option Nat)

theorem biNoted_unitsKept : unitsKept k (biNoted k n bi) := by
  unfold biNoted
  split <;> exact ⟨rfl, rfl, rfl, rfl⟩

theorem biNoted_regs (h : n ≠ 0) : (biNoted k n bi).regs = k.regs := by rw [biNoted, if_neg h]

theorem biNoted_hub : ∃ on i, (biNoted k n bi).hub = { k.hub with biOn := on, biId := i } := by
  unfold biNoted
  split
  · exact ⟨_, _, rfl⟩
  · exact ⟨k.hub.biOn, k.hub.biId, rfl⟩

theorem biNoted_flag : (biNoted k 0 bi).flag Reg.hostLinkStatus 8 = (bi.isSome && k.flag Reg.hostLinkStatus 6 && k.decoderOn 0) := noteBi_flag _

theorem decoderOn_set : (decoderSet k true n base).decoderOn n = true :=
  List.any_eq_true.mpr ⟨(n, base), mem_insert_self k.hub.decoders n base, decide_eq_true rfl⟩

theorem decoderOn_unset (h : risingFrom 0 k.hub.decoders = true) : (decoderSet k false n base).decoderOn n = false :=
  List.any_eq_false.mpr fun p hp => by simpa using key_ne_of_mem_erase h (show p ∈ erase k.hub.decoders n from hp)

end Decoders

/-! ### The mailbox -/

theorem freeBytes_length (op time i n : Nat) : (freeBytes op time i n).length = n := by
  induction n generalizing i with
  | zero => rfl
  | succ n ih => exact congrArg Nat.succ (ih (i + 1))

theorem celBytes_length : celBytes.length = 32 := rfl

section Mailbox

variable {s : State} (h : live s true)
include h

theorem exec_identify : exec .identify s = .next (answered s s.k
    (.bytes 0 (freeBytes 0x0001 s.k.now 0 2 ++ leBytes 2 s.part.deviceId ++ freeBytes 0x0001 s.k.now 4 14))) := by
  change execIdentify s = _
  unfold execIdentify
  rw [onChip_live _ h]
  rfl

theorem exec_identifyMemoryDevice : exec .identifyMemoryDevice s = .next (answered s s.k (.bytes 0 (freeBytes 0x4000 s.k.now 0 16 ++
    leBytes 8 (capacity s.part.vats / 2 ^ 28) ++ leBytes 8 (capacity s.part.vats / 2 ^ 28) ++ leBytes 8 0 ++ leBytes 8 0 ++
    freeBytes 0x4000 s.k.now 48 21))) := by
  change execIdentifyMemoryDevice s = _
  unfold execIdentifyMemoryDevice
  rw [onChip_live _ h]
  rfl

theorem exec_getSupportedLogs : exec .getSupportedLogs s = .next (answered s s.k (.bytes 0 (leBytes 8 1 ++ celUuid ++ leBytes 4 32))) := by
  change execGetSupportedLogs s = _
  unfold execGetSupportedLogs
  rw [onChip_live _ h, celBytes_length]
  rfl

theorem exec_getLog_cel {offset len : Nat} (hl : offset + len ≤ 32) :
    exec (.getLog true offset len) s = .next (answered s s.k (.bytes 0 ((celBytes.drop offset).take len))) := by
  change execGetLog true offset len s = _
  unfold execGetLog
  rw [onChip_live _ h, if_neg (by decide), if_pos (by rw [celBytes_length]; exact hl)]
  rfl

theorem exec_getLog_other (offset len : Nat) : exec (.getLog false offset len) s = .next (answered s s.k (.code 3)) := by
  change execGetLog false offset len s = _
  unfold execGetLog
  rw [onChip_live _ h, if_pos (by decide)]
  rfl

theorem exec_getEventRecords {l : Nat} (hl : l < 4) :
    exec (.getEventRecords l) s = .next (answered s s.k (.events (lookup [] s.k.hub.log.events l) (s.k.hub.log.overflow l))) := by
  change execGetEventRecords l s = _
  unfold execGetEventRecords
  rw [onChip_live _ h, if_neg (Nat.not_le.mpr hl)]
  rfl

theorem exec_clearEventRecords_named {l : Nat} {hs : List Nat} (hl : l < 4)
    (hn : ((lookup [] s.k.hub.log.events l).take hs.length).map EventRec.handle = hs) :
    exec (.clearEventRecords l false hs) s = .next (withK s (s.k.setEvents l ((lookup [] s.k.hub.log.events l).drop hs.length))) := by
  change execClearEventRecords l false hs s = _
  unfold execClearEventRecords
  rw [onChip_live _ h]
  dsimp only
  rw [if_neg (Nat.not_le.mpr hl), if_neg (by decide), if_pos hn]

theorem exec_clearEventRecords_all {l : Nat} (hs : List Nat) (hl : l < 4) (ho : (s.k.hub.log.overflow l).isSome = true) :
    exec (.clearEventRecords l true hs) s = .next (withK s (s.k.setEvents l [])) := by
  change execClearEventRecords l true hs s = _
  unfold execClearEventRecords
  rw [onChip_live _ h]
  dsimp only
  rw [if_neg (Nat.not_le.mpr hl), if_pos rfl, if_neg (by rw [Option.isNone_iff_eq_none]; exact Option.isSome_iff_ne_none.mp ho)]

theorem exec_getHealthInfo : exec .getHealthInfo s = .next (answered s s.k (.bytes 0 (freeBytes 0x4200 s.k.now 0 18))) := by
  change execGetHealthInfo s = _
  unfold execGetHealthInfo
  rw [onChip_live _ h]
  rfl

theorem exec_getPoisonList : exec .getPoisonList s = .next (withK s
    (s.k.onHub (fun h => { h with resp := .poisoned h.poison h.poisonOvf, poison := [], poisonOvf := false }))) := by
  change execGetPoisonList s = _
  unfold execGetPoisonList
  rw [onChip_live _ h]

theorem exec_mailboxUnsupported : exec .mailboxUnsupported s = .next (answered s s.k (.code 3)) := by
  change execMailboxUnsupported s = _
  unfold execMailboxUnsupported
  rw [onChip_live _ h]
  rfl

end Mailbox

theorem setEvents_overflow (k : Chip) (l : Nat) (rs : List EventRec) (h : risingFrom 0 k.hub.log.dropped = true) :
    (k.setEvents l rs).hub.log.overflow l = none := by
  have hnone : (erase k.hub.log.dropped l).find? (fun x => x.1 = l) = none :=
    List.find?_eq_none.mpr fun p hp => by simpa using key_ne_of_mem_erase h hp
  exact congrArg (Option.map (·.2)) hnone

/-- The link trained where its time has come and its mode is one of Table 13.1. -/
theorem hostLinkTrained_shows {s : State} (h : live s true) {rate width : Nat} {flit latopt : Bool} (ht : s.k.hub.boot.endAt + 5000000 ≤ s.k.now)
    (hm : linkMode rate width flit latopt = true) :
    let k := s.k
    ∃ k', exec (.hostLinkTrained rate width flit latopt) s = .next (withK s k') ∧ k'.getF Reg.hostLinkStatus 2 0 = rate ∧
      k'.getF Reg.hostLinkStatus 5 4 = width ∧ k'.flag Reg.hostLinkStatus 6 = flit ∧ k'.flag Reg.hostLinkStatus 7 = latopt ∧
      k'.flag Reg.hostLinkStatus 8 = (k.hub.biOn && flit && k.decoderOn 0) ∧ k'.hub = k.hub ∧ regsOnly k k' (· = Reg.hostLinkStatus) := by
  intro k
  obtain ⟨hrate, hwidth⟩ := linkMode_bounds hm
  have hmode := linkShown_flit k (rate := rate) (width := width) flit latopt
  refine ⟨(linkShown k rate width flit latopt).noteBi, ?_, ?_, ?_, ?_, ?_, ?_, rfl, (linkShown_regsOnly k flit latopt).trans (noteBi_regsOnly _)⟩
  · rw [exec_hostLinkTrained h, if_pos (by rw [hm, Chip.sinceReset, decide_eq_true ht]; rfl)]
  · rw [noteBi_other _ (.inl (by decide)), linkShown_rate k flit latopt hrate]
  · rw [noteBi_other _ (.inl (by decide)), linkShown_width k flit latopt hwidth]
  · rw [Chip.flag, noteBi_other _ (.inl (by decide)), ← Chip.flag, hmode]
  · rw [Chip.flag, noteBi_other _ (.inl (by decide)), ← Chip.flag, linkShown_latopt]
  · rw [noteBi_flag, hmode]
    rfl

theorem linkReset_clears {s : State} (h : live s true) :
    ∃ k', exec .linkReset s = .next (withK s k') ∧ k'.hub.decoders = [] ∧ k'.hub.sessions = [] ∧ k'.hub.ide = IdeState.off ∧
      (∀ r ∈ k'.hub.vrings, r.2.snoop = none) ∧ k'.getF Reg.hostLinkStatus 9 0 = 0 ∧ (∀ o, 0x30000 ≤ o → o < 0x30200 → k'.reg o = resetAt o) ∧
      regsOnly s.k k' (fun o => o = Reg.hostLinkStatus ∨ (0x30000 ≤ o ∧ o < 0x30200) ∨ ∃ c, c < 16 ∧ o = Reg.vringStatus c) := by
  refine ⟨_, exec_linkReset h, ?_, ?_, ?_, ?_, linkCleared_status s.k, fun o => linkCleared_msix s.k, (linkCleared_regsOnly s.k).trans
    ((noteWaits_regsOnly _).mono fun o ho => .inr (.inr ho))⟩ <;> rw [noteWaits_hub]
  · rfl
  · rfl
  · rfl
  · intro r hr
    obtain ⟨x, -, rfl⟩ := List.mem_map.mp hr
    rfl

theorem configRequest_answers {s : State} (h : live s true) (n : BitVec 10) (ht : s.k.hub.boot.endAt + 40000000 ≤ s.k.now) :
    let k := s.k
    ∃ w : BitVec 32, exec (.configRequest n) s = .next (answered s k (.word (w.setWidth 64))) ∧
      (n = 0 → s.part.vats ≤ 8 → w.toNat / 65536 = 0x0B00 + s.part.vats + (if s.part.lanes128 then 0x100 else 0)) ∧
      (n = 2 → w = 0x050210A0#32) ∧ (n = 4 → w.toNat % 2 ^ 28 = 0xC) ∧ (6 ≤ n.toNat → n.toNat ≤ 9 → w = 0) ∧
      (n.toNat = pcieCaps → w.toNat.testBit 28 = false) ∧ (n.toNat = cxlDvsec + 2 → w.toNat.testBit 23 = false) ∧
      (n.toNat = cxlDvsec + 7 → w.toNat.testBit 0 = true ∧ (w.toNat.testBit 1 = true ↔ k.hub.boot.cond = .ready) ∧ w.toNat / 2 ^ 13 % 8 = 0) := by
  intro k
  have hsince : k.sinceReset 40000000 = true := decide_eq_true ht
  refine ⟨k.configWord s.part n.toNat, ?_, ?_, ?_, ?_, configWord_bars k s.part, fun hn => ?_, fun hn => ?_, fun hn => ?_⟩
  · rw [exec_configRequest h, if_pos hsince]
  · rintro rfl hv
    exact configWord_id k s.part hv
  · rintro rfl
    rfl
  · rintro rfl
    exact configWord_bar k s.part
  · rw [hn, configWord_pcie]
    exact testBit_and_clear _ _ _ (by decide)
  · rw [hn, configWord_cxl]
    exact testBit_and_clear _ _ _ (by decide)
  · rw [hn, configWord_memory k s.part hsince]
    obtain ⟨hvalid, hactive, hzero⟩ := memoryWord_bits (Config.configSpace (cxlDvsec + 7)) (decide (k.hub.boot.cond = .ready))
    exact ⟨hvalid, by rw [hactive, decide_eq_true_iff], hzero⟩

theorem hdmDecoder_commits {s : State} (h : live s true) {n skip size ways : Nat} (base : Nat) (bi : Option Nat) (hc : s.k.hub.boot.cond = .ready)
    (hf : s.part.decoderFits n skip size ways = true) :
    let k := s.k
    ∃ k', exec (.hdmDecoderCommit n base skip size ways bi) s = .next (withK s k') ∧ k'.hub.resp = .code 0 ∧ k'.decoderOn n = true ∧
      lookup 0 k'.hub.decoders n = base ∧ unitsKept k k' ∧
      (n = 0 → k'.flag Reg.hostLinkStatus 8 = (bi.isSome && k.flag Reg.hostLinkStatus 6) ∧ (∀ i, bi = some i → k'.hub.biId = i)) ∧
      (n ≠ 0 → k'.regs = k.regs) := by
  intro k
  obtain ⟨on, i, hhub⟩ := biNoted_hub (decoderSet k true n base) n bi
  refine ⟨biNoted (decoderSet k true n base) n bi, ?_, ?_, ?_, ?_, biNoted_unitsKept (decoderSet k true n base) n bi, fun hn => ⟨?_, ?_⟩,
    biNoted_regs (decoderSet k true n base) n bi⟩
  · rw [exec_hdmDecoderCommit h, hc, hf]
    rfl
  · rw [hhub]
    rfl
  · rw [Chip.decoderOn, hhub]
    exact decoderOn_set k n base
  · rw [hhub]
    exact lookup_insert_same _ _ _ _
  · subst hn
    rw [biNoted_flag, decoderOn_set, Bool.and_true]
    rfl
  · subst hn
    rintro i rfl
    rfl

theorem hdmDecoder_fails {s : State} (h : live s true) {n skip size ways : Nat} (base : Nat) (bi : Option Nat)
    (hc : s.k.hub.boot.cond ≠ .ready ∨ s.part.decoderFits n skip size ways = false) :
    let k := s.k
    ∃ k', exec (.hdmDecoderCommit n base skip size ways bi) s = .next (withK s k') ∧ k'.hub.resp = .code 1 ∧ unitsKept k k' ∧
      (risingFrom 0 k.hub.decoders = true → k'.decoderOn n = false ∧ (n = 0 → k'.flag Reg.hostLinkStatus 8 = false)) ∧
      (n < 4 → n ∈ k'.hub.uncommitted) ∧ (n ≠ 0 → k'.regs = k.regs) := by
  intro k
  obtain ⟨on, i, hhub⟩ := biNoted_hub (decoderSet k false n base) n bi
  refine ⟨biNoted (decoderSet k false n base) n bi, ?_, ?_, biNoted_unitsKept (decoderSet k false n base) n bi, fun hr => ⟨?_, fun hn => ?_⟩,
    fun hn => ?_, biNoted_regs (decoderSet k false n base) n bi⟩
  · have hbad : (decide (s.k.hub.boot.cond = .ready) && s.part.decoderFits n skip size ways) = false := by
      rcases hc with hc | hc
      · rw [decide_eq_false hc, Bool.false_and]
      · rw [hc, Bool.and_false]
    rw [exec_hdmDecoderCommit h, hbad]
  · rw [hhub]
    rfl
  · rw [Chip.decoderOn, hhub]
    exact decoderOn_unset k n base hr
  · subst hn
    rw [biNoted_flag, decoderOn_unset k 0 base hr, Bool.and_false]
  · rw [hhub]
    change n ∈ if n < 4 then _ else _
    rw [if_pos hn]
    exact List.mem_cons_self ..

/-- Settles O40: the link by its time and mode, the configuration words, the decoder by its layout, and the mailbox request by request. -/
theorem linkAndMailboxAnswer : Obligations.LinkAndMailboxAnswer := by
  unfold Obligations.LinkAndMailboxAnswer
  constructor
  · intro s h k
    refine ⟨fun rate width flit latopt => ⟨hostLinkTrained_shows h, fun hno => ?_⟩, linkReset_clears h,
      fun n => ⟨fun ht => ?_, configRequest_answers h n⟩, fun n base skip size ways bi => ⟨hdmDecoder_commits h base bi, hdmDecoder_fails h base bi⟩⟩
    · have hbad : (s.k.sinceReset 5000000 && linkMode rate width flit latopt) = false := by
        rcases hno with ht | hm
        · rw [Chip.sinceReset, decide_eq_false (Nat.not_le.mpr ht), Bool.false_and]
        · rw [hm, Bool.and_false]
      rw [exec_hostLinkTrained h, hbad]
      rfl
    · rw [exec_configRequest h, if_neg (by rw [Chip.sinceReset, decide_eq_false (Nat.not_le.mpr ht)]; exact Bool.false_ne_true)]
  · intro s h k
    exact ⟨⟨_, _, exec_identify h, freeBytes_length _ _ _ _, freeBytes_length _ _ _ _⟩,
      ⟨_, _, exec_identifyMemoryDevice h, freeBytes_length _ _ _ _, freeBytes_length _ _ _ _⟩, exec_getSupportedLogs h,
      fun _ _ => exec_getLog_cel h, exec_getLog_other h, fun _ => exec_getEventRecords h,
      fun l hs hl hn => ⟨_, exec_clearEventRecords_named h hl hn, rfl, lookup_insert_same _ _ _ _, fun m hm => lookup_insert_other _ _ _ _ _ hm, rfl,
        rfl, rfl, rfl, rfl, rfl⟩,
      fun l hs hl ho hr => ⟨_, exec_clearEventRecords_all h hs hl ho, rfl, lookup_insert_same _ _ _ _, setEvents_overflow k l [] hr, rfl,
        rfl, rfl, rfl, rfl, rfl⟩,
      ⟨_, exec_getHealthInfo h, freeBytes_length _ _ _ _⟩, ⟨_, exec_getPoisonList h, rfl, rfl, rfl, rfl, rfl, rfl, rfl, rfl⟩,
      exec_mailboxUnsupported h⟩

end Sys2Proof.Proofs
end

section
/-!
PROOFS. The states of a Kwadan port (O56).
-/

namespace Sys2Proof.Proofs

open Sys2Proof.Machine Sys2Proof.Safety Sys2Proof.Laws

section Ports

variable {s : State} {p : Nat} (h : live s (p < 4))
include h

theorem exec_kwPortEnable (on : Bool) : exec (.kwPortEnable p on) s = .next (withK s (s.k.enablePort p on)) := by
  change execKwPortEnable p on s = _
  unfold execKwPortEnable
  rw [onChip_live _ h]

theorem exec_portStateAdvance_detect (hst : s.k.portState p = 1) (w : BitVec 4) :
    exec (.portStateAdvance p w) s = .next (withK s (if (s.k.port p).failed ∨ !s.k.portsRun then s.k else s.k.toState p 2)) := by
  change execPortStateAdvance p w s = _
  unfold execPortStateAdvance
  rw [onChip_live _ h]
  simp only [hst]

theorem exec_portStateAdvance_train (hst : s.k.portState p = 2) (lanes : BitVec 4) :
    exec (.portStateAdvance p lanes) s = .next (withK s ((trainedWidth lanes).elim s.k fun w =>
      ((s.k.setF (Reg.kwPortStatus p) 9 8 w.1).setPort p { s.k.port p with lanes := w.2 }).toState p 3)) := by
  change execPortStateAdvance p lanes s = _
  unfold execPortStateAdvance
  rw [onChip_live _ h]
  simp only [hst]
  cases trainedWidth lanes <;> rfl

theorem exec_portStateAdvance_align (hst : s.k.portState p = 3) (w : BitVec 4) :
    exec (.portStateAdvance p w) s = .next (withK s ((s.k.toState p 4).sendAuth p)) := by
  change execPortStateAdvance p w s = _
  unfold execPortStateAdvance
  rw [onChip_live _ h]
  simp only [hst]

theorem exec_authExchange_tampered (hst : s.k.portState p = 4) (ht : s.k.getF Reg.rindStatus 1 0 = 3) (c : PeerCheck) :
    exec (.authExchange p c) s = .next (withK s (s.k.authAgain p)) := by
  change execAuthExchange p c s = _
  unfold execAuthExchange
  rw [onChip_live _ h, if_neg (not_not.mpr hst), if_pos ht]

theorem exec_authExchange_fails (hst : s.k.portState p = 4) (ht : s.k.getF Reg.rindStatus 1 0 ≠ 3) {c : PeerCheck} {n : Nat}
    (hf : s.k.authFails c = some n) : exec (.authExchange p c) s = .next (withK s ((s.k.authAgain p).logKw 0x52 (p + n * 2 ^ 8))) := by
  change execAuthExchange p c s = _
  unfold execAuthExchange
  rw [onChip_live _ h, if_neg (not_not.mpr hst), if_neg ht, hf]

theorem exec_authExchange_passes (hst : s.k.portState p = 4) (ht : s.k.getF Reg.rindStatus 1 0 ≠ 3) {c : PeerCheck} (hf : s.k.authFails c = none) :
    exec (.authExchange p c) s =
      .next (withK s ((((s.k.setPort p (s.k.port p).again).setF (Reg.kwPortStatus p) 11 10 c.pkg).newKeys p).goActive p)) := by
  change execAuthExchange p c s = _
  unfold execAuthExchange
  rw [onChip_live _ h, if_neg (not_not.mpr hst), if_neg ht, hf]

theorem exec_authRetry (hst : s.k.portState p = 1) (hf : (s.k.port p).failed = true) (ht : (s.k.port p).since + 10 ^ 9 ≤ s.k.now) :
    exec (.authRetry p) s = .next (withK s (s.k.setPort p { s.k.port p with failed := false })) := by
  change execAuthRetry p s = _
  unfold execAuthRetry
  rw [onChip_live _ h]
  dsimp only
  rw [if_neg]
  rintro (hc | hc | hc)
  · rw [hf] at hc
    exact absurd hc (by decide)
  · exact hc hst
  · exact absurd hc (Nat.not_lt.mpr ht)

theorem exec_retrain (hst : s.k.portState p = 5) (lanes : BitVec 4) : exec (.retrain p lanes) s =
    .next (withK s (if lanes.toNat &&& (s.k.port p).lanes = 0 then s.k else s.k.retrain p (lanes.toNat &&& (s.k.port p).lanes))) := by
  change execRetrain p lanes s = _
  unfold execRetrain
  rw [onChip_live _ h]
  simp only [hst, ne_eq, not_true_eq_false, false_or]

theorem exec_kwAuthFail (hst : s.k.portState p = 5) : exec (.kwAuthFail p) s = .next (withK s (s.k.tagFails p)) := by
  change execKwAuthFail p s = _
  unfold execKwAuthFail
  rw [onChip_live _ h, if_neg (not_not.mpr hst)]

/-- The chip with the keys that are used up replaced. -/
def keysReplaced (k : Chip) (p : Nat) (tx rx : Bool) : Chip :=
  let x := k.port p
  let k := (k.sendAuth p).newKeys p
  let y := k.port p
  (k.setPort p { y with
    txKey := if tx then y.txKey else x.txKey, txKeyed := if tx then 0 else x.txKeyed
    rxKey := if rx then y.rxKey else x.rxKey, rxKeyed := if rx then none else x.rxKeyed }).pumpPort p

theorem exec_keyReplace (hst : s.k.portState p = 5) :
    let tx : Bool := decide (2 ^ 40 ≤ (s.k.port p).txKeyed) && (s.k.port p).replay.isEmpty
    let rx : Bool := decide (2 ^ 40 ≤ (s.k.port p).rxKeyed.getD 0)
    exec (.keyReplace p) s = .next (withK s (if tx || rx then keysReplaced s.k p tx rx else s.k)) := by
  intro tx rx
  change execKeyReplace p s = _
  unfold execKeyReplace
  rw [onChip_live _ h]
  change Host.Outcome.next (withK s (if s.k.portState p ≠ 5 ∨ !(tx || rx) then s.k else keysReplaced s.k p tx rx)) = _
  rw [hst]
  cases tx || rx <;> rfl

theorem exec_manifestExchange (hst : s.k.portState p = 5) (bs : List Byte) :
    exec (.manifestExchange p bs) s = .next (withK s ((s.k.takeManifest p bs).sendOn p (.manifest s.k.manifest))) := by
  change execManifestExchange p bs s = _
  unfold execManifestExchange
  rw [onChip_live _ h, if_neg (not_not.mpr hst)]

theorem exec_portFailover : exec (.portFailover p) s =
    .next (withK s (if s.k.portState p = 5 then s.k else s.k.resendTo (s.k.peerOfPort p))) := by
  change execPortFailover p s = _
  unfold execPortFailover
  rw [onChip_live _ h]

theorem exec_retrainEnd (hst : s.k.portState p = 6) : exec (.retrainEnd p) s = .next (withK s
    (if s.k.portsRun ∧ s.k.now < (s.k.port p).since + 20 * 10 ^ 6 then ((s.k.sendAuth p).newKeys p).goActive p
      else (s.k.toState p 1).logDown p 6)) := by
  change execRetrainEnd p s = _
  unfold execRetrainEnd
  rw [onChip_live _ h, if_neg (not_not.mpr hst)]

end Ports

/-- The lanes that a training takes are lanes that passed, and it takes some where any did; it takes all where all did. -/
def widthFits (lanes : BitVec 4) : Option (Nat × Nat) → Bool
  | none => lanes = 0
  | some (w, used) => lanes ≠ 0 && used &&& lanes.toNat = used && used ≠ 0 && decide (lanes = 15 ↔ w = 2)

theorem trainedWidth_fits (lanes : BitVec 4) : widthFits lanes (trainedWidth lanes) = true := by
  revert lanes
  decide

/-- Settles O56: each state of the port by what meets it there, and the widths lane set by lane set. -/
theorem portsMoveThroughTheirStates : Obligations.PortsMoveThroughTheirStates := by
  unfold Obligations.PortsMoveThroughTheirStates
  constructor
  · intro s p h k st x
    refine ⟨exec_kwPortEnable h, fun hst => ⟨fun hf hr w => ?_, fun hno w => ?_⟩, fun hst lanes => ⟨fun hw => ?_, fun w used hw => ?_⟩,
      exec_portStateAdvance_align h, fun hst c => ⟨fun ht => ?_, fun ht => ⟨fun n hf => ?_, exec_authExchange_passes h hst ht⟩⟩,
      exec_authRetry h, fun hst => ⟨fun lanes => ⟨fun hl => ?_, fun hl => ?_⟩, exec_kwAuthFail h hst, ⟨fun htx hrx => ?_, fun hk => ?_⟩,
        exec_manifestExchange h hst, ?_⟩, fun hst => ⟨fun hr ht => ?_, fun hno => ?_⟩, fun hst => ?_⟩
    · rw [exec_portStateAdvance_detect h hst, if_neg (by simp [show (s.k.port p).failed = false from hf, show s.k.portsRun = true from hr])]
    · rw [exec_portStateAdvance_detect h hst, if_pos (by simpa using hno)]
      rfl
    · rw [exec_portStateAdvance_train h hst, hw]
      rfl
    · rw [exec_portStateAdvance_train h hst, hw]
      rfl
    · rw [exec_authExchange_tampered h hst ht, Chip.authAgain]
    · rw [exec_authExchange_fails h hst ht hf, Chip.authAgain]
    · rw [exec_retrain h hst, if_neg hl]
    · rw [exec_retrain h hst, if_pos hl]
      rfl
    · rw [exec_keyReplace h hst, if_neg (by rw [htx, hrx]; exact Bool.false_ne_true)]
      rfl
    · rw [exec_keyReplace h hst, if_pos (by simpa using hk)]
      rfl
    · rw [exec_portFailover h, if_pos hst]
      rfl
    · rw [exec_retrainEnd h hst, if_pos ⟨hr, ht⟩]
    · rw [exec_retrainEnd h hst, if_neg]
      rintro ⟨hr, ht⟩
      rcases hno with hno | hno
      · exact Bool.false_ne_true (hno.symm.trans hr)
      · exact absurd ht (Nat.not_lt.mpr hno)
    · rw [exec_portFailover h, if_neg hst]
  · intro lanes
    have hw := trainedWidth_fits lanes
    refine ⟨⟨fun hn => ?_, ?_⟩, fun w used he => ?_⟩
    · rw [hn] at hw
      exact of_decide_eq_true hw
    · rintro rfl
      rfl
    · rw [he] at hw
      simp only [widthFits, Bool.and_eq_true, decide_eq_true_eq] at hw
      exact ⟨hw.1.1.2, hw.1.2, hw.2⟩

end Sys2Proof.Proofs
end

section
/-!
PROOFS. Flits of a Kwadan port (O57).
-/

namespace Sys2Proof.Proofs

open Sys2Proof.Machine Sys2Proof.Safety Sys2Proof.Laws

theorem turned_self (s : State) : turned s (machOf s) = s := by
  rw [turned, orWait_self]
  rfl

/-- A command that adds nothing to any bank's queue comes about at once. -/
theorem turned_sameBanks {s : State} {m : Mach} (h : m.k.bus = s.k.bus) : turned s m = withM s m := by
  rw [turned, orWait_sameBanks _ _ h]

/-! ### Flits without a payload -/

section Heads

variable {k : Chip} {p : Nat} {h : FlitHead} (f : Chip → Chip)

theorem onFlit_inactive (hst : k.portState p ≠ 5) : k.onFlit p h f = k := if_pos hst

theorem onFlit_nak (hst : k.portState p = 5) (hu : uncorrectable h.errors = true) : k.onFlit p h f = k.nakNow p := by
  rw [Chip.onFlit, if_neg (not_not.mpr hst), if_pos hu]

theorem onFlit_taken (hst : k.portState p = 5) (hu : uncorrectable h.errors = false) :
    k.onFlit p h f = f ((k.noteFec p h.errors).takeAck p h.ackseq.toNat) := by
  rw [Chip.onFlit, if_neg (not_not.mpr hst), if_neg (by rw [hu]; exact Bool.false_ne_true)]

end Heads

section Exec

variable {s : State} {p : Nat} (h : live s (p < 4))
include h

theorem exec_flitError : exec (.flitError p) s = .next (withK s (if s.k.portState p ≠ 5 then s.k else s.k.nakNow p)) := by
  change execFlitError p s = _
  unfold execFlitError
  rw [onChip_live _ h]

theorem exec_ack (x : FlitHead) : exec (.ack p x) s = .next (withK s (s.k.onFlit p x id)) := by
  change execAck p x s = _
  unfold execAck
  rw [onChip_live _ h]

theorem exec_nak (f : NakFlit) : exec (.nak p f) s =
    .next (withK s (s.k.onFlit p f.head (fun k => (k.satAdd (Reg.kwPortReplays p) 15 0 1).resendFrom p f.seq.toNat))) := by
  change execNak p f s = _
  unfold execNak
  rw [onChip_live _ h]

/-- Credits that came on a channel. -/
def credited (p c n : Nat) (k : Chip) : Chip :=
  (k.setPort p { k.port p with credits := setAt (k.port p).credits c (min 256 ((k.port p).credits.getD c 0 + n)) }).pumpPort p

theorem exec_credit {c : Nat} (hc : c < 4) (f : CreditFlit) :
    exec (.credit p c f) s = .next (withK s (s.k.onFlit p f.head (credited p c f.n.toNat))) := by
  change execCredit p c f s = _
  unfold execCredit
  rw [onChip_live _ ⟨by rw [h.1, decide_eq_true hc]; rfl, h.2⟩]
  rfl

theorem exec_dataFlit (f : DataFlit) : exec (.dataFlit p f) s = .next (turned s ((machOf s).takeFlit s.part.vats p f)) := by
  change execDataFlit p f s = _
  unfold execDataFlit
  rw [onTurn_live _ h]

end Exec

section Resends

variable {k : Chip} {p seq : Nat}

theorem resendFrom_beyond (h : (k.port p).replay.length ≤ (seq + 2 ^ 16 - (k.port p).txOldest) % 2 ^ 16) : k.resendFrom p seq = k := if_pos h

/-- The port once the flits from `seq` on have left again. -/
def resent (k : Chip) (p seq : Nat) : Chip :=
  let x := k.port p
  (k.setPort p { x with lastResent := seq, resends := if x.lastResent = seq then x.resends + 1 else 1 }).sendReplay p
    ((seq + 2 ^ 16 - x.txOldest) % 2 ^ 16)

theorem resendFrom_again (h : (seq + 2 ^ 16 - (k.port p).txOldest) % 2 ^ 16 < (k.port p).replay.length)
    (ha : (if (k.port p).lastResent = seq then (k.port p).resends + 1 else 1) < 8) : k.resendFrom p seq = resent k p seq := by
  unfold Chip.resendFrom
  dsimp only
  rw [if_neg (Nat.not_le.mpr h), if_pos ha]
  rfl

theorem resendFrom_eighth (h : (seq + 2 ^ 16 - (k.port p).txOldest) % 2 ^ 16 < (k.port p).replay.length)
    (ha : 8 ≤ if (k.port p).lastResent = seq then (k.port p).resends + 1 else 1) :
    k.resendFrom p seq = ((resent k p seq).setPort p { (resent k p seq).port p with resends := 0 }).retrain p 0 := by
  unfold Chip.resendFrom
  dsimp only
  rw [if_neg (Nat.not_le.mpr h), if_neg (Nat.not_lt.mpr ha)]
  rfl

end Resends

/-! ### DATA flits -/

/-- The key under which the pages of a message that came in DATA flits are held. -/
def msgKey (k : Chip) (p : Nat) : KwMsg → List Byte
  | .mirrorFull h _ => Config.copyKey (k.peerOfPort p) h.handle
  | _ => []

theorem msgKey_other {z : KwMsg} (k : Chip) (p : Nat) (hz : ∀ h ps, z ≠ .mirrorFull h ps) : msgKey k p z = [] := by
  cases z with
  | mirrorFull h ps => exact absurd rfl (hz h ps)
  | _ => rfl

section Data

variable {m : Mach} {V p : Nat} {f : DataFlit}

theorem takeFlit_inactive (hst : m.k.portState p ≠ 5) : m.takeFlit V p f = m := if_pos hst

theorem takeFlit_bad (hst : m.k.portState p = 5) (hb : uncorrectable f.errors = true ∨ crcHolds f.content = false) :
    m.takeFlit V p f = m.onChip (fun k => k.nakNow p) := by
  unfold Mach.takeFlit
  dsimp only
  rw [if_neg (not_not.mpr hst), if_pos (hb.imp_right fun h => by rw [h]; rfl)]

variable (hst : m.k.portState p = 5) (hu : uncorrectable f.errors = false) (hc : crcHolds f.content = true)
include hst hu hc

/-- A flit that its codewords and its CRC let through goes on by its type. -/
theorem takeFlit_sound : m.takeFlit V p f =
    let bs := f.content
    let k := m.k.noteFec p f.errors
    let x := k.port p
    if flitType bs ≠ 1 then { m with k := k.takeAck p (flitAckseq bs) }
    else (openFlit x.rxKey (x.countOf (flitFseq bs)) bs).elim { m with k := k.tagFails p } fun payload =>
      let k := k.takeAck p (flitAckseq bs)
      let x := k.port p
      if flitFseq bs ≠ x.rxSeq then { m with k := k.setPort p { x with rxKeyed := x.keyed (flitFseq bs) } }
      else
        let r := k.acceptFlit p bs payload
        (r.2.bind r.1.readMsg).elim { m with k := r.1 } fun msg =>
          (({ m with k := r.1 } : Mach).receive V p (msgKey r.1 p msg) msg).getD m := by
  unfold Mach.takeFlit
  dsimp only
  rw [if_neg (not_not.mpr hst), if_neg (by rw [hu, hc]; decide)]
  cases openFlit ((m.k.noteFec p f.errors).port p).rxKey (((m.k.noteFec p f.errors).port p).countOf (flitFseq f.content)) f.content with
  | none => rfl
  | some payload =>
    dsimp only [Option.elim]
    cases (((m.k.noteFec p f.errors).takeAck p (flitAckseq f.content)).acceptFlit p f.content payload).2.bind
      (((m.k.noteFec p f.errors).takeAck p (flitAckseq f.content)).acceptFlit p f.content payload).1.readMsg <;> rfl

theorem takeFlit_other (ht : flitType f.content ≠ 1) :
    m.takeFlit V p f = { m with k := (m.k.noteFec p f.errors).takeAck p (flitAckseq f.content) } := by
  rw [takeFlit_sound hst hu hc]
  exact if_pos ht

variable (ht : flitType f.content = 1)
include ht

theorem takeFlit_forged (ho : openFlit ((m.k.noteFec p f.errors).port p).rxKey (((m.k.noteFec p f.errors).port p).countOf (flitFseq f.content)) f.content = none) :
    m.takeFlit V p f = { m with k := (m.k.noteFec p f.errors).tagFails p } := by
  rw [takeFlit_sound hst hu hc]
  dsimp only
  rw [if_neg (not_not.mpr ht), ho]
  rfl

variable {payload : List Byte}
  (ho : openFlit ((m.k.noteFec p f.errors).port p).rxKey (((m.k.noteFec p f.errors).port p).countOf (flitFseq f.content)) f.content = some payload)
  {k1 : Chip} (hk : (m.k.noteFec p f.errors).takeAck p (flitAckseq f.content) = k1)
include ho hk

theorem takeFlit_unexpected (hs : flitFseq f.content ≠ (k1.port p).rxSeq) :
    m.takeFlit V p f = { m with k := k1.setPort p { k1.port p with rxKeyed := (k1.port p).keyed (flitFseq f.content) } } := by
  rw [takeFlit_sound hst hu hc]
  dsimp only
  rw [if_neg (not_not.mpr ht), ho, hk]
  exact if_pos hs

/-- The flit expected is accepted, and the message that it ends is received. -/
theorem takeFlit_accepted (hs : flitFseq f.content = (k1.port p).rxSeq) :
    m.takeFlit V p f =
      let r := k1.acceptFlit p f.content payload
      (r.2.bind r.1.readMsg).elim { m with k := r.1 } fun msg =>
        (({ m with k := r.1 } : Mach).receive V p (msgKey r.1 p msg) msg).getD m := by
  rw [takeFlit_sound hst hu hc]
  dsimp only
  rw [if_neg (not_not.mpr ht), ho, hk]
  exact if_neg (not_not.mpr hs)

end Data

/-- Settles O57: the flits without a payload by what their codewords leave, and a DATA flit by its CRC, its tag, its FSEQ and its message. -/
theorem flitsAreReliable : Obligations.FlitsAreReliable := by
  unfold Obligations.FlitsAreReliable
  intro s p h k x nak acked
  refine ⟨fun hst => ⟨fun f => ?_, fun g => ?_, fun f => ?_, fun c f hc => ?_, ?_⟩, fun hst => ⟨?_, fun g => ⟨fun hu => ?_, fun hu => ?_⟩,
    fun f => ⟨fun hu => ?_, fun hu => ⟨fun hn => ?_, fun hn ha => ?_, fun hn ha => ?_⟩⟩, fun c f hc => ⟨fun hu => ?_, fun hu => ?_⟩, ?_⟩⟩
  · rw [exec_dataFlit h, takeFlit_inactive hst, turned_self]
  · rw [exec_ack h, onFlit_inactive _ hst]
    rfl
  · rw [exec_nak h, onFlit_inactive _ hst]
    rfl
  · rw [exec_credit h hc, onFlit_inactive _ hst]
    rfl
  · rw [exec_flitError h, if_pos hst]
    rfl
  · rw [exec_flitError h, if_neg (not_not.mpr hst)]
    rfl
  · rw [exec_ack h, onFlit_nak _ hst hu]
    rfl
  · rw [exec_ack h, onFlit_taken _ hst hu]
    rfl
  · rw [exec_nak h, onFlit_nak _ hst hu]
    rfl
  · rw [exec_nak h, onFlit_taken _ hst hu]
    exact congrArg (fun k => Host.Outcome.next (withK s k)) (resendFrom_beyond hn)
  · rw [exec_nak h, onFlit_taken _ hst hu]
    exact congrArg (fun k => Host.Outcome.next (withK s k)) (resendFrom_again hn ha)
  · rw [exec_nak h, onFlit_taken _ hst hu]
    exact congrArg (fun k => Host.Outcome.next (withK s k)) (resendFrom_eighth hn ha)
  · rw [exec_credit h hc, onFlit_nak _ hst hu]
    rfl
  · rw [exec_credit h hc, onFlit_taken _ hst hu]
    rfl
  · intro f m bs V e k0 k1 y
    have he : e = .next (turned s (m.takeFlit V p f)) := exec_dataFlit h f
    refine ⟨fun hb => ?_, fun hu hc => ⟨fun ht => ?_, fun ht => ⟨fun ho => ?_, fun payload ho => ⟨fun hs => ?_, fun hs => ?_⟩⟩⟩⟩
    · rw [he, takeFlit_bad (m := m) hst hb, turned_sameBanks rfl]
      rfl
    · rw [he, takeFlit_other (m := m) hst hu hc ht]
      rfl
    · rw [he, takeFlit_forged (m := m) hst hu hc ht ho]
      rfl
    · rw [he, takeFlit_unexpected (m := m) (k1 := k1) hst hu hc ht ho rfl hs]
    · intro c eom msg k2
      have hacc : k1.acceptFlit p f.content payload = (k2, if eom then some msg else none) := rfl
      have htake := takeFlit_accepted (m := m) (V := V) (k1 := k1) hst hu hc ht ho rfl hs
      rw [hacc] at htake
      dsimp only at htake
      refine ⟨fun hm => ?_, fun hm hr => ?_, fun hm z hr hz => ⟨fun m' hrec => ?_, fun hrec => ?_⟩, fun hm hd ps hr => ⟨fun m' hrec => ?_,
        fun hrec => ?_⟩⟩
        <;> rw [he, htake, hm]
      · rfl
      · rw [if_pos rfl, Option.bind_some, hr]
        rfl
      · rw [if_pos rfl, Option.bind_some, hr, Option.elim_some, msgKey_other k2 p hz, hrec]
        rfl
      · rw [if_pos rfl, Option.bind_some, hr, Option.elim_some, msgKey_other k2 p hz, hrec]
        exact congrArg Host.Outcome.next (turned_self s)
      · rw [if_pos rfl, Option.bind_some, hr, Option.elim_some]
        exact congrArg (fun o : Option Mach => Host.Outcome.next (turned s (o.getD m))) hrec
      · rw [if_pos rfl, Option.bind_some, hr, Option.elim_some]
        exact (congrArg (fun o : Option Mach => Host.Outcome.next (turned s (o.getD m))) hrec).trans (congrArg Host.Outcome.next (turned_self s))

end Sys2Proof.Proofs
end

section
/-!
PROOFS. Messages of peers, and jobs forwarded between packages (O60).
-/

namespace Sys2Proof.Proofs

open Sys2Proof.Machine Sys2Proof.Safety Sys2Proof.Laws

/-! ### A message on a port -/

section Messages

variable {s : State} {ok : Bool} {p : Nat} {key : List Byte} {x : KwMsg} (h : live s ok)
include h

theorem onMsg_inactive (hst : s.k.portState p ≠ 5) : s.onMsg ok p key x = .next s := by
  unfold State.onMsg
  rw [onTurn_live _ h]
  exact congrArg Host.Outcome.next ((congrArg (turned s) (if_pos hst)).trans (turned_self s))

theorem onMsg_some (hst : s.k.portState p = 5) {m' : Mach} (hr : (machOf s).receive s.part.vats p key x = some m') :
    s.onMsg ok p key x = .next (turned s m') := by
  unfold State.onMsg
  rw [onTurn_live _ h, hr]
  exact congrArg (fun m => Host.Outcome.next (turned s m)) (if_neg (not_not.mpr hst))

theorem onMsg_none (hst : s.k.portState p = 5) (hr : (machOf s).receive s.part.vats p key x = none) : s.onMsg ok p key x = .next s := by
  unfold State.onMsg
  rw [onTurn_live _ h, hr]
  exact congrArg Host.Outcome.next ((congrArg (turned s) (if_neg (not_not.mpr hst))).trans (turned_self s))

/-- A message that leaves the hub as it was does nothing. -/
theorem onMsg_nothing (hst : s.k.portState p = 5) (hr : (machOf s).receive s.part.vats p key x = some (machOf s)) : s.onMsg ok p key x = .next s :=
  (onMsg_some h hst hr).trans (congrArg Host.Outcome.next (turned_self s))

end Messages

/-! ### Jobs of a peer -/

section Jobs

variable {k : Chip} {p seq budget cls : Nat} {record : List Byte}

/-- The record of a forwarded job, of the class it came under. -/
def classed (record : List Byte) (cls : Nat) : List Byte := record.set 1 (BitVec.ofNat 8 (byteAt record 1 / 16 * 16 + cls))

theorem takeJob_shut (h : k.serving = false) : k.takeJob p seq budget cls record = k := by
  unfold Chip.takeJob
  dsimp only
  rw [if_pos (by rw [h]; rfl)]

variable (h : k.serving = true)
include h

theorem takeJob_answered {a : List Byte} (ha : k.fwdAnswer p (k.peerOfPort p) seq (classed record cls) = some a) :
    k.takeJob p seq budget cls record = k.sendTo (k.peerOfPort p) (.fwdResult (k.classDomain cls) seq a) := by
  unfold Chip.takeJob
  dsimp only
  rw [if_neg (by rw [h]; decide), show k.fwdAnswer p (k.peerOfPort p) seq (record.set 1 _) = some a from ha]

variable (ha : k.fwdAnswer p (k.peerOfPort p) seq (classed record cls) = none)
include ha

theorem takeJob_seen (hs : newer (k.port p).fwdSeen seq = false ∨ k.fwdTwice p (k.peerOfPort p) seq (classed record cls) = true ∨ k.nextTag = none) :
    k.takeJob p seq budget cls record = k := by
  unfold Chip.takeJob
  dsimp only
  rw [if_neg (by rw [h]; decide), show k.fwdAnswer p (k.peerOfPort p) seq (record.set 1 _) = none from ha]
  refine if_pos ?_
  rcases hs with hs | hs | hs
  · exact .inl (by rw [hs]; rfl)
  · exact .inr (.inl hs)
  · exact .inr (.inr (by rw [hs]; rfl))

theorem takeJob_new (hs : newer (k.port p).fwdSeen seq = true) (ht : k.fwdTwice p (k.peerOfPort p) seq (classed record cls) = false)
    (hn : k.nextTag.isSome = true) : k.takeJob p seq budget cls record =
      (k.setPort p { k.port p with fwdSeen := seq }).acceptRecord (.port p seq) (classed record cls) (k.now + budget) := by
  unfold Chip.takeJob
  dsimp only
  rw [if_neg (by rw [h]; decide), show k.fwdAnswer p (k.peerOfPort p) seq (record.set 1 _) = none from ha]
  refine if_neg ?_
  rintro (hc | hc | hc)
  · rw [hs] at hc
    exact absurd hc (by decide)
  · exact Bool.false_ne_true (ht.symm.trans hc)
  · rw [Option.isNone_iff_eq_none] at hc
    rw [hc] at hn
    exact Bool.false_ne_true hn

end Jobs

section Results

variable {k : Chip} {pkg seq : Nat} {bs : List Byte}

theorem takeResult_unknown (h : k.hub.jobs.find? (fun j => j.2.phase = .forwarded pkg seq) = none) : k.takeResult pkg seq bs = k := by
  unfold Chip.takeResult
  rw [h]

theorem takeResult_ends {t : Nat} {j : Job} (h : k.hub.jobs.find? (fun j => j.2.phase = .forwarded pkg seq) = some (t, j)) :
    k.takeResult pkg seq bs = (k.setJob t { j with raw := bs }).endJob t
      { status := byteAt bs 2, verdict := recField bs 16 24, tokens := recField bs 28 30, closed := (byteAt bs 30).testBit 3 } := by
  unfold Chip.takeResult
  rw [h]

end Results

/-! ### Jobs forwarded to a peer that is lost -/

/-- The jobs that a peer holds. -/
def heldBy (k : Chip) (pkg : Nat) : List (Nat × Job) :=
  k.hub.jobs.filter (fun j => match j.2.phase with | .forwarded q _ => q = pkg | _ => false)

/-- The end of a job whose peer is lost. -/
def peerLost : Outcome := { status := 0x34, verdict := 0, tokens := 0, closed := false }

theorem exec_forwardLost {s : State} {p t : Nat} (h : live s (p < 4)) (ht : s.k.downSince p = some t) :
    exec (.forwardLost p) s = .next (withK s (if s.k.now < t + 10 ^ 6 ∨ heldBy s.k p = [] then s.k
      else ((heldBy s.k p).foldl (fun k j => k.endJob j.1 peerLost) s.k).logKw 0x54 (p + (heldBy s.k p).length * 2 ^ 8))) := by
  change execForwardLost p s = _
  unfold execForwardLost
  rw [onChip_live _ h]
  refine congrArg (fun k => Host.Outcome.next (withK s k)) ?_
  rw [ht]
  rfl

/-- Settles O60: a forwarded job by what is known of it, a result by the job that waits, an abort, and the loss of the peer. -/
theorem forwardedJobsRun : Obligations.ForwardedJobsRun := by
  unfold Obligations.ForwardedJobsRun
  intro s p h k x m pkg
  have hjob : ∀ cls, cls < 16 → live s (p < 4 && cls < 16) := fun cls hc => ⟨by rw [h.1, decide_eq_true hc]; rfl, h.2⟩
  refine ⟨fun hst => ⟨fun seq budget cls record hc => ?_, fun seq rec => ⟨fun hn => ?_, fun t j hj => ?_⟩, fun cookie => ?_⟩,
    fun hst => ⟨fun seq budget cls record hc => onMsg_inactive (hjob cls hc) hst, fun seq rec => onMsg_inactive h hst,
    fun cookie => onMsg_inactive h hst⟩,
    fun t ht => ?_⟩
  · intro bs e
    have he : e = .next (turned s (m.onChip (fun k => k.takeJob p seq budget cls record))) := onMsg_some (hjob cls hc) hst rfl
    refine ⟨fun hs => ?_, fun hs a ha => ?_, fun hs ha => ⟨fun hold => ?_, fun hnew htwice htag => ?_⟩⟩
    · exact onMsg_nothing (hjob cls hc) hst (congrArg (fun k => some ({ dr := s.dram, k := k } : Mach)) (takeJob_shut hs))
    · exact he.trans (congrArg (fun k => Host.Outcome.next (turned s { dr := s.dram, k := k })) (takeJob_answered hs ha))
    · exact onMsg_nothing (hjob cls hc) hst (congrArg (fun k => some ({ dr := s.dram, k := k } : Mach)) (takeJob_seen hs ha hold))
    · exact he.trans (congrArg (fun k => Host.Outcome.next (turned s { dr := s.dram, k := k })) (takeJob_new hs ha hnew htwice htag))
  · exact onMsg_nothing h hst (congrArg (fun k => some ({ dr := s.dram, k := k } : Mach)) (takeResult_unknown hn))
  · exact onMsg_some h hst (congrArg (fun k => some ({ dr := s.dram, k := k } : Mach)) (takeResult_ends hj))
  · exact onMsg_some h hst rfl
  · intro mine
    refine ⟨fun hno => ?_, fun hold hmine => ?_⟩
    · exact (exec_forwardLost h ht).trans (congrArg (fun k => Host.Outcome.next (withK s k)) (if_pos hno))
    · exact (exec_forwardLost h ht).trans (congrArg (fun k => Host.Outcome.next (withK s k))
        (if_neg (fun hc => hc.elim (fun hlt => absurd hlt (Nat.not_lt.mpr hold)) hmine)))

end Sys2Proof.Proofs
end

section
/-!
PROOFS. What a message about a copy, or about a context spilled, comes to (O59).
-/

namespace Sys2Proof.Proofs

open Sys2Proof.Machine Sys2Proof.Safety Sys2Proof.Laws

section Mirrors

variable {m : Mach} {V pkg : Nat} {h : CtxHdr} {key : List Byte} {ps : List PageImage} {kv : List TokenKv}

/-! ### With no copy of the handle -/

section New

variable (hc : m.k.copyOf pkg h.handle = none)
include hc

theorem takeFull_made {m' : Mach} (hh : m.holdCopy V pkg h key ps false = some m') :
    m.takeFull V pkg h key ps = some (m'.onChip (fun k => k.ackMirror pkg h.handle h.seq)) := by
  simp only [Mach.takeFull, hc, hh]

theorem takeFull_noRoom (hh : m.holdCopy V pkg h key ps false = none) :
    m.takeFull V pkg h key ps = some (m.onChip (fun k => k.noRoom pkg h)) := by
  simp only [Mach.takeFull, hc, hh]

theorem takePut_made {m' : Mach} (hh : m.holdCopy V pkg h key ps true = some m') :
    m.takePut V pkg h key ps = some (m'.onChip (fun k => k.sendTo pkg (.spillAck h 0))) := by
  simp only [Mach.takePut, hc, hh]

theorem takePut_noRoom (hh : m.holdCopy V pkg h key ps true = none) :
    m.takePut V pkg h key ps = some (m.onChip (fun k => k.noRoom pkg h)) := by
  simp only [Mach.takePut, hc, hh]

theorem takeUpdate_uncopied : m.takeUpdate V pkg h kv = some m := by
  simp only [Mach.takeUpdate, hc]

theorem takeClose_uncopied : m.takeClose V pkg h = m.onChip (fun k => k.ackMirror pkg h.handle h.seq) := by
  simp only [Mach.takeClose, hc]

theorem takeRecall_uncopied : m.takeRecall V pkg h = m := by
  simp only [Mach.takeRecall, hc]

end New

/-! ### With a copy of the handle -/

section Copy

variable {i : Nat} {c : Ctx} {b : Standby} (hc : m.k.copyOf pkg h.handle = some (i, c, b))
include hc

theorem takePut_old (hn : newer b.seq h.seq = false) : m.takePut V pkg h key ps = some m := by
  simp only [Mach.takePut, hc, hn, Bool.not_false, if_true]

theorem takeFull_old (hn : newer b.seq h.seq = false) :
    m.takeFull V pkg h key ps = some (m.onChip (fun k => k.ackMirror pkg h.handle b.seq)) := by
  simp only [Mach.takeFull, hc, hn, Bool.not_false, if_true]

theorem takeUpdate_old (hn : newer b.seq h.seq = false) :
    m.takeUpdate V pkg h kv = some (m.onChip (fun k => k.ackMirror pkg h.handle b.seq)) := by
  simp only [Mach.takeUpdate, hc, hn, Bool.not_false, if_true]

section Newer

variable (hn : newer b.seq h.seq = true)
include hn

theorem takePut_waits (ha : m.k.hasAff i = true) : m.takePut V pkg h key ps = none := by
  simp only [Mach.takePut, hc, hn, ha, Bool.not_true, Bool.false_eq_true, if_false, if_true]

theorem takeFull_waits (ha : m.k.hasAff i = true) : m.takeFull V pkg h key ps = none := by
  simp only [Mach.takeFull, hc, hn, ha, Bool.not_true, Bool.false_eq_true, if_false, if_true]

theorem takePut_replaced (ha : m.k.hasAff i = false) {m' : Mach} (hr : m.replaceCopy V i c { b with spill := true, held := [] } h ps = some m') :
    m.takePut V pkg h key ps = some (m'.onChip (fun k => k.sendTo pkg (.spillAck h 0))) := by
  simp only [Mach.takePut, hc, hn, ha, hr, Bool.not_true, Bool.false_eq_true, if_false]

theorem takePut_full (ha : m.k.hasAff i = false) (hr : m.replaceCopy V i c { b with spill := true, held := [] } h ps = none) :
    m.takePut V pkg h key ps = some (m.onChip (fun k => k.noRoom pkg h)) := by
  simp only [Mach.takePut, hc, hn, ha, hr, Bool.not_true, Bool.false_eq_true, if_false]

theorem takeFull_replaced (ha : m.k.hasAff i = false) {m' : Mach} (hr : m.replaceCopy V i c b h ps = some m') :
    m.takeFull V pkg h key ps = some (Mach.drainHeld V i b.held.length (m'.onChip (fun k => k.ackMirror pkg h.handle h.seq))) := by
  simp only [Mach.takeFull, hc, hn, ha, hr, Bool.not_true, Bool.false_eq_true, if_false]

theorem takeFull_full (ha : m.k.hasAff i = false) (hr : m.replaceCopy V i c b h ps = none) :
    m.takeFull V pkg h key ps = some (m.onChip (fun k => k.noRoom pkg h)) := by
  simp only [Mach.takeFull, hc, hn, ha, hr, Bool.not_true, Bool.false_eq_true, if_false]

theorem takeUpdate_ahead (hx : ¬ h.seq = (b.seq + 1) % 2 ^ 32) :
    m.takeUpdate V pkg h kv = some (m.onChip (fun k => k.hold i c b (.mirrorUpdate h kv))) := by
  unfold Mach.takeUpdate
  rw [hc]
  dsimp only
  rw [if_neg (by rw [hn]; decide), if_pos hx]

variable (hx : h.seq = (b.seq + 1) % 2 ^ 32)
include hx

/-- The update that follows the last one applied. -/
theorem takeUpdate_next : m.takeUpdate V pkg h kv =
    if m.k.updateWaits i c h then none
    else (m.applyUpdate V i c b h kv).elim (some (m.onChip (fun k => k.noRoom pkg h))) fun m' =>
      some (Mach.drainHeld V i b.held.length (m'.onChip (fun k => k.ackMirror pkg h.handle h.seq))) := by
  unfold Mach.takeUpdate
  rw [hc]
  dsimp only
  rw [if_neg (by rw [hn]; decide), if_neg (not_not.mpr hx)]
  cases m.applyUpdate V i c b h kv <;> rfl

theorem takeUpdate_waits (hw : m.k.updateWaits i c h = true) : m.takeUpdate V pkg h kv = none :=
  (takeUpdate_next hc hn hx).trans (if_pos hw)

theorem takeUpdate_applied (hw : m.k.updateWaits i c h = false) {m' : Mach} (hu : m.applyUpdate V i c b h kv = some m') :
    m.takeUpdate V pkg h kv = some (Mach.drainHeld V i b.held.length (m'.onChip (fun k => k.ackMirror pkg h.handle h.seq))) := by
  rw [takeUpdate_next hc hn hx, if_neg (by rw [hw]; exact Bool.false_ne_true), hu, Option.elim_some]

theorem takeUpdate_noRoom (hw : m.k.updateWaits i c h = false) (hu : m.applyUpdate V i c b h kv = none) :
    m.takeUpdate V pkg h kv = some (m.onChip (fun k => k.noRoom pkg h)) := by
  rw [takeUpdate_next hc hn hx, if_neg (by rw [hw]; exact Bool.false_ne_true), hu, Option.elim_none]

end Newer

theorem takeClose_closes (hx : b.spill = true ∨ h.seq = (b.seq + 1) % 2 ^ 32) :
    m.takeClose V pkg h = (m.runClose V i c none).onChip (fun k => k.ackMirror pkg h.handle h.seq) := by
  unfold Mach.takeClose
  dsimp only
  rw [hc]
  exact if_pos hx

theorem takeClose_old (hs : b.spill = false) (hn : newer b.seq h.seq = false) (hx : ¬ h.seq = (b.seq + 1) % 2 ^ 32) :
    m.takeClose V pkg h = m.onChip (fun k => k.ackMirror pkg h.handle b.seq) := by
  unfold Mach.takeClose
  dsimp only
  rw [hc]
  dsimp only
  rw [if_neg (by simpa [hs] using hx), if_pos (by rw [hn]; rfl)]

theorem takeClose_ahead (hs : b.spill = false) (hn : newer b.seq h.seq = true) (hx : ¬ h.seq = (b.seq + 1) % 2 ^ 32) :
    m.takeClose V pkg h = m.onChip (fun k => k.hold i c b (.mirrorClose h)) := by
  unfold Mach.takeClose
  dsimp only
  rw [hc]
  dsimp only
  rw [if_neg (by simpa [hs] using hx), if_neg (by rw [hn]; decide)]

theorem takeRecall_ignored (hs : b.spill = false ∨ newer b.seq h.seq = false) : m.takeRecall V pkg h = m := by
  unfold Mach.takeRecall
  rw [hc]
  exact if_pos (hs.imp (fun hs => by rw [hs]; rfl) (fun hn => by rw [hn]; rfl))

theorem takeRecall_returns (hs : b.spill = true) (hn : newer b.seq h.seq = true) :
    m.takeRecall V pkg h = ((m.images c).2.setCtx V i { c with standby := some { b with seq := h.seq } }).onChip (fun k =>
      k.sendTo pkg (.spillReturn { c.hdr i h.seq with handle := h.handle } (m.images c).1)) := by
  unfold Mach.takeRecall
  rw [hc]
  exact if_neg (by rw [hs, hn]; decide)

end Copy

end Mirrors

/-! ### Reviews -/

theorem newer_self (a : Nat) : newer a a = false := by
  simp [newer]

/-- The copy that a peer's handle names is a standby context of the directory. -/
theorem copyOf_spec {k : Chip} {pkg handle i : Nat} {c : Ctx} {b : Standby} (h : k.copyOf pkg handle = some (i, c, b)) :
    c.standby = some b ∧ c.state = .standby := by
  obtain ⟨x, -, hx⟩ := List.exists_of_findSome?_eq_some h
  cases hs : x.2.standby with
  | none => simp only [hs] at hx; exact absurd hx (by simp)
  | some b' =>
    simp only [hs] at hx
    split at hx
    next hcond =>
      cases hx
      exact ⟨hs, hcond.2.2⟩
    next => exact absurd hx (by simp)

section Reviews

variable {k : Chip} {pkg i : Nat} {h : CtxHdr} {c : Ctx} {b : Standby} {jobs : List ReviewJob} (hc : k.copyOf pkg h.handle = some (i, c, b))
  (hi : k.ctx i = some c)
include hc hi

theorem takeReview_copy : k.takeReview i h jobs =
    if newer b.seq h.seq then k.hold i c b (.mirrorReview h jobs)
    else if b.seq ≠ h.seq ∨ b.reviewed = some h.seq then k
    else (k.setCtx i { c with standby := some { b with reviewed := some h.seq } }).applyReview i
      { c with standby := some { b with reviewed := some h.seq } } jobs := by
  obtain ⟨hb, hst⟩ := copyOf_spec hc
  unfold Chip.takeReview
  rw [hi]
  dsimp only
  rw [hb]
  exact if_neg (not_not.mpr hst)

theorem takeReview_applied (hs : b.seq = h.seq) (hr : b.reviewed ≠ some h.seq) :
    k.takeReview i h jobs = (k.setCtx i { c with standby := some { b with reviewed := some h.seq } }).applyReview i
      { c with standby := some { b with reviewed := some h.seq } } jobs := by
  rw [takeReview_copy hc hi, if_neg (by rw [hs, newer_self]; exact Bool.false_ne_true), if_neg (fun hx => hx.elim (fun hx => hx hs) hr)]

theorem takeReview_held (hn : newer b.seq h.seq = true) : k.takeReview i h jobs = k.hold i c b (.mirrorReview h jobs) := by
  rw [takeReview_copy hc hi, if_pos hn]

theorem takeReview_ignored (hn : newer b.seq h.seq = false) (hs : b.seq ≠ h.seq ∨ b.reviewed = some h.seq) : k.takeReview i h jobs = k := by
  rw [takeReview_copy hc hi, if_neg (by rw [hn]; exact Bool.false_ne_true), if_pos hs]

end Reviews

end Sys2Proof.Proofs
end

section
/-!
PROOFS. Contexts that change hands, and what the hub does of its own accord with copies (O59).
-/

namespace Sys2Proof.Proofs

open Sys2Proof.Machine Sys2Proof.Safety Sys2Proof.Laws

/-! ### Contexts that come home, and the answers of holders -/

section Spills

variable {m : Mach} {V pkg : Nat} {h : CtxHdr} {ps : List PageImage}

/-- The context that a recall has asked a package for. -/
def recalledFrom (k : Chip) (pkg : Nat) (h : CtxHdr) : Option (Nat × Ctx) :=
  k.hub.ctxs.find? (fun c => c.2.handle c.1 = h.handle && c.2.state = .spilled && c.2.spill = .recalled && c.2.holder = pkg)

theorem takeReturn_unknown (hm : recalledFrom m.k pkg h = none) : m.takeReturn V pkg h ps = m := by
  unfold Mach.takeReturn
  rw [show m.k.hub.ctxs.find? _ = none from hm]

section Recalled

variable {i : Nat} {c : Ctx} (hm : recalledFrom m.k pkg h = some (i, c))
include hm

theorem takeReturn_stale (hs : c.mirrorSeq ≠ h.seq) : m.takeReturn V pkg h ps = m := by
  unfold Mach.takeReturn
  rw [show m.k.hub.ctxs.find? _ = some (i, c) from hm]
  exact if_pos hs

variable (hs : c.mirrorSeq = h.seq)
include hs

theorem takeReturn_homeless (hh : m.k.homeImages c.model ps = none) :
    m.takeReturn V pkg h ps = m.onChip (fun k => k.setCtx i { c with spill := .away }) := by
  unfold Mach.takeReturn
  rw [show m.k.hub.ctxs.find? _ = some (i, c) from hm]
  dsimp only
  rw [if_neg (not_not.mpr hs), hh]

/-- A context that has come home. -/
def comeHome (c : Ctx) (home : Home) : Ctx :=
  { c with vat := home.v, die := home.d, slot := home.slot, rot := home.rot, pages := home.pages, state := .live, spill := .home }

theorem takeReturn_home {md : Model} {home : Home} (hh : m.k.homeImages c.model ps = some (md, home)) :
    m.takeReturn V pkg h ps =
      let m' := ((m.putImages home.v home.d home.slot home.pages ps).setCtx V i (comeHome c home)).onChip (fun k => k.sendTo pkg (.spillAck h 0))
      if c.mirrored then m'.sendFull V i (comeHome c home) else m' := by
  unfold Mach.takeReturn
  rw [show m.k.hub.ctxs.find? _ = some (i, c) from hm]
  dsimp only
  rw [if_neg (not_not.mpr hs), hh]
  rfl

end Recalled

section Offered

variable {i : Nat} {c : Ctx} (ho : m.k.offeredTo pkg h = some (i, c))
include ho

theorem takeSpillAck_refused {r : Nat} (hr : r ≠ 0) :
    m.takeSpillAck V pkg h r = some (m.onChip (fun k => k.setCtx i { c with spill := .refused })) := by
  unfold Mach.takeSpillAck
  rw [ho]
  exact if_pos hr

theorem takeSpillAck_waits (ha : m.k.hasAff i = true) : m.takeSpillAck V pkg h 0 = none := by
  unfold Mach.takeSpillAck
  rw [ho]
  dsimp only
  rw [if_neg (fun hr => hr rfl), if_pos ha]

theorem takeSpillAck_away (ha : m.k.hasAff i = false) {md : Model} (hmd : (m.freePages c).k.model c.model = some md) :
    m.takeSpillAck V pkg h 0 = some (((m.freePages c).zeroLedger md c.model c.vat c.die c.slot).setCtx V i { c with
      state := .spilled, spill := .away, pages := [], owed := [], shadow := [], spare := none, shadowOk := false, sample := none
      migration := none }) := by
  unfold Mach.takeSpillAck
  rw [ho]
  dsimp only
  rw [if_neg (fun hr => hr rfl), if_neg (by rw [ha]; exact Bool.false_ne_true), hmd]

end Offered

section NotOffered

variable (ho : m.k.offeredTo pkg h = none)
include ho

theorem takeSpillAck_copy {i : Nat} {c : Ctx} {b : Standby} (hc : m.k.copyOf pkg h.handle = some (i, c, b)) (r : Nat) :
    m.takeSpillAck V pkg h r = some (if b.spill ∧ r = 0 ∧ b.seq = h.seq then m.runClose V i c none else m) := by
  simp only [Mach.takeSpillAck, ho, hc]

theorem takeSpillAck_mirror (hc : m.k.copyOf pkg h.handle = none) (r : Nat) :
    m.takeSpillAck V pkg h r = some (if r = 0 then m else m.onChip (fun k => k.mirrorRefused pkg h.handle)) := by
  simp only [Mach.takeSpillAck, ho, hc]

end NotOffered

end Spills

/-! ### Gaps -/

section Gaps

variable {m : Mach} {V i : Nat} {c : Ctx} {b : Standby} (hi : m.k.ctx i = some c) (hb : c.standby = some b)
include hi hb

/-- A message that has waited 1 ms by `now`. -/
def heldLong (now : Nat) (x : Nat × KwMsg) : Bool := decide (x.1 + 10 ^ 6 ≤ now)

theorem gapTimeout_none (h : b.asked = true ∨ b.held.any (heldLong m.k.now) = false) : m.gapTimeout V i = m := by
  unfold Mach.gapTimeout
  rw [hi, Option.bind_some, hb]
  exact if_pos (h.imp_right fun h => congrArg Bool.not h)

variable (ha : b.asked = false) (hold : b.held.any (heldLong m.k.now) = true) {m1 : Mach} (hm : Mach.drainHeld V i b.held.length m = m1)
  {c1 : Ctx} {b1 : Standby} (hi1 : m1.k.ctx i = some c1) (hb1 : c1.standby = some b1)
include ha hold hm hi1 hb1

theorem gapTimeout_drained : m.gapTimeout V i = m1.onChip (fun k => if !b1.held.any (heldLong m.k.now) then k else
    (k.setCtx i { c1 with standby := some { b1 with held := b1.held.filter (fun x => !heldLong m.k.now x), asked := true } }).sendTo b1.pkg
      (.mirrorAsk b1.handle)) := by
  unfold Mach.gapTimeout
  rw [hi, Option.bind_some, hb]
  refine (if_neg ?_).trans ?_
  · rintro (hc | hc)
    · exact Bool.false_ne_true (ha.symm.trans hc)
    · exact Bool.false_ne_true ((congrArg Bool.not hold).symm.trans hc)
  · rw [hm]
    unfold Mach.onChip
    dsimp only
    rw [hi1]
    dsimp only
    rw [hb1]
    rfl

end Gaps

/-! ### Promotions -/

/-- What KW_PROMOTE's result reads. -/
def promoteShown (k : Chip) (result count : Nat) : Chip :=
  ((k.raise Reg.kwPromoteResult 31).setF Reg.kwPromoteResult 30 28 result).setF Reg.kwPromoteResult 20 0 count

section Promotions

variable (k : Chip) {result count : Nat}

theorem promoteShown_done : (promoteShown k result count).flag Reg.kwPromoteResult 31 = true := by
  rw [promoteShown, flag_setF_other _ _ _ _ _ _ (by decide) (by decide) (by decide), flag_setF_other _ _ _ _ _ _ (by decide) (by decide) (by decide)]
  exact flag_raise_same _ _ _ (by decide)

theorem promoteShown_result (h : result < 8) : (promoteShown k result count).getF Reg.kwPromoteResult 30 28 = result := by
  rw [promoteShown, getF_setF_other _ _ _ _ _ _ _ (by decide) (by decide) (by decide), getF_setF_same _ _ _ _ _ (by decide) (by decide)]
  exact Nat.mod_eq_of_lt h

theorem promoteShown_count : (promoteShown k result count).getF Reg.kwPromoteResult 20 0 = count % 2 ^ 21 :=
  getF_setF_same _ _ _ _ _ (by decide) (by decide)

theorem promoteShown_regsOnly : regsOnly k (promoteShown k result count) (· = Reg.kwPromoteResult) := by
  have h0 : regsOnly k k (· = Reg.kwPromoteResult) := regsOnly.refl
  exact ((h0.raise 31 rfl).setF 30 28 result rfl).setF 20 0 count rfl

/-- The copies of a package's contexts. -/
def copiesOf (k : Chip) (source : Nat) : List (Nat × Ctx) :=
  k.hub.ctxs.filter (fun c => c.2.state = .standby && match c.2.standby with | some b => b.pkg = source | none => false)

variable {m : Mach} {V source : Nat} {force : Bool}

theorem doPromote_linked (hf : force = false) (hp : (m.k.portTo source).isSome = true) :
    m.doPromote V source force = m.onChip (fun k => promoteShown k 1 0) := by
  unfold Mach.doPromote
  dsimp only
  exact if_pos ⟨by rw [hf]; rfl, hp⟩

variable (hp : force = true ∨ m.k.portTo source = none)
include hp

theorem not_linked : ¬ (!force ∧ (m.k.portTo source).isSome = true) := by
  rintro ⟨hf, hs⟩
  rcases hp with hp | hp
  · rw [hp] at hf
    exact absurd hf (by decide)
  · rw [hp] at hs
    exact absurd hs (by decide)

theorem doPromote_none (hm : copiesOf m.k source = []) : m.doPromote V source force = m.onChip (fun k => promoteShown k 2 0) := by
  unfold Mach.doPromote
  dsimp only
  exact (if_neg (not_linked hp)).trans (if_pos hm)

theorem doPromote_takes (hm : copiesOf m.k source ≠ []) : m.doPromote V source force =
    ((copiesOf m.k source).foldl (fun m c => m.promote V c.1 c.2) m).onChip (fun k =>
      (promoteShown k 0 (copiesOf m.k source).length).logKw 0x55 (source + (copiesOf m.k source).length * 2 ^ 8)) := by
  unfold Mach.doPromote
  dsimp only
  exact (if_neg (not_linked hp)).trans (if_neg hm)

end Promotions

theorem logKw_kwPromoteResult (k : Chip) (detail hi lo : Nat) :
    (k.logKw 0x55 detail).getF Reg.kwPromoteResult hi lo = k.getF Reg.kwPromoteResult hi lo := by
  rw [Chip.getF, Chip.logKw, logPlain_reg _ _ (by decide), Chip.getF]

section Exec

variable {s : State} (h : live s true)
include h

theorem exec_mirrorGapTimeout (i : Nat) : exec (.mirrorGapTimeout i) s = .next (turned s ((machOf s).gapTimeout s.part.vats i)) := by
  change execMirrorGapTimeout i s = _
  unfold execMirrorGapTimeout
  rw [onTurn_live _ h]

theorem exec_kwPromote (source : BitVec 2) (force : Bool) :
    exec (.kwPromote source force) s = .next (turned s ((machOf s).doPromote s.part.vats source.toNat force)) := by
  change execKwPromote source force s = _
  unfold execKwPromote
  rw [onTurn_live _ h]

/-- The contexts that diverged and whose peer takes them. -/
def divergedDue (k : Chip) : List (Nat × Ctx) :=
  k.hub.ctxs.filter (fun c => c.2.diverged && (c.2.state = .live || c.2.state = .migrating) && k.peerTakes (k.getF Reg.kwMirror 15 14) c.2.domain)

theorem exec_backlogResend : exec .backlogResend s = .next (turned s
    (if s.k.backlogLimit ≤ 2 * s.k.backlog (s.k.getF Reg.kwMirror 15 14) then machOf s
      else ((divergedDue s.k).take (s.k.getF Reg.failPolicy 11 8 - s.k.fullsOut (s.k.getF Reg.kwMirror 15 14))).foldl
        (fun m c => m.sendFull s.part.vats c.1 c.2) ((machOf s).onChip Chip.sendOwed))) := by
  change execBacklogResend s = _
  unfold execBacklogResend
  rw [onTurn_live _ h]
  rfl

theorem exec_spillLost {i t : Nat} {c : Ctx} (hi : s.k.ctx i = some c) (hst : c.state = .spilled) (ht : s.k.downSince c.holder = some t) :
    exec (.spillLost i) s = .next (turned s (if s.k.now < t + s.k.getF Reg.kwSpill 15 0 * 10 ^ 6 then machOf s
      else (((machOf s).onChip Chip.serveSpilled).closeCtx s.part.vats i c).onChip (fun k => k.orphanJobs (c.handle i) 0x33))) := by
  change execSpillLost i s = _
  unfold execSpillLost
  rw [onTurn_live _ h]
  refine congrArg (fun m => Host.Outcome.next (turned s m)) ?_
  rw [show (machOf s).k.ctx i = some c from hi]
  dsimp only
  rw [show (machOf s).k.downSince c.holder = some t from ht]
  dsimp only
  rw [hst]
  by_cases hlt : s.k.now < t + s.k.getF Reg.kwSpill 15 0 * 10 ^ 6
  · rw [if_pos hlt]
    exact if_pos (.inr hlt)
  · rw [if_neg hlt]
    exact if_neg (fun hc => hc.elim (fun hc => hc rfl) hlt)

end Exec

end Sys2Proof.Proofs
end

section
/-!
PROOFS. Copies held for a peer, and contexts spilled, message by message (O59).
-/

namespace Sys2Proof.Proofs

open Sys2Proof.Machine Sys2Proof.Safety Sys2Proof.Laws

section Home

variable {m : Mach} {V pkg : Nat} {h : CtxHdr} {ps : List PageImage} {i : Nat} {c : Ctx} (hm : recalledFrom m.k pkg h = some (i, c))
  (hs : c.mirrorSeq = h.seq) {md : Model} {home : Home} (hh : m.k.homeImages c.model ps = some (md, home))
include hm hs hh

theorem takeReturn_unmirrored (hmir : c.mirrored = false) : m.takeReturn V pkg h ps =
    ((m.putImages home.v home.d home.slot home.pages ps).setCtx V i (comeHome c home)).onChip (fun k => k.sendTo pkg (.spillAck h 0)) := by
  rw [takeReturn_home hm hs hh]
  exact if_neg (by rw [hmir]; exact Bool.false_ne_true)

theorem takeReturn_mirrored (hmir : c.mirrored = true) : m.takeReturn V pkg h ps =
    (((m.putImages home.v home.d home.slot home.pages ps).setCtx V i (comeHome c home)).onChip (fun k =>
      k.sendTo pkg (.spillAck h 0))).sendFull V i (comeHome c home) := by
  rw [takeReturn_home hm hs hh]
  exact if_pos hmir

end Home

section Port

variable {s : State} {p : Nat} (h : live s (p < 4)) (hst : s.k.portState p = 5) {x : CtxHdr}
include h hst

/-- A message that leaves the hub as it is given. -/
theorem mirrorFull_some {key : List Byte} {ps : List PageImage} {m' : Mach}
    (hr : (machOf s).takeFull s.part.vats (s.k.peerOfPort p) x key ps = some m') : exec (.mirrorFull p x key ps) s = .next (turned s m') :=
  onMsg_some h hst hr

theorem mirrorFull_none {key : List Byte} {ps : List PageImage}
    (hr : (machOf s).takeFull s.part.vats (s.k.peerOfPort p) x key ps = none) : exec (.mirrorFull p x key ps) s = .next s :=
  onMsg_none h hst hr

theorem spillPut_some {key : List Byte} {ps : List PageImage} {m' : Mach}
    (hr : (machOf s).takePut s.part.vats (s.k.peerOfPort p) x key ps = some m') : exec (.spillPut p x key ps) s = .next (turned s m') :=
  onMsg_some h hst hr

theorem spillPut_none {key : List Byte} {ps : List PageImage}
    (hr : (machOf s).takePut s.part.vats (s.k.peerOfPort p) x key ps = none) : exec (.spillPut p x key ps) s = .next s :=
  onMsg_none h hst hr

theorem spillPut_nothing {key : List Byte} {ps : List PageImage}
    (hr : (machOf s).takePut s.part.vats (s.k.peerOfPort p) x key ps = some (machOf s)) : exec (.spillPut p x key ps) s = .next s :=
  onMsg_nothing h hst hr

theorem mirrorUpdate_some {kv : List TokenKv} {m' : Mach} (hr : (machOf s).takeUpdate s.part.vats (s.k.peerOfPort p) x kv = some m') :
    exec (.mirrorUpdate p x kv) s = .next (turned s m') :=
  onMsg_some h hst hr

theorem mirrorUpdate_none {kv : List TokenKv} (hr : (machOf s).takeUpdate s.part.vats (s.k.peerOfPort p) x kv = none) :
    exec (.mirrorUpdate p x kv) s = .next s :=
  onMsg_none h hst hr

theorem mirrorUpdate_nothing {kv : List TokenKv} (hr : (machOf s).takeUpdate s.part.vats (s.k.peerOfPort p) x kv = some (machOf s)) :
    exec (.mirrorUpdate p x kv) s = .next s :=
  onMsg_nothing h hst hr

theorem mirrorReview_uncopied {jobs : List ReviewJob} (hc : s.k.copyOf (s.k.peerOfPort p) x.handle = none) :
    exec (.mirrorReview p x jobs) s = .next s := by
  refine onMsg_nothing h hst (congrArg some (congrArg (fun k => ({ dr := s.dram, k := k } : Mach)) ?_))
  change (match s.k.copyOf (s.k.peerOfPort p) x.handle with | some (i, _, _) => s.k.takeReview i x jobs | none => s.k) = s.k
  rw [hc]

theorem mirrorReview_copied {jobs : List ReviewJob} {i : Nat} {c : Ctx} {b : Standby} {k' : Chip}
    (hc : s.k.copyOf (s.k.peerOfPort p) x.handle = some (i, c, b)) (hr : s.k.takeReview i x jobs = k') :
    exec (.mirrorReview p x jobs) s = .next (turned s { dr := s.dram, k := k' }) := by
  refine onMsg_some h hst (congrArg some (congrArg (fun k => ({ dr := s.dram, k := k } : Mach)) ?_))
  change (match s.k.copyOf (s.k.peerOfPort p) x.handle with | some (i, _, _) => s.k.takeReview i x jobs | none => s.k) = k'
  rw [hc]
  exact hr

theorem mirrorClose_to {m' : Mach} (hr : (machOf s).takeClose s.part.vats (s.k.peerOfPort p) x = m') :
    exec (.mirrorClose p x) s = .next (turned s m') :=
  onMsg_some h hst (congrArg some hr)

theorem spillRecall_to {m' : Mach} (hr : (machOf s).takeRecall s.part.vats (s.k.peerOfPort p) x = m') :
    exec (.spillRecall p x) s = .next (turned s m') :=
  onMsg_some h hst (congrArg some hr)

theorem spillReturn_to {ps : List PageImage} {m' : Mach} (hr : (machOf s).takeReturn s.part.vats (s.k.peerOfPort p) x ps = m') :
    exec (.spillReturn p x ps) s = .next (turned s m') :=
  onMsg_some h hst (congrArg some hr)

theorem spillAck_some {r : BitVec 8} {m' : Mach} (hr : (machOf s).takeSpillAck s.part.vats (s.k.peerOfPort p) x r.toNat = some m') :
    exec (.spillAck p x r) s = .next (turned s m') :=
  onMsg_some h hst hr

theorem spillAck_none {r : BitVec 8} (hr : (machOf s).takeSpillAck s.part.vats (s.k.peerOfPort p) x r.toNat = none) :
    exec (.spillAck p x r) s = .next s :=
  onMsg_none h hst hr

theorem mirrorAck_to (pairs : List (Nat × Nat)) :
    exec (.mirrorAck p pairs) s = .next (turned s ((machOf s).onChip (fun k => k.takeAcks (k.peerOfPort p) pairs))) :=
  onMsg_some h hst rfl

end Port

theorem logKw_kwPromoteResult_flag (k : Chip) (detail i : Nat) :
    (k.logKw 0x55 detail).flag Reg.kwPromoteResult i = k.flag Reg.kwPromoteResult i := by
  rw [Chip.flag, logKw_kwPromoteResult, Chip.flag]

/-- A command that changes nothing leaves the state. -/
theorem next_turned_self {s : State} {e : Host.Outcome State Fault Refusal} {m : Mach} (h : e = .next (turned s m))
    (hm : m = machOf s) : e = .next s := by
  rw [h, hm, turned_self]

/-- Settles O59: each message by the copy, or the context, that its handle names, and the hub's own acts by what they wait for. -/
theorem copiesFollowAndChangeHands : Obligations.CopiesFollowAndChangeHands := by
  unfold Obligations.CopiesFollowAndChangeHands
  constructor
  · intro s p h hst V k m pkg
    refine ⟨fun x key pages hc => ?_, fun x i c b hc => ?_, fun x pages => ?_, fun x i c ho => ?_, fun x ho => ?_, fun pairs => ?_⟩
    · exact ⟨fun m' hh => mirrorFull_some h hst (takeFull_made hc hh), fun hh => mirrorFull_some h hst (takeFull_noRoom hc hh),
        fun m' hh => spillPut_some h hst (takePut_made hc hh), fun hh => spillPut_some h hst (takePut_noRoom hc hh),
        fun kv => mirrorUpdate_nothing h hst (takeUpdate_uncopied hc), fun jobs => mirrorReview_uncopied h hst hc,
        mirrorClose_to h hst (takeClose_uncopied hc), next_turned_self (spillRecall_to h hst rfl) (takeRecall_uncopied hc)⟩
    · intro again next
      refine ⟨fun key pages hn => ⟨spillPut_nothing h hst (takePut_old hc hn), mirrorFull_some h hst (takeFull_old hc hn)⟩,
        fun key pages hn ha => ⟨spillPut_none h hst (takePut_waits hc hn ha), mirrorFull_none h hst (takeFull_waits hc hn ha)⟩,
        fun key pages hn ha => ⟨fun m' hr => spillPut_some h hst (takePut_replaced hc hn ha hr),
        fun hr => spillPut_some h hst (takePut_full hc hn ha hr),
          fun m' hr => mirrorFull_some h hst (takeFull_replaced hc hn ha hr), fun hr => mirrorFull_some h hst (takeFull_full hc hn ha hr)⟩,
        fun kv hn => mirrorUpdate_some h hst (takeUpdate_old hc hn), fun kv hn hx => mirrorUpdate_some h hst (takeUpdate_ahead hc hn hx),
        fun kv hn hx => ⟨fun hw => mirrorUpdate_none h hst (takeUpdate_waits hc hn hx hw),
          fun hw => ⟨fun m' hu => mirrorUpdate_some h hst (takeUpdate_applied hc hn hx hw hu),
            fun hu => mirrorUpdate_some h hst (takeUpdate_noRoom hc hn hx hw hu)⟩⟩,
        fun jobs hi => ⟨fun hs hr => mirrorReview_copied h hst hc (takeReview_applied hc hi hs hr),
          fun hn => mirrorReview_copied h hst hc (takeReview_held hc hi hn),
          fun hn hs => next_turned_self (mirrorReview_copied h hst hc (takeReview_ignored hc hi hn hs)) rfl⟩,
        fun hx => mirrorClose_to h hst (takeClose_closes hc hx), fun hs hn hx => mirrorClose_to h hst (takeClose_old hc hs hn hx),
        fun hs hn hx => mirrorClose_to h hst (takeClose_ahead hc hs hn hx),
        fun hs => next_turned_self (spillRecall_to h hst rfl) (takeRecall_ignored hc hs),
        fun hs hn => spillRecall_to h hst (takeRecall_returns hc hs hn)⟩
    · intro mine
      refine ⟨fun hm => next_turned_self (spillReturn_to h hst rfl) (takeReturn_unknown hm),
        fun i c hm hs => next_turned_self (spillReturn_to h hst rfl) (takeReturn_stale hm hs),
        fun i c hm hs => ⟨fun hh => spillReturn_to h hst (takeReturn_homeless hm hs hh), fun md home hh => ?_⟩⟩
      intro c' m'
      exact ⟨fun hmir => spillReturn_to h hst (takeReturn_unmirrored (m := machOf s) hm hs hh hmir),
        fun hmir => spillReturn_to h hst (takeReturn_mirrored (m := machOf s) hm hs hh hmir)⟩
    · exact ⟨fun r hr => spillAck_some h hst (takeSpillAck_refused ho hr), fun ha => spillAck_none h hst (takeSpillAck_waits ho ha),
        fun md ha hmd => spillAck_some h hst (takeSpillAck_away ho ha hmd)⟩
    · refine ⟨fun i c b hc => ⟨fun hs hq => ?_, fun r hr => ?_⟩, fun hc => ⟨?_, fun r hr => ?_⟩⟩
      · exact (spillAck_some h hst (takeSpillAck_copy ho hc 0)).trans
          (congrArg (fun m => Host.Outcome.next (turned s m)) (if_pos ⟨hs, rfl, hq⟩))
      · refine next_turned_self (spillAck_some h hst (takeSpillAck_copy ho hc r.toNat)) (if_neg ?_)
        rintro ⟨hs, h0, hq⟩
        rcases hr with hr | hr | hr
        · exact Bool.false_ne_true (hr.symm.trans hs)
        · exact hr hq
        · exact hr h0
      · exact next_turned_self (spillAck_some h hst (takeSpillAck_mirror ho hc 0)) (if_pos rfl)
      · exact (spillAck_some h hst (takeSpillAck_mirror ho hc r.toNat)).trans
          (congrArg (fun m => Host.Outcome.next (turned s m)) (if_neg hr))
    · exact ⟨_, (mirrorAck_to h hst pairs).trans (congrArg Host.Outcome.next (turned_sameBanks rfl)), ⟨rfl, rfl, rfl, rfl, rfl⟩, rfl⟩
  · intro s h V k m old
    refine ⟨fun i c b hi hb => ⟨fun hno => ?_, fun ha hold => ?_⟩, ?_, fun source hp => ?_, fun source force hp => ?_,
      fun i c t hi hs ht => ⟨fun hlate => ?_, fun hlt => ?_⟩⟩
    · exact next_turned_self (exec_mirrorGapTimeout h i) (gapTimeout_none hi hb hno)
    · intro m1 c1 b1 hi1 hb1
      have hd := (exec_mirrorGapTimeout h i).trans
        (congrArg (fun m => Host.Outcome.next (turned s m)) (gapTimeout_drained (m := machOf s) hi hb ha hold rfl hi1 hb1))
      refine ⟨fun hno => hd.trans ?_, fun hyes => hd.trans ?_⟩
      · rw [show b1.held.any (heldLong (machOf s).k.now) = false from hno]
        rfl
      · rw [show b1.held.any (heldLong (machOf s).k.now) = true from hyes]
        rfl
    · intro pkg
      refine ⟨fun hfull => ?_, fun hroom => ?_⟩
      · exact next_turned_self (exec_backlogResend h) (if_pos hfull)
      · exact (exec_backlogResend h).trans (congrArg (fun m => Host.Outcome.next (turned s m)) (if_neg (Nat.not_le.mpr hroom)))
    · refine ⟨promoteShown k 1 0, ?_, promoteShown_done k, promoteShown_result k (by decide), rfl, promoteShown_regsOnly k⟩
      rw [exec_kwPromote h, doPromote_linked (m := machOf s) rfl hp, turned_sameBanks rfl]
      rfl
    · intro mine
      refine ⟨fun hm => ⟨promoteShown k 2 0, ?_, promoteShown_result k (by decide), rfl⟩, fun hm => ?_⟩
      · rw [exec_kwPromote h, doPromote_none (m := machOf s) hp hm, turned_sameBanks rfl]
        rfl
      · refine ⟨_, (exec_kwPromote h source force).trans (congrArg (fun m => Host.Outcome.next (turned s m)) (doPromote_takes (m :=
          machOf s) hp hm)), ?_, ?_, ?_⟩
        · exact (logKw_kwPromoteResult_flag _ _ 31).trans (promoteShown_done _)
        · exact (logKw_kwPromoteResult _ _ 30 28).trans (promoteShown_result _ (by decide))
        · exact (logKw_kwPromoteResult _ _ 20 0).trans (promoteShown_count _)
    · exact (exec_spillLost h hi hs ht).trans (congrArg (fun m => Host.Outcome.next (turned s m)) (if_neg (Nat.not_lt.mpr hlate)))
    · exact next_turned_self (exec_spillLost h hi hs ht) (if_pos hlt)

end Sys2Proof.Proofs
end

section
/-!
PROOFS. Requests of FAIL_REQ, requalification, the loss of a vat and errors of the hub's memory (O50).
-/

namespace Sys2Proof.Proofs

open Sys2Proof.Machine Sys2Proof.Safety Sys2Proof.Laws

/-! ### What a request leaves -/

section Done

variable (k : Chip) (code : Nat)

theorem failDone_regsOnly : regsOnly k (k.failDone code) (· = Reg.failResult) := by
  have h0 : regsOnly k k (· = Reg.failResult) := regsOnly.refl
  exact ((h0.setF 30 30 0 rfl).setF 3 0 code rfl).raise 31 rfl

theorem failDone_code (h : code < 16) : (k.failDone code).getF Reg.failResult 3 0 = code := by
  rw [Chip.failDone, getF_raise_other _ _ _ _ _ (by decide) (by decide), getF_setF_same _ _ _ _ _ (by decide) (by decide)]
  exact Nat.mod_eq_of_lt h

theorem failDone_done : (k.failDone code).flag Reg.failResult 31 = true := flag_raise_same _ _ _ (by decide)

theorem setDie_failDone_die (v d : Nat) (x : Die) : ((k.setDie v d x).failDone code).die v d = x := die_setDie_same k v d x

end Done

section Requests

variable {s : State} (h : live s true)
include h

theorem failRequest_ignored (f : Mach → Mach) (hf : s.k.flag Reg.failResult 30 = true) : failRequest s f = .next s := by
  unfold failRequest
  rw [onMach_next _ _ _ h.1 h.2, show (⟨s.dram, s.k⟩ : Mach).k = s.k from rfl, if_pos hf]

theorem failRequest_runs (f : Mach → Mach) (hf : s.k.flag Reg.failResult 30 = false) : failRequest s f = .next (withM s (f (machOf s))) := by
  unfold failRequest
  rw [onMach_next _ _ _ h.1 h.2, show (⟨s.dram, s.k⟩ : Mach).k = s.k from rfl, if_neg (by rw [hf]; exact Bool.false_ne_true)]
  rfl

/-- RETIRE_CORE as the part has the core or not. -/
def coreRetirement (p : Part) (v c : Nat) (m : Mach) : Mach :=
  if p.vats ≤ v ∨ 4 ≤ c then m.onChip (fun k => k.failDone 3) else (m.retireCore p v c).onChip (fun k => k.failDone 0)

omit h in
/-- The four requests of FAIL_REQ. -/
theorem exec_failRequest (v d a : Nat) :
    exec (.takeover v d a) s = failRequest s (fun m => m.onChip (fun k => k.requestTakeover s.part.vats v d a)) ∧
    exec (.requalify v d a) s = failRequest s (fun m => m.onChip (fun k => k.requalify s.part.vats v d a)) ∧
    exec (.retirePage v a) s = failRequest s (fun m => m.onChip (fun k => k.retirePage s.part.vats v a)) ∧
    exec (.retireCore v a) s = failRequest s (coreRetirement s.part v a) := ⟨rfl, rfl, rfl, rfl⟩

theorem exec_failRequest_ignored (hf : s.k.flag Reg.failResult 30 = true) (v d a : Nat) :
    exec (.takeover v d a) s = .next s ∧ exec (.requalify v d a) s = .next s ∧ exec (.retirePage v a) s = .next s ∧ exec (.retireCore v a) s = .next s := by
  obtain ⟨htake, hreq, hpage, hcore⟩ := exec_failRequest (s := s) v d a
  exact ⟨htake.trans (failRequest_ignored h _ hf), hreq.trans (failRequest_ignored h _ hf), hpage.trans (failRequest_ignored h _ hf),
    hcore.trans (failRequest_ignored h _ hf)⟩

section Free

variable (hf : s.k.flag Reg.failResult 30 = false)
include hf

theorem exec_takeover (v d a : Nat) : exec (.takeover v d a) s = .next (withK s (s.k.requestTakeover s.part.vats v d a)) :=
  (exec_failRequest v d a).1.trans (failRequest_runs h (fun m => m.onChip (fun k => k.requestTakeover s.part.vats v d a)) hf)

theorem exec_requalify (v d a : Nat) : exec (.requalify v d a) s = .next (withK s (s.k.requalify s.part.vats v d a)) :=
  (exec_failRequest v d a).2.1.trans (failRequest_runs h (fun m => m.onChip (fun k => k.requalify s.part.vats v d a)) hf)

theorem exec_retirePage (v a : Nat) : exec (.retirePage v a) s = .next (withK s (s.k.retirePage s.part.vats v a)) :=
  (exec_failRequest v 0 a).2.2.1.trans (failRequest_runs h (fun m => m.onChip (fun k => k.retirePage s.part.vats v a)) hf)

theorem exec_retireCore (v c : Nat) : exec (.retireCore v c) s = .next (withM s (coreRetirement s.part v c (machOf s))) :=
  (exec_failRequest v 0 c).2.2.2.trans (failRequest_runs h _ hf)

end Free

end Requests

/-! ### Pages, spare slots and cores -/

/-- A retired page is noted, and logged. -/
def pageNoted (k : Chip) (v ppn : Nat) : Chip :=
  (k.raise (Reg.retiredPages v (ppn / 32)) (ppn % 32)).log { occ 0x25 k.now with vat := v, detail := ppn }

theorem retirePage_eq {k : Chip} {V v ppn : Nat} (hv : v < V) (hp : ppn < 49152) : k.retirePage V v ppn = (pageNoted k v ppn).failDone 0 :=
  if_neg (fun h => h.elim (fun h => absurd hv (Nat.not_lt.mpr h)) (fun h => absurd hp (Nat.not_lt.mpr h)))

theorem pageNoted_flag (k : Chip) (v ppn : Nat) : (pageNoted k v ppn).flag (Reg.retiredPages v (ppn / 32)) (ppn % 32) = true := by
  have hreg : Reg.retiredPages v (ppn / 32) ≠ Reg.logOvf 0x25 := by
    simp only [Reg.retiredPages, Reg.logOvf, vatBase]
    omega
  rw [pageNoted, (log_regsOnly _ _).flag _ hreg]
  exact flag_raise_same _ _ _ (by omega)

theorem retiredPages_ne_failResult (v i : Nat) : Reg.retiredPages v i ≠ Reg.failResult := by
  simp only [Reg.retiredPages, Reg.failResult, vatBase]
  omega

theorem pageNoted_unitsKept (k : Chip) (v ppn : Nat) : unitsKept k (pageNoted k v ppn) := by
  have hlog := (log_regsOnly (k.raise (Reg.retiredPages v (ppn / 32)) (ppn % 32)) { occ 0x25 k.now with vat := v, detail := ppn }).2
  exact unitsKept_trans ⟨rfl, rfl, rfl, rfl⟩ hlog

theorem requalify_eq {k : Chip} {V v d a : Nat} (hv : v < V) (hd : d < 16) (h96 : 96 ≤ a) (h100 : a < 100)
    (hs : (k.die v d).spare (a - 96) = .retired) :
    k.requalify V v d a = (k.setDie v d { k.die v d with requal := some (a - 96, k.now) }).raise Reg.failResult 30 := by
  unfold Chip.requalify
  rw [if_neg (by omega), if_neg (not_not.mpr hs)]

/-! ### The end of a requalification -/

theorem byte_clear_outside (dr : Dram) {lo hi n : Nat} (h : n < lo ∨ hi ≤ n) : (dr.clear lo hi).byte n = dr.byte n := by
  refine (lookup_filter_key 0 (fun a => decide (a < lo) || decide (hi ≤ a)) dr.cells n).trans (if_pos ?_)
  simpa using h

theorem byte_clear_inside (dr : Dram) {lo hi n : Nat} (hlo : lo ≤ n) (hhi : n < hi) : (dr.clear lo hi).byte n = 0 := by
  refine (lookup_filter_key 0 (fun a => decide (a < lo) || decide (hi ≤ a)) dr.cells n).trans (if_neg ?_)
  simp only [Bool.or_eq_true, decide_eq_true_eq]
  omega

theorem byte_storeRun_outside (cells : List (Nat × Byte)) (marks : List (Nat × List (Nat × Nat))) (bs : List Byte) {a n : Nat}
    (h : n < a ∨ a + bs.length ≤ n) : Dram.byte { cells := storeRun 0 cells a bs, marks := marks } n = lookup 0 cells n :=
  lookup_storeRun_other 0 bs cells a n h

theorem byte_patternBank_outside (dr : Dram) (v d b : Nat) {n : Nat} (h : n < bankByte v d b 0 ∨ bankByte v d b (2 ^ 26) ≤ n) :
    (dr.patternBank v d b).byte n = dr.byte n := by
  unfold Dram.patternBank
  generalize hb : List.replicate (2 ^ 26) (0xAA : Byte) = bs
  have hlen : bs.length = 2 ^ 26 := by rw [← hb, List.length_replicate]
  have hspan : bankByte v d b (2 ^ 26) = bankByte v d b 0 + 2 ^ 26 := by
    unfold bankByte
    omega
  exact (byte_storeRun_outside _ _ bs (by rw [hlen, ← hspan]; exact h)).trans (byte_clear_outside dr h)

/-- What the log notes of a test that ends. -/
def requalNoted (k : Chip) (v d q : Nat) (passed : Bool) : Chip := k.logBank 0x29 v d (96 + q) (q + if passed then 256 else 0)

section Requalified

variable {s : State} {v d q since : Nat} (h : live s (s.hasDie v d)) (hr : (s.k.die v d).requal = some (q, since)) (ht : since + 15730000 ≤ s.k.now)
include h hr ht

/-- A test that passes zeroes the bank and readies the slot. -/
theorem exec_requalifyDone_passed : exec (.requalifyDone v d true) s =
    let x := s.k.die v d
    let b := x.phys (96 + q)
    .next { s with
      dram := s.dram.clear (bankByte v d b 0) (bankByte v d b (2 ^ 26))
      k := ((requalNoted s.k v d q true).setDie v d
        { { x with requal := none }.setSpare q .ready with spareDomain := setAt x.spareDomain q 0 }).failDone 0 } := by
  change execRequalifyDone v d true s = _
  unfold execRequalifyDone
  rw [onBoth_next _ _ _ h.1 h.2]
  dsimp only
  rw [hr]
  dsimp only
  rw [if_neg (Nat.not_lt.mpr ht)]
  rfl

/-- A test that fails leaves the slot as it was, its last pattern in the bank. -/
theorem exec_requalifyDone_failed : exec (.requalifyDone v d false) s =
    let x := s.k.die v d
    .next { s with
      dram := s.dram.patternBank v d (x.phys (96 + q))
      k := ((requalNoted s.k v d q false).setDie v d { x with requal := none }).failDone 4 } := by
  change execRequalifyDone v d false s = _
  unfold execRequalifyDone
  rw [onBoth_next _ _ _ h.1 h.2]
  dsimp only
  rw [hr]
  dsimp only
  rw [if_neg (Nat.not_lt.mpr ht)]
  rfl

end Requalified

theorem bankByte_within (v d b : Nat) {n : Nat} (h : n < 2 ^ 26) : bankByte v d b 0 ≤ bankByte v d b n ∧ bankByte v d b n < bankByte v d b (2 ^ 26) := by
  unfold bankByte
  omega

/-! ### The loss of a vat -/

theorem exec_vatLoss {s : State} {v : Nat} (h : live s (s.hasVat v)) :
    exec (.vatHeartbeatLoss v) s = .next (withM s ((machOf s).loseVat s.part v)) ∧
    exec (.baseDieInternalError v) s = .next (withM s ((machOf s).loseVat s.part v)) := by
  have hlose : s.onMach (s.hasVat v) (fun m => m.loseVat s.part v) = .next (withM s ((machOf s).loseVat s.part v)) := onMach_next s _ _ h.1 h.2
  exact ⟨hlose, hlose⟩

/-! ### The hub's memory -/

theorem hubStop_hub (k : Chip) (code : Nat) : (k.hubStop code).hub.stopped = true ∧ (k.hubStop code).hub.boot.cond = .hubStopped := ⟨rfl, rfl⟩

theorem hubStop_link (k : Chip) (code : Nat) : (k.hubStop code).getF Reg.hostLinkStatus 2 0 = 0 :=
  (getF_onHub _ _ _ _ _).trans (linksDown_hostLink _)

theorem exec_hubSramUe {s : State} (h : live s true) (hs : s.k.hub.stopped = false) (hot : Bool) (n : Nat) :
    exec (.hubSramUe hot n) s = .next (withK s (if hot then
      (s.k.onHub (fun h => { h with hot := erase h.hot (n % 2 ^ 14) })).logPlain 0x2A (n % 2 ^ 14) else s.k.hubStop n)) := by
  change execHubSramUe hot n s = _
  unfold execHubSramUe
  rw [onChip_live _ h, if_neg (by rw [hs]; exact Bool.false_ne_true)]

theorem logPlain_hub (k : Chip) (cls detail : Nat) : ∃ q, (k.logPlain cls detail).hub = { k.hub with logQ := q } :=
  log_hub k { occ cls k.now with detail := detail }

/-- Settles O50: the requests by whether one runs, the test's end by its result, the loss of a vat, and the hub's memory by what it held. -/
theorem failuresAreHandled : Obligations.FailuresAreHandled := by
  unfold Obligations.FailuresAreHandled
  intro s h V k m
  refine ⟨fun hf => ⟨fun v d a => ?_, fun v p => ?_, fun v c => ?_⟩, fun hf => ⟨exec_takeover h hf, fun v p hv hp => ?_,
    fun v d a hv hd h96 h100 hs => ?_, fun v c hv hc => ?_, fun v c hno => ?_⟩, fun v d q since passed hv hd hr ht => ?_, fun v hv => ?_,
    fun hs n => ⟨?_, ?_⟩⟩
  · obtain ⟨htake, hreq, -, -⟩ := exec_failRequest_ignored h hf v d a
    exact ⟨htake, hreq⟩
  · obtain ⟨-, -, hpage, -⟩ := exec_failRequest_ignored h hf v 0 p
    exact hpage
  · obtain ⟨-, -, -, hcore⟩ := exec_failRequest_ignored h hf v 0 c
    exact hcore
  · refine ⟨_, (exec_retirePage h hf v p).trans (congrArg (fun k => Host.Outcome.next (withK s k)) (retirePage_eq hv hp)), ?_,
      failDone_code _ _ (by decide), failDone_done _ _, ?_⟩
    · rw [(failDone_regsOnly _ _).flag _ (retiredPages_ne_failResult v _)]
      exact pageNoted_flag k v p
    · exact unitsKept_trans (pageNoted_unitsKept k v p) (failDone_regsOnly _ _).2
  · refine ⟨_, (exec_requalify h hf v d a).trans (congrArg (fun k => Host.Outcome.next (withK s k)) (requalify_eq hv hd h96 h100 hs)), ?_,
      flag_raise_same _ _ _ (by decide), rfl, rfl, rfl⟩
    exact congrArg Die.requal (die_setDie_same k v d _)
  · refine (exec_retireCore h hf v c).trans (congrArg (fun m => Host.Outcome.next (withM s m)) (if_neg ?_))
    exact fun hno => hno.elim (fun hno => absurd hv (Nat.not_lt.mpr hno)) (fun hno => absurd hc (Nat.not_lt.mpr hno))
  · exact (exec_retireCore h hf v c).trans (congrArg (fun m => Host.Outcome.next (withM s m)) (if_pos hno))
  · have hdie : live s (s.hasDie v d) := ⟨by simp [State.hasDie, State.hasVat, hd, show v < s.part.vats from hv], h.2⟩
    cases passed with
    | true =>
      refine ⟨_, exec_requalifyDone_passed hdie hr ht, rfl, ?_, failDone_code _ _ (by decide), failDone_done _ _, fun hc => absurd hc (by decide),
        fun n hn => byte_clear_outside s.dram hn, fun _ n hn => ?_⟩
      · exact congrArg Die.requal (setDie_failDone_die _ _ v d _)
      · obtain ⟨hlo, hhi⟩ := bankByte_within v d ((k.die v d).phys (96 + q)) hn
        exact byte_clear_inside s.dram hlo hhi
    | false =>
      refine ⟨_, exec_requalifyDone_failed hdie hr ht, rfl, ?_, failDone_code _ _ (by decide), failDone_done _ _, fun _ => ?_,
        fun n hn => byte_patternBank_outside s.dram v d _ hn, fun hc => absurd hc (by decide)⟩
      · exact congrArg Die.requal (setDie_failDone_die _ _ v d _)
      · exact (congrArg (fun x : Die => x.spare q) (setDie_failDone_die _ _ v d _)).trans rfl
  · exact exec_vatLoss ⟨decide_eq_true hv, h.2⟩
  · obtain ⟨q, hq⟩ := logPlain_hub (k.onHub (fun h => { h with hot := erase h.hot (n % 2 ^ 14) })) 0x2A (n % 2 ^ 14)
    refine ⟨_, exec_hubSramUe h hs true n, ?_, ?_, unitsKept_trans ⟨rfl, rfl, rfl, rfl⟩ (logPlain_unitsKept _ _ _)⟩
    · exact (congrArg Hub.hot hq).trans rfl
    · exact (congrArg Hub.stopped hq).trans hs
  · refine ⟨_, exec_hubSramUe h hs false n, rfl, rfl, ?_, hubStop_link k n⟩
    exact Bool.or_eq_true_iff.mpr (.inr (decide_eq_true rfl))

end Sys2Proof.Proofs
end

section
/-!
PROOFS. SPDM: which requests are answered, what a session reads after one opens, changes or ends, and the requests themselves (O41).
-/

namespace Sys2Proof.Proofs

open Sys2Proof.Machine Sys2Proof.Safety Sys2Proof.Laws

/-! ### Which requests are served -/

/-- The part serves SPDM and rind requests: it does not stop, and is neither before ROM's checks nor TAMPERED. -/
structure RindServes (k : Chip) : Prop where
  running : k.hub.stopped = false
  checked : k.getF Reg.rindStatus 1 0 ≠ 0
  whole : k.getF Reg.rindStatus 1 0 ≠ 3

theorem spdmRequest_serves {k : Chip} (hr : RindServes k) (always : Bool) (f : Chip → Chip) : k.spdmRequest always f = f k := by
  have hgo : ¬ (k.hub.stopped || k.getF Reg.rindStatus 1 0 = 0) = true := by simp [hr.running, hr.checked]
  have hno : ¬ (k.getF Reg.rindStatus 1 0 = 3 && !always) = true := by simp [hr.whole]
  rw [Chip.spdmRequest, if_neg hgo, if_neg hno]

theorem spdmRequest_tampered {k : Chip} (hs : k.hub.stopped = false) (ht : k.getF Reg.rindStatus 1 0 = 3) (f : Chip → Chip) :
    k.spdmRequest false f = k.spdmError 5 := by
  have hgo : ¬ (k.hub.stopped || k.getF Reg.rindStatus 1 0 = 0) = true := by simp [hs, ht]
  rw [Chip.spdmRequest, if_neg hgo, if_pos (by simp [ht])]

/-- A request that the part serves. -/
theorem onChip_serves {s : State} (h : live s true) (hr : RindServes s.k) (always : Bool) (f : Chip → Chip) :
    s.onChip true (fun k => k.spdmRequest always f) = .next (withK s (f s.k)) := by
  rw [onChip_live _ h, spdmRequest_serves hr]

/-- A request refused in TAMPERED. -/
theorem onChip_tampered {s : State} (h : live s true) (hs : s.k.hub.stopped = false) (ht : s.k.getF Reg.rindStatus 1 0 = 3) (f : Chip → Chip) :
    s.onChip true (fun k => k.spdmRequest false f) = .next (answered s s.k (.bytes 0x7F [5])) := by
  rw [onChip_live _ h, spdmRequest_tampered hs ht]
  rfl

/-! ### Sessions -/

theorem find?_erase_other {α : Type} (t : List (Nat × α)) {i j : Nat} (h : j ≠ i) :
    (erase t i).find? (fun e => e.1 = j) = t.find? (fun e => e.1 = j) := by
  induction t with
  | nil => rfl
  | cons p t ih =>
    obtain ⟨a, x⟩ := p
    unfold erase
    split
    · rename_i he
      rw [List.find?_cons_of_neg (by simpa using fun ha : a = j => h (ha.symm.trans he.symm))]
    · rw [List.find?_cons, List.find?_cons, ih]

theorem find?_erase_same {α : Type} (t : List (Nat × α)) (i : Nat) (r : risingFrom 0 t = true) :
    (erase t i).find? (fun e => e.1 = i) = none :=
  List.find?_eq_none.mpr (fun p hp => by simpa using key_ne_of_mem_erase r hp)

section Sessions

variable (k : Chip) (i : Nat) (x : Session)

theorem session_setSession_same : (k.setSession i x).session i = some x :=
  congrArg (Option.map (fun e : Nat × Session => e.2)) (find?_insert_same k.hub.sessions i x)

theorem session_setSession_other {j : Nat} (h : j ≠ i) : (k.setSession i x).session j = k.session j :=
  congrArg (Option.map (fun e : Nat × Session => e.2)) (find?_insert_other k.hub.sessions x h)

/-- The chip with a session ended. -/
def endedSession (k : Chip) (i : Nat) : Chip := k.onHub (fun h => { h with sessions := erase h.sessions i })

theorem session_endedSession_same (r : risingFrom 0 k.hub.sessions = true) : (endedSession k i).session i = none :=
  congrArg (Option.map (fun e : Nat × Session => e.2)) (find?_erase_same k.hub.sessions i r)

theorem session_endedSession_other {j : Nat} (h : j ≠ i) : (endedSession k i).session j = k.session j :=
  congrArg (Option.map (fun e : Nat × Session => e.2)) (find?_erase_other k.hub.sessions h)

end Sessions

/-! ### Requests inside a session -/

section Served

variable {s : State} (h : live s true) (hr : RindServes s.k)

include h hr

theorem inSession_open {i : Nat} {x : Session} (hx : s.k.session i = some x) (f : Session → Chip → Chip) :
    inSession i s f = .next (withK s (f x s.k)) := by
  rw [inSession, onChip_serves h hr, hx]

theorem inSession_none {i : Nat} (hx : s.k.session i = none) (f : Session → Chip → Chip) :
    inSession i s f = .next (answered s s.k (.bytes 0x7F [2])) := by
  rw [inSession, onChip_serves h hr, hx]
  rfl

theorem exec_keyExchange_opens {i : Nat} (hi : (List.range 4).find? (fun j => (s.k.session j).isNone) = some i) :
    exec .keyExchange s = .next (answered s (s.k.setSession i { finished := false, bound := none, nonce := none })
      (.bytes 0x64 (BitVec.ofNat 8 i :: Config.spdmBody 0x64 s.k.hub.aliasKey []))) := by
  change execKeyExchange s = _
  rw [execKeyExchange, onChip_serves h hr, hi]
  rfl

theorem exec_keyExchange_busy (hi : (List.range 4).find? (fun j => (s.k.session j).isNone) = none) :
    exec .keyExchange s = .next (answered s s.k (.bytes 0x7F [3])) := by
  change execKeyExchange s = _
  rw [execKeyExchange, onChip_serves h hr, hi]
  rfl

theorem exec_getCertificate_other {slot : Nat} (hs : slot ≠ 0) (offset len : Nat) :
    exec (.getCertificate slot offset len) s = .next (answered s s.k (.bytes 0x7F [1])) := by
  change execGetCertificate slot offset len s = _
  rw [execGetCertificate, onChip_serves h hr, if_pos hs]
  rfl

/-- The requests inside an open session act on it alone. -/
theorem session_requests {i : Nat} {x : Session} (hx : s.k.session i = some x) :
    (∃ k', exec (.finish i true) s = .next (withK s k') ∧ k'.hub.resp = .bytes 0x65 [] ∧ k'.session i = some { x with finished := true } ∧
      (∀ j, j ≠ i → k'.session j = s.k.session j) ∧ hubOnly s.k k') ∧
    exec (.finish i false) s = .next (answered s s.k (.bytes 0x7F [6])) ∧ exec (.heartbeat i) s = .next (answered s s.k (.bytes 0x68 [])) ∧
    exec (.keyUpdate i) s = .next (answered s s.k (.bytes 0x69 [])) ∧
    (risingFrom 0 s.k.hub.sessions = true →
      ∃ k', exec (.endSession i) s = .next (withK s k') ∧ k'.hub.resp = .bytes 0x6C [] ∧ k'.session i = none ∧
        (∀ j, j ≠ i → k'.session j = s.k.session j) ∧ hubOnly s.k k') :=
  ⟨⟨_, inSession_open h hr hx _, rfl, session_setSession_same _ _ _, fun _ hj => session_setSession_other _ _ _ hj, rfl, rfl, rfl, rfl, rfl⟩,
   inSession_open h hr hx _, inSession_open h hr hx _, inSession_open h hr hx _,
   fun r => ⟨_, inSession_open h hr hx _, rfl, session_endedSession_same _ _ r, fun _ hj => session_endedSession_other _ _ hj,
     rfl, rfl, rfl, rfl, rfl⟩⟩

end Served

/-- Settles O41: which requests the part serves decides whether the request's own effect follows; a session reads back as it was set. -/
theorem spdmAnswersOrRefuses : Obligations.SpdmAnswersOrRefuses := by
  unfold Obligations.SpdmAnswersOrRefuses
  refine ⟨fun s h hs h0 h3 => ?_, fun s c h hs ht hc => ?_⟩
  · have hr : RindServes s.k := ⟨hs, h0, h3⟩
    refine ⟨onChip_serves h hr _ _, ⟨_, onChip_serves h hr _ _⟩, ⟨_, onChip_serves h hr _ _⟩, ⟨_, onChip_serves h hr _ _⟩,
      ⟨_, fun _ _ => onChip_serves h hr _ _⟩, fun _ _ _ hslot => exec_getCertificate_other h hr hslot _ _, fun _ => ⟨_, onChip_serves h hr _ _⟩,
      fun _ => ⟨_, onChip_serves h hr _ _⟩, fun i hi => ?_, fun hall => ?_, fun i x hx => session_requests h hr hx, fun i good hx => ?_⟩
    · exact ⟨_, _, exec_keyExchange_opens h hr hi, rfl, session_setSession_same _ _ _, fun _ hj => session_setSession_other _ _ _ hj,
        rfl, rfl, rfl, rfl, rfl⟩
    · refine exec_keyExchange_busy h hr (List.find?_eq_none.mpr fun j hj => ?_)
      have := List.all_eq_true.mp hall j hj
      simpa [Option.isSome_iff_ne_none] using this
    · exact ⟨inSession_none h hr hx _, inSession_none h hr hx _, inSession_none h hr hx _, inSession_none h hr hx _⟩
  · have refused := onChip_tampered h hs ht
    rcases hc with rfl | ⟨n, rfl⟩ | ⟨i, g, rfl⟩ | ⟨i, rfl | rfl | rfl⟩ | ⟨x, rfl | rfl | rfl | rfl⟩ | ⟨x, d, a, g, rfl⟩ | ⟨x, key, rfl⟩ |
      ⟨x, n, rfl⟩ | ⟨n, rfl⟩ | ⟨o, rfl⟩ | ⟨x, f, rfl | rfl⟩ | ⟨x, b, rfl⟩ <;> exact refused _

end Sys2Proof.Proofs

end

section
/-!
PROOFS. The rind's requests over a secured session (O42).
-/

namespace Sys2Proof.Proofs

open Sys2Proof.Machine Sys2Proof.Safety Sys2Proof.Laws

/-! ### Domains -/

/-- Domain `d` of a list of declared domains, all of number `e` changed by `f`: those of another number stay. -/
theorem find?_map_other {t : List (Nat × Domain)} {d e : Nat} (f : Domain → Domain) (h : d ≠ e) :
    (t.map (fun x => if x.1 = e then (x.1, f x.2) else x)).find? (fun x => x.1 = d) = t.find? (fun x => x.1 = d) := by
  induction t with
  | nil => rfl
  | cons p t ih =>
    rw [List.map_cons, List.find?_cons, List.find?_cons, ih]
    by_cases hp : p.1 = e
    · have hd : ¬ e = d := fun he => h he.symm
      simp [hp, hd]
    · simp [hp]

theorem find?_map_same {t : List (Nat × Domain)} {e : Nat} (f : Domain → Domain) :
    (t.map (fun x => if x.1 = e then (x.1, f x.2) else x)).find? (fun x => x.1 = e) =
      (t.find? (fun x => x.1 = e)).map (fun x => (x.1, f x.2)) := by
  induction t with
  | nil => rfl
  | cons p t ih =>
    rw [List.map_cons, List.find?_cons, List.find?_cons, ih]
    by_cases hp : p.1 = e <;> simp [hp]

theorem domain_onDomain_other (k : Chip) {d e : Nat} (f : Domain → Domain) (h : d ≠ e) : (k.onDomain e f).domain d = k.domain d :=
  congrArg (Option.map (fun x : Nat × Domain => x.2)) (find?_map_other f h)

theorem domain_onDomain_same (k : Chip) (e : Nat) (f : Domain → Domain) : (k.onDomain e f).domain e = (k.domain e).map f := by
  refine (congrArg (Option.map (fun x : Nat × Domain => x.2)) (find?_map_same f)).trans ?_
  rw [Chip.domain, Option.map_map, Option.map_map]
  rfl

/-! ### A new owner -/

/-- The chip with its owners `o`: no session is left, and domain 0 has no keys. -/
def seated (k : Chip) (o : List (List Byte)) : Chip :=
  (k.onHub (fun h => { h with owners := o, sessions := [] })).onDomain 0 (fun x => { x with keys := [], algs := 0 })

/-- The chip with its key `a` derived, a request answered `ok`. -/
def aliased (k : Chip) (a : List Byte) : Chip := (k.onHub (fun h => { h with aliasKey := a })).rind .ok []

/-- R655, R661: the secret of the key that signs the measurements. -/
def aliasOf (k : Chip) (p : Part) : List Byte := deriveKey (asciiBytes "ALIAS" :: [1, 2, 4, 7].map (k.measure p)) 48

/-- The owners with one more. -/
def ownersWith (k : Chip) (finger : BitVec 384) : List (List Byte) := k.hub.owners ++ [beBytes 48 finger.toNat]

theorem newOwner_eq (k : Chip) (p : Part) (finger : BitVec 384) :
    k.newOwner p finger = aliased (seated k (ownersWith k finger)) (aliasOf (seated k (ownersWith k finger)) p) := rfl

/-- The measurements are not over that key. -/
theorem measure_aliased (k : Chip) (a : List Byte) (p : Part) (i : Nat) : (aliased k a).measure p i = k.measure p i := by
  unfold Chip.measure
  split <;> rfl

theorem aliasOf_aliased (k : Chip) (a : List Byte) (p : Part) : aliasOf (aliased k a) p = aliasOf k p := by
  rw [aliasOf, aliasOf, funext (measure_aliased k a p)]

theorem aliased_domain (k : Chip) (a : List Byte) (d : Nat) : (aliased k a).domain d = k.domain d := by
  simp only [aliased, Chip.rind, Chip.answer, Chip.domain, onHub_hub]

theorem aliased_sessions (k : Chip) (a : List Byte) : (aliased k a).hub.sessions = k.hub.sessions := by
  simp only [aliased, Chip.rind, Chip.answer, onHub_hub]

theorem aliased_owners (k : Chip) (a : List Byte) : (aliased k a).hub.owners = k.hub.owners := by
  simp only [aliased, Chip.rind, Chip.answer, onHub_hub]

theorem aliased_aliasKey (k : Chip) (a : List Byte) : (aliased k a).hub.aliasKey = a := by
  simp only [aliased, Chip.rind, Chip.answer, onHub_hub]

theorem aliased_hubOnly (k : Chip) (a : List Byte) : hubOnly k (aliased k a) := ⟨rfl, rfl, rfl, rfl, rfl⟩

/-- What a claim or a transfer leaves: no session, domain 0 without keys, the other domains as they were, and that key derived afresh. -/
structure Owned (p : Part) (k k' : Chip) : Prop where
  sessions : k'.hub.sessions = []
  keys : ∀ z, k'.domain 0 = some z → z.keys = []
  others : ∀ d, d ≠ 0 → k'.domain d = k.domain d
  alias_key : k'.hub.aliasKey = aliasOf k' p

theorem seated_keys (k : Chip) (o : List (List Byte)) (z : Domain) (hz : (seated k o).domain 0 = some z) : z.keys = [] := by
  rw [seated, domain_onDomain_same] at hz
  obtain ⟨y, -, rfl⟩ := Option.map_eq_some_iff.mp hz
  rfl

theorem seated_domain (k : Chip) (o : List (List Byte)) {d : Nat} (h : d ≠ 0) : (seated k o).domain d = k.domain d :=
  (domain_onDomain_other (k.onHub (fun h => { h with owners := o, sessions := [] })) (fun x => { x with keys := [], algs := 0 }) h).trans rfl

theorem newOwner_owned (k : Chip) (p : Part) (finger : BitVec 384) : Owned p k (k.newOwner p finger) := by
  rw [newOwner_eq]
  generalize ownersWith k finger = o
  exact {
    sessions := aliased_sessions _ _
    keys := fun z hz => seated_keys k o z (aliased_domain _ _ _ ▸ hz)
    others := fun d hd => (aliased_domain _ _ _).trans (seated_domain k o hd)
    alias_key := (aliased_aliasKey _ _).trans (aliasOf_aliased _ _ _).symm }

theorem newOwner_told (k : Chip) (p : Part) (finger : BitVec 384) :
    (k.newOwner p finger).hub.resp = .bytes 0 [] ∧ hubOnly k (k.newOwner p finger) ∧
      (k.newOwner p finger).hub.owners = ownersWith k finger := by
  rw [newOwner_eq]
  generalize ownersWith k finger = o
  exact ⟨rfl, aliased_hubOnly (seated k o) _, aliased_owners _ _⟩

/-! ### Requests over a secured session -/

section Held

variable {k : Chip} {i d : Nat} {y : Domain} (hy : k.domain d = some y) (hfree : k.txnNames d = false)

include hy hfree

theorem rindOrHold_keySet (key : List Byte) :
    k.rindOrHold i d (.keySet key) = (k.onDomain d (fun z => { z with dsk := some key })).rind .ok [] := by
  simp [Chip.rindOrHold, hfree, Chip.performRind, hy]

theorem rindOrHold_keyErase : k.rindOrHold i d .keyErase = (k.onDomain d (fun z => { z with dsk := none })).rind .ok [] := by
  simp [Chip.rindOrHold, hfree, Chip.performRind, hy]

theorem rindOrHold_unlock_tenant (hd : d ≠ 0) (n : Nat) :
    k.rindOrHold i d (.unlock n) = (k.onDomain d (fun z => { z with grants := Nat.lor z.grants (n % 8) })).rind .ok [] := by
  simp [Chip.rindOrHold, hfree, Chip.performRind, hy, hd]

theorem rindOrHold_unlock_package (hd : d = 0) (n : Nat) :
    k.rindOrHold i d (.unlock n) =
      if k.tenants then k.rind .tenantsPresent [] else (k.onDomain 0 (fun z => { z with grants := 7 })).rind .ok [] := by
  subst hd
  simp [Chip.rindOrHold, hfree, Chip.performRind, hy]

end Held

section Secured

variable {s : State} {i : Nat} {x : Session} (h : live s true) (hr : RindServes s.k) (hx : s.k.session i = some x) (hf : x.finished = true)

include h hr hx hf

theorem secured_open (f : Nat → Session → Chip → Chip) : secured (some i) s f = .next (withK s (f i x s.k)) := by
  rw [secured, onChip_serves h hr]
  simp only [hx, hf, if_true]

theorem boundTo_open {d : Nat} {y : Domain} {may : Nat → Bool} (hb : x.bound = some d) (hd : s.k.domain d = some y) (hm : may d = true)
    (f : Nat → Nat → Chip → Chip) : boundTo (some i) may s f = .next (withK s (f i d s.k)) := by
  rw [boundTo, secured_open h hr hx hf]
  simp only [hb, hd, hm, Option.isSome_some, Bool.and_self, if_true]

theorem exec_domainChallenge :
    exec (.domainChallenge (some i)) s =
      .next (answered s (s.k.draw.2.setSession i { x with nonce := some s.k.draw.1 }) (.bytes 0 s.k.draw.1)) := by
  change execDomainChallenge (some i) s = _
  rw [execDomainChallenge, secured_open h hr hx hf]
  rfl

theorem exec_domainBind_undeclared {d : Nat} (hd : s.k.domain d = none) (alg : Nat) (good : Bool) :
    exec (.domainBind (some i) d alg good) s = .next (answered s s.k (.bytes 3 [])) := by
  change execDomainBind (some i) d alg good s = _
  rw [execDomainBind, secured_open h hr hx hf, hd]
  rfl

theorem exec_domainBind {d alg : Nat} {y : Domain} (hd : s.k.domain d = some y) (hn : x.nonce.isSome = true) (ha : alg = 1 ∨ alg = 2)
    (hb : y.algs.testBit (alg - 1) = true) :
    exec (.domainBind (some i) d alg true) s =
      .next (answered s (s.k.setSession i { x with nonce := none, bound := some d }) (.bytes 0 [])) ∧
    exec (.domainBind (some i) d alg false) s = .next (answered s (s.k.setSession i { x with nonce := none }) (.bytes 4 [])) := by
  have hno : ¬ x.nonce.isNone = true := by simpa [Option.isSome_iff_ne_none] using hn
  constructor
  · change execDomainBind (some i) d alg true s = _
    rw [execDomainBind, secured_open h hr hx hf, hd]
    dsimp only
    rw [if_neg hno, if_pos ⟨rfl, ha, hb⟩]
    rfl
  · change execDomainBind (some i) d alg false s = _
    rw [execDomainBind, secured_open h hr hx hf, hd]
    dsimp only
    rw [if_neg hno, if_neg (fun hg => Bool.false_ne_true hg.1)]
    rfl

theorem exec_ownerClaim_unowned (ho : s.k.hub.owners = []) (f : BitVec 384) :
    exec (.ownerClaim (some i) f) s = .next (withK s (s.k.newOwner s.part f)) := by
  change execOwnerClaim (some i) f s = _
  rw [execOwnerClaim, secured_open h hr hx hf, if_neg (not_not.mpr ho)]

theorem exec_ownerClaim_owned (ho : s.k.hub.owners ≠ []) (f : BitVec 384) :
    exec (.ownerClaim (some i) f) s = .next (answered s s.k (.bytes 10 [])) := by
  change execOwnerClaim (some i) f s = _
  rw [execOwnerClaim, secured_open h hr hx hf, if_pos ho]
  rfl

/-- The chip with an IDE key programmed. -/
def ideKeyed (k : Chip) (key : IdeKey) : Chip :=
  if (k.hub.ide.set key).cxl.isSome then (k.onHub (fun h => { h with ide := h.ide.set key })).setF Reg.hostLinkStatus 9 9 1
  else k.onHub (fun h => { h with ide := h.ide.set key })

theorem exec_ideKeyProgram (hb : x.bound = none) (hl : s.k.getF Reg.hostLinkStatus 2 0 ≠ 0) (key : IdeKey) :
    exec (.ideKeyProgram (some i) key) s = .next (answered s (ideKeyed s.k key) (.bytes 0 [])) := by
  change execIdeKeyProgram (some i) key s = _
  rw [execIdeKeyProgram, secured_open h hr hx hf, if_neg (by simp [hb, hl])]
  rfl

section Bound

variable {d : Nat} {y : Domain} (hb : x.bound = some d) (hd : s.k.domain d = some y)

include hb hd

theorem exec_domainKeySet (ht : d ≠ 0) (hfree : s.k.txnNames d = false) (key : List Byte) (hl : key.length = 32) :
    exec (.domainKeySet (some i) key) s = .next (answered s (s.k.onDomain d (fun z => { z with dsk := some key })) (.bytes 0 [])) := by
  change execDomainKeySet (some i) key s = _
  rw [execDomainKeySet, boundTo_open h hr hx hf hb hd (decide_eq_true ht), if_neg (not_not.mpr hl), rindOrHold_keySet hd hfree]
  rfl

theorem exec_domainKeyErase (ht : d ≠ 0) (hfree : s.k.txnNames d = false) :
    exec (.domainKeyErase (some i)) s = .next (answered s (s.k.onDomain d (fun z => { z with dsk := none })) (.bytes 0 [])) := by
  change execDomainKeyErase (some i) s = _
  rw [execDomainKeyErase, boundTo_open h hr hx hf hb hd (decide_eq_true ht), rindOrHold_keyErase hd hfree]
  rfl

theorem exec_debugUnlock_tenant (ht : d ≠ 0) (hfree : s.k.txnNames d = false) (n : Nat) :
    exec (.debugUnlock (some i) n) s =
      .next (answered s (s.k.onDomain d (fun z => { z with grants := Nat.lor z.grants (n % 8) })) (.bytes 0 [])) := by
  change execDebugUnlock (some i) n s = _
  rw [execDebugUnlock, boundTo_open h hr hx hf hb hd rfl, rindOrHold_unlock_tenant hd hfree ht]
  rfl

theorem exec_debugUnlock_package (ht : d = 0) (hfree : s.k.txnNames d = false) (n : Nat) :
    exec (.debugUnlock (some i) n) s = .next (withK s
      (if s.k.tenants then s.k.rind .tenantsPresent [] else (s.k.onDomain 0 (fun z => { z with grants := 7 })).rind .ok [])) := by
  change execDebugUnlock (some i) n s = _
  rw [execDebugUnlock, boundTo_open h hr hx hf hb hd rfl, rindOrHold_unlock_package hd hfree ht]

theorem exec_debugLock : exec (.debugLock (some i)) s = .next (answered s (s.k.revoke d) (.bytes 0 [])) :=
  boundTo_open h hr hx hf hb hd (may := fun _ => true) rfl (fun _ d k => (k.revoke d).rind .ok [])

theorem exec_domainKeyWrap_none (ht : d ≠ 0) (hk : y.dsk = none) : exec (.domainKeyWrap (some i)) s = .next (answered s s.k (.bytes 7 [])) := by
  change execDomainKeyWrap (some i) s = _
  rw [execDomainKeyWrap, boundTo_open h hr hx hf hb hd (decide_eq_true ht), hd]
  dsimp only
  rw [hk]
  rfl

theorem exec_domainKeyWrap (ht : d ≠ 0) {key : List Byte} (hk : y.dsk = some key) :
    exec (.domainKeyWrap (some i)) s = .next (answered s s.k.draw.2 (.bytes 0 (blobOf d y.finger (s.k.draw.1.take 12) key))) := by
  change execDomainKeyWrap (some i) s = _
  rw [execDomainKeyWrap, boundTo_open h hr hx hf hb hd (decide_eq_true ht), hd]
  dsimp only
  rw [hk]
  rfl

theorem exec_ownerTransfer (hz : d = 0) (ht : s.k.tenants = false) (hn : s.k.hub.owners.length < 4) (f : BitVec 384) :
    exec (.ownerTransfer (some i) f) s = .next (withK s (s.k.newOwner s.part f)) := by
  change execOwnerTransfer (some i) f s = _
  rw [execOwnerTransfer, boundTo_open h hr hx hf hb hd (decide_eq_true hz), if_neg (by simp [ht]), if_neg (Nat.not_le.mpr hn)]

end Bound

end Secured

/-! ### IDE keys -/

theorem ideKeyed_ide (k : Chip) (key : IdeKey) : (ideKeyed k key).hub.ide = k.hub.ide.set key := by
  unfold ideKeyed
  split <;> rfl

theorem ideKeyed_flag (k : Chip) (key : IdeKey) (h : (k.hub.ide.set key).cxl.isSome = true) :
    (ideKeyed k key).flag Reg.hostLinkStatus 9 = true := by
  unfold ideKeyed
  rw [if_pos h]
  exact flag_setF_bit (k.onHub (fun h => { h with ide := h.ide.set key })) Reg.hostLinkStatus 9 true (by decide)

theorem ideKeyed_regsOnly (k : Chip) (key : IdeKey) :
    regsOnly k (ideKeyed k key) (fun o => (k.hub.ide.set key).cxl.isSome = true ∧ o = Reg.hostLinkStatus) := by
  have h0 : regsOnly k k (fun o => (k.hub.ide.set key).cxl.isSome = true ∧ o = Reg.hostLinkStatus) := regsOnly.refl
  unfold ideKeyed
  split
  · next hc => exact (h0.onHub _).setF 9 9 1 ⟨hc, rfl⟩
  · exact h0.onHub _

/-- Settles O42: over a session that a FINISH has completed each request comes to its own effect; a new owner's lemmas say what a claim leaves. -/
theorem rindRequestsAct : Obligations.RindRequestsAct := by
  unfold Obligations.RindRequestsAct
  intro s i x h hs h0 h3 hx hf
  have hr : RindServes s.k := ⟨hs, h0, h3⟩
  refine ⟨exec_domainChallenge h hr hx hf, fun d alg y hd hn ha hb => exec_domainBind h hr hx hf hd hn ha hb,
    fun d alg good hd => exec_domainBind_undeclared h hr hx hf hd alg good, fun d y hb hd => ⟨fun ht hfree => ?_, fun ht key hk => ?_,
    fun ht hk => ?_,
      fun hz hfree htn n => ?_, fun hz hfree htn n => ?_, exec_debugLock h hr hx hf hb hd, fun hz htn hn f => ?_⟩,
    fun ho f => ?_, fun ho f => exec_ownerClaim_owned h hr hx hf ho f, fun hb hl key => ?_, fun n => onChip_serves h hr _ _, fun o ho => ?_⟩
  · exact ⟨exec_domainKeySet h hr hx hf hb hd ht hfree, exec_domainKeyErase h hr hx hf hb hd ht hfree,
      exec_debugUnlock_tenant h hr hx hf hb hd ht hfree⟩
  · exact exec_domainKeyWrap h hr hx hf hb hd ht hk
  · exact exec_domainKeyWrap_none h hr hx hf hb hd ht hk
  · rw [exec_debugUnlock_package h hr hx hf hb hd hz (hz ▸ hfree), htn]
    rfl
  · rw [exec_debugUnlock_package h hr hx hf hb hd hz (hz ▸ hfree), htn]
    rfl
  · have hw := newOwner_owned s.k s.part f
    obtain ⟨hresp, honly, howners⟩ := newOwner_told s.k s.part f
    exact ⟨_, exec_ownerTransfer h hr hx hf hb hd hz htn hn f, hresp, honly, howners, hw.sessions, hw.keys, hw.others, hw.alias_key⟩
  · have hw := newOwner_owned s.k s.part f
    obtain ⟨hresp, honly, howners⟩ := newOwner_told s.k s.part f
    rw [ownersWith, ho] at howners
    exact ⟨_, exec_ownerClaim_unowned h hr hx hf ho f, hresp, honly, howners, hw.sessions, hw.keys, hw.others, hw.alias_key⟩
  · have hide := ideKeyed_ide s.k key
    have hreg := ideKeyed_regsOnly s.k key
    refine ⟨_, exec_ideKeyProgram h hr hx hf hb hl key, rfl, hide, fun hc => ?_, ?_⟩
    · exact ideKeyed_flag s.k key (hide ▸ hc)
    · exact (hide ▸ hreg).onHub _
  · change execPqCert o s = _
    rw [execPqCert, onChip_serves h hr, if_neg (Nat.not_le.mpr ho)]
    rfl

end Sys2Proof.Proofs

end

section
/-!
PROOFS. The transactions of the culture image (O43): an operation's end, the entries fed to hoops and the requests released add nothing to any
bank's queue, so an operation that ends reads no row that waits.
-/

namespace Sys2Proof.Proofs

open Sys2Proof.Machine Sys2Proof.Safety Sys2Proof.Laws

/-! ### What an entry's landing leaves of the bank units -/

section HoopBanks

variable (k : Chip) (v c h : Nat)

@[simp] theorem count_bus (o n : Nat) : (k.count o n).bus = k.bus := by
  simp only [Chip.count]; split <;> rfl

theorem onPeer_bus (f : Hoop → Hoop) : (k.onPeer v c h f).bus = k.bus := by
  unfold Chip.onPeer; split <;> rfl

theorem notePush_bus : (k.notePush v c h).bus = k.bus := by
  unfold Chip.notePush
  dsimp only
  split <;> simp [onPeer_bus]

theorem noteDepth_bus : (k.noteDepth v c h).bus = k.bus := by
  unfold Chip.noteDepth
  dsimp only
  split <;> rfl

theorem flushHoop_bus : (k.flushHoop v c h).bus = k.bus := by
  unfold Chip.flushHoop
  dsimp only
  split <;> rfl

theorem settleHoop_bus : (k.settleHoop v c h).bus = k.bus := rfl

theorem landOne_bus (e : Entry) : (k.landOne v c h e).bus = k.bus := by
  unfold Chip.landOne
  dsimp only
  split
  · split
    · exact (flushHoop_bus _ v c h).trans (notePush_bus k v c h)
    · exact notePush_bus k v c h
  · exact (settleHoop_bus _ v c h).trans ((noteDepth_bus _ v c h).trans (notePush_bus k v c h))

theorem pushOf_bus {s : Nat} {e : Entry} {k' : Chip} (hp : k.pushOf v c s h = some (e, k')) : k'.bus = k.bus := by
  unfold Chip.pushOf at hp
  split at hp
  · cases hp
  · split at hp
    · exact (congrArg Chip.bus (Prod.ext_iff.mp (Option.some.inj hp)).2).symm
    · exact (congrArg Chip.bus (Prod.ext_iff.mp (Option.some.inj hp)).2).symm
    · obtain ⟨_, _, he⟩ := Option.map_eq_some_iff.mp hp
      exact (congrArg Chip.bus (Prod.ext_iff.mp he).2).symm
    · cases hp

theorem nextPush_bus {but : Nat} {e : Entry} {k' : Chip} (hp : k.nextPush v c h but = some (e, k')) : k'.bus = k.bus := by
  obtain ⟨s, _, hs⟩ := List.exists_of_findSome?_eq_some hp
  split at hs
  · cases hs
  · exact pushOf_bus k v c h hs

theorem landWaiting_bus (fuel but : Nat) : (Chip.landWaiting fuel k v c h but).bus = k.bus := by
  induction fuel generalizing k with
  | zero => rfl
  | succ n ih =>
    unfold Chip.landWaiting
    split
    · rename_i hp
      rw [ih, landOne_bus, nextPush_bus k v c h hp]
    · rfl

theorem landEntry_bus (e : Entry) : (k.landEntry v c h e).bus = k.bus := by
  unfold Chip.landEntry
  split
  · rw [landWaiting_bus, landOne_bus]
  · exact landOne_bus k v c h e

theorem feedHub_bus : k.feedHub.bus = k.bus := by
  unfold Chip.feedHub
  refine foldl_keeps (fun a : Chip × List FeedEntry => a.1.bus = k.bus) _ k.hub.feed (k, []) rfl (fun a x ha => ?_)
  dsimp only
  split
  · exact ha
  · exact (landEntry_bus _ _ _ _ _).trans ha

end HoopBanks

/-! ### Requests that a transaction held -/

theorem performRind_bus (k : Chip) (d : Nat) (r : RindReq) : (k.performRind d r).bus = k.bus := by
  unfold Chip.performRind
  split
  · rfl
  · cases r with
    | keySet key => rfl
    | keyErase => rfl
    | unlock n =>
      dsimp only
      split
      · split <;> rfl
      · rfl

theorem releaseRind_bus (k : Chip) : k.releaseRind.bus = k.bus :=
  (foldl_unchanged Chip.bus (fun (k : Chip) (r : HeldReq) => k.performRind r.domain r.req) (fun k r => performRind_bus k r.domain r.req)
    k.hub.heldReqs (k.onHub (fun h => { h with heldReqs := [] }))).trans rfl

/-! ### How an operation ends -/

theorem ciEnd_bus (k : Chip) (r : CiResult) (st : Nat) : (k.ciEnd r st).bus = k.bus := by
  unfold Chip.ciEnd
  dsimp only
  refine (msix_regsOnly _ _).2.2.2.1.trans ?_
  split
  · rfl
  · exact count_bus _ _ _

theorem refuseCommit_bus (k : Chip) (r : CiResult) : (k.refuseCommit r).bus = k.bus := by
  rw [Chip.refuseCommit, feedHub_bus, releaseRind_bus, ciEnd_bus]
  rfl

/-! ### The operations of CI_CTL -/

section Ops

variable {s : State} (h : live s true)

include h

theorem exec_begin : exec .begin s = .next (withK s s.k.begin) := onChip_live _ h

theorem exec_rollback : exec .rollback s = .next (withK s s.k.rollback) := onChip_live _ h

theorem exec_stage (verdicts : List Bool) (patch : Bool) :
    exec (.stage verdicts patch) s = .next (turned s ((machOf s).stage s.part verdicts patch)) :=
  onTurn_live (fun m => m.stage s.part verdicts patch) h

theorem exec_commit (force : Bool) : exec (.commit force) s = .next (withM s ((machOf s).commitImage s.part force)) :=
  onMach_next s true (fun m => m.commitImage s.part force) h.1 h.2

end Ops

section Open

variable (m : Mach) (f : Txn → Mach → Mach)

theorem ciOpen_shut (hs : m.k.ciShut = true) : m.ciOpen f = m.onChip Chip.ciIgnore := by
  rw [Mach.ciOpen, if_pos hs]

theorem ciOpen_open {t : Txn} (hs : m.k.ciShut = false) (h1 : m.k.ciState = 1) (ht : m.k.hub.txn = some t) : m.ciOpen f = f t m := by
  rw [Mach.ciOpen, if_neg (Bool.eq_false_iff.mp hs), ht]
  exact if_pos h1

theorem ciOpen_none (hs : m.k.ciShut = false) (hn : m.k.ciState ≠ 1 ∨ m.k.hub.txn = none) :
    m.ciOpen f = m.onChip (fun k => k.ciEnd (CiResult.of 0x01) 0) := by
  rw [Mach.ciOpen, if_neg (Bool.eq_false_iff.mp hs)]
  split
  · next t ht => exact if_neg (hn.resolve_right (by simp [ht]))
  · rfl

end Open

/-- A turn that changes the chip alone, and no bank unit. -/
theorem turned_onChip {s : State} (f : Chip → Chip) (hb : (f s.k).bus = s.k.bus) : turned s ((machOf s).onChip f) = withK s (f s.k) :=
  turned_sameBanks (m := (machOf s).onChip f) hb

theorem withM_onChip (s : State) (f : Chip → Chip) : withM s ((machOf s).onChip f) = withK s (f s.k) := rfl

theorem exec_stage_shut {s : State} (h : live s true) (hs : s.k.ciShut = true) (v : List Bool) (p : Bool) :
    exec (.stage v p) s = .next (withK s s.k.ciIgnore) := by
  rw [exec_stage h, Mach.stage, ciOpen_shut (machOf s) _ hs]
  exact congrArg _ (turned_onChip Chip.ciIgnore rfl)

theorem exec_commit_shut {s : State} (h : live s true) (hs : s.k.ciShut = true) (f : Bool) :
    exec (.commit f) s = .next (withK s s.k.ciIgnore) := by
  rw [exec_commit h, Mach.commitImage, ciOpen_shut (machOf s) _ hs, withM_onChip]

theorem exec_stage_none {s : State} (h : live s true) (hs : s.k.ciShut = false) (hn : s.k.ciState ≠ 1 ∨ s.k.hub.txn = none) (v : List Bool)
    (p : Bool) :
    exec (.stage v p) s = .next (withK s (s.k.ciEnd (CiResult.of 0x01) 0)) := by
  rw [exec_stage h, Mach.stage, ciOpen_none (machOf s) _ hs hn]
  exact congrArg _ (turned_onChip (fun k => k.ciEnd (CiResult.of 0x01) 0) (ciEnd_bus _ _ _))

theorem exec_commit_none {s : State} (h : live s true) (hs : s.k.ciShut = false) (hn : s.k.ciState ≠ 1 ∨ s.k.hub.txn = none) (f : Bool) :
    exec (.commit f) s = .next (withK s (s.k.ciEnd (CiResult.of 0x01) 0)) := by
  rw [exec_commit h, Mach.commitImage, ciOpen_none (machOf s) _ hs hn, withM_onChip]

theorem ciShut_false {k : Chip} (h : k.ciShut = false) : k.serving = true ∧ k.getF Reg.rindStatus 1 0 ≠ 3 ∧ k.ciState < 2 := by
  simpa [Chip.ciShut, and_assoc] using h

/-- The chip with its transaction dropped. -/
def dropped (k : Chip) : Chip := k.onHub (fun h => { h with txn := none, drain := [] })

section Rollback

variable {k : Chip} (hs : k.serving = true) (ht : k.getF Reg.rindStatus 1 0 ≠ 3)

include hs ht

theorem rollback_idle (h0 : k.ciState = 0) : k.rollback = k.ciEnd (CiResult.of 0x01) 0 := by
  unfold Chip.rollback
  rw [if_neg (by simp [hs, ht, h0]), h0]
  rfl

theorem rollback_open (h1 : k.ciState = 1) : k.rollback = (dropped k).ciEnd ciOk 0 := by
  unfold Chip.rollback
  rw [if_neg (by simp [hs, ht, h1]), h1]
  rfl

theorem rollback_committing (h2 : k.ciState = 2) : k.rollback = ((dropped k).ciEnd (CiResult.of 0x13) 0).releaseRind.feedHub := by
  unfold Chip.rollback
  rw [if_neg (by simp [hs, ht, h2]), h2]
  rfl

end Rollback

/-! ### STAGE and COMMIT of an open transaction -/

/-- What a STAGE leaves of the image's reading: its error, or the transaction with the image's sections. -/
def staged (m : Mach) : CiResult ⊕ Txn → Mach
  | .inl e => m.onChip (fun k => k.ciEnd e 1)
  | .inr t => m.onChip (fun k => (k.onHub (fun h => { h with txn := some t })).ciEnd ciOk 1)

/-- The chip as a COMMIT begins: COMMITTING, its transaction with the COMMIT's FORCE. -/
def committing (k : Chip) (t : Txn) (force : Bool) : Chip := (k.onHub (fun h => { h with txn := some { t with force := force } })).ciTo 2 0

/-- What a COMMIT leaves, by what validation says. -/
def validated (p : Part) (k : Chip) (t : Txn) : Option CiResult → Chip
  | some e => k.refuseCommit e
  | none => k.admission p t

section Txn

variable {s : State} {t : Txn} (hs : s.k.ciShut = false) (h1 : s.k.ciState = 1) (ht : s.k.hub.txn = some t)

include hs h1 ht

theorem stage_open (verdicts : List Bool) (patch : Bool) {r : List Byte × Mach}
    (hr : Mach.windowRun s.part.vats (s.k.getF Reg.ciStageLen 31 0 / 1024 + 2) (machOf s) (s.k.getF Reg.ciStageAddr 36 0)
      (s.k.getF Reg.ciStageLen 31 0) = r) :
    (machOf s).stage s.part verdicts patch = staged r.2 (t.stage s.part r.2.k r.1 verdicts patch) := by
  subst hr
  rw [Mach.stage, ciOpen_open (machOf s) _ hs h1 ht]
  rfl

theorem commitImage_open (force : Bool) :
    (machOf s).commitImage s.part force = (machOf s).onChip (fun k => validated s.part (committing k t force) { t with force := force }
      (checkOf s.part (committing k t force) { t with force := force }).validate) := by
  rw [Mach.commitImage, ciOpen_open (machOf s) _ hs h1 ht]
  rfl

end Txn

/-! ### The quiet point -/

section Drain

variable {m : Mach} {p : Part}

theorem draining_part {x : Check} (h : m.draining p = some x) : x.part = p := by
  unfold Mach.draining at h
  split at h
  · split at h
    · cases h
      rfl
    · cases h
  · cases h

theorem quietIn_awake {x : Check} (hd : m.draining p = some x) (hshape : x.t.shape = m.k.shape p.vats)
    (hup : ∀ v ∈ x.touches, (m.k.vat v).power = .awake ∨ (m.k.vat v).lost = true) : m.quietIn x = m.beginApply x := by
  have hnone : x.touches.filter (fun v => (m.k.vat v).power ≠ .awake && !(m.k.vat v).lost) = [] :=
    List.filter_eq_nil_iff.mpr (fun v hv => by rcases hup v hv with ha | hl <;> simp [*])
  have hsame : ¬ x.t.shape ≠ m.k.shape x.part.vats := by rw [draining_part hd, not_not, hshape]
  unfold Mach.quietIn
  rw [hnone]
  exact if_neg hsame

end Drain

section Turns

variable {s : State} (h : live s true)

include h

theorem exec_quietPoint_some {x : Check} (hd : (machOf s).draining s.part = some x) :
    exec .quietPoint s = .next (turned s (if x.quiet then (machOf s).quietIn x else machOf s)) := by
  change execQuietPoint s = _
  rw [execQuietPoint, onTurn_live _ h, hd]

theorem exec_quietPoint_none (hd : (machOf s).draining s.part = none) : exec .quietPoint s = .next s := by
  change execQuietPoint s = _
  rw [execQuietPoint, onTurn_live _ h, hd]
  exact congrArg _ (turned_self s)

theorem exec_quietTimeout_none (hd : (machOf s).draining s.part = none) : exec .quietTimeout s = .next s := by
  change execQuietTimeout s = _
  rw [execQuietTimeout, onTurn_live _ h, hd]
  exact congrArg _ (turned_self s)

/-- The part with the streams and bank units of the cores that a COMMIT switches stopped. -/
def forced (m : Mach) (x : Check) : Mach :=
  m.onChip (fun k => x.t.switched.foldl (fun k c => (k.stopStreams (c / 4) (c % 4)).stopBanks (c / 4) (c % 4)) k)

theorem exec_quietTimeout_some {x : Check} (hd : (machOf s).draining s.part = some x)
    (hlate : x.t.since + 1000 * s.k.getF Reg.ciQuietTimeout 15 0 ≤ s.k.now) :
    exec .quietTimeout s = .next (turned s (if x.t.force then (forced (machOf s) x).quietIn x
      else (machOf s).onChip (fun k => k.refuseCommit { CiResult.of 0x12 with need := (x.t.switched.map k.jobsAt).sum }))) := by
  change execQuietTimeout s = _
  rw [execQuietTimeout, onTurn_live _ h, hd]
  exact congrArg (fun m => Host.Outcome.next (turned s m)) (if_neg (Nat.not_lt.mpr hlate))

theorem exec_applyCycle_some {t : Txn} (ht : s.k.hub.txn = some t) (h3 : s.k.ciState = 3) :
    exec .applyCycle s = .next (turned s (((((machOf s).onChip (fun k => (k.putInForce (checkOf s.part k t)).endTxn.noteWaits)).throughRecords
      s.part.vats s.k).deferredReset s.part))) := by
  change execApplyCycle s = _
  rw [execApplyCycle, onTurn_live _ h]
  have ht' : (machOf s).k.hub.txn = some t := ht
  rw [ht']
  exact congrArg (fun m => Host.Outcome.next (turned s m)) (if_neg (not_not.mpr h3))

theorem exec_applyCycle_early (h3 : s.k.ciState ≠ 3) : exec .applyCycle s = .next s := by
  change execApplyCycle s = _
  rw [execApplyCycle, onTurn_live _ h]
  refine next_turned_self rfl ?_
  split
  · rfl
  · exact if_pos h3

end Turns

/-- Settles O43: each operation by the state that CI_STATE shows; an operation that ends adds nothing to a bank's queue, so it never waits. -/
theorem transactionsRun : Obligations.TransactionsRun := by
  unfold Obligations.TransactionsRun
  refine ⟨fun s h => ?_, fun s h => ?_⟩
  · dsimp only
    refine ⟨fun hs => ⟨?_, fun v p => ?_, fun f => ?_⟩, fun hs => ?_, fun t hs h1 ht => ⟨fun v p => ?_,
      fun f => ⟨fun e he => ?_, fun he => ?_⟩⟩, fun hs ht h2 => ?_⟩
    · rw [exec_begin h, Chip.begin, if_pos hs]
    · exact exec_stage_shut h hs v p
    · exact exec_commit_shut h hs f
    · obtain ⟨hserve, hwhole, hlow⟩ := ciShut_false hs
      refine ⟨fun h0 => ?_, fun h0 => ?_, fun hn => ⟨fun v p => ?_, fun f => ?_⟩, fun h0 => ?_, fun h1 => ?_⟩
      · rw [exec_begin h, Chip.begin, if_neg (Bool.eq_false_iff.mp hs), if_pos h0]
      · rw [exec_begin h, Chip.begin, if_neg (Bool.eq_false_iff.mp hs), if_neg h0]
      · exact exec_stage_none h hs hn v p
      · exact exec_commit_none h hs hn f
      · rw [exec_rollback h, rollback_idle hserve hwhole h0]
      · rw [exec_rollback h, rollback_open hserve hwhole h1]
        rfl
    · generalize hr : Mach.windowRun _ _ _ _ _ = r
      have hrun := (exec_stage h v p).trans (congrArg (fun m => Host.Outcome.next (turned s m)) (stage_open hs h1 ht v p hr))
      exact ⟨fun e he => hrun.trans (by rw [he]; rfl), fun t' ht' => hrun.trans (by rw [ht']; rfl)⟩
    · rw [exec_commit h, commitImage_open hs h1 ht, withM_onChip]
      exact congrArg (fun r => Host.Outcome.next (withK s (validated s.part (committing s.k t f) { t with force := f } r))) he
    · rw [exec_commit h, commitImage_open hs h1 ht, withM_onChip]
      exact congrArg (fun r => Host.Outcome.next (withK s (validated s.part (committing s.k t f) { t with force := f } r))) he
    · rw [exec_rollback h, rollback_committing hs ht h2]
      rfl
  · dsimp only
    refine ⟨fun x hd hq => ?_, fun x hd hq => ?_, fun x hd hshape hup => quietIn_awake hd hshape hup, fun x hd hlate => ⟨fun hf => ?_, fun hf => ?_⟩,
      fun hd => ⟨exec_quietPoint_none h hd, exec_quietTimeout_none h hd⟩, fun t ht h3 => exec_applyCycle_some h ht h3, exec_applyCycle_early h⟩
    · rw [exec_quietPoint_some h hd, if_pos hq]
    · rw [exec_quietPoint_some h hd, if_neg (Bool.eq_false_iff.mp hq), turned_self]
    · rw [exec_quietTimeout_some h hd hlate, if_neg (Bool.eq_false_iff.mp hf)]
      exact congrArg _ (turned_onChip (fun k => k.refuseCommit { CiResult.of 0x12 with need := (x.t.switched.map k.jobsAt).sum })
        (refuseCommit_bus _ _))
    · rw [exec_quietTimeout_some h hd hlate, if_pos hf]
      rfl

end Sys2Proof.Proofs

end

section
/-!
PROOFS. A job's way through the hub, and the completion records (O46).
-/

namespace Sys2Proof.Proofs

open Sys2Proof.Machine Sys2Proof.Safety Sys2Proof.Laws

/-! ### The walk of a job's directory -/

/-- What a walk leaves whose job's context is to be made. -/
def walkMade (t : Nat) (j : Job) : Made → Mach
  | .ok i m => m.onChip (fun k => (k.bindJob t i true).releaseFound)
  | .refused st m => m.onChip (fun k => (k.refuseJob t st).releaseFound)
  | .wait h m => m.onChip (fun k => k.setJob t { j with evicts := some h })

/-- What a walk leaves that has read its buckets, `w`, by the context that it found. -/
def walkFound (V t : Nat) (j : Job) (w : Mach) : Option (Nat × Ctx) → Mach
  | some (i, c) => w.onChip (fun k => ((k.hotTouch i c).foundCtx t i c).releaseFound)
  | none =>
    if j.kind = 2 ∨ !j.mayCreate then w.onChip (fun k => (k.refuseJob t 0x20).releaseFound)
    else walkMade t j (w.create V j.domain j.model j.cls j.key j.evicts)

/-- The buckets of a job's key, read. -/
def walkRead (V : Nat) (m : Mach) (j : Job) : Mach :=
  (m.readBucket V (bucketsOf V (m.k.hashOf j.domain j.model j.key)).1).readBucket V (bucketsOf V (m.k.hashOf j.domain j.model j.key)).2

/-- An older walk of the same key is under way. -/
def olderWalk (k : Chip) (j : Job) : Bool :=
  k.hub.jobs.any (fun x => x.2.phase = .walking && x.2.order < j.order && x.2.domain = j.domain && x.2.model = j.model && x.2.key = j.key)

theorem exec_directoryWalkDone {s : State} (h : live s true) {t : Nat} {j : Job} (hj : s.k.job t = some j) (hp : j.phase = .walking)
    (ho : olderWalk s.k j = false) {w : Mach} (hw : walkRead s.part.vats (machOf s) j = w) :
    exec (.directoryWalkDone t) s = .next (turned s (walkFound s.part.vats t j w (w.k.lookupKey j.order j.domain j.model j.key))) := by
  subst hw
  change execDirectoryWalkDone t s = _
  have hj' : (machOf s).k.job t = some j := hj
  rw [execDirectoryWalkDone, onTurn_live _ h, hj']
  have hgo : ¬ (j.phase ≠ .walking ∨ olderWalk s.k j = true) := by simp [hp, ho]
  exact congrArg (fun m => Host.Outcome.next (turned s m)) (if_neg hgo)

/-- The walk's clause: by the context found, and where none is by what making one comes to. -/
theorem walk_ends {s : State} (h : live s true) {t : Nat} {j : Job} {w : Mach} (hw : walkRead s.part.vats (machOf s) j = w)
    {found : Option (Nat × Ctx)} (hfound : w.k.lookupKey j.order j.domain j.model j.key = found)
    (hj : s.k.job t = some j) (hp : j.phase = .walking) (ho : olderWalk s.k j = false) :
    (∀ i cx, found = some (i, cx) →
      exec (.directoryWalkDone t) s = .next (turned s (w.onChip (fun k => ((k.hotTouch i cx).foundCtx t i cx).releaseFound)))) ∧
    (found = none → (j.kind = 2 ∨ j.mayCreate = false) →
      exec (.directoryWalkDone t) s = .next (turned s (w.onChip (fun k => (k.refuseJob t 0x20).releaseFound)))) ∧
    (found = none → j.kind ≠ 2 → j.mayCreate = true →
      (∀ i m', w.create s.part.vats j.domain j.model j.cls j.key j.evicts = .ok i m' →
        exec (.directoryWalkDone t) s = .next (turned s (m'.onChip (fun k => (k.bindJob t i true).releaseFound)))) ∧
      (∀ st m', w.create s.part.vats j.domain j.model j.cls j.key j.evicts = .refused st m' →
        exec (.directoryWalkDone t) s = .next (turned s (m'.onChip (fun k => (k.refuseJob t st).releaseFound)))) ∧
      (∀ h m', w.create s.part.vats j.domain j.model j.cls j.key j.evicts = .wait h m' →
        exec (.directoryWalkDone t) s = .next (turned s (m'.onChip (fun k => k.setJob t { j with evicts := some h }))))) := by
  have hrun := exec_directoryWalkDone h hj hp ho hw
  rw [hfound] at hrun
  refine ⟨fun i cx hf => ?_, fun hf hno => ?_, fun hf hk hc => ?_⟩
  · rw [hrun, hf]
    rfl
  · rw [hrun, hf, walkFound, if_pos (by simpa using hno)]
  · have hmay : ¬ (j.kind = 2 ∨ (!j.mayCreate) = true) := by simp [hk, hc]
    rw [hf, walkFound, if_neg hmay] at hrun
    refine ⟨fun i m' hm => ?_, fun st m' hm => ?_, fun hd m' hm => ?_⟩ <;>
    · rw [hrun, hm]
      rfl

/-! ### The job that a core is handed -/

/-- What a dispatch leaves once room has been sought: the entry in the core's hoop, or the job refused. -/
def handed (v c t : Nat) (j : Job) (i : Nat) (pc : PoolCore) : Mach × Ctx × Option (List PageRec) → Mach
  | (m, _, none) => m.onChip (fun k => (k.count Reg.ctxRefused 1).refuseJob t 0x24)
  | (m, cx, some ps) =>
    let big := 8 < j.tokens.length
    let addr := if big then (pc.token + 64 * Config.tokenSlot t) % 2 ^ 37 else 0
    let m := if big then m.hubWrite v addr (j.tokens.flatMap (leBytes 2)) else m
    m.onChip (fun k => ((k.setJob t { j with phase := .sent (4 * v + c), ahead := ps }).setCtx i { cx with sample := none }).landEntry v c pc.jobHoop
      { data := j.entry t cx ((j.tokens.length + cx.tailCount - 1) / 32) addr, last := true, fence := false, poison := false, src := 5 })

/-- A job may go to core `c` of vat `v`: the core is in a pool, runs and is not drained, the job is not late, and its hoop and pages have room. -/
structure MayDispatch (k : Chip) (v c t : Nat) (j : Job) (i : Nat) (cx : Ctx) (pc : PoolCore) (md : Model) : Prop where
  serving : k.serving = true
  settled : k.releaseFound.serveSpilled = k
  next : k.nextJob v c = some (t, j)
  ctx : k.jobCtx j = some (i, cx)
  core : k.poolCore v c = some pc
  model : k.model cx.model = some md
  whole : k.coreRetired v c = false
  kept : k.hub.drain.contains (4 * v + c) = false
  runs : k.vatRuns v = true
  timely : k.now ≤ j.deadline ∨ j.drop = false
  hoop : k.hubFull v c pc.jobHoop = false
  pages : k.roomWaits i cx md j.tokens.length = false

theorem exec_jobDispatch {s : State} {v c : Nat} (h : live s (s.hasCore v c)) {t : Nat} {j : Job} {i : Nat} {cx : Ctx} {pc : PoolCore} {md : Model}
    (hd : MayDispatch s.k v c t j i cx pc md) :
    exec (.jobDispatch v c) s = .next (turned s (handed v c t j i pc ((machOf s).makeRoom s.part.vats i cx md j.tokens.length))) := by
  change execJobDispatch v c s = _
  rw [execJobDispatch, onTurn_live _ h]
  dsimp only
  have hsame : (machOf s).onChip (fun k => k.releaseFound.serveSpilled) = machOf s := congrArg (fun k => ({ machOf s with k := k } : Mach)) hd.settled
  have hserve : (machOf s).k.serving = true := hd.serving
  rw [hsame, if_neg (by simp [hserve])]
  have hnext : (machOf s).k.nextJob v c = some (t, j) := hd.next
  have hctx : (machOf s).k.jobCtx j = some (i, cx) := hd.ctx
  have hcore : (machOf s).k.poolCore v c = some pc := hd.core
  have hmodel : (machOf s).k.model cx.model = some md := hd.model
  have hwhole : ¬ (machOf s).k.coreRetired v c = true := Bool.eq_false_iff.mp hd.whole
  have hkept : ¬ ((machOf s).k.hub.drain.contains (4 * v + c) = true ∨ (!(machOf s).k.vatRuns v) = true) := by
    have h1 : (machOf s).k.hub.drain.contains (4 * v + c) = false := hd.kept
    have h2 : (machOf s).k.vatRuns v = true := hd.runs
    rw [h1, h2]
    decide
  have htimely : ¬ (j.deadline < (machOf s).k.now ∧ j.drop = true) := by
    rcases hd.timely with hl | hl
    · exact fun hc => absurd hc.1 (Nat.not_lt.mpr hl)
    · simp [hl]
  have hroom : ¬ ((machOf s).k.hubFull v c pc.jobHoop = true ∨ (machOf s).k.roomWaits i cx md j.tokens.length = true) := by
    have h1 : (machOf s).k.hubFull v c pc.jobHoop = false := hd.hoop
    have h2 : (machOf s).k.roomWaits i cx md j.tokens.length = false := hd.pages
    rw [h1, h2]
    decide
  rw [hnext]
  dsimp only
  rw [hctx, hcore]
  dsimp only
  rw [hmodel]
  dsimp only
  rw [if_neg hwhole, if_neg hkept, if_neg htimely, if_neg hroom]
  generalize (machOf s).makeRoom s.part.vats i cx md j.tokens.length = r
  obtain ⟨m, cx', ps⟩ := r
  cases ps <;> rfl

/-! ### The result that a core gives -/

/-- The machine with the entry at the head of a result hoop taken. -/
def resultTaken (s : State) (v c h : Nat) (rest : List Entry) : Mach :=
  (machOf s).onChip (fun k => (k.setHoop v c h (({ s.k.hoop v c h with head := rest } : Hoop).poppedBy k.now 5)).settleHoop v c h)

section Result

variable {s : State} {v c : Nat} (h : live s (s.hasCore v c)) {pc : PoolCore} {e : Entry} {rest : List Entry}
  (hpc : s.k.poolCore v c = some pc) (hhead : s.k.headOf v c pc.resultHoop = e :: rest) (hpo : e.poison = false)

/-- What a result entry leaves that carries job `x`'s tag. -/
def resultOf (V : Nat) (m took : Mach) (v c tag : Nat) (bs : List Byte) (x : Job) : Mach :=
  if recField bs 0 1 ≠ 0x11 ∨ x.handle ≠ recField bs 4 8 ∨ x.phase ≠ .sent (4 * v + c) then took.onChip (fun k => k.logCore 0x15 v c tag)
  else match x.settled, recField bs 1 2 with
    | some st, _ => took.failJob V tag st
    | none, 0 =>
      match m.k.jobCtx x with
      | none => took.failJob V tag 0x33
      | some (i, cx) =>
        match m.k.model cx.model with
        | none => took.failJob V tag 0x32
        | some md =>
          if m.k.commitWaits i cx md x.tokens.length then m
          else (took.commit V i cx md x.tokens.length).onChip (fun k =>
            let k := if x.closes then k.onHub (fun hb =>
              { hb with closes := hb.closes ++ [{ handle := x.handle, order := hb.accepted, tag := none }] }) else k
            (k.endJob tag { status := 0, verdict := recField bs 8 16, tokens := x.tokens.length, closed := x.closes }).feedHub)
    | none, 1 => took.failJob V tag 0x31
    | none, _ => took.failJob V tag 0x32

include h hpc hhead hpo

theorem exec_resultEntry_stray (hj : s.k.job (recField (entryBytes e.data) 2 4) = none) :
    exec (.resultEntry v c) s = .next (turned s ((resultTaken s v c pc.resultHoop rest).onChip
      (fun k => k.logCore 0x15 v c (recField (entryBytes e.data) 2 4)))) := by
  change execResultEntry v c s = _
  rw [execResultEntry, onTurn_live _ h]
  have hpc' : (machOf s).k.poolCore v c = some pc := hpc
  have hhead' : (machOf s).k.headOf v c pc.resultHoop = e :: rest := hhead
  have hj' : (machOf s).k.job (recField (entryBytes e.data) 2 4) = none := hj
  dsimp only
  rw [hpc']
  dsimp only
  rw [hhead']
  dsimp only
  rw [if_neg (Bool.eq_false_iff.mp hpo), hj']
  rfl

theorem exec_resultEntry {x : Job} (hj : s.k.job (recField (entryBytes e.data) 2 4) = some x) :
    exec (.resultEntry v c) s = .next (turned s (resultOf s.part.vats (machOf s) (resultTaken s v c pc.resultHoop rest) v c
      (recField (entryBytes e.data) 2 4) (entryBytes e.data) x)) := by
  change execResultEntry v c s = _
  rw [execResultEntry, onTurn_live _ h]
  have hpc' : (machOf s).k.poolCore v c = some pc := hpc
  have hhead' : (machOf s).k.headOf v c pc.resultHoop = e :: rest := hhead
  have hj' : (machOf s).k.job (recField (entryBytes e.data) 2 4) = some x := hj
  dsimp only
  rw [hpc']
  dsimp only
  rw [hhead']
  dsimp only
  rw [if_neg (Bool.eq_false_iff.mp hpo), hj']
  rfl

end Result

section ResultOf

variable {V v c tag : Nat} {m took : Mach} {bs : List Byte} {x : Job}
  (hmark : recField bs 0 1 = 0x11) (hhandle : x.handle = recField bs 4 8) (hphase : x.phase = .sent (4 * v + c))

include hmark hhandle hphase

theorem resultOf_settled {st : Nat} (hs : x.settled = some st) : resultOf V m took v c tag bs x = took.failJob V tag st := by
  rw [resultOf, if_neg (by simp [hmark, hhandle, hphase]), hs]

theorem resultOf_failed (hs : x.settled = none) (hst : recField bs 1 2 = 1) : resultOf V m took v c tag bs x = took.failJob V tag 0x31 := by
  rw [resultOf, if_neg (by simp [hmark, hhandle, hphase]), hs, hst]
  rfl

/-- The chip with a job ended OK, and its context's close asked for where the job closes it. -/
def endedOk (k : Chip) (tag : Nat) (bs : List Byte) (x : Job) : Chip :=
  let k := if x.closes then k.onHub (fun hb => { hb with closes := hb.closes ++ [{ handle := x.handle, order := hb.accepted, tag := none }] }) else k
  (k.endJob tag { status := 0, verdict := recField bs 8 16, tokens := x.tokens.length, closed := x.closes }).feedHub

theorem resultOf_ok {i : Nat} {cx : Ctx} {md : Model} (hs : x.settled = none) (hst : recField bs 1 2 = 0) (hctx : m.k.jobCtx x = some (i, cx))
    (hmd : m.k.model cx.model = some md) (hw : m.k.commitWaits i cx md x.tokens.length = false) :
    resultOf V m took v c tag bs x = (took.commit V i cx md x.tokens.length).onChip (fun k => endedOk k tag bs x) := by
  rw [resultOf, if_neg (by simp [hmark, hhandle, hphase]), hs, hst, hctx]
  dsimp only
  rw [hmd]
  dsimp only
  rw [if_neg (Bool.eq_false_iff.mp hw)]
  rfl

end ResultOf

/-! ### Closes -/

section Closes

variable {s : State} (h : live s true) {i : Nat} {x : Ctx} (hx : s.k.ctx i = some x)

include h hx

theorem exec_contextClose {y : Close} (hy : s.k.firstClose (x.handle i) = some y) (hb : s.k.jobBefore y.order i x = false) :
    exec (.contextClose i) s = .next (turned s ((machOf s).runClose s.part.vats i x y.tag)) := by
  change execContextClose i s = _
  have hx' : (machOf s).k.ctx i = some x := hx
  have hy' : (machOf s).k.firstClose (x.handle i) = some y := hy
  rw [execContextClose, onTurn_live _ h, hx']
  dsimp only
  rw [hy']
  exact congrArg (fun m => Host.Outcome.next (turned s m)) (if_neg (Bool.eq_false_iff.mp hb))

theorem exec_idleClose (hl : x.state = .live) (hms : s.k.getF (Reg.classIdle x.cls) 31 0 ≠ 0)
    (hlate : s.k.getF (Reg.classIdle x.cls) 31 0 * 10 ^ 6 < s.k.now - x.lastActive) (hj : s.k.hasJob i x = false)
    (hc : s.k.closePending (x.handle i) = false) :
    exec (.idleClose i) s = .next (turned s ((machOf s).runClose s.part.vats i x none)) := by
  change execIdleClose i s = _
  have hx' : (machOf s).k.ctx i = some x := hx
  have hgo : ¬ (x.state ≠ .live ∨ s.k.getF (Reg.classIdle x.cls) 31 0 = 0 ∨ s.k.now - x.lastActive ≤ s.k.getF (Reg.classIdle x.cls) 31 0 * 10 ^ 6 ∨
      s.k.hasJob i x = true ∨ s.k.closePending (x.handle i) = true) := by
    simp only [not_or]
    exact ⟨not_not.mpr hl, hms, Nat.not_le.mpr hlate, Bool.eq_false_iff.mp hj, Bool.eq_false_iff.mp hc⟩
  rw [execIdleClose, onTurn_live _ h, hx']
  exact congrArg (fun m => Host.Outcome.next (turned s m)) (if_neg hgo)

end Closes

/-! ### Completion records -/

section Records

variable {s : State} {c : Nat} (h : live s (c < 16))

/-- The record at the front of a ring's waiting jobs may go: the part serves, the ring is on, has room, and its block, host-cached, a decoder. -/
structure RecordReady (k : Chip) (c t : Nat) (rest : List Nat) (j : Job) (o : Outcome) : Prop where
  front : (k.vring c).waiting = t :: rest
  job : k.job t = some j
  ended : j.outcome = some o
  serving : k.serving = true
  on : k.flag (Reg.vringCfg c) 31 = true
  room : k.vringFull c = false
  mapped : k.vringCached c = true → k.decoderOn 0 = true

/-- The line of the host's memory that a ring's next record lies in. -/
def recordLine (k : Chip) (c : Nat) : Nat := (lookup 0 k.hub.decoders 0 + k.vringNext c) / 64

/-- The machine with a record's line snooped. -/
def recordSnooped (m : Mach) (c : Nat) : Mach :=
  m.onChip (fun k => ((k.setVring c { m.k.vring c with snoop := some (recordLine m.k c, k.now, false) }).snoopLine (recordLine m.k c)).noteWait c)

/-- The machine with a record written at VRING_WI, which moves on. -/
def recordWritten (m : Mach) (V c t : Nat) (rest : List Nat) (j : Job) (o : Outcome) : Mach :=
  let k := m.k
  let a := k.vringNext c
  let phase := k.getF (Reg.vringWi c) 16 16
  let wi := k.getF (Reg.vringWi c) 15 0
  let m := m.hubWrite (interleaved V a).1 (interleaved V a).2 (j.record t phase k.now o)
  m.onChip (fun k' =>
    let k1 := (k'.countJob j o).setVring c { k.vring c with waiting := rest, snoop := none }
    let next := (wi + 1) % k1.vringSize c
    let k2 := k1.setF (Reg.vringWi c) 15 0 next
    let k3 := if next = 0 then k2.setF (Reg.vringWi c) 16 16 (1 - phase) else k2
    (((k3.freeTag t).event c).coalesce c).noteWait c)

/-- What comes of a record that may go, by the snoop of its line. -/
def recordGoes (m : Mach) (V c t : Nat) (rest : List Nat) (j : Job) (o : Outcome) : Mach :=
  let snooped := (m.k.vring c).snoop.filter (fun x => x.1 = recordLine m.k c)
  if m.k.vringCached c ∧ m.k.flag Reg.hostLinkStatus 8 ∧ !(snooped.any (fun x => x.2.2)) then
    if snooped.isSome then m.onChip (fun k => k.noteWait c) else recordSnooped m c
  else recordWritten m V c t rest j o

include h

theorem exec_completionRecordWrite {t : Nat} {rest : List Nat} {j : Job} {o : Outcome} (hr : RecordReady s.k c t rest j o) :
    exec (.completionRecordWrite c) s = .next (turned s (recordGoes (machOf s) s.part.vats c t rest j o)) := by
  change execCompletionRecordWrite c s = _
  have hfront : ((machOf s).k.vring c).waiting = t :: rest := hr.front
  have hjob : (machOf s).k.job t = some j := hr.job
  have hgo : ¬ ((!(machOf s).k.serving) = true ∨ (!(machOf s).k.flag (Reg.vringCfg c) 31) = true) := by
    have h1 : (machOf s).k.serving = true := hr.serving
    have h2 : (machOf s).k.flag (Reg.vringCfg c) 31 = true := hr.on
    rw [h1, h2]
    decide
  have hroom : ¬ ((machOf s).k.vringFull c = true ∨ ((machOf s).k.vringCached c = true ∧ (!(machOf s).k.decoderOn 0) = true)) := by
    have h1 : (machOf s).k.vringFull c = false := hr.room
    have h2 : (machOf s).k.vringCached c = true → (machOf s).k.decoderOn 0 = true := hr.mapped
    rw [h1]
    simpa using h2
  rw [execCompletionRecordWrite, onTurn_live _ h]
  dsimp only
  rw [hfront]
  dsimp only
  rw [hjob]
  dsimp only
  rw [hr.ended, if_neg hgo, if_neg hroom, ← hfront, Option.getD_some]
  generalize machOf s = m
  rfl

omit h

theorem recordGoes_written {m : Mach} {V c t : Nat} {rest : List Nat} {j : Job} {o : Outcome}
    (hs : m.k.vringCached c = false ∨ m.k.flag Reg.hostLinkStatus 8 = false ∨ ∃ at_, (m.k.vring c).snoop = some (recordLine m.k c, at_, true)) :
    recordGoes m V c t rest j o = recordWritten m V c t rest j o := by
  refine if_neg fun hc => ?_
  obtain ⟨hcached, hbi, hnone⟩ := hc
  rcases hs with hs | hs | ⟨at_, hs⟩
  · rw [hs] at hcached; cases hcached
  · rw [hs] at hbi; cases hbi
  · rw [hs] at hnone; simp at hnone

theorem recordGoes_snooped {m : Mach} {V c t : Nat} {rest : List Nat} {j : Job} {o : Outcome} (hcached : m.k.vringCached c = true)
    (hbi : m.k.flag Reg.hostLinkStatus 8 = true) (hnone : (m.k.vring c).snoop.filter (fun x => x.1 = recordLine m.k c) = none) :
    recordGoes m V c t rest j o = recordSnooped m c := by
  unfold recordGoes
  dsimp only
  rw [hnone]
  exact (if_pos ⟨hcached, hbi, rfl⟩).trans (if_neg Bool.false_ne_true)

theorem noteWait_bus (k : Chip) (c : Nat) : (k.noteWait c).bus = k.bus := by
  unfold Chip.noteWait
  split <;> rfl

theorem snoopLine_bus (k : Chip) (line : Nat) : (k.snoopLine line).bus = k.bus := count_bus _ _ _

theorem recordSnooped_bus (m : Mach) (c : Nat) : (recordSnooped m c).k.bus = m.k.bus :=
  (noteWait_bus _ c).trans ((snoopLine_bus _ _).trans rfl)

end Records

/-! ### Snoops and the coalescing timer -/

/-- A ring's record with its snoop of `line` answered. -/
def snoopAnswered (line : Nat) (r : VRing) : VRing := match r.snoop with
  | some (l, at_, _) => if l = line then { r with snoop := some (l, at_, true) } else r
  | none => r

theorem snoopAnswered_idem (line : Nat) (r : VRing) : snoopAnswered line (snoopAnswered line r) = snoopAnswered line r := by
  cases hs : r.snoop with
  | none => simp [snoopAnswered, hs]
  | some x =>
    obtain ⟨l, at_, ok⟩ := x
    by_cases hl : l = line <;> simp [snoopAnswered, hs, hl]

/-- One ring of a snoop's answer. -/
def answerRing (line : Nat) (k : Chip) (c : Nat) : Chip := match (k.vring c).snoop with
  | some (l, at_, _) => if l = line then k.setVring c { k.vring c with snoop := some (l, at_, true) } else k
  | none => k

section Answers

variable (line : Nat)

theorem answerRing_hubOnly (k : Chip) (c : Nat) : hubOnly k (answerRing line k c) := by
  unfold answerRing
  split
  · split <;> exact ⟨rfl, rfl, rfl, rfl, rfl⟩
  · exact ⟨rfl, rfl, rfl, rfl, rfl⟩

theorem vring_answerRing_same (k : Chip) (c : Nat) : (answerRing line k c).vring c = snoopAnswered line (k.vring c) := by
  unfold answerRing snoopAnswered
  split
  · split
    · exact vring_setVring_same _ _ _
    · rfl
  · rfl

theorem vring_answerRing_other (k : Chip) {c d : Nat} (h : d ≠ c) : (answerRing line k c).vring d = k.vring d := by
  unfold answerRing
  split
  · split
    · exact lookup_insert_other _ _ _ _ _ h
    · rfl
  · rfl

theorem vring_answerRings (l : List Nat) (k : Chip) (c : Nat) :
    (l.foldl (answerRing line) k).vring c = if c ∈ l then snoopAnswered line (k.vring c) else k.vring c := by
  induction l generalizing k with
  | nil => rfl
  | cons d l ih =>
    rw [List.foldl_cons, ih]
    by_cases hd : c = d
    · subst hd
      rw [vring_answerRing_same, snoopAnswered_idem]
      simp
    · rw [vring_answerRing_other line k hd]
      simp [hd]

theorem answerRings_hubOnly (l : List Nat) (k : Chip) : hubOnly k (l.foldl (answerRing line) k) :=
  foldl_keeps (hubOnly k) (answerRing line) l k ⟨rfl, rfl, rfl, rfl, rfl⟩ (fun _ c ha => by
    obtain ⟨hr, hc, hd, hb, hv⟩ := ha
    obtain ⟨hr', hc', hd', hb', hv'⟩ := answerRing_hubOnly line _ c
    exact ⟨hr'.trans hr, hc'.trans hc, hd'.trans hd, hb'.trans hb, hv'.trans hv⟩)

end Answers

theorem exec_biResponse {s : State} (h : live s true) (line : Nat) :
    exec (.biResponse line) s = .next (withK s ((List.range 16).foldl (answerRing line) s.k)) := by
  change execBiResponse line s = _
  rw [execBiResponse, onChip_live _ h]
  rfl

theorem exec_biTimeout {s : State} {c : Nat} (h : live s (c < 16)) {l at_ : Nat} (hsn : (s.k.vring c).snoop = some (l, at_, false))
    (hlate : at_ + 100000 ≤ s.k.now) (hup : s.k.getF Reg.hostLinkStatus 2 0 ≠ 0) :
    exec (.biTimeout c) s = .next (withK s (((s.k.setVring c { s.k.vring c with snoop := some (l, s.k.now,
    false) }).logPlain 0x17 c).snoopLine l)) := by
  change execBiTimeout c s = _
  rw [execBiTimeout, onChip_live _ h]
  dsimp only
  have hgo : ¬ (s.k.now < at_ + 100000 ∨ s.k.getF Reg.hostLinkStatus 2 0 = 0) := by
    rintro (hc | hc)
    · exact absurd hlate (Nat.not_le.mpr hc)
    · exact hup hc
  rw [hsn]
  exact congrArg (fun k => Host.Outcome.next (withK s k)) (if_neg hgo)

theorem exec_verdictCoalesceTimer {s : State} {c : Nat} (h : live s (c < 16)) (hsince : (s.k.vring c).since ≠ 0)
    (hn : s.k.getF (Reg.vringCfg c) 15 8 ≠ 0) (hlate : (s.k.vring c).firstAt + 1000 * s.k.getF (Reg.vringCfg c) 27 16 ≤ s.k.now) :
    exec (.verdictCoalesceTimer c) s = .next (withK s ((s.k.setVring c { s.k.vring c with since := 0 }).msixSend c)) := by
  change execVerdictCoalesceTimer c s = _
  have hgo : ¬ ((s.k.vring c).since = 0 ∨ s.k.getF (Reg.vringCfg c) 15 8 = 0 ∨
      s.k.now < (s.k.vring c).firstAt + 1000 * s.k.getF (Reg.vringCfg c) 27 16) := by
    simp only [not_or]
    exact ⟨hsince, hn, Nat.not_lt.mpr hlate⟩
  rw [execVerdictCoalesceTimer, onChip_live _ h]
  exact congrArg (fun k => Host.Outcome.next (withK s k)) (if_neg hgo)

/-! ### The clauses -/

section Clauses

variable {s : State} {c : Nat}

/-- A record's way, where it may go. -/
theorem record_ends (h : live s (c < 16)) {t : Nat} {rest : List Nat} {j : Job} {o : Outcome} (hr : RecordReady s.k c t rest j o) :
    ((s.k.vringCached c = false ∨ s.k.flag Reg.hostLinkStatus 8 = false ∨ ∃ at_, (s.k.vring c).snoop = some (recordLine s.k c, at_, true)) →
      exec (.completionRecordWrite c) s = .next (turned s (recordWritten (machOf s) s.part.vats c t rest j o))) ∧
    (s.k.vringCached c = true → s.k.flag Reg.hostLinkStatus 8 = true → (s.k.vring c).snoop.filter (fun x => x.1 = recordLine s.k c) = none →
      exec (.completionRecordWrite c) s = .next (withM s (recordSnooped (machOf s) c))) := by
  have hrun := exec_completionRecordWrite h hr
  refine ⟨fun hs => ?_, fun hcached hbi hnone => ?_⟩
  · rw [hrun, recordGoes_written (m := machOf s) hs]
  · rw [hrun, recordGoes_snooped (m := machOf s) hcached hbi hnone, turned_sameBanks (recordSnooped_bus (machOf s) c)]

/-- A snoop's answer, at the ring that waits for it. -/
theorem answer_ends (h : live s (c < 16)) {l at_ : Nat} {ok : Bool} (hsn : (s.k.vring c).snoop = some (l, at_, ok)) :
    ∃ k', exec (.biResponse l) s = .next (withK s k') ∧ k'.vring c = { s.k.vring c with snoop := some (l, at_, true) } ∧ hubOnly s.k k' := by
  have hc : c ∈ List.range 16 := List.mem_range.mpr (of_decide_eq_true h.1)
  refine ⟨_, exec_biResponse ⟨rfl, h.2⟩ l, ?_, answerRings_hubOnly l _ _⟩
  rw [vring_answerRings, if_pos hc]
  simp [snoopAnswered, hsn]

end Clauses

/-- Settles O46: each command by what it finds, through the lemma that says what it comes to there. -/
theorem jobsAndVerdictsRun : Obligations.JobsAndVerdictsRun := by
  unfold Obligations.JobsAndVerdictsRun
  refine ⟨fun s v c t j h => ?_, fun s c h => ?_⟩
  · dsimp only
    refine ⟨fun hj hp ho => walk_ends ⟨rfl, h.2⟩ rfl rfl hj hp ho, fun i cx pc md hserve hsettled hnext hctx hcore hmodel hwhole hkept hruns htimely
      hhoop hpages => ?_, fun pc e rest hpc hhead hpo => ⟨fun hj => exec_resultEntry_stray h hpc hhead hpo hj, fun x hj hmark hhandle hphase => ?_⟩⟩
    · have hrun := exec_jobDispatch h ⟨hserve, hsettled, hnext, hctx, hcore, hmodel, hwhole, hkept, hruns, htimely, hhoop, hpages⟩
      exact ⟨fun m' cx' ps hroom => hrun.trans (by rw [hroom]; rfl), fun m' cx' hroom => hrun.trans (by rw [hroom]; rfl)⟩
    · have hrun := exec_resultEntry h hpc hhead hpo hj
      refine ⟨fun st hst => ?_, fun hst hbad => ?_, fun i cx md hst hok hctx hmd hw => ?_⟩
      · rw [hrun, resultOf_settled hmark hhandle hphase hst]
        rfl
      · rw [hrun, resultOf_failed hmark hhandle hphase hst hbad]
        rfl
      · rw [hrun, resultOf_ok (m := machOf s) hmark hhandle hphase hst hok hctx hmd hw]
        rfl
  · dsimp only
    refine ⟨fun i x hx => ⟨fun y hy hb => exec_contextClose ⟨rfl, h.2⟩ hx hy hb, fun hl hms hlate hj hc => exec_idleClose ⟨rfl,
      h.2⟩ hx hl hms hlate hj hc⟩,
      fun t rest j o hfront hjob hended hserve hon hroom hmapped => ?_, fun l at_ hsn hlate hup => exec_biTimeout h hsn hlate hup,
      fun l at_ ok hsn => answer_ends h hsn, fun hsince hn hlate => exec_verdictCoalesceTimer h hsince hn hlate⟩
    obtain ⟨hwritten, hsnooped⟩ := record_ends h ⟨hfront, hjob, hended, hserve, hon, hroom, hmapped⟩
    exact ⟨fun hs => hwritten hs, fun hcached hbi hnone => hsnooped hcached hbi hnone⟩

end Sys2Proof.Proofs

end

section
/-!
PROOFS. Affinage jobs that end, comparisons, and contexts that move (O47).
-/

namespace Sys2Proof.Proofs

open Sys2Proof.Machine Sys2Proof.Safety Sys2Proof.Laws

/-! ### A controller's count -/

theorem calAct_kept (k : Chip) (model cls : Nat) (tighten : Bool) : (k.calAct model cls tighten).hub = k.hub ∧ unitsKept k (k.calAct model cls tighten) := by
  unfold Chip.calAct
  exact ⟨rfl, rfl, rfl, rfl, rfl⟩

section Count

variable (k : Chip) (model cls : Nat) (above : Bool)

/-- The chip with a controller's count. -/
def calPut (k : Chip) (key : Nat) (x : CalCount) : Chip := k.onHub (fun h => { h with cal := Machine.insert h.cal key x })

/-- A controller's count, as it reads. -/
def calAt (k : Chip) (key : Nat) : CalCount := lookup { n := 0, e := 0 } k.hub.cal key

theorem calAt_calPut_same (key : Nat) (x : CalCount) : calAt (calPut k key x) key = x := lookup_insert_same _ _ _ _

theorem calAt_calPut_other {key other : Nat} (x : CalCount) (h : other ≠ key) : calAt (calPut k key x) other = calAt k other :=
  lookup_insert_other _ _ _ _ _ h

theorem calPut_unitsKept (key : Nat) (x : CalCount) : unitsKept k (calPut k key x) := ⟨rfl, rfl, rfl, rfl⟩

/-- The count with one comparison more. -/
def calNext (k : Chip) (key : Nat) (above : Bool) : CalCount :=
  { n := (calAt k key).n + 1, e := (calAt k key).e + (if above then 1 else 0) }

theorem calCount_below (h : (calAt k (calKey model cls)).n + 1 < 16 * k.getF (Reg.calCfg model) 23 16) :
    k.calCount model cls above = calPut k (calKey model cls) (calNext k (calKey model cls) above) := if_pos h

/-- What a controller does whose count, `x`, has reached CAL_N sixteenfold. -/
def calActed (k : Chip) (model cls : Nat) (x : CalCount) : Chip :=
  if x.n < x.e * 2 ^ k.getF (Reg.calCfg model) 27 24 then k.calAct model cls true
  else if x.e * 2 ^ k.getF (Reg.calCfg model) 31 28 < x.n then k.calAct model cls false
  else k

theorem calActed_kept (x : CalCount) : (calActed k model cls x).hub = k.hub ∧ unitsKept k (calActed k model cls x) := by
  unfold calActed
  split
  · exact calAct_kept _ _ _ _
  · split
    · exact calAct_kept _ _ _ _
    · exact ⟨rfl, rfl, rfl, rfl, rfl⟩

theorem calCount_full (h : 16 * k.getF (Reg.calCfg model) 23 16 ≤ (calAt k (calKey model cls)).n + 1) :
    k.calCount model cls above = calActed (calPut k (calKey model cls) { n := 0, e := 0 }) model cls (calNext k (calKey model cls) above) :=
  if_neg (Nat.not_lt.mpr h)

theorem calAt_congr {k k' : Chip} (h : k'.hub = k.hub) (key : Nat) : calAt k' key = calAt k key := by
  rw [calAt, calAt, h]

/-- A comparison counts for its own class of its model alone. -/
theorem calAt_calCount_other {other : Nat} (ho : other ≠ calKey model cls) : calAt (k.calCount model cls above) other = calAt k other := by
  rcases Nat.lt_or_ge ((calAt k (calKey model cls)).n + 1) (16 * k.getF (Reg.calCfg model) 23 16) with hn | hn
  · rw [calCount_below k model cls above hn]
    exact calAt_calPut_other k _ ho
  · rw [calCount_full k model cls above hn, calAt_congr (calActed_kept _ model cls _).1]
    exact calAt_calPut_other k _ ho

theorem calCount_unitsKept : unitsKept k (k.calCount model cls above) := by
  rcases Nat.lt_or_ge ((calAt k (calKey model cls)).n + 1) (16 * k.getF (Reg.calCfg model) 23 16) with hn | hn
  · rw [calCount_below k model cls above hn]
    exact calPut_unitsKept k _ _
  · rw [calCount_full k model cls above hn]
    exact unitsKept_trans (calPut_unitsKept k _ _) (calActed_kept _ model cls _).2

/-- A count that reaches CAL_N sixteenfold starts afresh. -/
theorem calAt_calCount_full (h : 16 * k.getF (Reg.calCfg model) 23 16 ≤ (calAt k (calKey model cls)).n + 1) :
    calAt (k.calCount model cls above) (calKey model cls) = { n := 0, e := 0 } := by
  rw [calCount_full k model cls above h, calAt_congr (calActed_kept _ model cls _).1]
  exact calAt_calPut_same k _ _

end Count

/-! ### Affinage jobs and comparisons -/

section Commands

variable {s : State} (h : live s true)

include h

theorem exec_affinageJobResult {n : Nat} {j : AffJob} (st : JobStatus) (hj : s.k.hub.affs[n]? = some j) :
    exec (.affinageJobResult n st) s = .next (turned s (((((machOf s).onChip (fun k => k.onHub (fun h =>
      { h with affs := h.affs.eraseIdx n }))).affResult j st).payOwed j.ctx).onChip Chip.feedHub)) := by
  change execAffinageJobResult n st s = _
  have hj' : (machOf s).k.hub.affs[n]? = some j := hj
  rw [execAffinageJobResult, onTurn_live _ h, hj']
  rfl

/-- The comparison `bs` of context `c`, counted. -/
def compared (k : Chip) (c : Ctx) (md : Model) (bs : List Byte) : Chip :=
  if k.calFrozen md then k.freezeCal
  else if recField bs 11 12 ≠ 0 ∨ recField bs 10 11 % 4 = 0 then k
  else k.calCount c.model (recField bs 10 11 % 4)
    (decide (k.getF (Reg.calCfg c.model) 15 0 < recField bs 12 14) || decide (k.getF (Reg.calCfg c.model) 15 0 < recField bs 14 16))

theorem exec_calComparison {record : BitVec 512} {i : Nat} {c : Ctx} {md : Model}
    (hc : s.k.hub.ctxs.find? (fun c => c.2.handle c.1 = recField (entryBytes record) 0 4) = some (i, c)) (hm : s.k.model c.model = some md) :
    exec (.calComparison record) s = .next (withK s (compared (s.k.count (Reg.calRecords c.model) 1) c md (entryBytes record))) := by
  change execCalComparison record s = _
  rw [execCalComparison, onChip_live _ h]
  dsimp only
  rw [hc]
  dsimp only
  rw [hm]
  rfl

/-! ### Migrations -/

/-- The home that a migration of a context finds, by the COMMIT that drains. -/
def homeOf (k : Chip) (staged : Option Check) (c : Ctx) (md : Model) (keep : List PageRec) : Option Home :=
  if staged.any (fun x => x.moves c) then staged.bind (fun x => x.homeFor c md keep)
  else if (c.state = .live || k.dieShut c.vat c.die) && !k.drains c.vat c.die then
    k.findHome md (some (c.vat, c.die)) (fun lay v d rot => if k.drains v d then none else k.placeAll md lay v d rot [] keep)
  else none

/-- A migration begun at a home found. -/
def started (m : Mach) (V i : Nat) (c : Ctx) (md : Model) (keep : List PageRec) : Option Home → Mach
  | some h => if m.k.mayMigrate c then m.startMigration V i c md h keep else m
  | none => m

theorem exec_migrationStart {i : Nat} {c : Ctx} {md : Model} {hm : Home} (hc : s.k.ctx i = some c) (hmd : s.k.model c.model = some md)
    (hmay : s.k.mayMigrate c = true) (hh : homeOf s.k ((machOf s).draining s.part) c md (s.k.keptPages c) = some hm) :
    exec (.migrationStart i) s = .next (turned s ((machOf s).startMigration s.part.vats i c md hm (s.k.keptPages c))) := by
  have hmay' : (machOf s).k.mayMigrate c = true := hmay
  have hgoes : exec (.migrationStart i) s = .next (turned s (started (machOf s) s.part.vats i c md (s.k.keptPages c)
      (homeOf s.k ((machOf s).draining s.part) c md (s.k.keptPages c)))) := by
    change execMigrationStart i s = _
    have hc' : (machOf s).k.ctx i = some c := hc
    have hmd' : (machOf s).k.model c.model = some md := hmd
    rw [execMigrationStart, onTurn_live _ h]
    dsimp only
    rw [hc']
    dsimp only
    rw [hmd']
    rfl
  rw [hgoes, hh, started, if_pos hmay']

/-- What a switch leaves, by what catching up with the context gives. -/
def switched (m : Mach) (V i : Nat) (c : Ctx) (md : Model) (g : Migration) : Option (Mach × List PageRec × List (PageRec × PageRec)) → Mach
  | none => (m.clearSlot g.vat g.die g.slot (List.range 96)).setCtx V i { c with state := c.settledState, migration := none }
  | some (m, pages, pairs) =>
    let m2 := pairs.foldl (fun m x => m.copyPage md c.vat c.die g.vat g.die x.1 x.2) (m.onChip (fun k => k.withdraw i))
    let m3 := ((m2.putIndexes g.vat g.die g.slot pages true).zeroLedger md c.model g.vat g.die g.slot).freePages { c with migration := none }
    m3.setCtx V i { c with
      state := c.settledState, vat := g.vat, die := g.die, slot := g.slot, rot := g.rot, pages := pages, migration := none, shadow := []
      spare := none, shadowOk := false, shadowFirst := (c.tail + 1) % 2 ^ 24, sample := none }

/-- A job of a context has been handed to its core. -/
def handedOut (k : Chip) (c : Ctx) (i : Nat) : Bool :=
  k.hub.jobs.any (fun j => j.2.handle = c.handle i && (match j.2.phase with | .sent _ => true | _ => false))

theorem exec_migrationSwitch {i : Nat} {c : Ctx} {md : Model} {g : Migration} (hc : s.k.ctx i = some c) (hmd : s.k.model c.model = some md)
    (hg : c.migration = some g) (ha : s.k.hub.affs.any (fun j => j.ctx = i && !s.k.jobHeld j) = false) (hj : handedOut s.k c i = false)
    (hb : g.bytes ≤ 32 * (s.k.now - g.since)) :
    exec (.migrationSwitch i) s = .next (turned s (switched (machOf s) s.part.vats i c md g
      ((machOf s).catchUp c md g ((machOf s).narrower s.part g.vat g.die)))) := by
  change execMigrationSwitch i s = _
  have hc' : (machOf s).k.ctx i = some c := hc
  have hmd' : (machOf s).k.model c.model = some md := hmd
  have hgo : ¬ (handedOut s.k c i = true ∨ s.k.hub.affs.any (fun j => j.ctx = i && !s.k.jobHeld j) = true ∨ 32 * (s.k.now - g.since) < g.bytes) := by
    rw [hj, ha]
    simpa using hb
  rw [execMigrationSwitch, onTurn_live _ h, hc']
  dsimp only
  rw [hg, hmd']
  exact congrArg (fun m => Host.Outcome.next (turned s m)) (if_neg hgo)

end Commands

theorem affResult_settled (m : Mach) {j : AffJob} {c : Ctx} (hc : m.k.ctx j.ctx = some c) :
    m.affResult j .done = m.onChip (fun k => k.setCtx j.ctx (c.setPage j.page (if j.kind = 5 then none else some j.made))) ∧
      m.affResult j .stale = m ∧ m.affResult j .range = m := by
  unfold Mach.affResult
  rw [hc]
  exact ⟨rfl, rfl, rfl⟩

/-- Off the rows that a draining COMMIT takes away, a context's home is the one found for it. -/
theorem homeOf_free {k : Chip} {staged : Option Check} {c : Ctx} {md : Model} {keep : List PageRec} {hm : Home}
    (hs : ∀ x, staged = some x → x.moves c = false) (hlive : c.state = .live ∨ k.dieShut c.vat c.die = true) (hd : k.drains c.vat c.die = false)
    (hh : k.findHome md (some (c.vat, c.die)) (fun lay v d rot => if k.drains v d then none else k.placeAll md lay v d rot [] keep) = some hm) :
    homeOf k staged c md keep = some hm := by
  have hnone : ¬ staged.any (fun x => x.moves c) = true := by
    cases staged with
    | none => exact Bool.false_ne_true
    | some x => exact Bool.eq_false_iff.mp (hs x rfl)
  rw [homeOf, if_neg hnone, if_pos (by simpa [hd] using hlive), hh]

theorem homeOf_moved {k : Chip} {x : Check} {c : Ctx} {md : Model} {keep : List PageRec} {hm : Home} (hx : x.moves c = true)
    (hh : x.homeFor c md keep = some hm) : homeOf k (some x) c md keep = some hm := by
  have hany : (some x).any (fun x => x.moves c) = true := hx
  rw [homeOf, if_pos hany]
  exact hh

section Clauses

variable {s : State} (h : live s true)

include h

theorem comparison_ends {rec : BitVec 512} {i : Nat} {c : Ctx} {md : Model}
    (hc : s.k.hub.ctxs.find? (fun c => c.2.handle c.1 = recField (entryBytes rec) 0 4) = some (i, c)) (hm : s.k.model c.model = some md) :
    ((s.k.count (Reg.calRecords c.model) 1).calFrozen md = true →
      exec (.calComparison rec) s = .next (withK s (s.k.count (Reg.calRecords c.model) 1).freezeCal)) ∧
    ((s.k.count (Reg.calRecords c.model) 1).calFrozen md = false → recField (entryBytes rec) 11 12 = 0 → recField (entryBytes rec) 10 11 % 4 ≠ 0 →
      exec (.calComparison rec) s = .next (withK s ((s.k.count (Reg.calRecords c.model) 1).calCount c.model (recField (entryBytes rec) 10 11 % 4)
        (decide ((s.k.count (Reg.calRecords c.model) 1).getF (Reg.calCfg c.model) 15 0 < recField (entryBytes rec) 12 14) ||
          decide ((s.k.count (Reg.calRecords c.model) 1).getF (Reg.calCfg c.model) 15 0 < recField (entryBytes rec) 14 16))))) := by
  refine ⟨fun hf => ?_, fun hf hz hcls => ?_⟩
  · rw [exec_calComparison h hc hm, compared, if_pos hf]
  · rw [exec_calComparison h hc hm, compared, if_neg (Bool.eq_false_iff.mp hf), if_neg (by simp [hz, hcls])]

end Clauses

/-- Settles O47: each command by what it finds; a controller's count is put once, and acting on it leaves the hub as it was. -/
theorem affinageMigrationAndCalibrationRun : Obligations.AffinageMigrationAndCalibrationRun := by
  unfold Obligations.AffinageMigrationAndCalibrationRun
  refine ⟨fun s h => ?_, fun k model cls above => ?_⟩
  · refine ⟨fun n j st hj => exec_affinageJobResult h st hj, fun j c hc => affResult_settled (machOf s) hc,
      fun rec i c md hc hm => comparison_ends h hc hm,
      fun i c md hm hc hmd hmay => ⟨fun hs hlive hd hh => ?_, fun x hx hmv hh => ?_⟩, fun i c md g hc hmd hg ha hj hb => ?_⟩
    · exact exec_migrationStart h hc hmd hmay (homeOf_free hs hlive hd hh)
    · refine exec_migrationStart h hc hmd hmay ?_
      rw [hx]
      exact homeOf_moved hmv hh
    · have hrun := exec_migrationSwitch h hc hmd hg ha hj hb
      refine ⟨fun hn => ?_, fun m1 pages pairs hn => ?_⟩
      · rw [hn] at hrun
        exact hrun
      · rw [hn] at hrun
        exact hrun
  · refine ⟨fun hn => ?_, calAt_calCount_full k model cls above, fun other ho => calAt_calCount_other k model cls above ho,
      calCount_unitsKept k model cls above⟩
    rw [calCount_below k model cls above hn]
    exact ⟨calAt_calPut_same k _ _, rfl⟩

end Sys2Proof.Proofs

end
